-- ==== Sys2Proof/Word.lean ====
section
/-! DEFINITION. The word and byte types, register numbers, sparse maps and the small vocabulary
that instructions, device steps and the state share. -/

namespace Sys2Proof

/-- A scalar register's 64 bits (R62). -/
abbrev Word := BitVec 64
/-- One byte of memory. -/
abbrev Byte := BitVec 8
/-- Scalar register number (R141). -/
abbrev SReg := BitVec 5
/-- Capability register number (R141). -/
abbrev CReg := BitVec 4
/-- Vector name, main, operand and last-result files (R64). -/
abbrev VReg := BitVec 6
/-- Mask register number (R141). -/
abbrev KReg := BitVec 3
/-- Tile register number (R141). -/
abbrev TReg := BitVec 3
/-- Stream register number (R141). -/
abbrev QReg := BitVec 3
/-- A 2,048-bit vector register (R65). -/
abbrev VBits := BitVec 2048
/-- A 512-bit mask register (R65). -/
abbrev KBits := BitVec 512

/-- A hardware context: `slot` 0–3 is a task slot, `slot` 4 the firmware context (R32, R359). -/
structure CtxId where
  die : Nat
  core : Nat
  slot : Nat
deriving DecidableEq, Repr, Inhabited

/-- One number for a core of the package. -/
def coreKey (die core : Nat) : Nat := die * 32 + core
/-- One number for a hardware context. -/
def CtxId.key (c : CtxId) : Nat := coreKey c.die c.core * 8 + c.slot

/-- The FIFO buffers that hold accesses not yet performed at their home (R115, R119). -/
inductive BufId where
  | task (die core slot : Nat)
  | outbound (die : Nat)
  | egress
deriving DecidableEq, Repr

/-- An entry of a buffer, the oldest numbered 0. -/
structure BufEntry where
  buf : BufId
  entry : Nat
deriving DecidableEq, Repr

/-- What returns to a slot: unit `elem` of its oldest load, or with a number beyond them all that are left (R114). -/
structure LoadUnit where
  slot : Nat
  elem : Nat
deriving DecidableEq, Repr

/-- The task of a core that is killed: that of a slot, as killed or at the trap it stands in, or a suspended one with its home
there, by the number of its continuation record (R31, R411). -/
inductive KillTarget where
  | slot (n : Nat) (atTrap : Bool)
  | record (n : Nat)
deriving DecidableEq, Repr

/-- Where a ring command came from and reports to: the host port of its mailbox, its counter, and the partition it names (R417, R441). -/
structure Mail where
  port : Nat
  ctr : Nat
  part : Nat
deriving DecidableEq, Repr

/-- What a request of another package asks of a home on this package; a store brings the tag of each 16-byte granule it touches (R432,
R434). -/
inductive FabricOp where
  | load (bytes : Nat)
  | store (data : List Byte) (tags : List Bool)
  | atomic (op : Nat) (w : Bool) (v v2 : BitVec 64) (returns : Bool)
deriving DecidableEq, Repr

/-- A request of another package and the port it comes in by (R432, R435). -/
structure FabricReq where
  port : Nat
  op : FabricOp
deriving DecidableEq, Repr

/-- The acknowledgement of a request of this package, by its number, and the port it comes in by (R432, R435, R436). -/
structure FabricAck where
  port : Nat
  request : Nat
deriving DecidableEq, Repr

/-- A sparse table: numbered entries in rising order of number. -/
abbrev SMap (α : Type) := List (Nat × α)

namespace SMap

/-- The entry numbered `k`, if there is one. -/
def find? {α : Type} : SMap α → Nat → Option α
  | [], _ => none
  | (j, a) :: t, k => if j = k then some a else find? t k

/-- The entry numbered `k`, or the value every unlisted entry has. -/
def getD {α : Type} (m : SMap α) (k : Nat) (d : α) : α := (m.find? k).getD d

/-- Write the entry numbered `k`. -/
def insert {α : Type} : SMap α → Nat → α → SMap α
  | [], k, a => [(k, a)]
  | (j, b) :: t, k, a =>
    if k < j then (k, a) :: (j, b) :: t
    else if j = k then (k, a) :: t
    else (j, b) :: insert t k a

/-- Remove the entry numbered `k`. -/
def erase {α : Type} (m : SMap α) (k : Nat) : SMap α := m.filter fun p => p.1 ≠ k

/-- Change the entry numbered `k`; an unlisted one starts from `d`. -/
def modify {α : Type} (m : SMap α) (k : Nat) (d : α) (f : α → α) : SMap α :=
  m.insert k (f (m.getD k d))

end SMap

/-- Add a number to a rising list without repeats. -/
def setInsert : List Nat → Nat → List Nat
  | [], k => [k]
  | j :: t, k => if k < j then k :: j :: t else if j = k then j :: t else j :: setInsert t k

/-- Remove a number from a list. -/
def setErase (l : List Nat) (k : Nat) : List Nat := l.filter fun j => j ≠ k

/-- The little-endian number that a list of bytes spells (R4). -/
def leNat : List Byte → Nat
  | [] => 0
  | b :: t => b.toNat + 256 * leNat t

/-- The `n` low bytes of a number, little-endian (R4). -/
def leBytes : Nat → Nat → List Byte
  | 0, _ => []
  | n + 1, x => BitVec.ofNat 8 (x % 256) :: leBytes n (x / 256)

/-- A run of numbers from `a`, `n` long. -/
def upFrom (a n : Nat) : List Nat := (List.range n).map (a + ·)

/-- Bits `hi:lo` of a number (R4). -/
def bitsOf (x hi lo : Nat) : Nat := x / 2 ^ lo % 2 ^ (hi + 1 - lo)

/-- Bit `k` of a number. -/
def bitOf (x k : Nat) : Bool := x / 2 ^ k % 2 = 1

/-- Bytes `off` to `off + n − 1` of a record, as a number (R4). -/
def field (r : List Byte) (off n : Nat) : Nat := leNat ((r.drop off).take n)

/-- Sign-extend the low `n` bits of a number to an integer (R8). -/
def sextInt (x n : Nat) : Int :=
  let y := x % 2 ^ n
  if y < 2 ^ (n - 1) then (y : Int) else (y : Int) - (2 ^ n : Nat)

/-- An integer as a 64-bit word, modulo 2^64 (R156). -/
def wordOfInt (x : Int) : Word := BitVec.ofInt 64 x

/-- A number with one bit set or cleared. -/
def withBit (x k : Nat) (b : Bool) : Nat :=
  if bitOf x k = b then x else if b then x + 2 ^ k else x - 2 ^ k

end Sys2Proof
end

