-- ==== Sys2Proof/Syntax.lean ====
section
/-! DEFINITION. The instructions and device steps of the Lertan L8: one constructor for each row of the
opcode table. Rows with a word hold its fields (R140, R148); rows without one are steps the device, its
firmware, its hosts or its neighbours take, and hold the operands that the step's rule names. -/

namespace Sys2Proof

/-- One instruction or device step. -/
inductive Instr where
  /-- Writes the 64-bit sum of sa and sb to sd. (R157) -/
  | add (d : BitVec 5) (a : BitVec 5) (b : BitVec 5)
  /-- Writes sa minus sb to sd. (R157) -/
  | sub (d : BitVec 5) (a : BitVec 5) (b : BitVec 5)
  /-- Writes the bitwise AND of sa and sb to sd. (R157) -/
  | and (d : BitVec 5) (a : BitVec 5) (b : BitVec 5)
  /-- Writes the bitwise OR of sa and sb to sd. (R157) -/
  | or (d : BitVec 5) (a : BitVec 5) (b : BitVec 5)
  /-- Writes the bitwise XOR of sa and sb to sd. (R157) -/
  | xor (d : BitVec 5) (a : BitVec 5) (b : BitVec 5)
  /-- Writes sa AND NOT sb to sd. (R157) -/
  | andn (d : BitVec 5) (a : BitVec 5) (b : BitVec 5)
  /-- Shifts sa left by sb[5:0], with zeros entering. (R157) -/
  | sll (d : BitVec 5) (a : BitVec 5) (b : BitVec 5)
  /-- Shifts sa right logically by sb[5:0]. (R157) -/
  | srl (d : BitVec 5) (a : BitVec 5) (b : BitVec 5)
  /-- Shifts sa right arithmetically by sb[5:0]. (R157) -/
  | sra (d : BitVec 5) (a : BitVec 5) (b : BitVec 5)
  /-- Rotates sa right by sb[5:0]. (R157) -/
  | ror (d : BitVec 5) (a : BitVec 5) (b : BitVec 5)
  /-- Writes 1 when sa is less than sb, signed, and 0 otherwise. (R157) -/
  | slt (d : BitVec 5) (a : BitVec 5) (b : BitVec 5)
  /-- Writes 1 when sa is less than sb, unsigned, and 0 otherwise. (R157) -/
  | sltu (d : BitVec 5) (a : BitVec 5) (b : BitVec 5)
  /-- Writes the signed minimum of sa and sb. (R157) -/
  | min (d : BitVec 5) (a : BitVec 5) (b : BitVec 5)
  /-- Writes the signed maximum of sa and sb. (R157) -/
  | max (d : BitVec 5) (a : BitVec 5) (b : BitVec 5)
  /-- Writes the unsigned minimum of sa and sb. (R157) -/
  | minu (d : BitVec 5) (a : BitVec 5) (b : BitVec 5)
  /-- Writes the unsigned maximum of sa and sb. (R157) -/
  | maxu (d : BitVec 5) (a : BitVec 5) (b : BitVec 5)
  /-- Writes the low 64 bits of sa times sb. (R157) -/
  | mul (d : BitVec 5) (a : BitVec 5) (b : BitVec 5)
  /-- Writes the high 64 bits of the signed 128-bit product. (R157) -/
  | mulh (d : BitVec 5) (a : BitVec 5) (b : BitVec 5)
  /-- Writes the high 64 bits of the unsigned 128-bit product. (R157) -/
  | mulhu (d : BitVec 5) (a : BitVec 5) (b : BitVec 5)
  /-- Signed division rounding toward zero, with the fixed results of R158 for zero and overflow cases. (R158) -/
  | div (d : BitVec 5) (a : BitVec 5) (b : BitVec 5)
  /-- Unsigned division, all ones for a zero divisor. (R158) -/
  | divu (d : BitVec 5) (a : BitVec 5) (b : BitVec 5)
  /-- Signed remainder with the sign of the dividend. (R158) -/
  | rem (d : BitVec 5) (a : BitVec 5) (b : BitVec 5)
  /-- Unsigned remainder. (R158) -/
  | remu (d : BitVec 5) (a : BitVec 5) (b : BitVec 5)
  /-- Counts the leading zero bits of sa. (R157) -/
  | clz (d : BitVec 5) (a : BitVec 5)
  /-- Counts the trailing zero bits of sa. (R157) -/
  | ctz (d : BitVec 5) (a : BitVec 5)
  /-- Counts the one bits of sa. (R157) -/
  | popc (d : BitVec 5) (a : BitVec 5)
  /-- Adds the sign-extended 12-bit immediate to sa. (R159) -/
  | addi (d : BitVec 5) (a : BitVec 5) (imm : BitVec 12)
  /-- ANDs sa with the zero-extended immediate. (R159) -/
  | andi (d : BitVec 5) (a : BitVec 5) (imm : BitVec 12)
  /-- ORs sa with the zero-extended immediate. (R159) -/
  | ori (d : BitVec 5) (a : BitVec 5) (imm : BitVec 12)
  /-- XORs sa with the zero-extended immediate. (R159) -/
  | xori (d : BitVec 5) (a : BitVec 5) (imm : BitVec 12)
  /-- Shifts sa left by a 6-bit immediate. (R159) -/
  | slli (d : BitVec 5) (a : BitVec 5) (imm : BitVec 6)
  /-- Shifts sa right logically by a 6-bit immediate. (R159) -/
  | srli (d : BitVec 5) (a : BitVec 5) (imm : BitVec 6)
  /-- Shifts sa right arithmetically by a 6-bit immediate. (R159) -/
  | srai (d : BitVec 5) (a : BitVec 5) (imm : BitVec 6)
  /-- Writes 1 when sa is less than the signed immediate. (R159) -/
  | slti (d : BitVec 5) (a : BitVec 5) (imm : BitVec 12)
  /-- Writes 1 when sa is less than the sign-extended immediate read as unsigned. (R159) -/
  | sltiu (d : BitVec 5) (a : BitVec 5) (imm : BitVec 12)
  /-- Loads the sign-extended 21-bit immediate times 4,096. (R160) -/
  | lih (d : BitVec 5) (imm : BitVec 21)
  /-- Writes PC plus a sign-extended word offset. (R160) -/
  | addpc (d : BitVec 5) (imm : BitVec 21)
  /-- Long form that loads a sign-extended 32-bit immediate. (R161) -/
  | liw (d : BitVec 5) (imm : BitVec 32)
  /-- Long form that adds a sign-extended 32-bit immediate to sa. (R161) -/
  | addiw (d a : BitVec 5) (imm : BitVec 32)
  /-- Branches when sa equals sb. (R144) -/
  | beq (a : BitVec 5) (b : BitVec 5) (off : BitVec 13)
  /-- Branches when sa differs from sb. (R144) -/
  | bne (a : BitVec 5) (b : BitVec 5) (off : BitVec 13)
  /-- Branches when sa is less than sb, signed. (R144) -/
  | blt (a : BitVec 5) (b : BitVec 5) (off : BitVec 13)
  /-- Branches when sa is at least sb, signed. (R144) -/
  | bge (a : BitVec 5) (b : BitVec 5) (off : BitVec 13)
  /-- Branches when sa is less than sb, unsigned. (R144) -/
  | bltu (a : BitVec 5) (b : BitVec 5) (off : BitVec 13)
  /-- Branches when sa is at least sb, unsigned. (R144) -/
  | bgeu (a : BitVec 5) (b : BitVec 5) (off : BitVec 13)
  /-- Writes PC plus 4 to sd and jumps by a 21-bit word offset. (R164) -/
  | jal (d : BitVec 5) (off : BitVec 21)
  /-- Checks the target against c15, links and jumps to sa plus the immediate. (R165) -/
  | jalr (d : BitVec 5) (a : BitVec 5) (imm : BitVec 12)
  /-- Loads a sign-extended byte through a capability. (R166) -/
  | ldb (d : BitVec 5) (c : BitVec 4) (imm : BitVec 13)
  /-- Loads a sign-extended halfword. (R166) -/
  | ldh (d : BitVec 5) (c : BitVec 4) (imm : BitVec 13)
  /-- Loads a sign-extended word. (R166) -/
  | ldw (d : BitVec 5) (c : BitVec 4) (imm : BitVec 13)
  /-- Loads a doubleword. (R166) -/
  | ldd (d : BitVec 5) (c : BitVec 4) (imm : BitVec 13)
  /-- Loads a zero-extended byte. (R166) -/
  | ldbu (d : BitVec 5) (c : BitVec 4) (imm : BitVec 13)
  /-- Loads a zero-extended halfword. (R166) -/
  | ldhu (d : BitVec 5) (c : BitVec 4) (imm : BitVec 13)
  /-- Loads a zero-extended word. (R166) -/
  | ldwu (d : BitVec 5) (c : BitVec 4) (imm : BitVec 13)
  /-- Stores the low byte of sd. (R166) -/
  | stb (d : BitVec 5) (c : BitVec 4) (imm : BitVec 13)
  /-- Stores the low halfword of sd. (R166) -/
  | sth (d : BitVec 5) (c : BitVec 4) (imm : BitVec 13)
  /-- Stores the low word of sd. (R166) -/
  | stw (d : BitVec 5) (c : BitVec 4) (imm : BitVec 13)
  /-- Stores the doubleword sd. (R166) -/
  | std (d : BitVec 5) (c : BitVec 4) (imm : BitVec 13)
  /-- Copies a capability with its tag. (R170) -/
  | cmov (d : BitVec 4) (a : BitVec 4)
  /-- Moves a capability's cursor by a scalar, clearing the tag outside the representable region. (R170) -/
  | cinc (d : BitVec 4) (a : BitVec 4) (b : BitVec 5)
  /-- Moves a capability's cursor by an immediate times 16. (R170) -/
  | cinci (d : BitVec 4) (a : BitVec 4) (imm : BitVec 8)
  /-- Sets bounds at the cursor for a length, optionally requiring exact bounds. (R171) -/
  | csetb (d : BitVec 4) (a : BitVec 4) (b : BitVec 5) (e : BitVec 1)
  /-- ANDs the permissions with an immediate mask. (R172) -/
  | candp (d : BitVec 4) (a : BitVec 4) (p : BitVec 8)
  /-- Reads a capability's base. (R173) -/
  | cgetb (a : BitVec 4) (b : BitVec 5)
  /-- Reads a capability's length. (R173) -/
  | cgetl (a : BitVec 4) (b : BitVec 5)
  /-- Reads a capability's cursor. (R173) -/
  | cgetc (a : BitVec 4) (b : BitVec 5)
  /-- Reads permissions, space and exponent. (R173) -/
  | cgetp (a : BitVec 4) (b : BitVec 5)
  /-- Reads a capability's tag. (R173) -/
  | cgett (a : BitVec 4) (b : BitVec 5)
  /-- Loads 16 bytes and a tag into a capability register. (R174) -/
  | cldc (d : BitVec 4) (a : BitVec 4) (imm : BitVec 8)
  /-- Stores a capability with its tag to a 16-byte granule. (R174) -/
  | cstc (d : BitVec 4) (a : BitVec 4) (imm : BitVec 8)
  /-- Blocks until each OUTC class is within its limit, then acquires at core scope. (R255) -/
  | waitc (l : BitVec 5) (sf : BitVec 5) (c : BitVec 5) (t : BitVec 5)
  /-- Atomic add at the home, returning the old value. (R250) -/
  | amoadd (d : BitVec 5) (c : BitVec 4) (b : BitVec 5) (sf : BitVec 3) (r : BitVec 2) (w : BitVec 1)
  /-- Atomic AND returning the old value. (R250) -/
  | amoand (d : BitVec 5) (c : BitVec 4) (b : BitVec 5) (sf : BitVec 3) (r : BitVec 2) (w : BitVec 1)
  /-- Atomic OR returning the old value. (R250) -/
  | amoor (d : BitVec 5) (c : BitVec 4) (b : BitVec 5) (sf : BitVec 3) (r : BitVec 2) (w : BitVec 1)
  /-- Atomic XOR returning the old value. (R250) -/
  | amoxor (d : BitVec 5) (c : BitVec 4) (b : BitVec 5) (sf : BitVec 3) (r : BitVec 2) (w : BitVec 1)
  /-- Atomic signed minimum returning the old value. (R250) -/
  | amomin (d : BitVec 5) (c : BitVec 4) (b : BitVec 5) (sf : BitVec 3) (r : BitVec 2) (w : BitVec 1)
  /-- Atomic signed maximum returning the old value. (R250) -/
  | amomax (d : BitVec 5) (c : BitVec 4) (b : BitVec 5) (sf : BitVec 3) (r : BitVec 2) (w : BitVec 1)
  /-- Atomic unsigned minimum returning the old value. (R250) -/
  | amominu (d : BitVec 5) (c : BitVec 4) (b : BitVec 5) (sf : BitVec 3) (r : BitVec 2) (w : BitVec 1)
  /-- Atomic unsigned maximum returning the old value. (R250) -/
  | amomaxu (d : BitVec 5) (c : BitVec 4) (b : BitVec 5) (sf : BitVec 3) (r : BitVec 2) (w : BitVec 1)
  /-- Atomic swap returning the old value. (R250) -/
  | amoswp (d : BitVec 5) (c : BitVec 4) (b : BitVec 5) (sf : BitVec 3) (r : BitVec 2) (w : BitVec 1)
  /-- Atomic compare with sb and swap in sb+1, returning the old value. (R250) -/
  | amocas (d : BitVec 5) (c : BitVec 4) (b : BitVec 5) (sf : BitVec 3) (r : BitVec 2) (w : BitVec 1)
  /-- Atomic FP32 add rounding RNE, returning the old bits. (R251) -/
  | amofadd (d : BitVec 5) (c : BitVec 4) (b : BitVec 5) (sf : BitVec 3) (r : BitVec 2)
  /-- Atomic FP32 minimum returning the old bits. (R251) -/
  | amofmin (d : BitVec 5) (c : BitVec 4) (b : BitVec 5) (sf : BitVec 3) (r : BitVec 2)
  /-- Atomic FP32 maximum returning the old bits. (R251) -/
  | amofmax (d : BitVec 5) (c : BitVec 4) (b : BitVec 5) (sf : BitVec 3) (r : BitVec 2)
  /-- Atomic paired BF16 add returning the old bits. (R251) -/
  | amobfadd2 (d : BitVec 5) (c : BitVec 4) (b : BitVec 5) (sf : BitVec 3) (r : BitVec 2)
  /-- Non-returning atomic add performed at the home. (R250) -/
  | redadd (c : BitVec 4) (b : BitVec 5) (sf : BitVec 3) (r : BitVec 2) (w : BitVec 1)
  /-- Non-returning atomic AND. (R250) -/
  | redand (c : BitVec 4) (b : BitVec 5) (sf : BitVec 3) (r : BitVec 2) (w : BitVec 1)
  /-- Non-returning atomic OR. (R250) -/
  | redor (c : BitVec 4) (b : BitVec 5) (sf : BitVec 3) (r : BitVec 2) (w : BitVec 1)
  /-- Non-returning atomic XOR. (R250) -/
  | redxor (c : BitVec 4) (b : BitVec 5) (sf : BitVec 3) (r : BitVec 2) (w : BitVec 1)
  /-- Non-returning atomic signed minimum. (R250) -/
  | redmin (c : BitVec 4) (b : BitVec 5) (sf : BitVec 3) (r : BitVec 2) (w : BitVec 1)
  /-- Non-returning atomic signed maximum. (R250) -/
  | redmax (c : BitVec 4) (b : BitVec 5) (sf : BitVec 3) (r : BitVec 2) (w : BitVec 1)
  /-- Non-returning atomic unsigned minimum. (R250) -/
  | redminu (c : BitVec 4) (b : BitVec 5) (sf : BitVec 3) (r : BitVec 2) (w : BitVec 1)
  /-- Non-returning atomic unsigned maximum. (R250) -/
  | redmaxu (c : BitVec 4) (b : BitVec 5) (sf : BitVec 3) (r : BitVec 2) (w : BitVec 1)
  /-- Non-returning atomic FP32 add. (R251) -/
  | redfadd (c : BitVec 4) (b : BitVec 5) (sf : BitVec 3) (r : BitVec 2)
  /-- Non-returning atomic FP32 minimum. (R251) -/
  | redfmin (c : BitVec 4) (b : BitVec 5) (sf : BitVec 3) (r : BitVec 2)
  /-- Non-returning atomic FP32 maximum. (R251) -/
  | redfmax (c : BitVec 4) (b : BitVec 5) (sf : BitVec 3) (r : BitVec 2)
  /-- Non-returning atomic paired BF16 add. (R251) -/
  | redbfadd2 (c : BitVec 4) (b : BitVec 5) (sf : BitVec 3) (r : BitVec 2)
  /-- Orders the task's load and store queues at scope 0. (R120) -/
  | syncq
  /-- Orders older and younger accesses at a scope by the order field. (R128) -/
  | fence (sf : BitVec 3) (r : BitVec 2)
  /-- Blocks until a named launch completes, then acquires its writes at pkg scope. (R257) -/
  | waitvis (a : BitVec 5) (r : BitVec 2)
  /-- Graph-node boundary where a marked task may be pre-empted, else a NOP. (R258) -/
  | node
  /-- Releases and adds an increment to a counter, waking waiters whose threshold it reaches. (R263) -/
  | ctrsig (a : BitVec 5) (b : BitVec 5) (sf : BitVec 3) (r : BitVec 2)
  /-- Blocks until a counter reaches a threshold or is poisoned, then acquires or traps. (R263) -/
  | ctrwait (d : BitVec 5) (a : BitVec 5) (b : BitVec 5) (sf : BitVec 3) (r : BitVec 2)
  /-- Reads a counter with its poison bit and no ordering. (R263) -/
  | ctrrd (d : BitVec 5) (a : BitVec 5)
  /-- Initialises a stage barrier with a count, failing any blocked waiters with BARRIER_STALL. (R265) -/
  | barinit (c : BitVec 4) (b : BitVec 5)
  /-- Arrives at a stage barrier and returns the phase token. (R265) -/
  | bararv (d : BitVec 5) (c : BitVec 4) (sf : BitVec 3) (r : BitVec 2)
  /-- Arrives at a barrier and announces expected bytes. (R265) -/
  | barxb (d : BitVec 5) (c : BitVec 4) (b : BitVec 5) (sf : BitVec 3) (r : BitVec 2)
  /-- Blocks until the barrier's phase differs from the token, then acquires. (R267) -/
  | barwait (c : BitVec 4) (b : BitVec 5) (sf : BitVec 3) (r : BitVec 2)
  /-- Tests without blocking whether the barrier phase has been left. (R267) -/
  | bartest (d : BitVec 5) (c : BitVec 4) (b : BitVec 5) (sf : BitVec 3) (r : BitVec 2)
  /-- Blocks until the slot at the reserve pointer is FREE, then reserves it. (R269) -/
  | chrsv (d : BitVec 5) (a : BitVec 5)
  /-- Releases and marks a reserved channel slot FILLED. (R269) -/
  | chpush (a : BitVec 5) (b : BitVec 5) (r : BitVec 2)
  /-- Blocks until the slot at the take pointer is FILLED, then takes it with acquire. (R270) -/
  | chawait (d : BitVec 5) (a : BitVec 5) (r : BitVec 2)
  /-- Frees a taken channel slot once older loads are performed. (R270) -/
  | chrel (a : BitVec 5) (b : BitVec 5)
  /-- Returns a channel's status word or a slot stamp. (R271) -/
  | chstat (d : BitVec 5) (a : BitVec 5) (b : BitVec 5)
  /-- Submits an operator chain with release and blocks for its start status. (R272) -/
  | launch (d : BitVec 5) (a : BitVec 5) (r : BitVec 2)
  /-- Submits a chain whose tasks become children of the issuer. (R272) -/
  | spawn (d : BitVec 5) (a : BitVec 5) (r : BitVec 2)
  /-- Blocks until every child since the last AWAITCH has ended and reports their outcome. (R273) -/
  | awaitch (d : BitVec 5)
  /-- Enters a constellation id in the lowest free GROUPS slot. (R274) -/
  | gjoin (d : BitVec 5) (a : BitVec 5)
  /-- Leaves a constellation, counting toward an open phase. (R274) -/
  | gleave (d : BitVec 5) (a : BitVec 5)
  /-- Arrives in the constellation's phase and blocks until it completes. (R47) -/
  | gsync (a : BitVec 5) (sf : BitVec 3)
  /-- Frees the lease, drains, settles held channel slots, leaves constellations and ends the task. (R275) -/
  | exit (r : BitVec 2)
  /-- Names a split-phase wait and live mask, writing a continuation record and freeing the slot unless the wait already holds. (R276) -/
  | suspend (k : BitVec 5) (a : BitVec 5) (b : BitVec 5) (sf : BitVec 3) (r : BitVec 2)
  /-- Resets the slot's issue age. (R277) -/
  | yield
  /-- Swaps a HINTOK shadow record into the active bank early. (R41) -/
  | hintnext
  /-- Returns the selected identity word of the task. (R277) -/
  | self (d : BitVec 5) (l : BitVec 5)
  /-- Issues a strided copy command under a copy card. (R284) -/
  | cpy (d : BitVec 4) (a : BitVec 4) (b : BitVec 5)
  /-- Issues a copy released at a given polestar tick. (R291) -/
  | cpyt (d : BitVec 4) (a : BitVec 4) (b : BitVec 5)
  /-- Issues a gathering copy under an index list. (R283) -/
  | cpyg (d : BitVec 4) (a : BitVec 4) (b : BitVec 5)
  /-- Issues a scattering copy under an index list. (R283) -/
  | cpys (d : BitVec 4) (a : BitVec 4) (b : BitVec 5)
  /-- Issues a converting copy, including FP4S and bit-plane sinks. (R283) -/
  | cpyc (d : BitVec 4) (a : BitVec 4) (b : BitVec 5)
  /-- Issues a fill from a scalar pattern. (R283) -/
  | cpyf (d : BitVec 4) (a : BitVec 5) (b : BitVec 5)
  /-- Issues a copy into channel slots that reserves and pushes each slot. (R287) -/
  | cpyb (d : BitVec 5) (a : BitVec 4) (b : BitVec 5)
  /-- Binds a stream register to a read stream under a card. (R293) -/
  | qbind (c : BitVec 4) (q : BitVec 3) (b : BitVec 5)
  /-- Pushes an index into a stream's address queue, checking it. (R294) -/
  | qaddr (q : BitVec 3) (b : BitVec 5)
  /-- Pops the head stream element into a scalar. (R295) -/
  | qpops (d : BitVec 5) (q : BitVec 3)
  /-- Pops the head stream element as a vector result. (R295) -/
  | qpopv (v : BitVec 5) (q : BitVec 3) (w : BitVec 1)
  /-- Reads the head stream element without removing it. (R295) -/
  | qpeek (d : BitVec 5) (q : BitVec 3)
  /-- Returns a stream status snapshot. (R296) -/
  | qstat (d : BitVec 5) (q : BitVec 3)
  /-- Stops a stream, waits for its reads, discards them and unbinds it. (R296) -/
  | qdrain (q : BitVec 3)
  /-- Sets a stream's source and sink format words. (R295) -/
  | qfmt (q : BitVec 3) (b : BitVec 5)
  /-- Requests a matrix-array lease for a run of jobs and blocks until granted. (R241) -/
  | mlease (d : BitVec 5) (a : BitVec 5)
  /-- Waits for the lease's jobs and ends the lease. (R242) -/
  | mfree
  /-- Checks a job card and issues a matrix job under the lease. (R243) -/
  | mjob (d : BitVec 5) (a : BitVec 5) (c : BitVec 4)
  /-- Returns a matrix job's status snapshot. (R244) -/
  | mstat (d : BitVec 5) (a : BitVec 5)
  /-- Waits for all issued jobs and acquires their writes at core scope. (R245) -/
  | mdrain
  /-- Reads an array error-log entry, optionally removing the partition's entries. (R248) -/
  | merrrd (d : BitVec 5) (a : BitVec 5)
  /-- Writes a tile shape, configuring and zeroing the tile. (R225) -/
  | tcfg (d : BitVec 3) (b : BitVec 5)
  /-- Zeros a tile and sets its dirty bit. (R225) -/
  | tzero (d : BitVec 3)
  /-- Loads one tile row from memory. (R226) -/
  | tldrow (d : BitVec 3) (c : BitVec 4) (b : BitVec 5)
  /-- Stores one tile row to memory. (R226) -/
  | tstrow (a : BitVec 3) (c : BitVec 4) (b : BitVec 5)
  /-- Loads a whole tile with a row stride. (R226) -/
  | tld (d : BitVec 3) (c : BitVec 4) (b : BitVec 5)
  /-- Stores a whole tile with a row stride. (R226) -/
  | tst (a : BitVec 3) (c : BitVec 4) (b : BitVec 5)
  /-- Moves a tile row into a vector result. (R227) -/
  | trowv (a : BitVec 3) (v : BitVec 6) (b : BitVec 5)
  /-- Moves a tile column into a vector result. (R227) -/
  | tcolv (a : BitVec 3) (v : BitVec 6) (b : BitVec 5)
  /-- Writes a tile row from a vector. (R227) -/
  | tvrow (d : BitVec 3) (v : BitVec 6) (b : BitVec 5)
  /-- Writes a tile column from a vector. (R227) -/
  | tvcol (d : BitVec 3) (v : BitVec 6) (b : BitVec 5)
  /-- Transposes one tile into another. (R228) -/
  | ttrans (d : BitVec 3) (a : BitVec 3)
  /-- Multiplies ta by the transpose of tb into td on the core datapath. (R229) -/
  | tmma (d : BitVec 3) (a : BitVec 3) (t : BitVec 3)
  /-- Unconfigures a tile and clears its dirty bit. (R225) -/
  | trel (d : BitVec 3)
  /-- Binds or unbinds a transit routine for an (IMAGE, TAG) key, all-or-none across the arc. (R302) -/
  | trbind (d : BitVec 5) (b : BitVec 5)
  /-- Waits for a segment to be PRESENT or HELD on the die and returns a space-7 capability or null at the deadline. (R303) -/
  | trwait (c : BitVec 4) (a : BitVec 5) (b : BitVec 5) (r : BitVec 2)
  /-- Returns a meridian slot snapshot. (R304) -/
  | trinfo (d : BitVec 5) (a : BitVec 5)
  /-- Waits for the task's slot reads, then lowers the slot's OPEN count. (R305) -/
  | trdone
  /-- Takes or releases a hold on a meridian slot. (R306) -/
  | trhold (d : BitVec 5) (a : BitVec 5)
  /-- Moves a READY sequence to SKIP. (R312) -/
  | trskip (d : BitVec 5) (a : BitVec 5)
  /-- Sets a WAITING sequence's next tag, rows and input tag, making it READY when possible. (R311) -/
  | trnext (d : BitVec 5) (a : BitVec 5) (b : BitVec 5)
  /-- Reads the ephemeris prediction for a key. (R307) -/
  | trqry (d : BitVec 5) (a : BitVec 5)
  /-- Declares a run of readiness-tag handles at a scope. (R315) -/
  | tagdecl (d : BitVec 5) (a : BitVec 5) (b : BitVec 5) (sf : BitVec 3)
  /-- Releases and publishes a readiness tag, waking every waiter. (R315) -/
  | tagpub (a : BitVec 5) (r : BitVec 2)
  /-- Blocks until a tag is published, then acquires at its scope. (R315) -/
  | tagwait (a : BitVec 5) (r : BitVec 2)
  /-- Returns a tag's state, scope and generation. (R315) -/
  | tagqry (d : BitVec 5) (a : BitVec 5)
  /-- Retires a tag's generation, freeing the handle and failing its waiters. (R315) -/
  | tagret (a : BitVec 5)
  /-- Issues a collective command under a collective card. (R319) -/
  | coll (b : BitVec 5)
  /-- Commits accepted tokens to a sequence, evaluating watchpoints and applying signals. (R317) -/
  | tkcommit (d : BitVec 5) (b : BitVec 5)
  /-- Sends a token record to the I/O die mailbox. (R320) -/
  | tkput (a : BitVec 5) (b : BitVec 5)
  /-- Arms a watch slot from a record. (R316) -/
  | wpset (d : BitVec 5) (a : BitVec 5) (b : BitVec 5)
  /-- Disarms a watch slot. (R316) -/
  | wpclr (d : BitVec 5) (a : BitVec 5)
  /-- Reads a word of a watch slot. (R316) -/
  | wprd (d : BitVec 5) (a : BitVec 5) (b : BitVec 5)
  /-- SEQST op 0: reads a selected word of a sequence entry. (R310) -/
  | seqst (d : BitVec 5) (a : BitVec 5) (b : BitVec 5)
  /-- Vector floating-point add rounded once in VRM. (R183) -/
  | vfadd (d : BitVec 6) (a : BitVec 6) (b : BitVec 6) (k : BitVec 3) (n : BitVec 1)
  /-- Vector floating-point subtract. (R183) -/
  | vfsub (d : BitVec 6) (a : BitVec 6) (b : BitVec 6) (k : BitVec 3) (n : BitVec 1)
  /-- Vector floating-point multiply. (R183) -/
  | vfmul (d : BitVec 6) (a : BitVec 6) (b : BitVec 6) (k : BitVec 3) (n : BitVec 1)
  /-- Vector fused a × b + d. (R183) -/
  | vfma (d : BitVec 6) (a : BitVec 6) (b : BitVec 6) (k : BitVec 3) (n : BitVec 1)
  /-- Vector fused a × b − d. (R183) -/
  | vfms (d : BitVec 6) (a : BitVec 6) (b : BitVec 6) (k : BitVec 3) (n : BitVec 1)
  /-- Vector fused −(a × b) + d. (R183) -/
  | vfnma (d : BitVec 6) (a : BitVec 6) (b : BitVec 6) (k : BitVec 3) (n : BitVec 1)
  /-- Vector fused −(a × b) − d. (R183) -/
  | vfnms (d : BitVec 6) (a : BitVec 6) (b : BitVec 6) (k : BitVec 3) (n : BitVec 1)
  /-- Vector floating-point minimum. (R184) -/
  | vfmin (d : BitVec 6) (a : BitVec 6) (b : BitVec 6) (k : BitVec 3) (n : BitVec 1)
  /-- Vector floating-point maximum. (R184) -/
  | vfmax (d : BitVec 6) (a : BitVec 6) (b : BitVec 6) (k : BitVec 3) (n : BitVec 1)
  /-- Vector minimum by magnitude. (R184) -/
  | vfminm (d : BitVec 6) (a : BitVec 6) (b : BitVec 6) (k : BitVec 3) (n : BitVec 1)
  /-- Vector maximum by magnitude. (R184) -/
  | vfmaxm (d : BitVec 6) (a : BitVec 6) (b : BitVec 6) (k : BitVec 3) (n : BitVec 1)
  /-- Clears each lane's sign bit. (R183) -/
  | vfabs (d : BitVec 6) (a : BitVec 6) (k : BitVec 3)
  /-- Inverts each lane's sign bit. (R183) -/
  | vfneg (d : BitVec 6) (a : BitVec 6) (k : BitVec 3)
  /-- Takes a's bits with b's sign. (R183) -/
  | vfsgnj (d : BitVec 6) (a : BitVec 6) (b : BitVec 6) (k : BitVec 3)
  /-- Vector floating-point divide. (R183) -/
  | vfdiv (d : BitVec 6) (a : BitVec 6) (b : BitVec 6) (k : BitVec 3) (n : BitVec 1)
  /-- Vector square root. (R183) -/
  | vfsqrt (d : BitVec 6) (a : BitVec 6) (k : BitVec 3) (n : BitVec 1)
  /-- Correctly rounded reciprocal. (R185) -/
  | vfrcp (d : BitVec 6) (a : BitVec 6) (k : BitVec 3) (n : BitVec 1)
  /-- Correctly rounded reciprocal square root. (R185) -/
  | vfrsq (d : BitVec 6) (a : BitVec 6) (k : BitVec 3) (n : BitVec 1)
  /-- Correctly rounded 2 to the power a. (R185) -/
  | vfexp2 (d : BitVec 6) (a : BitVec 6) (k : BitVec 3) (n : BitVec 1)
  /-- Correctly rounded base-2 logarithm. (R185) -/
  | vflog2 (d : BitVec 6) (a : BitVec 6) (k : BitVec 3) (n : BitVec 1)
  /-- Correctly rounded hyperbolic tangent. (R185) -/
  | vftanh (d : BitVec 6) (a : BitVec 6) (k : BitVec 3) (n : BitVec 1)
  /-- Floating-point equal compare into a mask. (R186) -/
  | vfceq (d : BitVec 3) (a : BitVec 6) (b : BitVec 6) (k : BitVec 3) (n : BitVec 1)
  /-- Floating-point not-equal compare into a mask. (R186) -/
  | vfcne (d : BitVec 3) (a : BitVec 6) (b : BitVec 6) (k : BitVec 3) (n : BitVec 1)
  /-- Floating-point less-than compare into a mask. (R186) -/
  | vfclt (d : BitVec 3) (a : BitVec 6) (b : BitVec 6) (k : BitVec 3) (n : BitVec 1)
  /-- Floating-point less-or-equal compare into a mask. (R186) -/
  | vfcle (d : BitVec 3) (a : BitVec 6) (b : BitVec 6) (k : BitVec 3) (n : BitVec 1)
  /-- Unordered compare into a mask. (R186) -/
  | vfcun (d : BitVec 3) (a : BitVec 6) (b : BitVec 6) (k : BitVec 3) (n : BitVec 1)
  /-- Integer equal compare into a mask. (R186) -/
  | vceq (d : BitVec 3) (a : BitVec 6) (b : BitVec 6) (k : BitVec 3)
  /-- Integer not-equal compare into a mask. (R186) -/
  | vcne (d : BitVec 3) (a : BitVec 6) (b : BitVec 6) (k : BitVec 3)
  /-- Signed less-than compare into a mask. (R186) -/
  | vclt (d : BitVec 3) (a : BitVec 6) (b : BitVec 6) (k : BitVec 3)
  /-- Signed less-or-equal compare into a mask. (R186) -/
  | vcle (d : BitVec 3) (a : BitVec 6) (b : BitVec 6) (k : BitVec 3)
  /-- Unsigned less-than compare into a mask. (R186) -/
  | vcltu (d : BitVec 3) (a : BitVec 6) (b : BitVec 6) (k : BitVec 3)
  /-- Unsigned less-or-equal compare into a mask. (R186) -/
  | vcleu (d : BitVec 3) (a : BitVec 6) (b : BitVec 6) (k : BitVec 3)
  /-- Vector integer add, wrapping. (R187) -/
  | vadd (d : BitVec 6) (a : BitVec 6) (b : BitVec 6) (k : BitVec 3)
  /-- Vector integer subtract, wrapping. (R187) -/
  | vsub (d : BitVec 6) (a : BitVec 6) (b : BitVec 6) (k : BitVec 3)
  /-- Vector saturating signed add. (R187) -/
  | vadds (d : BitVec 6) (a : BitVec 6) (b : BitVec 6) (k : BitVec 3)
  /-- Vector saturating signed subtract. (R187) -/
  | vsubs (d : BitVec 6) (a : BitVec 6) (b : BitVec 6) (k : BitVec 3)
  /-- Vector integer multiply, low half. (R187) -/
  | vmul (d : BitVec 6) (a : BitVec 6) (b : BitVec 6) (k : BitVec 3)
  /-- Vector signed multiply, high half. (R187) -/
  | vmulh (d : BitVec 6) (a : BitVec 6) (b : BitVec 6) (k : BitVec 3)
  /-- Vector unsigned multiply, high half. (R187) -/
  | vmulhu (d : BitVec 6) (a : BitVec 6) (b : BitVec 6) (k : BitVec 3)
  /-- Vector signed minimum. (R187) -/
  | vmin (d : BitVec 6) (a : BitVec 6) (b : BitVec 6) (k : BitVec 3)
  /-- Vector signed maximum. (R187) -/
  | vmax (d : BitVec 6) (a : BitVec 6) (b : BitVec 6) (k : BitVec 3)
  /-- Vector unsigned minimum. (R187) -/
  | vminu (d : BitVec 6) (a : BitVec 6) (b : BitVec 6) (k : BitVec 3)
  /-- Vector unsigned maximum. (R187) -/
  | vmaxu (d : BitVec 6) (a : BitVec 6) (b : BitVec 6) (k : BitVec 3)
  /-- Vector integer absolute value modulo 2^w. (R187) -/
  | vabs (d : BitVec 6) (a : BitVec 6) (k : BitVec 3)
  /-- Vector bitwise AND. (R188) -/
  | vand (d : BitVec 6) (a : BitVec 6) (b : BitVec 6) (k : BitVec 3)
  /-- Vector bitwise OR. (R188) -/
  | vor (d : BitVec 6) (a : BitVec 6) (b : BitVec 6) (k : BitVec 3)
  /-- Vector bitwise XOR. (R188) -/
  | vxor (d : BitVec 6) (a : BitVec 6) (b : BitVec 6) (k : BitVec 3)
  /-- Vector a AND NOT b. (R188) -/
  | vandn (d : BitVec 6) (a : BitVec 6) (b : BitVec 6) (k : BitVec 3)
  /-- Vector bitwise NOT. (R188) -/
  | vnot (d : BitVec 6) (a : BitVec 6) (k : BitVec 3)
  /-- Vector shift left by per-lane amount. (R188) -/
  | vsll (d : BitVec 6) (a : BitVec 6) (b : BitVec 6) (k : BitVec 3)
  /-- Vector logical shift right. (R188) -/
  | vsrl (d : BitVec 6) (a : BitVec 6) (b : BitVec 6) (k : BitVec 3)
  /-- Vector arithmetic shift right. (R188) -/
  | vsra (d : BitVec 6) (a : BitVec 6) (b : BitVec 6) (k : BitVec 3)
  /-- Vector per-lane population count. (R188) -/
  | vpopc (d : BitVec 6) (a : BitVec 6) (k : BitVec 3)
  /-- Vector per-lane leading-zero count. (R188) -/
  | vclz (d : BitVec 6) (a : BitVec 6) (k : BitVec 3)
  /-- Converts each element from VTYPE to the target type with VCVT outcomes. (R190) -/
  | vcvt (d : BitVec 6) (a : BitVec 6) (t : BitVec 4) (r : BitVec 2) (k : BitVec 3) (n : BitVec 1)
  /-- Converts each element with saturating outcomes. (R190) -/
  | vcvtsat (d : BitVec 6) (a : BitVec 6) (t : BitVec 4) (r : BitVec 2) (k : BitVec 3) (n : BitVec 1)
  /-- Quantises elements to E2M1 under the scale record in vd. (R194) -/
  | vqfp4 (d : BitVec 6) (a : BitVec 6) (k : BitVec 3) (n : BitVec 1)
  /-- Dequantises E2M1 codes under the scale record in va. (R195) -/
  | vdqfp4 (d : BitVec 6) (a : BitVec 6) (t : BitVec 4) (r : BitVec 2) (k : BitVec 3) (n : BitVec 1)
  /-- Divides by BAND and converts to FP8 saturating. (R196) -/
  | vqfp8 (d : BitVec 6) (a : BitVec 6) (t : BitVec 4) (r : BitVec 2) (k : BitVec 3) (n : BitVec 1)
  /-- Computes E3M5 block scales into the scale record. (R193) -/
  | vblksc (d : BitVec 6) (a : BitVec 6) (k : BitVec 3) (n : BitVec 1)
  /-- Computes BF16 band scales from amax lanes. (R192) -/
  | vbndsc (d : BitVec 6) (a : BitVec 6) (k : BitVec 3) (n : BitVec 1)
  /-- Permutes lanes by an index vector. (R202) -/
  | vperm (d : BitVec 6) (a : BitVec 6) (b : BitVec 6) (k : BitVec 3)
  /-- Slides lanes up by an amount. (R202) -/
  | vslideup (d : BitVec 6) (a : BitVec 6) (b : BitVec 6) (k : BitVec 3)
  /-- Slides lanes down by an amount. (R202) -/
  | vslidedn (d : BitVec 6) (a : BitVec 6) (b : BitVec 6) (k : BitVec 3)
  /-- Interleaves the low halves of va and vb. (R202) -/
  | vziplo (d : BitVec 6) (a : BitVec 6) (b : BitVec 6) (k : BitVec 3)
  /-- Interleaves the high halves of va and vb. (R202) -/
  | vziphi (d : BitVec 6) (a : BitVec 6) (b : BitVec 6) (k : BitVec 3)
  /-- Reverses lane order. (R202) -/
  | vrev (d : BitVec 6) (a : BitVec 6) (k : BitVec 3)
  /-- Compresses selected lanes to the bottom. (R203) -/
  | vcompr (d : BitVec 6) (a : BitVec 6) (k : BitVec 3)
  /-- Expands lanes into selected positions. (R203) -/
  | vexpnd (d : BitVec 6) (a : BitVec 6) (k : BitVec 3)
  /-- Selects va or vb per lane by mask. (R202) -/
  | vsel (d : BitVec 6) (a : BitVec 6) (b : BitVec 6) (k : BitVec 3)
  /-- Sums unmasked lanes by the fixed tree. (R204) -/
  | vrsum (d : BitVec 6) (a : BitVec 6) (k : BitVec 3) (n : BitVec 1)
  /-- Reduces to the maximum value. (R205) -/
  | vrmax (d : BitVec 6) (a : BitVec 6) (k : BitVec 3) (n : BitVec 1)
  /-- Reduces to the minimum value. (R205) -/
  | vrmin (d : BitVec 6) (a : BitVec 6) (k : BitVec 3) (n : BitVec 1)
  /-- Reduces to the maximum value and its lane index. (R205) -/
  | vrmaxi (d : BitVec 6) (a : BitVec 6) (k : BitVec 3) (n : BitVec 1)
  /-- Reduces to the minimum value and its lane index. (R205) -/
  | vrmini (d : BitVec 6) (a : BitVec 6) (k : BitVec 3) (n : BitVec 1)
  /-- Forms an inclusive sequential prefix sum. (R206) -/
  | vscans (d : BitVec 6) (a : BitVec 6) (k : BitVec 3) (n : BitVec 1)
  /-- Bitwise AND of unmasked lanes. (R204) -/
  | vrand (d : BitVec 6) (a : BitVec 6) (k : BitVec 3)
  /-- Bitwise OR of unmasked lanes. (R204) -/
  | vror (d : BitVec 6) (a : BitVec 6) (k : BitVec 3)
  /-- Writes the indices of the top kk unmasked lanes. (R207) -/
  | vtopk (d : BitVec 6) (a : BitVec 6) (b : BitVec 6) (k : BitVec 3) (n : BitVec 1)
  /-- Compresses each group of 16 lanes to N values with a presence mask. (R210) -/
  | vspc (d : BitVec 6) (a : BitVec 6) (n : BitVec 6) (k : BitVec 3)
  /-- Expands N-of-16 groups under presence masks. (R211) -/
  | vspx (d : BitVec 6) (a : BitVec 6) (n : BitVec 6) (k : BitVec 3) (f : BitVec 1)
  /-- Transposes lanes into bit planes. (R212) -/
  | vbpt (d : BitVec 6) (a : BitVec 6)
  /-- Transposes bit planes back into lanes. (R212) -/
  | vbpu (d : BitVec 6) (a : BitVec 6)
  /-- Contiguous vector load. (R217) -/
  | vld (d : BitVec 6) (c : BitVec 4) (b : BitVec 5) (k : BitVec 3)
  /-- Contiguous vector store. (R217) -/
  | vst (d : BitVec 6) (c : BitVec 4) (b : BitVec 5) (k : BitVec 3)
  /-- Strided vector load. (R217) -/
  | vlds (d : BitVec 6) (sf : BitVec 5) (c : BitVec 4) (b : BitVec 5) (k : BitVec 3)
  /-- Strided vector store. (R217) -/
  | vsts (d : BitVec 6) (sf : BitVec 5) (c : BitVec 4) (b : BitVec 5) (k : BitVec 3)
  /-- Gathering vector load by an index vector. (R217) -/
  | vgth (d : BitVec 6) (a : BitVec 6) (c : BitVec 4) (b : BitVec 5) (k : BitVec 3)
  /-- Scattering vector store by an index vector. (R217) -/
  | vsct (d : BitVec 6) (a : BitVec 6) (c : BitVec 4) (b : BitVec 5) (k : BitVec 3)
  /-- Scatter-adds elements atomically at their homes. (R220) -/
  | vsctadd (d : BitVec 6) (a : BitVec 6) (c : BitVec 4) (b : BitVec 5) (k : BitVec 3)
  /-- Broadcast load of one element to every lane. (R217) -/
  | vldb (d : BitVec 6) (c : BitVec 4) (b : BitVec 5) (k : BitVec 3)
  /-- Mask AND. (R213) -/
  | kand (d : BitVec 3) (a : BitVec 3) (b : BitVec 3)
  /-- Mask OR. (R213) -/
  | kor (d : BitVec 3) (a : BitVec 3) (b : BitVec 3)
  /-- Mask XOR. (R213) -/
  | kxor (d : BitVec 3) (a : BitVec 3) (b : BitVec 3)
  /-- Mask NOT. (R213) -/
  | knot (d : BitVec 3) (a : BitVec 3)
  /-- Counts set mask bits below L into a scalar. (R213) -/
  | kpop (d : BitVec 5) (a : BitVec 3)
  /-- Returns the lowest set mask bit below L. (R213) -/
  | kfirst (d : BitVec 5) (a : BitVec 3)
  /-- Sets the low n mask bits from a scalar. (R213) -/
  | kset (d : BitVec 3) (a : BitVec 5)
  /-- Copies a mask register. (R213) -/
  | kmov (d : BitVec 3) (a : BitVec 3)
  /-- Writes VTYPE and optionally VRM. (R179) -/
  | vsett (sf : BitVec 1) (m : BitVec 3) (t : BitVec 4)
  /-- Moves one vector lane to a scalar. (R214) -/
  | vmvs (d : BitVec 5) (a : BitVec 6) (b : BitVec 5)
  /-- Broadcasts a scalar to every unmasked lane. (R214) -/
  | vmve (d : BitVec 6) (a : BitVec 5) (k : BitVec 3)
  /-- Inserts a scalar into one lane. (R214) -/
  | vins (d : BitVec 6) (a : BitVec 5) (b : BitVec 5)
  /-- Writes each unmasked lane's index. (R214) -/
  | vid (d : BitVec 6) (k : BitVec 3)
  /-- Generates counter-based random words from three scalar keys. (R215) -/
  | vrng (d : BitVec 6) (a : BitVec 5) (k : BitVec 3)
  /-- Adds exactly rounded Gumbel noise to logits. (R216) -/
  | vgumb (d : BitVec 6) (a : BitVec 6) (b : BitVec 6) (k : BitVec 3) (n : BitVec 1)
  /-- Waits for older flags and reads VFLG as a vector result. (R197) -/
  | vflgrd (d : BitVec 6)
  /-- Waits for older flags and clears VFLG. (R198) -/
  | vflgclr
  /-- Copies unmasked lanes bit for bit. (R214) -/
  | vmov (d : BitVec 6) (a : BitVec 6) (k : BitVec 3)
  /-- Reads a control register. (R175) -/
  | ctlrd (d : BitVec 5) (r : BitVec 12)
  /-- Writes a control register, with the side effects of that register, returning the old value. (R175) -/
  | ctlwr (d : BitVec 5) (a : BitVec 5) (r : BitVec 12)
  /-- Sets bits of a control register. (R175) -/
  | ctlset (d : BitVec 5) (a : BitVec 5) (r : BitVec 12)
  /-- Clears bits of a control register. (R175) -/
  | ctlclr (d : BitVec 5) (a : BitVec 5) (r : BitVec 12)
  /-- Resumes or leaves a held slot and returns the firmware context from its handler. (R371) -/
  | eret (a : BitVec 5)
  /-- Stops firmware issue until a trap, wake event or deadline. (R372) -/
  | wfi (a : BitVec 5)
  /-- Invalidates translations in a scope and waits for their accesses. (R372) -/
  | tlbinv (a : BitVec 5) (b : BitVec 5) (sf : BitVec 3)
  /-- Saves selected sections of a held slot into a context image. (R375) -/
  | ctxsv (d : BitVec 5) (a : BitVec 5) (c : BitVec 4)
  /-- Loads selected sections of a context image into a slot. (R375) -/
  | ctxld (d : BitVec 5) (a : BitVec 5) (c : BitVec 4)
  /-- Delivers a held slot's quarantine buffer into scratchpad and stream queues. (R372) -/
  | quardr (d : BitVec 5) (a : BitVec 5)
  /-- Records a reason and raises a firmware fault. (R372) -/
  | halt (a : BitVec 5)
  /-- Does nothing. (R176) -/
  | nop
  /-- Traps with TRAP_INSTRUCTION and TVAL from sa. (R176) -/
  | trap (a : BitVec 5)
  /-- Traps with BREAKPOINT. (R176) -/
  | brk
  /-- Orders instruction fetch after the task's stores and acquires. (R177) -/
  | ifence
  /-- Issue of a word that is not an instruction, which traps precisely. (R149) -/
  | illegalInstruction (word : BitVec 64) (long : Bool)
  /-- The firmware context enters its handler for the next pending trap. (R365) -/
  | trapEntry (die core : Nat)
  /-- Firmware marks task slots for pre-emption at their next NODE. (R54) -/
  | pmarkWrite (die core : Nat) (marks : BitVec 4)
  /-- EFQDISP bit 0 = 0 resumes the head engine fault's command and removes the entry. (R373) -/
  | efqResume (die core : Nat)
  /-- EFQDISP bit 0 = 1 ends the faulting command or marks the stream element and removes the entry. (R373) -/
  | efqAbort (die core : Nat)
  /-- SEQCLR with TO = 0 makes a TRAPPED sequence entry STOPPED. (R374) -/
  | seqclrStop (die seq : Nat)
  /-- SEQCLR with TO = 1 makes a TRAPPED sequence entry WAITING with no input tag. (R374) -/
  | seqclrWait (die seq : Nat)
  /-- A home die emits its next segment once the predecessor's last byte has left its transmitter. (R15) -/
  | segmentEmission (ring : Nat)
  /-- At tick T_s the home die of manifest entry 0 emits the first segment. (R419) -/
  | firstEmission (ring : Nat)
  /-- A segment header reaches a die, which claims a meridian slot and starts forwarding. (R23) -/
  | segmentArrival (die seg : Nat)
  /-- Expansion finishes and the header and digest are checked, making the slot PRESENT or RETIRING. (R19) -/
  | expansionCheck (die slot : Nat)
  /-- A segment returning to its origin is digest-checked and discarded. (R18) -/
  | originReturnCheck (seg : Nat)
  /-- The home copy is reread from the canonical image, checked and rewritten, and emission resumes. (R454) -/
  | homeCopyRestore (ring tag : Nat)
  /-- A RETIRING slot becomes EMPTY after 16 ticks. (R20) -/
  | slotRetire (die slot : Nat)
  /-- A slot's slack expires, ending all holds on it. (R21) -/
  | slackExpiry (die slot : Nat)
  /-- The dispatcher places an eligible task in a free slot in placement order. (R387) -/
  | taskPlacement (die : Nat)
  /-- A shadow parameter bank swaps in once the active record has no task on the core or pending on the die. (R39) -/
  | bankSwap (die core pair : Nat)
  /-- A hardware queue fetches an entry and its first record and begins the pre-start check. (R382) -/
  | queueEntryFetch (die hwq : Nat)
  /-- A die's dispatcher reports its pre-start loads and reservations to the ARCFIRST die. (R36) -/
  | prestartReport (chain die : Nat)
  /-- The start-release message lets every die start the chain's tasks. (R36) -/
  | startRelease (chain : Nat)
  /-- A draining kernel completes, signalling DONE and posting its completion entry. (R398) -/
  | kernelComplete (launch : Nat)
  /-- A launch is killed; its tasks end and its engine commands stop. (R384) -/
  | launchKill (launch : Nat)
  /-- A marked task at NODE waits for OUTC zero, saves its state and frees its slot. (R54) -/
  | nodePreemption (die core slot : Nat)
  /-- A suspended task's named wait completes and it becomes PENDING-RESUME. (R52) -/
  | suspendWaitComplete (cont : Nat)
  /-- A task is stopped, saved with its LIVEX extent and quarantine, and its slot freed. (R392) -/
  | forcedEviction (die core slot : Nat)
  /-- An evicted task's extent, image and quarantine are restored on a new core. (R392) -/
  | evictionRestore (saved : Nat)
  /-- After 2^20 ticks a waiting gang holds back lower placements and reserves freed slots. (R388) -/
  | gangReserveTimeout (chain : Nat)
  /-- An uncorrectable core error stops gang members or replays or blocks the core's tasks. (R394) -/
  | coreError (die core : Nat)
  /-- The die's spare core takes over a failed core's number and banks. (R445) -/
  | spareSubstitution (die core : Nat)
  /-- A BARWAIT blocked for the watchdog time takes BARRIER_STALL. (R266) -/
  | barrierWatchdog (die core slot : Nat)
  /-- A copy command's wait field is met and it starts transferring. (R278) -/
  | copyStart (die core slot eng : Nat)
  /-- A copy finishes, writes its record, delivers to its barrier and signals. (R284) -/
  | copyComplete (die core slot eng : Nat)
  /-- A timed copy is released at its tick once its wait is met. (R291) -/
  | cpytRelease (die core eng : Nat)
  /-- The engine reserves the next channel slot for a CPYB piece once one is free. (R287) -/
  | cpybSlotReserve (die core slot eng : Nat)
  /-- The engine issues a queued stream address once a data-queue entry is free, rechecking it. (R294) -/
  | streamReadIssue (die core slot q : Nat)
  /-- A stream element arrives in its data queue, building a panel under a bit-plane sink. (R294) -/
  | streamElementArrival (die core slot q : Nat)
  /-- The array grants the next lease by class and round robin. (R239) -/
  | matrixLeaseGrant (die cluster : Nat)
  /-- A matrix job starts once its predecessor completed and its wait is met. (R236) -/
  | matrixJobStart (die core : Nat)
  /-- A matrix job finishes its passes and epilogue and signals, ending an exhausted lease. (R236) -/
  | matrixJobComplete (die core : Nat)
  /-- A buffered store reaches and is written by its home. (R115) -/
  | storePerformAtHome (at_ : BufEntry)
  /-- A non-local load's value returns to the task. (R116) -/
  | remoteLoadReturn (die core : Nat) (unit : LoadUnit)
  /-- An atomic or reduction element is performed indivisibly at its home's atomic unit. (R250) -/
  | atomicPerformAtHome (at_ : BufEntry)
  /-- The issuing die sends the all-or-none binding decision that each die applies. (R302) -/
  | trbindDecision (die core slot : Nat)
  /-- A member's contribution is read and carried to the group's root. (R438) -/
  | collContribution (die core slot : Nat)
  /-- The root forms the result and delivers it to members or to the reply slot, parking the signal. (R319) -/
  | collDelivery (group : Nat)
  /-- Firmware scans the partition's overflow list at least every 2^16 ticks. (R390) -/
  | spillScan (part : Nat)
  /-- A token frame closes at 254 records or 16,384 ticks and is written to the host ring. (R443) -/
  | tokenFrameClose (part : Nat)
  /-- The host advances the token-stream head register, freeing frame slots. (R443) -/
  | tsHeadWrite (part head : Nat)
  /-- A write to a wake register sets TAIL and PEND when the new tail is in range. (R378) -/
  | doorbell (port offset value : Nat)
  /-- Maps a software queue onto a hardware queue and consumes its latch. (R379) -/
  | map (die hwq part qid addr ctr : Nat)
  /-- Holds the latch, stops fetching, writes HEAD back and frees the hardware queue. (R380) -/
  | unmap (die hwq ctr : Nat)
  /-- Tears down an unmapped software queue and clears its latch. (R379) -/
  | destroy (part qid ctr : Nat)
  /-- Re-reads a partition descriptor on every die. (R410) -/
  | pload (part ctr : Nat)
  /-- Starts moving a 64 KiB page to a new frame, parking walks on it. (R406) -/
  | migrate (part va pa ctr : Nat)
  /-- Once old accesses drain the page is copied, the leaf rewritten and parked walks released. (R406) -/
  | migrateComplete (part va : Nat)
  /-- Changes a partition's cores on a die, evicting tasks from removed cores. (R411) -/
  | coreset (part die mask ctr : Nat)
  /-- Moves a continuation's live extent to another core. (R411) -/
  | movecont (part rec core ctr : Nat)
  /-- Shares a channel descriptor between a producer and a consumer partition. (R413) -/
  | grant (handle prodPart prodBase consPart consBase ctr : Nat)
  /-- Poisons a granted channel descriptor. (R413) -/
  | revoke (handle ctr : Nat)
  /-- Loads a partition's almanac view. (R412) -/
  | almset (part ctr : Nat)
  /-- Makes a descriptor a non-gang channel from a channel record. (R414) -/
  | chcreate (part die desc pa ctr : Nat)
  /-- Frees a non-gang channel's descriptor. (R414) -/
  | chfree (part die desc ctr : Nat)
  /-- Forms a ring from its packages and dies. (R417) -/
  | rform (ring config : Nat) (packages : List Nat) (region : Nat) (mail : Mail)
  /-- Loads and verifies an image's home copies from a manifest. (R418) -/
  | rload (ring image manifest : Nat) (mail : Mail)
  /-- Writes slack limit, PERIOD and ephemeris and schedules the first emission. (R419) -/
  | rstart (ring tick slack : Nat) (mail : Mail)
  /-- Writes a new slack limit for later PRESENT slots. (R421) -/
  | rslack (ring slack : Nat) (mail : Mail)
  /-- Stops every home die emitting. (R417) -/
  | rstop (ring : Nat) (mail : Mail)
  /-- RSTOP completes once every segment in flight has returned home. (R417) -/
  | rstopComplete (ring : Nat)
  /-- Reverses a bypass to rejoin a replacement package at a segment boundary. (R427) -/
  | rjoin (ring package : Nat) (mail : Mail)
  /-- A ring link silent for 17,500 ticks is declared dead and its member bypassed or the ring broken. (R424) -/
  | ringLinkDead (ring position : Nat)
  /-- The upstream I/O die reloads a lost home's segments into the rotation. (R426) -/
  | missingSegmentReload (ring tag : Nat)
  /-- Every 2^24 ticks firmware re-asks the fabric for bypass lanes and rewrites PERIOD. (R425) -/
  | bypassLaneRequest (ring granted : Nat)
  /-- Every 2^16 ticks a package sends a time flit on each live port. (R422) -/
  | timeFlitSend
  /-- A received time flit updates the offset estimate, corrected by slewing. (R422) -/
  | timeFlitReceive (port time delay : Nat)
  /-- A port idle for 1,024 ticks sends a heartbeat flit. (R435) -/
  | heartbeat (port : Nat)
  /-- A port silent for 17,500 ticks declares its link dead and floods an eclipse notice. (R435) -/
  | fabricLinkDead (port : Nat)
  /-- A received eclipse notice is forwarded once and routing and almanac are rebuilt. (R435) -/
  | eclipseNotice (port silent reporter rport kind stamp nseq : Nat)
  /-- Every 2^24 ticks firmware redraws the non-minimal neighbours. (R430) -/
  | routeRedraw (draws : List Nat)
  /-- A REQ transfer arrives at its home and is performed or discarded as a duplicate. (R434) -/
  | fabricRequest (source seqno loc : Nat) (req : FabricReq)
  /-- An RSP transfer returns load data, atomic return or acknowledgement. (R432) -/
  | fabricResponse (ack : FabricAck)
  /-- Defines a collective group and reserves its slots. (R438) -/
  | groupset (port part group : Nat) (members : List Nat)
  /-- Frees a collective group. (R438) -/
  | groupclr (port part group : Nat)
  /-- Moves orphaned or owned partitions to the issuing host. (R442) -/
  | ownerset (port : Nat) (parts : List Nat)
  /-- Gives a partition a token-stream host ring. (R443) -/
  | tsring (port part base count tailAddr : Nat)
  /-- Returns one routing-table entry. (R430) -/
  | readRoutingEntry (port index : Nat)
  /-- A host port link goes down and its partitions become orphaned. (R442) -/
  | pcieLinkDown (port : Nat)
  /-- The patrol scrub corrects or logs a word in its periodic sweep. (R444) -/
  | patrolScrub (word : Nat)
  /-- A host writes its requested power state and frequency. (R446) -/
  | powerRequest (port state freq : Nat)
  /-- The package enters PS2 or PS3 once no slot is READY and engines are idle. (R446) -/
  | powerStateEntry
  /-- The package returns to PS0 after 2^16 ticks from PS2, or by bring-up from PS3. (R446) -/
  | powerStateExit
  /-- A supply sag stretches the die's arithmetic clock for its duration. (R447) -/
  | droopStretch (die ticks : Nat)
  /-- The FREEZE pin or register stops every package clock. (R448) -/
  | freeze
  /-- The Yilpin service cores read out scan state, registers and SRAM to the host. (R448) -/
  | freezeReadout
  /-- Reset starts bring-up in its ordered steps. (R452) -/
  | reset
  /-- The identity key signs a report of measurements and nonce. (R451) -/
  | attestationReport (port : Nat) (nonce : BitVec 384)
  /-- System software or the supervisor kills a single task, which leaves TRAPPED, BLOCKED or PENDING-RESUME for ENDED and leaves its constellations. (R31) -/
  | taskKill (die core : Nat) (target : KillTarget)
  /-- The polestar reaches a blocked TRWAIT's deadline and the instruction completes with a null capability. (R303) -/
  | trwaitDeadline (die core slot : Nat)
  /-- The polestar reaches the deadline of a WFI and firmware issue resumes. (R372) -/
  | wfiDeadline (die core : Nat)
  /-- A booting or replacement package is admitted to the fabric, or a dead link is retrained and both ends readmit each other; routing tables, admission list and REQ slot grants are rewritten. (R435) -/
  | fabricAdmission (package port master : Nat)
  /-- A host port's PCIe link trains up again, after which its host can issue OWNERSET and mailbox commands. (R440) -/
  | pcieLinkUp (port : Nat)
  /-- The host advances a software queue's CHEAD, freeing completion-ring room so that a chain waiting in DRAINING can post and signal DONE. (R385) -/
  | cheadWrite (part qid value : Nat)
  /-- The Yilpin firmware restarts a core's firmware context after a firmware fault, after which traps are delivered again. (R362) -/
  | firmwareContextRestart (die core pc : Nat)
  /-- A flit arrives with a bad CRC and the link replays it. (R432) -/
  | linkLevelReplay (port : Nat)
deriving DecidableEq, Repr

end Sys2Proof
end

