-- ==== Sys2Proof/WellFormed.lean ====
section
/-! DEFINITION. Which instructions are encodable and legal beyond the fields themselves: vector destinations (R64),
scope and order codes (R122, R130, R259, R299), type codes and conversion fields (R143, R146, R179, R189) and the
operand values an encoding rule names illegal. A word whose fields fail a check is illegal (R149). -/

namespace Sys2Proof

/-- A vector destination does not name n1, n2 or n3 (R64). -/
def vdOk (d : VReg) : Bool := d.ult 61
/-- A scope code is not reserved (R122). -/
def scopeOk (s : BitVec 3) : Bool := s.ult 5
/-- An order field that must be rel or ar (R130). -/
def isRel (r : BitVec 2) : Bool := r == 2 || r == 3
/-- An order field that must be acq or ar (R130). -/
def isAcq (r : BitVec 2) : Bool := r == 1 || r == 3
/-- A type code is not reserved (R143). -/
def typeOk (t : BitVec 4) : Bool := t.ult 6 || (8 ≤ t.toNat && t.toNat ≤ 11)

/-- The instruction passes every decode check that its fields alone decide (R149). -/
def Instr.wellFormed : Instr → Bool
  | .amoadd _ _ _ sf _ _ => scopeOk sf
  | .amoand _ _ _ sf _ _ => scopeOk sf
  | .amoor _ _ _ sf _ _ => scopeOk sf
  | .amoxor _ _ _ sf _ _ => scopeOk sf
  | .amomin _ _ _ sf _ _ => scopeOk sf
  | .amomax _ _ _ sf _ _ => scopeOk sf
  | .amominu _ _ _ sf _ _ => scopeOk sf
  | .amomaxu _ _ _ sf _ _ => scopeOk sf
  | .amoswp _ _ _ sf _ _ => scopeOk sf
  | .amocas _ _ b sf _ _ => scopeOk sf && b != 31
  | .amofadd _ _ _ sf _ => scopeOk sf
  | .amofmin _ _ _ sf _ => scopeOk sf
  | .amofmax _ _ _ sf _ => scopeOk sf
  | .amobfadd2 _ _ _ sf _ => scopeOk sf
  | .qpopv v _ w => vdOk (w ++ v)
  | .redadd _ _ sf _ _ => scopeOk sf
  | .redand _ _ sf _ _ => scopeOk sf
  | .redor _ _ sf _ _ => scopeOk sf
  | .redxor _ _ sf _ _ => scopeOk sf
  | .redmin _ _ sf _ _ => scopeOk sf
  | .redmax _ _ sf _ _ => scopeOk sf
  | .redminu _ _ sf _ _ => scopeOk sf
  | .redmaxu _ _ sf _ _ => scopeOk sf
  | .redfadd _ _ sf _ => scopeOk sf
  | .redfmin _ _ sf _ => scopeOk sf
  | .redfmax _ _ sf _ => scopeOk sf
  | .redbfadd2 _ _ sf _ => scopeOk sf
  | .fence sf _ => scopeOk sf
  | .waitvis _ r => isAcq r
  | .ctrsig _ _ sf r => scopeOk sf && isRel r
  | .ctrwait _ _ _ sf r => scopeOk sf && isAcq r
  | .bararv _ _ sf r => scopeOk sf && isRel r
  | .barxb _ _ _ sf r => scopeOk sf && isRel r
  | .barwait _ _ sf r => scopeOk sf && isAcq r
  | .bartest _ _ _ sf _ => scopeOk sf
  | .chpush _ _ r => isRel r
  | .chawait _ _ r => isAcq r
  | .launch _ _ r => isRel r
  | .spawn _ _ r => isRel r
  | .gsync _ sf => scopeOk sf
  | .exit r => isRel r
  | .suspend k _ b sf _ => scopeOk sf && k.ult 6 && !(k == 0 && b == 31) && !(k == 4 && b != 0)
  | .self _ l => l.ult 4
  | .trowv _ v _ => vdOk v
  | .tcolv _ v _ => vdOk v
  | .trwait _ _ _ r => isAcq r
  | .tagdecl _ _ _ sf => scopeOk sf && sf != 0
  | .tagpub _ r => isRel r
  | .tagwait _ r => isAcq r
  | .vfadd d _ _ _ _ => vdOk d
  | .vfsub d _ _ _ _ => vdOk d
  | .vfmul d _ _ _ _ => vdOk d
  | .vfma d _ _ _ _ => vdOk d
  | .vfms d _ _ _ _ => vdOk d
  | .vfnma d _ _ _ _ => vdOk d
  | .vfnms d _ _ _ _ => vdOk d
  | .vfmin d _ _ _ _ => vdOk d
  | .vfmax d _ _ _ _ => vdOk d
  | .vfminm d _ _ _ _ => vdOk d
  | .vfmaxm d _ _ _ _ => vdOk d
  | .vfabs d _ _ => vdOk d
  | .vfneg d _ _ => vdOk d
  | .vfsgnj d _ _ _ => vdOk d
  | .vfdiv d _ _ _ _ => vdOk d
  | .vfsqrt d _ _ _ => vdOk d
  | .vfrcp d _ _ _ => vdOk d
  | .vfrsq d _ _ _ => vdOk d
  | .vfexp2 d _ _ _ => vdOk d
  | .vflog2 d _ _ _ => vdOk d
  | .vftanh d _ _ _ => vdOk d
  | .vadd d _ _ _ => vdOk d
  | .vsub d _ _ _ => vdOk d
  | .vadds d _ _ _ => vdOk d
  | .vsubs d _ _ _ => vdOk d
  | .vmul d _ _ _ => vdOk d
  | .vmulh d _ _ _ => vdOk d
  | .vmulhu d _ _ _ => vdOk d
  | .vmin d _ _ _ => vdOk d
  | .vmax d _ _ _ => vdOk d
  | .vminu d _ _ _ => vdOk d
  | .vmaxu d _ _ _ => vdOk d
  | .vabs d _ _ => vdOk d
  | .vand d _ _ _ => vdOk d
  | .vor d _ _ _ => vdOk d
  | .vxor d _ _ _ => vdOk d
  | .vandn d _ _ _ => vdOk d
  | .vnot d _ _ => vdOk d
  | .vsll d _ _ _ => vdOk d
  | .vsrl d _ _ _ => vdOk d
  | .vsra d _ _ _ => vdOk d
  | .vpopc d _ _ => vdOk d
  | .vclz d _ _ => vdOk d
  | .vcvt d _ t _ _ _ => vdOk d && typeOk t
  | .vcvtsat d _ t _ _ _ => vdOk d && typeOk t
  | .vqfp4 d _ _ _ => vdOk d
  | .vdqfp4 d _ t _ _ _ => vdOk d && t.ult 3
  | .vqfp8 d _ t _ _ _ => vdOk d && (t == 3 || t == 4)
  | .vblksc d _ _ _ => vdOk d
  | .vbndsc d _ _ _ => vdOk d
  | .vperm d _ _ _ => vdOk d
  | .vslideup d _ _ _ => vdOk d
  | .vslidedn d _ _ _ => vdOk d
  | .vziplo d _ _ _ => vdOk d
  | .vziphi d _ _ _ => vdOk d
  | .vrev d _ _ => vdOk d
  | .vcompr d _ _ => vdOk d
  | .vexpnd d _ _ => vdOk d
  | .vsel d _ _ _ => vdOk d
  | .vrsum d _ _ _ => vdOk d
  | .vrmax d _ _ _ => vdOk d
  | .vrmin d _ _ _ => vdOk d
  | .vrmaxi d _ _ _ => vdOk d
  | .vrmini d _ _ _ => vdOk d
  | .vscans d _ _ _ => vdOk d
  | .vrand d _ _ => vdOk d
  | .vror d _ _ => vdOk d
  | .vtopk d _ _ _ _ => vdOk d
  | .vspc d _ n _ => vdOk d && (n == 2 || n == 4 || n == 8)
  | .vspx d _ n _ _ => vdOk d && (n == 2 || n == 4 || n == 8)
  | .vbpt d _ => vdOk d
  | .vbpu d _ => vdOk d
  | .vld d _ _ _ => vdOk d
  | .vlds d _ _ _ _ => vdOk d
  | .vgth d _ _ _ _ => vdOk d
  | .vldb d _ _ _ => vdOk d
  | .vsett sf m t => typeOk t && m.ult (if sf == 1 then 5 else 1)
  | .vmve d _ _ => vdOk d
  | .vins d _ _ => vdOk d
  | .vid d _ => vdOk d
  | .vrng d a _ => vdOk d && a != 0 && a.ult 30
  | .vgumb d _ _ _ _ => vdOk d
  | .vflgrd d => vdOk d
  | .vmov d _ _ => vdOk d
  | .tlbinv _ _ sf => sf.ult 3
  -- what stands for a word the decoder refuses is itself no legal encoding (R149)
  | .illegalInstruction _ _ => false
  | .add .. | .sub .. | .and .. | .or .. | .xor .. | .andn .. | .sll .. | .srl .. | .sra .. | .ror ..
  | .slt .. | .sltu .. | .min .. | .max .. | .minu .. | .maxu .. | .mul .. | .mulh .. | .mulhu .. | .div ..
  | .divu .. | .rem .. | .remu .. | .clz .. | .ctz .. | .popc .. | .addi .. | .andi .. | .ori .. | .xori ..
  | .slli .. | .srli .. | .srai .. | .slti .. | .sltiu .. | .lih .. | .addpc .. | .liw .. | .addiw ..
  | .beq .. | .bne .. | .blt .. | .bge .. | .bltu .. | .bgeu .. | .jal .. | .jalr .. | .ldb .. | .ldh ..
  | .ldw .. | .ldd .. | .ldbu .. | .ldhu .. | .ldwu .. | .stb .. | .sth .. | .stw .. | .std .. | .cmov ..
  | .cinc .. | .cinci .. | .csetb .. | .candp .. | .cgetb .. | .cgetl .. | .cgetc .. | .cgetp .. | .cgett ..
  | .cldc .. | .cstc .. | .waitc .. | .syncq | .node | .ctrrd .. | .barinit .. | .chrsv .. | .chrel ..
  | .chstat .. | .awaitch .. | .gjoin .. | .gleave .. | .yield | .hintnext | .cpy .. | .cpyt .. | .cpyg ..
  | .cpys .. | .cpyc .. | .cpyf .. | .cpyb .. | .qbind .. | .qaddr .. | .qpops .. | .qpeek ..
  | .qstat .. | .qdrain .. | .qfmt .. | .mlease .. | .mfree | .mjob .. | .mstat .. | .mdrain | .merrrd ..
  | .tcfg .. | .tzero .. | .tldrow .. | .tstrow .. | .tld .. | .tst .. | .tvrow .. | .tvcol .. | .ttrans ..
  | .tmma .. | .trel .. | .trbind .. | .trinfo .. | .trdone | .trhold .. | .trskip .. | .trnext ..
  | .trqry .. | .tagqry .. | .tagret .. | .coll .. | .tkcommit .. | .tkput .. | .wpset .. | .wpclr ..
  | .wprd .. | .seqst .. | .vfceq .. | .vfcne .. | .vfclt .. | .vfcle .. | .vfcun .. | .vceq .. | .vcne ..
  | .vclt .. | .vcle .. | .vcltu .. | .vcleu .. | .vst .. | .vsts .. | .vsct .. | .vsctadd .. | .kand ..
  | .kor .. | .kxor .. | .knot .. | .kpop .. | .kfirst .. | .kset .. | .kmov .. | .vmvs .. | .vflgclr
  | .ctlrd .. | .ctlwr .. | .ctlset .. | .ctlclr .. | .eret .. | .wfi .. | .ctxsv .. | .ctxld .. | .quardr ..
  | .halt .. | .nop | .trap .. | .brk | .ifence | .trapEntry .. | .pmarkWrite ..
  | .efqResume .. | .efqAbort .. | .seqclrStop .. | .seqclrWait .. | .segmentEmission .. | .firstEmission ..
  | .segmentArrival .. | .expansionCheck .. | .originReturnCheck .. | .homeCopyRestore .. | .slotRetire ..
  | .slackExpiry .. | .taskPlacement .. | .bankSwap .. | .queueEntryFetch .. | .prestartReport ..
  | .startRelease .. | .kernelComplete .. | .launchKill .. | .nodePreemption .. | .suspendWaitComplete ..
  | .forcedEviction .. | .evictionRestore .. | .gangReserveTimeout .. | .coreError .. | .spareSubstitution ..
  | .barrierWatchdog .. | .copyStart .. | .copyComplete .. | .cpytRelease .. | .cpybSlotReserve ..
  | .streamReadIssue .. | .streamElementArrival .. | .matrixLeaseGrant .. | .matrixJobStart ..
  | .matrixJobComplete .. | .storePerformAtHome .. | .remoteLoadReturn .. | .atomicPerformAtHome ..
  | .trbindDecision .. | .collContribution .. | .collDelivery .. | .spillScan .. | .tokenFrameClose ..
  | .tsHeadWrite .. | .doorbell .. | .map .. | .unmap .. | .destroy .. | .pload .. | .migrate ..
  | .migrateComplete .. | .coreset .. | .movecont .. | .grant .. | .revoke .. | .almset .. | .chcreate ..
  | .chfree .. | .rform .. | .rload .. | .rstart .. | .rslack .. | .rstop .. | .rstopComplete .. | .rjoin ..
  | .ringLinkDead .. | .missingSegmentReload .. | .bypassLaneRequest .. | .timeFlitSend | .timeFlitReceive ..
  | .heartbeat .. | .fabricLinkDead .. | .eclipseNotice .. | .routeRedraw .. | .fabricRequest ..
  | .fabricResponse .. | .groupset .. | .groupclr .. | .ownerset .. | .tsring .. | .readRoutingEntry ..
  | .pcieLinkDown .. | .patrolScrub .. | .powerRequest .. | .powerStateEntry | .powerStateExit
  | .droopStretch .. | .freeze | .freezeReadout | .reset | .attestationReport .. | .taskKill ..
  | .trwaitDeadline .. | .wfiDeadline .. | .fabricAdmission .. | .pcieLinkUp .. | .cheadWrite ..
  | .firmwareContextRestart .. | .linkLevelReplay .. => true

end Sys2Proof
end

