-- ==== Sys2Proof/Decode.lean ====
section
/-! DEFINITION. The decoder of R138–R149, total on any words, and after it the encoder, both written from the
formats of R140 and the opcode map of R148. -/

namespace Sys2Proof

/-- A field's number as an operand of its width. -/
def bv (w x : Nat) : BitVec w := BitVec.ofNat w x

/-- Major 0x01, format FA (R148). -/
def dec01 (sd sa sb fn : Nat) : Option Instr :=
  if fn = 0 then some (.add (bv 5 sd) (bv 5 sa) (bv 5 sb))
  else if fn = 1 then some (.sub (bv 5 sd) (bv 5 sa) (bv 5 sb))
  else if fn = 2 then some (.and (bv 5 sd) (bv 5 sa) (bv 5 sb))
  else if fn = 3 then some (.or (bv 5 sd) (bv 5 sa) (bv 5 sb))
  else if fn = 4 then some (.xor (bv 5 sd) (bv 5 sa) (bv 5 sb))
  else if fn = 5 then some (.andn (bv 5 sd) (bv 5 sa) (bv 5 sb))
  else if fn = 6 then some (.sll (bv 5 sd) (bv 5 sa) (bv 5 sb))
  else if fn = 7 then some (.srl (bv 5 sd) (bv 5 sa) (bv 5 sb))
  else if fn = 8 then some (.sra (bv 5 sd) (bv 5 sa) (bv 5 sb))
  else if fn = 9 then some (.ror (bv 5 sd) (bv 5 sa) (bv 5 sb))
  else if fn = 10 then some (.slt (bv 5 sd) (bv 5 sa) (bv 5 sb))
  else if fn = 11 then some (.sltu (bv 5 sd) (bv 5 sa) (bv 5 sb))
  else if fn = 12 then some (.min (bv 5 sd) (bv 5 sa) (bv 5 sb))
  else if fn = 13 then some (.max (bv 5 sd) (bv 5 sa) (bv 5 sb))
  else if fn = 14 then some (.minu (bv 5 sd) (bv 5 sa) (bv 5 sb))
  else if fn = 15 then some (.maxu (bv 5 sd) (bv 5 sa) (bv 5 sb))
  else if fn = 16 then some (.mul (bv 5 sd) (bv 5 sa) (bv 5 sb))
  else if fn = 17 then some (.mulh (bv 5 sd) (bv 5 sa) (bv 5 sb))
  else if fn = 18 then some (.mulhu (bv 5 sd) (bv 5 sa) (bv 5 sb))
  else if fn = 19 then some (.div (bv 5 sd) (bv 5 sa) (bv 5 sb))
  else if fn = 20 then some (.divu (bv 5 sd) (bv 5 sa) (bv 5 sb))
  else if fn = 21 then some (.rem (bv 5 sd) (bv 5 sa) (bv 5 sb))
  else if fn = 22 then some (.remu (bv 5 sd) (bv 5 sa) (bv 5 sb))
  else if fn = 23 ∧ sb = 0 then some (.clz (bv 5 sd) (bv 5 sa))
  else if fn = 24 ∧ sb = 0 then some (.ctz (bv 5 sd) (bv 5 sa))
  else if fn = 25 ∧ sb = 0 then some (.popc (bv 5 sd) (bv 5 sa))
  else none

/-- Major 0x02, format FI (R148). -/
def dec02 (sd sa fn im : Nat) : Option Instr :=
  if fn = 0 then some (.addi (bv 5 sd) (bv 5 sa) (bv 12 im))
  else if fn = 1 then some (.andi (bv 5 sd) (bv 5 sa) (bv 12 im))
  else if fn = 2 then some (.ori (bv 5 sd) (bv 5 sa) (bv 12 im))
  else if fn = 3 then some (.xori (bv 5 sd) (bv 5 sa) (bv 12 im))
  else if fn = 4 ∧ im < 64 then some (.slli (bv 5 sd) (bv 5 sa) (bv 6 im))
  else if fn = 5 ∧ im < 64 then some (.srli (bv 5 sd) (bv 5 sa) (bv 6 im))
  else if fn = 6 ∧ im < 64 then some (.srai (bv 5 sd) (bv 5 sa) (bv 6 im))
  else if fn = 7 then some (.slti (bv 5 sd) (bv 5 sa) (bv 12 im))
  else if fn = 8 then some (.sltiu (bv 5 sd) (bv 5 sa) (bv 12 im))
  else none

/-- Major 0x03, format FU (R148). -/
def dec03 (sd im : Nat) : Option Instr :=
  some (.lih (bv 5 sd) (bv 21 im))

/-- Major 0x04, format FB (R148). -/
def dec04 (sa sb cond off : Nat) : Option Instr :=
  if cond = 0 then some (.beq (bv 5 sa) (bv 5 sb) (bv 13 off))
  else if cond = 1 then some (.bne (bv 5 sa) (bv 5 sb) (bv 13 off))
  else if cond = 2 then some (.blt (bv 5 sa) (bv 5 sb) (bv 13 off))
  else if cond = 3 then some (.bge (bv 5 sa) (bv 5 sb) (bv 13 off))
  else if cond = 4 then some (.bltu (bv 5 sa) (bv 5 sb) (bv 13 off))
  else if cond = 5 then some (.bgeu (bv 5 sa) (bv 5 sb) (bv 13 off))
  else none

/-- Major 0x05, format FJ (R148). -/
def dec05 (sd off : Nat) : Option Instr :=
  some (.jal (bv 5 sd) (bv 21 off))

/-- Major 0x06, format FI (R148). -/
def dec06 (sd sa fn im : Nat) : Option Instr :=
  if fn = 0 then some (.jalr (bv 5 sd) (bv 5 sa) (bv 12 im))
  else none

/-- Major 0x07, format FU (R148). -/
def dec07 (sd im : Nat) : Option Instr :=
  some (.addpc (bv 5 sd) (bv 21 im))

/-- Major 0x08, format FM (R148). -/
def dec08 (sd cap fn im : Nat) : Option Instr :=
  if fn = 0 then some (.ldb (bv 5 sd) (bv 4 cap) (bv 13 im))
  else if fn = 1 then some (.ldh (bv 5 sd) (bv 4 cap) (bv 13 im))
  else if fn = 2 then some (.ldw (bv 5 sd) (bv 4 cap) (bv 13 im))
  else if fn = 3 then some (.ldd (bv 5 sd) (bv 4 cap) (bv 13 im))
  else if fn = 4 then some (.ldbu (bv 5 sd) (bv 4 cap) (bv 13 im))
  else if fn = 5 then some (.ldhu (bv 5 sd) (bv 4 cap) (bv 13 im))
  else if fn = 6 then some (.ldwu (bv 5 sd) (bv 4 cap) (bv 13 im))
  else if fn = 7 then some (.stb (bv 5 sd) (bv 4 cap) (bv 13 im))
  else if fn = 8 then some (.sth (bv 5 sd) (bv 4 cap) (bv 13 im))
  else if fn = 9 then some (.stw (bv 5 sd) (bv 4 cap) (bv 13 im))
  else if fn = 10 then some (.std (bv 5 sd) (bv 4 cap) (bv 13 im))
  else none

/-- Major 0x09, format FC (R148). -/
def dec09 (cd ca sb fn im : Nat) : Option Instr :=
  if fn = 0 ∧ sb = 0 ∧ im = 0 then some (.cmov (bv 4 cd) (bv 4 ca))
  else if fn = 1 ∧ im = 0 then some (.cinc (bv 4 cd) (bv 4 ca) (bv 5 sb))
  else if fn = 2 ∧ sb = 0 then some (.cinci (bv 4 cd) (bv 4 ca) (bv 8 im))
  else if fn = 3 ∧ im < 2 then some (.csetb (bv 4 cd) (bv 4 ca) (bv 5 sb) (bv 1 im))
  else if fn = 4 ∧ sb = 0 then some (.candp (bv 4 cd) (bv 4 ca) (bv 8 im))
  else if fn = 5 ∧ cd = 0 ∧ im = 0 then some (.cgetb (bv 4 ca) (bv 5 sb))
  else if fn = 6 ∧ cd = 0 ∧ im = 0 then some (.cgetl (bv 4 ca) (bv 5 sb))
  else if fn = 7 ∧ cd = 0 ∧ im = 0 then some (.cgetc (bv 4 ca) (bv 5 sb))
  else if fn = 8 ∧ cd = 0 ∧ im = 0 then some (.cgetp (bv 4 ca) (bv 5 sb))
  else if fn = 9 ∧ cd = 0 ∧ im = 0 then some (.cgett (bv 4 ca) (bv 5 sb))
  else if fn = 10 ∧ sb = 0 then some (.cldc (bv 4 cd) (bv 4 ca) (bv 8 im))
  else if fn = 11 ∧ sb = 0 then some (.cstc (bv 4 cd) (bv 4 ca) (bv 8 im))
  else none

/-- Major 0x0A, format FW (R148). -/
def dec0A (ld st cp tl z : Nat) : Option Instr :=
  if z = 0 then some (.waitc (bv 5 ld) (bv 5 st) (bv 5 cp) (bv 5 tl))
  else none

/-- Major 0x0C, format FAT (R148). -/
def dec0C (sd cap sb op sc ord nr wd z : Nat) : Option Instr :=
  if op = 0 ∧ nr = 0 ∧ z = 0 then some (.amoadd (bv 5 sd) (bv 4 cap) (bv 5 sb) (bv 3 sc) (bv 2 ord) (bv 1 wd))
  else if op = 1 ∧ nr = 0 ∧ z = 0 then some (.amoand (bv 5 sd) (bv 4 cap) (bv 5 sb) (bv 3 sc) (bv 2 ord) (bv 1 wd))
  else if op = 2 ∧ nr = 0 ∧ z = 0 then some (.amoor (bv 5 sd) (bv 4 cap) (bv 5 sb) (bv 3 sc) (bv 2 ord) (bv 1 wd))
  else if op = 3 ∧ nr = 0 ∧ z = 0 then some (.amoxor (bv 5 sd) (bv 4 cap) (bv 5 sb) (bv 3 sc) (bv 2 ord) (bv 1 wd))
  else if op = 4 ∧ nr = 0 ∧ z = 0 then some (.amomin (bv 5 sd) (bv 4 cap) (bv 5 sb) (bv 3 sc) (bv 2 ord) (bv 1 wd))
  else if op = 5 ∧ nr = 0 ∧ z = 0 then some (.amomax (bv 5 sd) (bv 4 cap) (bv 5 sb) (bv 3 sc) (bv 2 ord) (bv 1 wd))
  else if op = 6 ∧ nr = 0 ∧ z = 0 then some (.amominu (bv 5 sd) (bv 4 cap) (bv 5 sb) (bv 3 sc) (bv 2 ord) (bv 1 wd))
  else if op = 7 ∧ nr = 0 ∧ z = 0 then some (.amomaxu (bv 5 sd) (bv 4 cap) (bv 5 sb) (bv 3 sc) (bv 2 ord) (bv 1 wd))
  else if op = 8 ∧ nr = 0 ∧ z = 0 then some (.amoswp (bv 5 sd) (bv 4 cap) (bv 5 sb) (bv 3 sc) (bv 2 ord) (bv 1 wd))
  else if op = 9 ∧ nr = 0 ∧ z = 0 then some (.amocas (bv 5 sd) (bv 4 cap) (bv 5 sb) (bv 3 sc) (bv 2 ord) (bv 1 wd))
  else if op = 10 ∧ nr = 0 ∧ wd = 0 ∧ z = 0 then some (.amofadd (bv 5 sd) (bv 4 cap) (bv 5 sb) (bv 3 sc) (bv 2 ord))
  else if op = 11 ∧ nr = 0 ∧ wd = 0 ∧ z = 0 then some (.amofmin (bv 5 sd) (bv 4 cap) (bv 5 sb) (bv 3 sc) (bv 2 ord))
  else if op = 12 ∧ nr = 0 ∧ wd = 0 ∧ z = 0 then some (.amofmax (bv 5 sd) (bv 4 cap) (bv 5 sb) (bv 3 sc) (bv 2 ord))
  else if op = 13 ∧ nr = 0 ∧ wd = 0 ∧ z = 0 then some (.amobfadd2 (bv 5 sd) (bv 4 cap) (bv 5 sb) (bv 3 sc) (bv 2 ord))
  else if op = 0 ∧ nr = 1 ∧ sd = 0 ∧ z = 0 then some (.redadd (bv 4 cap) (bv 5 sb) (bv 3 sc) (bv 2 ord) (bv 1 wd))
  else if op = 1 ∧ nr = 1 ∧ sd = 0 ∧ z = 0 then some (.redand (bv 4 cap) (bv 5 sb) (bv 3 sc) (bv 2 ord) (bv 1 wd))
  else if op = 2 ∧ nr = 1 ∧ sd = 0 ∧ z = 0 then some (.redor (bv 4 cap) (bv 5 sb) (bv 3 sc) (bv 2 ord) (bv 1 wd))
  else if op = 3 ∧ nr = 1 ∧ sd = 0 ∧ z = 0 then some (.redxor (bv 4 cap) (bv 5 sb) (bv 3 sc) (bv 2 ord) (bv 1 wd))
  else if op = 4 ∧ nr = 1 ∧ sd = 0 ∧ z = 0 then some (.redmin (bv 4 cap) (bv 5 sb) (bv 3 sc) (bv 2 ord) (bv 1 wd))
  else if op = 5 ∧ nr = 1 ∧ sd = 0 ∧ z = 0 then some (.redmax (bv 4 cap) (bv 5 sb) (bv 3 sc) (bv 2 ord) (bv 1 wd))
  else if op = 6 ∧ nr = 1 ∧ sd = 0 ∧ z = 0 then some (.redminu (bv 4 cap) (bv 5 sb) (bv 3 sc) (bv 2 ord) (bv 1 wd))
  else if op = 7 ∧ nr = 1 ∧ sd = 0 ∧ z = 0 then some (.redmaxu (bv 4 cap) (bv 5 sb) (bv 3 sc) (bv 2 ord) (bv 1 wd))
  else if op = 10 ∧ nr = 1 ∧ sd = 0 ∧ wd = 0 ∧ z = 0 then some (.redfadd (bv 4 cap) (bv 5 sb) (bv 3 sc) (bv 2 ord))
  else if op = 11 ∧ nr = 1 ∧ sd = 0 ∧ wd = 0 ∧ z = 0 then some (.redfmin (bv 4 cap) (bv 5 sb) (bv 3 sc) (bv 2 ord))
  else if op = 12 ∧ nr = 1 ∧ sd = 0 ∧ wd = 0 ∧ z = 0 then some (.redfmax (bv 4 cap) (bv 5 sb) (bv 3 sc) (bv 2 ord))
  else if op = 13 ∧ nr = 1 ∧ sd = 0 ∧ wd = 0 ∧ z = 0 then some (.redbfadd2 (bv 4 cap) (bv 5 sb) (bv 3 sc) (bv 2 ord))
  else none

/-- Major 0x0D, format FX (R148). -/
def dec0D (sd sa sb fn sc ord : Nat) : Option Instr :=
  if fn = 0 ∧ sd = 0 ∧ sa = 0 ∧ sb = 0 ∧ sc = 0 ∧ ord = 0 then some (.syncq)
  else if fn = 1 ∧ sd = 0 ∧ sa = 0 ∧ sb = 0 then some (.fence (bv 3 sc) (bv 2 ord))
  else if fn = 2 ∧ sd = 0 ∧ sb = 0 ∧ sc = 0 then some (.waitvis (bv 5 sa) (bv 2 ord))
  else if fn = 3 ∧ sd = 0 ∧ sa = 0 ∧ sb = 0 ∧ sc = 0 ∧ ord = 0 then some (.node)
  else none

/-- Major 0x0E, format FX (R148). -/
def dec0E (sd sa sb fn sc ord : Nat) : Option Instr :=
  if fn = 0 ∧ sd = 0 then some (.ctrsig (bv 5 sa) (bv 5 sb) (bv 3 sc) (bv 2 ord))
  else if fn = 1 then some (.ctrwait (bv 5 sd) (bv 5 sa) (bv 5 sb) (bv 3 sc) (bv 2 ord))
  else if fn = 2 ∧ sb = 0 ∧ sc = 0 ∧ ord = 0 then some (.ctrrd (bv 5 sd) (bv 5 sa))
  else if fn = 3 ∧ sd = 0 ∧ sa < 16 ∧ sc = 0 ∧ ord = 0 then some (.barinit (bv 4 sa) (bv 5 sb))
  else if fn = 4 ∧ sa < 16 ∧ sb = 0 then some (.bararv (bv 5 sd) (bv 4 sa) (bv 3 sc) (bv 2 ord))
  else if fn = 5 ∧ sa < 16 then some (.barxb (bv 5 sd) (bv 4 sa) (bv 5 sb) (bv 3 sc) (bv 2 ord))
  else if fn = 6 ∧ sd = 0 ∧ sa < 16 then some (.barwait (bv 4 sa) (bv 5 sb) (bv 3 sc) (bv 2 ord))
  else if fn = 7 ∧ sa < 16 then some (.bartest (bv 5 sd) (bv 4 sa) (bv 5 sb) (bv 3 sc) (bv 2 ord))
  else if fn = 8 ∧ sb = 0 ∧ sc = 0 ∧ ord = 0 then some (.chrsv (bv 5 sd) (bv 5 sa))
  else if fn = 9 ∧ sd = 0 ∧ sc = 0 then some (.chpush (bv 5 sa) (bv 5 sb) (bv 2 ord))
  else if fn = 10 ∧ sb = 0 ∧ sc = 0 then some (.chawait (bv 5 sd) (bv 5 sa) (bv 2 ord))
  else if fn = 11 ∧ sd = 0 ∧ sc = 0 ∧ ord = 0 then some (.chrel (bv 5 sa) (bv 5 sb))
  else if fn = 12 ∧ sc = 0 ∧ ord = 0 then some (.chstat (bv 5 sd) (bv 5 sa) (bv 5 sb))
  else none

/-- Major 0x0F, format FX (R148). -/
def dec0F (sd sa sb fn sc ord : Nat) : Option Instr :=
  if fn = 0 ∧ sb = 0 ∧ sc = 0 then some (.launch (bv 5 sd) (bv 5 sa) (bv 2 ord))
  else if fn = 1 ∧ sb = 0 ∧ sc = 0 then some (.spawn (bv 5 sd) (bv 5 sa) (bv 2 ord))
  else if fn = 2 ∧ sa = 0 ∧ sb = 0 ∧ sc = 0 ∧ ord = 0 then some (.awaitch (bv 5 sd))
  else if fn = 3 ∧ sb = 0 ∧ sc = 0 ∧ ord = 0 then some (.gjoin (bv 5 sd) (bv 5 sa))
  else if fn = 4 ∧ sb = 0 ∧ sc = 0 ∧ ord = 0 then some (.gleave (bv 5 sd) (bv 5 sa))
  else if fn = 5 ∧ sd = 0 ∧ sb = 0 ∧ ord = 3 then some (.gsync (bv 5 sa) (bv 3 sc))
  else if fn = 6 ∧ sd = 0 ∧ sa = 0 ∧ sb = 0 ∧ sc = 0 then some (.exit (bv 2 ord))
  else if fn = 7 then some (.suspend (bv 5 sd) (bv 5 sa) (bv 5 sb) (bv 3 sc) (bv 2 ord))
  else if fn = 8 ∧ sd = 0 ∧ sa = 0 ∧ sb = 0 ∧ sc = 0 ∧ ord = 0 then some (.yield)
  else if fn = 9 ∧ sd = 0 ∧ sa = 0 ∧ sb = 0 ∧ sc = 0 ∧ ord = 0 then some (.hintnext)
  else if fn = 10 ∧ sb = 0 ∧ sc = 0 ∧ ord = 0 then some (.self (bv 5 sd) (bv 5 sa))
  else none

/-- Major 0x10, format FX (R148). -/
def dec10 (sd sa sb fn sc ord : Nat) : Option Instr :=
  if fn = 0 ∧ sd < 16 ∧ sa < 16 ∧ sc = 0 ∧ ord = 0 then some (.cpy (bv 4 sd) (bv 4 sa) (bv 5 sb))
  else if fn = 1 ∧ sd < 16 ∧ sa < 16 ∧ sc = 0 ∧ ord = 0 then some (.cpyt (bv 4 sd) (bv 4 sa) (bv 5 sb))
  else if fn = 2 ∧ sd < 16 ∧ sa < 16 ∧ sc = 0 ∧ ord = 0 then some (.cpyg (bv 4 sd) (bv 4 sa) (bv 5 sb))
  else if fn = 3 ∧ sd < 16 ∧ sa < 16 ∧ sc = 0 ∧ ord = 0 then some (.cpys (bv 4 sd) (bv 4 sa) (bv 5 sb))
  else if fn = 4 ∧ sd < 16 ∧ sa < 16 ∧ sc = 0 ∧ ord = 0 then some (.cpyc (bv 4 sd) (bv 4 sa) (bv 5 sb))
  else if fn = 5 ∧ sd < 16 ∧ sc = 0 ∧ ord = 0 then some (.cpyf (bv 4 sd) (bv 5 sa) (bv 5 sb))
  else if fn = 6 ∧ sa < 16 ∧ sc = 0 ∧ ord = 0 then some (.cpyb (bv 5 sd) (bv 4 sa) (bv 5 sb))
  else none

/-- Major 0x11, format FX (R148). -/
def dec11 (sd sa sb fn sc ord : Nat) : Option Instr :=
  if fn = 0 ∧ sd < 16 ∧ sa < 8 ∧ sc = 0 ∧ ord = 0 then some (.qbind (bv 4 sd) (bv 3 sa) (bv 5 sb))
  else if fn = 1 ∧ sd = 0 ∧ sa < 8 ∧ sc = 0 ∧ ord = 0 then some (.qaddr (bv 3 sa) (bv 5 sb))
  else if fn = 2 ∧ sa < 8 ∧ sb = 0 ∧ sc = 0 ∧ ord = 0 then some (.qpops (bv 5 sd) (bv 3 sa))
  else if fn = 3 ∧ sa < 8 ∧ sb < 2 ∧ sc = 0 ∧ ord = 0 then some (.qpopv (bv 5 sd) (bv 3 sa) (bv 1 sb))
  else if fn = 4 ∧ sa < 8 ∧ sb = 0 ∧ sc = 0 ∧ ord = 0 then some (.qpeek (bv 5 sd) (bv 3 sa))
  else if fn = 5 ∧ sa < 8 ∧ sb = 0 ∧ sc = 0 ∧ ord = 0 then some (.qstat (bv 5 sd) (bv 3 sa))
  else if fn = 6 ∧ sd = 0 ∧ sa < 8 ∧ sb = 0 ∧ sc = 0 ∧ ord = 0 then some (.qdrain (bv 3 sa))
  else if fn = 7 ∧ sd = 0 ∧ sa < 8 ∧ sc = 0 ∧ ord = 0 then some (.qfmt (bv 3 sa) (bv 5 sb))
  else none

/-- Major 0x12, format FX (R148). -/
def dec12 (sd sa sb fn sc ord : Nat) : Option Instr :=
  if fn = 0 ∧ sb = 0 ∧ sc = 0 ∧ ord = 0 then some (.mlease (bv 5 sd) (bv 5 sa))
  else if fn = 1 ∧ sd = 0 ∧ sa = 0 ∧ sb = 0 ∧ sc = 0 ∧ ord = 0 then some (.mfree)
  else if fn = 2 ∧ sb < 16 ∧ sc = 0 ∧ ord = 0 then some (.mjob (bv 5 sd) (bv 5 sa) (bv 4 sb))
  else if fn = 3 ∧ sb = 0 ∧ sc = 0 ∧ ord = 0 then some (.mstat (bv 5 sd) (bv 5 sa))
  else if fn = 4 ∧ sd = 0 ∧ sa = 0 ∧ sb = 0 ∧ sc = 0 ∧ ord = 0 then some (.mdrain)
  else if fn = 5 ∧ sb = 0 ∧ sc = 0 ∧ ord = 0 then some (.merrrd (bv 5 sd) (bv 5 sa))
  else none

/-- Major 0x13, format FT (R148). -/
def dec13 (td ta vb sb fn z : Nat) : Option Instr :=
  if fn = 0 ∧ ta = 0 ∧ vb = 0 ∧ z = 0 then some (.tcfg (bv 3 td) (bv 5 sb))
  else if fn = 1 ∧ ta = 0 ∧ vb = 0 ∧ sb = 0 ∧ z = 0 then some (.tzero (bv 3 td))
  else if fn = 2 ∧ ta = 0 ∧ vb < 16 ∧ z = 0 then some (.tldrow (bv 3 td) (bv 4 vb) (bv 5 sb))
  else if fn = 3 ∧ td = 0 ∧ vb < 16 ∧ z = 0 then some (.tstrow (bv 3 ta) (bv 4 vb) (bv 5 sb))
  else if fn = 4 ∧ ta = 0 ∧ vb < 16 ∧ z = 0 then some (.tld (bv 3 td) (bv 4 vb) (bv 5 sb))
  else if fn = 5 ∧ td = 0 ∧ vb < 16 ∧ z = 0 then some (.tst (bv 3 ta) (bv 4 vb) (bv 5 sb))
  else if fn = 6 ∧ td = 0 ∧ z = 0 then some (.trowv (bv 3 ta) (bv 6 vb) (bv 5 sb))
  else if fn = 7 ∧ td = 0 ∧ z = 0 then some (.tcolv (bv 3 ta) (bv 6 vb) (bv 5 sb))
  else if fn = 8 ∧ ta = 0 ∧ z = 0 then some (.tvrow (bv 3 td) (bv 6 vb) (bv 5 sb))
  else if fn = 9 ∧ ta = 0 ∧ z = 0 then some (.tvcol (bv 3 td) (bv 6 vb) (bv 5 sb))
  else if fn = 10 ∧ vb = 0 ∧ sb = 0 ∧ z = 0 then some (.ttrans (bv 3 td) (bv 3 ta))
  else if fn = 11 ∧ vb = 0 ∧ sb < 8 ∧ z = 0 then some (.tmma (bv 3 td) (bv 3 ta) (bv 3 sb))
  else if fn = 12 ∧ ta = 0 ∧ vb = 0 ∧ sb = 0 ∧ z = 0 then some (.trel (bv 3 td))
  else none

/-- Major 0x14, format FX (R148). -/
def dec14 (sd sa sb fn sc ord : Nat) : Option Instr :=
  if fn = 0 ∧ sa = 0 ∧ sc = 0 ∧ ord = 0 then some (.trbind (bv 5 sd) (bv 5 sb))
  else if fn = 1 ∧ sd < 16 ∧ sc = 0 then some (.trwait (bv 4 sd) (bv 5 sa) (bv 5 sb) (bv 2 ord))
  else if fn = 2 ∧ sb = 0 ∧ sc = 0 ∧ ord = 0 then some (.trinfo (bv 5 sd) (bv 5 sa))
  else if fn = 3 ∧ sd = 0 ∧ sa = 0 ∧ sb = 0 ∧ sc = 0 ∧ ord = 0 then some (.trdone)
  else if fn = 4 ∧ sb = 0 ∧ sc = 0 ∧ ord = 0 then some (.trhold (bv 5 sd) (bv 5 sa))
  else if fn = 5 ∧ sb = 0 ∧ sc = 0 ∧ ord = 0 then some (.trskip (bv 5 sd) (bv 5 sa))
  else if fn = 6 ∧ sc = 0 ∧ ord = 0 then some (.trnext (bv 5 sd) (bv 5 sa) (bv 5 sb))
  else if fn = 7 ∧ sb = 0 ∧ sc = 0 ∧ ord = 0 then some (.trqry (bv 5 sd) (bv 5 sa))
  else none

/-- Major 0x15, format FX (R148). -/
def dec15 (sd sa sb fn sc ord : Nat) : Option Instr :=
  if fn = 0 ∧ ord = 0 then some (.tagdecl (bv 5 sd) (bv 5 sa) (bv 5 sb) (bv 3 sc))
  else if fn = 1 ∧ sd = 0 ∧ sb = 0 ∧ sc = 0 then some (.tagpub (bv 5 sa) (bv 2 ord))
  else if fn = 2 ∧ sd = 0 ∧ sb = 0 ∧ sc = 0 then some (.tagwait (bv 5 sa) (bv 2 ord))
  else if fn = 3 ∧ sb = 0 ∧ sc = 0 ∧ ord = 0 then some (.tagqry (bv 5 sd) (bv 5 sa))
  else if fn = 4 ∧ sd = 0 ∧ sb = 0 ∧ sc = 0 ∧ ord = 0 then some (.tagret (bv 5 sa))
  else none

/-- Major 0x16, format FX (R148). -/
def dec16 (sd sa sb fn sc ord : Nat) : Option Instr :=
  if fn = 0 ∧ sd = 0 ∧ sa = 0 ∧ sc = 0 ∧ ord = 0 then some (.coll (bv 5 sb))
  else if fn = 1 ∧ sa = 0 ∧ sc = 0 ∧ ord = 0 then some (.tkcommit (bv 5 sd) (bv 5 sb))
  else if fn = 2 ∧ sd = 0 ∧ sc = 0 ∧ ord = 0 then some (.tkput (bv 5 sa) (bv 5 sb))
  else if fn = 3 ∧ sc = 0 ∧ ord = 0 then some (.wpset (bv 5 sd) (bv 5 sa) (bv 5 sb))
  else if fn = 4 ∧ sb = 0 ∧ sc = 0 ∧ ord = 0 then some (.wpclr (bv 5 sd) (bv 5 sa))
  else if fn = 5 ∧ sc = 0 ∧ ord = 0 then some (.wprd (bv 5 sd) (bv 5 sa) (bv 5 sb))
  else if fn = 6 ∧ sc = 0 ∧ ord = 0 then some (.seqst (bv 5 sd) (bv 5 sa) (bv 5 sb))
  else none

/-- Major 0x18, format FV (R148). -/
def dec18 (vd va vb mask nf fn : Nat) : Option Instr :=
  if fn = 0 then some (.vfadd (bv 6 vd) (bv 6 va) (bv 6 vb) (bv 3 mask) (bv 1 nf))
  else if fn = 1 then some (.vfsub (bv 6 vd) (bv 6 va) (bv 6 vb) (bv 3 mask) (bv 1 nf))
  else if fn = 2 then some (.vfmul (bv 6 vd) (bv 6 va) (bv 6 vb) (bv 3 mask) (bv 1 nf))
  else if fn = 3 then some (.vfma (bv 6 vd) (bv 6 va) (bv 6 vb) (bv 3 mask) (bv 1 nf))
  else if fn = 4 then some (.vfms (bv 6 vd) (bv 6 va) (bv 6 vb) (bv 3 mask) (bv 1 nf))
  else if fn = 5 then some (.vfnma (bv 6 vd) (bv 6 va) (bv 6 vb) (bv 3 mask) (bv 1 nf))
  else if fn = 6 then some (.vfnms (bv 6 vd) (bv 6 va) (bv 6 vb) (bv 3 mask) (bv 1 nf))
  else if fn = 7 then some (.vfmin (bv 6 vd) (bv 6 va) (bv 6 vb) (bv 3 mask) (bv 1 nf))
  else if fn = 8 then some (.vfmax (bv 6 vd) (bv 6 va) (bv 6 vb) (bv 3 mask) (bv 1 nf))
  else if fn = 9 then some (.vfminm (bv 6 vd) (bv 6 va) (bv 6 vb) (bv 3 mask) (bv 1 nf))
  else if fn = 10 then some (.vfmaxm (bv 6 vd) (bv 6 va) (bv 6 vb) (bv 3 mask) (bv 1 nf))
  else if fn = 11 ∧ vb = 0 ∧ nf = 0 then some (.vfabs (bv 6 vd) (bv 6 va) (bv 3 mask))
  else if fn = 12 ∧ vb = 0 ∧ nf = 0 then some (.vfneg (bv 6 vd) (bv 6 va) (bv 3 mask))
  else if fn = 13 ∧ nf = 0 then some (.vfsgnj (bv 6 vd) (bv 6 va) (bv 6 vb) (bv 3 mask))
  else if fn = 14 then some (.vfdiv (bv 6 vd) (bv 6 va) (bv 6 vb) (bv 3 mask) (bv 1 nf))
  else if fn = 15 ∧ vb = 0 then some (.vfsqrt (bv 6 vd) (bv 6 va) (bv 3 mask) (bv 1 nf))
  else none

/-- Major 0x19, format FV (R148). -/
def dec19 (vd va vb mask nf fn : Nat) : Option Instr :=
  if fn = 0 ∧ vb = 0 then some (.vfrcp (bv 6 vd) (bv 6 va) (bv 3 mask) (bv 1 nf))
  else if fn = 1 ∧ vb = 0 then some (.vfrsq (bv 6 vd) (bv 6 va) (bv 3 mask) (bv 1 nf))
  else if fn = 2 ∧ vb = 0 then some (.vfexp2 (bv 6 vd) (bv 6 va) (bv 3 mask) (bv 1 nf))
  else if fn = 3 ∧ vb = 0 then some (.vflog2 (bv 6 vd) (bv 6 va) (bv 3 mask) (bv 1 nf))
  else if fn = 4 ∧ vb = 0 then some (.vftanh (bv 6 vd) (bv 6 va) (bv 3 mask) (bv 1 nf))
  else none

/-- Major 0x1A, format FV (R148). -/
def dec1A (vd va vb mask nf fn : Nat) : Option Instr :=
  if fn = 0 ∧ vd < 8 then some (.vfceq (bv 3 vd) (bv 6 va) (bv 6 vb) (bv 3 mask) (bv 1 nf))
  else if fn = 1 ∧ vd < 8 then some (.vfcne (bv 3 vd) (bv 6 va) (bv 6 vb) (bv 3 mask) (bv 1 nf))
  else if fn = 2 ∧ vd < 8 then some (.vfclt (bv 3 vd) (bv 6 va) (bv 6 vb) (bv 3 mask) (bv 1 nf))
  else if fn = 3 ∧ vd < 8 then some (.vfcle (bv 3 vd) (bv 6 va) (bv 6 vb) (bv 3 mask) (bv 1 nf))
  else if fn = 4 ∧ vd < 8 then some (.vfcun (bv 3 vd) (bv 6 va) (bv 6 vb) (bv 3 mask) (bv 1 nf))
  else if fn = 5 ∧ vd < 8 ∧ nf = 0 then some (.vceq (bv 3 vd) (bv 6 va) (bv 6 vb) (bv 3 mask))
  else if fn = 6 ∧ vd < 8 ∧ nf = 0 then some (.vcne (bv 3 vd) (bv 6 va) (bv 6 vb) (bv 3 mask))
  else if fn = 7 ∧ vd < 8 ∧ nf = 0 then some (.vclt (bv 3 vd) (bv 6 va) (bv 6 vb) (bv 3 mask))
  else if fn = 8 ∧ vd < 8 ∧ nf = 0 then some (.vcle (bv 3 vd) (bv 6 va) (bv 6 vb) (bv 3 mask))
  else if fn = 9 ∧ vd < 8 ∧ nf = 0 then some (.vcltu (bv 3 vd) (bv 6 va) (bv 6 vb) (bv 3 mask))
  else if fn = 10 ∧ vd < 8 ∧ nf = 0 then some (.vcleu (bv 3 vd) (bv 6 va) (bv 6 vb) (bv 3 mask))
  else none

/-- Major 0x1B, format FV (R148). -/
noncomputable def dec1B (vd va vb mask nf fn : Nat) : Option Instr :=
  if fn = 0 ∧ nf = 0 then some (.vadd (bv 6 vd) (bv 6 va) (bv 6 vb) (bv 3 mask))
  else if fn = 1 ∧ nf = 0 then some (.vsub (bv 6 vd) (bv 6 va) (bv 6 vb) (bv 3 mask))
  else if fn = 2 ∧ nf = 0 then some (.vadds (bv 6 vd) (bv 6 va) (bv 6 vb) (bv 3 mask))
  else if fn = 3 ∧ nf = 0 then some (.vsubs (bv 6 vd) (bv 6 va) (bv 6 vb) (bv 3 mask))
  else if fn = 4 ∧ nf = 0 then some (.vmul (bv 6 vd) (bv 6 va) (bv 6 vb) (bv 3 mask))
  else if fn = 5 ∧ nf = 0 then some (.vmulh (bv 6 vd) (bv 6 va) (bv 6 vb) (bv 3 mask))
  else if fn = 6 ∧ nf = 0 then some (.vmulhu (bv 6 vd) (bv 6 va) (bv 6 vb) (bv 3 mask))
  else if fn = 7 ∧ nf = 0 then some (.vmin (bv 6 vd) (bv 6 va) (bv 6 vb) (bv 3 mask))
  else if fn = 8 ∧ nf = 0 then some (.vmax (bv 6 vd) (bv 6 va) (bv 6 vb) (bv 3 mask))
  else if fn = 9 ∧ nf = 0 then some (.vminu (bv 6 vd) (bv 6 va) (bv 6 vb) (bv 3 mask))
  else if fn = 10 ∧ nf = 0 then some (.vmaxu (bv 6 vd) (bv 6 va) (bv 6 vb) (bv 3 mask))
  else if fn = 11 ∧ vb = 0 ∧ nf = 0 then some (.vabs (bv 6 vd) (bv 6 va) (bv 3 mask))
  else none

/-- Major 0x1C, format FV (R148). -/
noncomputable def dec1C (vd va vb mask nf fn : Nat) : Option Instr :=
  if fn = 0 ∧ nf = 0 then some (.vand (bv 6 vd) (bv 6 va) (bv 6 vb) (bv 3 mask))
  else if fn = 1 ∧ nf = 0 then some (.vor (bv 6 vd) (bv 6 va) (bv 6 vb) (bv 3 mask))
  else if fn = 2 ∧ nf = 0 then some (.vxor (bv 6 vd) (bv 6 va) (bv 6 vb) (bv 3 mask))
  else if fn = 3 ∧ nf = 0 then some (.vandn (bv 6 vd) (bv 6 va) (bv 6 vb) (bv 3 mask))
  else if fn = 4 ∧ vb = 0 ∧ nf = 0 then some (.vnot (bv 6 vd) (bv 6 va) (bv 3 mask))
  else if fn = 5 ∧ nf = 0 then some (.vsll (bv 6 vd) (bv 6 va) (bv 6 vb) (bv 3 mask))
  else if fn = 6 ∧ nf = 0 then some (.vsrl (bv 6 vd) (bv 6 va) (bv 6 vb) (bv 3 mask))
  else if fn = 7 ∧ nf = 0 then some (.vsra (bv 6 vd) (bv 6 va) (bv 6 vb) (bv 3 mask))
  else if fn = 8 ∧ vb = 0 ∧ nf = 0 then some (.vpopc (bv 6 vd) (bv 6 va) (bv 3 mask))
  else if fn = 9 ∧ vb = 0 ∧ nf = 0 then some (.vclz (bv 6 vd) (bv 6 va) (bv 3 mask))
  else none

/-- Major 0x1D, format FV (R148). -/
noncomputable def dec1D (vd va vb mask nf fn : Nat) : Option Instr :=
  if fn = 0 then some (.vcvt (bv 6 vd) (bv 6 va) (bv 4 (vb / 4)) (bv 2 vb) (bv 3 mask) (bv 1 nf))
  else if fn = 1 then some (.vcvtsat (bv 6 vd) (bv 6 va) (bv 4 (vb / 4)) (bv 2 vb) (bv 3 mask) (bv 1 nf))
  else if fn = 2 ∧ vb = 21 then some (.vqfp4 (bv 6 vd) (bv 6 va) (bv 3 mask) (bv 1 nf))
  else if fn = 3 then some (.vdqfp4 (bv 6 vd) (bv 6 va) (bv 4 (vb / 4)) (bv 2 vb) (bv 3 mask) (bv 1 nf))
  else if fn = 4 then some (.vqfp8 (bv 6 vd) (bv 6 va) (bv 4 (vb / 4)) (bv 2 vb) (bv 3 mask) (bv 1 nf))
  else if fn = 5 ∧ vb = 20 then some (.vblksc (bv 6 vd) (bv 6 va) (bv 3 mask) (bv 1 nf))
  else if fn = 6 ∧ vb = 4 then some (.vbndsc (bv 6 vd) (bv 6 va) (bv 3 mask) (bv 1 nf))
  else none

/-- Major 0x1E, format FV (R148). -/
noncomputable def dec1E (vd va vb mask nf fn : Nat) : Option Instr :=
  if fn = 0 ∧ nf = 0 then some (.vperm (bv 6 vd) (bv 6 va) (bv 6 vb) (bv 3 mask))
  else if fn = 1 ∧ nf = 0 then some (.vslideup (bv 6 vd) (bv 6 va) (bv 6 vb) (bv 3 mask))
  else if fn = 2 ∧ nf = 0 then some (.vslidedn (bv 6 vd) (bv 6 va) (bv 6 vb) (bv 3 mask))
  else if fn = 3 ∧ nf = 0 then some (.vziplo (bv 6 vd) (bv 6 va) (bv 6 vb) (bv 3 mask))
  else if fn = 4 ∧ nf = 0 then some (.vziphi (bv 6 vd) (bv 6 va) (bv 6 vb) (bv 3 mask))
  else if fn = 5 ∧ vb = 0 ∧ nf = 0 then some (.vrev (bv 6 vd) (bv 6 va) (bv 3 mask))
  else if fn = 6 ∧ vb = 0 ∧ nf = 0 then some (.vcompr (bv 6 vd) (bv 6 va) (bv 3 mask))
  else if fn = 7 ∧ vb = 0 ∧ nf = 0 then some (.vexpnd (bv 6 vd) (bv 6 va) (bv 3 mask))
  else if fn = 8 ∧ nf = 0 then some (.vsel (bv 6 vd) (bv 6 va) (bv 6 vb) (bv 3 mask))
  else none

/-- Major 0x1F, format FV (R148). -/
noncomputable def dec1F (vd va vb mask nf fn : Nat) : Option Instr :=
  if fn = 0 ∧ vb = 0 then some (.vrsum (bv 6 vd) (bv 6 va) (bv 3 mask) (bv 1 nf))
  else if fn = 1 ∧ vb = 0 then some (.vrmax (bv 6 vd) (bv 6 va) (bv 3 mask) (bv 1 nf))
  else if fn = 2 ∧ vb = 0 then some (.vrmin (bv 6 vd) (bv 6 va) (bv 3 mask) (bv 1 nf))
  else if fn = 3 ∧ vb = 0 then some (.vrmaxi (bv 6 vd) (bv 6 va) (bv 3 mask) (bv 1 nf))
  else if fn = 4 ∧ vb = 0 then some (.vrmini (bv 6 vd) (bv 6 va) (bv 3 mask) (bv 1 nf))
  else if fn = 5 ∧ vb = 0 then some (.vscans (bv 6 vd) (bv 6 va) (bv 3 mask) (bv 1 nf))
  else if fn = 6 ∧ vb = 0 ∧ nf = 0 then some (.vrand (bv 6 vd) (bv 6 va) (bv 3 mask))
  else if fn = 7 ∧ vb = 0 ∧ nf = 0 then some (.vror (bv 6 vd) (bv 6 va) (bv 3 mask))
  else if fn = 8 then some (.vtopk (bv 6 vd) (bv 6 va) (bv 6 vb) (bv 3 mask) (bv 1 nf))
  else none

/-- Major 0x20, format FV (R148). -/
noncomputable def dec20 (vd va vb mask nf fn : Nat) : Option Instr :=
  if fn = 0 ∧ nf = 0 then some (.vspc (bv 6 vd) (bv 6 va) (bv 6 vb) (bv 3 mask))
  else if fn = 1 then some (.vspx (bv 6 vd) (bv 6 va) (bv 6 vb) (bv 3 mask) (bv 1 nf))
  else if fn = 2 ∧ vb = 0 ∧ mask = 0 ∧ nf = 0 then some (.vbpt (bv 6 vd) (bv 6 va))
  else if fn = 3 ∧ vb = 0 ∧ mask = 0 ∧ nf = 0 then some (.vbpu (bv 6 vd) (bv 6 va))
  else none

/-- Major 0x21, format FVM (R148). -/
noncomputable def dec21 (vd va cap sb mk fn : Nat) : Option Instr :=
  if fn = 0 ∧ va = 0 then some (.vld (bv 6 vd) (bv 4 cap) (bv 5 sb) (bv 3 mk))
  else if fn = 1 ∧ va = 0 then some (.vst (bv 6 vd) (bv 4 cap) (bv 5 sb) (bv 3 mk))
  else if fn = 2 ∧ va < 32 then some (.vlds (bv 6 vd) (bv 5 va) (bv 4 cap) (bv 5 sb) (bv 3 mk))
  else if fn = 3 ∧ va < 32 then some (.vsts (bv 6 vd) (bv 5 va) (bv 4 cap) (bv 5 sb) (bv 3 mk))
  else none

/-- Major 0x22, format FV (R148). -/
noncomputable def dec22 (vd va vb mask nf fn : Nat) : Option Instr :=
  if fn = 0 ∧ vd < 8 ∧ va < 8 ∧ vb < 8 ∧ mask = 0 ∧ nf = 0 then some (.kand (bv 3 vd) (bv 3 va) (bv 3 vb))
  else if fn = 1 ∧ vd < 8 ∧ va < 8 ∧ vb < 8 ∧ mask = 0 ∧ nf = 0 then some (.kor (bv 3 vd) (bv 3 va) (bv 3 vb))
  else if fn = 2 ∧ vd < 8 ∧ va < 8 ∧ vb < 8 ∧ mask = 0 ∧ nf = 0 then some (.kxor (bv 3 vd) (bv 3 va) (bv 3 vb))
  else if fn = 3 ∧ vd < 8 ∧ va < 8 ∧ vb = 0 ∧ mask = 0 ∧ nf = 0 then some (.knot (bv 3 vd) (bv 3 va))
  else if fn = 4 ∧ vd < 32 ∧ va < 8 ∧ vb = 0 ∧ mask = 0 ∧ nf = 0 then some (.kpop (bv 5 vd) (bv 3 va))
  else if fn = 5 ∧ vd < 32 ∧ va < 8 ∧ vb = 0 ∧ mask = 0 ∧ nf = 0 then some (.kfirst (bv 5 vd) (bv 3 va))
  else if fn = 6 ∧ vd < 8 ∧ va < 32 ∧ vb = 0 ∧ mask = 0 ∧ nf = 0 then some (.kset (bv 3 vd) (bv 5 va))
  else if fn = 7 ∧ vd < 8 ∧ va < 8 ∧ vb = 0 ∧ mask = 0 ∧ nf = 0 then some (.kmov (bv 3 vd) (bv 3 va))
  else none

/-- Major 0x23, format FV (R148). -/
noncomputable def dec23 (vd va vb mask nf fn : Nat) : Option Instr :=
  if fn = 0 ∧ vd = 0 ∧ va < 16 ∧ mask = 0 ∧ nf = 0 ∧ vb % 4 = 0 then some (.vsett (bv 1 (va / 8)) (bv 3 va) (bv 4 (vb / 4)))
  else if fn = 1 ∧ vd < 32 ∧ vb < 32 ∧ mask = 0 ∧ nf = 0 then some (.vmvs (bv 5 vd) (bv 6 va) (bv 5 vb))
  else if fn = 2 ∧ va < 32 ∧ vb = 0 ∧ nf = 0 then some (.vmve (bv 6 vd) (bv 5 va) (bv 3 mask))
  else if fn = 3 ∧ va < 32 ∧ vb < 32 ∧ mask = 0 ∧ nf = 0 then some (.vins (bv 6 vd) (bv 5 va) (bv 5 vb))
  else if fn = 4 ∧ va = 0 ∧ vb = 0 ∧ nf = 0 then some (.vid (bv 6 vd) (bv 3 mask))
  else if fn = 5 ∧ va < 32 ∧ vb = 0 ∧ nf = 0 then some (.vrng (bv 6 vd) (bv 5 va) (bv 3 mask))
  else if fn = 6 then some (.vgumb (bv 6 vd) (bv 6 va) (bv 6 vb) (bv 3 mask) (bv 1 nf))
  else if fn = 7 ∧ va = 0 ∧ vb = 0 ∧ mask = 0 ∧ nf = 0 then some (.vflgrd (bv 6 vd))
  else if fn = 8 ∧ vd = 0 ∧ va = 0 ∧ vb = 0 ∧ mask = 0 ∧ nf = 0 then some (.vflgclr)
  else if fn = 9 ∧ vb = 0 ∧ nf = 0 then some (.vmov (bv 6 vd) (bv 6 va) (bv 3 mask))
  else none

/-- Major 0x24, format FVM (R148). -/
noncomputable def dec24 (vd va cap sb mk fn : Nat) : Option Instr :=
  if fn = 0 then some (.vgth (bv 6 vd) (bv 6 va) (bv 4 cap) (bv 5 sb) (bv 3 mk))
  else if fn = 1 then some (.vsct (bv 6 vd) (bv 6 va) (bv 4 cap) (bv 5 sb) (bv 3 mk))
  else if fn = 2 then some (.vsctadd (bv 6 vd) (bv 6 va) (bv 4 cap) (bv 5 sb) (bv 3 mk))
  else if fn = 3 ∧ va = 0 then some (.vldb (bv 6 vd) (bv 4 cap) (bv 5 sb) (bv 3 mk))
  else none

/-- Major 0x3C, format FI (R148). -/
noncomputable def dec3C (sd sa fn im : Nat) : Option Instr :=
  if fn = 0 ∧ sa = 0 then some (.ctlrd (bv 5 sd) (bv 12 im))
  else if fn = 1 then some (.ctlwr (bv 5 sd) (bv 5 sa) (bv 12 im))
  else if fn = 2 then some (.ctlset (bv 5 sd) (bv 5 sa) (bv 12 im))
  else if fn = 3 then some (.ctlclr (bv 5 sd) (bv 5 sa) (bv 12 im))
  else none

/-- Major 0x3D, format FX (R148). -/
noncomputable def dec3D (sd sa sb fn sc ord : Nat) : Option Instr :=
  if fn = 0 ∧ sd = 0 ∧ sb = 0 ∧ sc = 0 ∧ ord = 0 then some (.eret (bv 5 sa))
  else if fn = 1 ∧ sd = 0 ∧ sb = 0 ∧ sc = 0 ∧ ord = 0 then some (.wfi (bv 5 sa))
  else if fn = 2 ∧ sd = 0 ∧ ord = 0 then some (.tlbinv (bv 5 sa) (bv 5 sb) (bv 3 sc))
  else if fn = 3 ∧ sb < 16 ∧ sc = 0 ∧ ord = 0 then some (.ctxsv (bv 5 sd) (bv 5 sa) (bv 4 sb))
  else if fn = 4 ∧ sb < 16 ∧ sc = 0 ∧ ord = 0 then some (.ctxld (bv 5 sd) (bv 5 sa) (bv 4 sb))
  else if fn = 5 ∧ sb = 0 ∧ sc = 0 ∧ ord = 0 then some (.quardr (bv 5 sd) (bv 5 sa))
  else if fn = 6 ∧ sd = 0 ∧ sb = 0 ∧ sc = 0 ∧ ord = 0 then some (.halt (bv 5 sa))
  else none

/-- Major 0x3E, format FX (R148). -/
noncomputable def dec3E (sd sa sb fn sc ord : Nat) : Option Instr :=
  if fn = 0 ∧ sd = 0 ∧ sa = 0 ∧ sb = 0 ∧ sc = 0 ∧ ord = 0 then some (.nop)
  else if fn = 1 ∧ sd = 0 ∧ sb = 0 ∧ sc = 0 ∧ ord = 0 then some (.trap (bv 5 sa))
  else if fn = 2 ∧ sd = 0 ∧ sa = 0 ∧ sb = 0 ∧ sc = 0 ∧ ord = 0 then some (.brk)
  else if fn = 3 ∧ sd = 0 ∧ sa = 0 ∧ sb = 0 ∧ sc = 0 ∧ ord = 0 then some (.ifence)
  else none

/-- Cut a word into the fields of format FA (R140). -/
def cutFA (w : Nat) (k : Nat → Nat → Nat → Nat → Option Instr) : Option Instr :=
  k (w / 2 ^ 21 % 2 ^ 5) (w / 2 ^ 16 % 2 ^ 5) (w / 2 ^ 11 % 2 ^ 5) (w % 2 ^ 11)

/-- Cut a word into the fields of format FI (R140). -/
def cutFI (w : Nat) (k : Nat → Nat → Nat → Nat → Option Instr) : Option Instr :=
  k (w / 2 ^ 21 % 2 ^ 5) (w / 2 ^ 16 % 2 ^ 5) (w / 2 ^ 12 % 2 ^ 4) (w % 2 ^ 12)

/-- Cut a word into the fields of format FU (R140). -/
def cutFU (w : Nat) (k : Nat → Nat → Option Instr) : Option Instr :=
  k (w / 2 ^ 21 % 2 ^ 5) (w % 2 ^ 21)

/-- Cut a word into the fields of format FB (R140). -/
def cutFB (w : Nat) (k : Nat → Nat → Nat → Nat → Option Instr) : Option Instr :=
  k (w / 2 ^ 21 % 2 ^ 5) (w / 2 ^ 16 % 2 ^ 5) (w / 2 ^ 13 % 2 ^ 3) (w % 2 ^ 13)

/-- Cut a word into the fields of format FJ (R140). -/
def cutFJ (w : Nat) (k : Nat → Nat → Option Instr) : Option Instr :=
  k (w / 2 ^ 21 % 2 ^ 5) (w % 2 ^ 21)

/-- Cut a word into the fields of format FM (R140). -/
def cutFM (w : Nat) (k : Nat → Nat → Nat → Nat → Option Instr) : Option Instr :=
  k (w / 2 ^ 21 % 2 ^ 5) (w / 2 ^ 17 % 2 ^ 4) (w / 2 ^ 13 % 2 ^ 4) (w % 2 ^ 13)

/-- Cut a word into the fields of format FC (R140). -/
def cutFC (w : Nat) (k : Nat → Nat → Nat → Nat → Nat → Option Instr) : Option Instr :=
  k (w / 2 ^ 22 % 2 ^ 4) (w / 2 ^ 18 % 2 ^ 4) (w / 2 ^ 13 % 2 ^ 5) (w / 2 ^ 8 % 2 ^ 5) (w % 2 ^ 8)

/-- Cut a word into the fields of format FAT (R140). -/
def cutFAT (w : Nat) (k : Nat → Nat → Nat → Nat → Nat → Nat → Nat → Nat → Nat → Option Instr) : Option Instr :=
  k (w / 2 ^ 21 % 2 ^ 5) (w / 2 ^ 17 % 2 ^ 4) (w / 2 ^ 12 % 2 ^ 5) (w / 2 ^ 8 % 2 ^ 4) (w / 2 ^ 5 % 2 ^ 3) (w / 2 ^ 3 % 2 ^ 2) (w / 2 ^ 2 % 2 ^ 1) (w / 2 ^ 1 % 2 ^ 1) (w % 2 ^ 1)

/-- Cut a word into the fields of format FW (R140). -/
def cutFW (w : Nat) (k : Nat → Nat → Nat → Nat → Nat → Option Instr) : Option Instr :=
  k (w / 2 ^ 21 % 2 ^ 5) (w / 2 ^ 16 % 2 ^ 5) (w / 2 ^ 11 % 2 ^ 5) (w / 2 ^ 6 % 2 ^ 5) (w % 2 ^ 6)

/-- Cut a word into the fields of format FX (R140). -/
def cutFX (w : Nat) (k : Nat → Nat → Nat → Nat → Nat → Nat → Option Instr) : Option Instr :=
  k (w / 2 ^ 21 % 2 ^ 5) (w / 2 ^ 16 % 2 ^ 5) (w / 2 ^ 11 % 2 ^ 5) (w / 2 ^ 5 % 2 ^ 6) (w / 2 ^ 2 % 2 ^ 3) (w % 2 ^ 2)

/-- Cut a word into the fields of format FV (R140). -/
def cutFV (w : Nat) (k : Nat → Nat → Nat → Nat → Nat → Nat → Option Instr) : Option Instr :=
  k (w / 2 ^ 20 % 2 ^ 6) (w / 2 ^ 14 % 2 ^ 6) (w / 2 ^ 8 % 2 ^ 6) (w / 2 ^ 5 % 2 ^ 3) (w / 2 ^ 4 % 2 ^ 1) (w % 2 ^ 4)

/-- Cut a word into the fields of format FVM (R140). -/
def cutFVM (w : Nat) (k : Nat → Nat → Nat → Nat → Nat → Nat → Option Instr) : Option Instr :=
  k (w / 2 ^ 20 % 2 ^ 6) (w / 2 ^ 14 % 2 ^ 6) (w / 2 ^ 10 % 2 ^ 4) (w / 2 ^ 5 % 2 ^ 5) (w / 2 ^ 2 % 2 ^ 3) (w % 2 ^ 2)

/-- Cut a word into the fields of format FT (R140). -/
def cutFT (w : Nat) (k : Nat → Nat → Nat → Nat → Nat → Nat → Option Instr) : Option Instr :=
  k (w / 2 ^ 23 % 2 ^ 3) (w / 2 ^ 20 % 2 ^ 3) (w / 2 ^ 14 % 2 ^ 6) (w / 2 ^ 9 % 2 ^ 5) (w / 2 ^ 4 % 2 ^ 5) (w % 2 ^ 4)

/-- The instruction a word's fields name under its major opcode, before the checks of `wellFormed` (R140, R148). -/
noncomputable def decFields (mj w : Nat) : Option Instr :=
  if mj = 0x01 then cutFA w dec01
  else if mj = 0x02 then cutFI w dec02
  else if mj = 0x03 then cutFU w dec03
  else if mj = 0x04 then cutFB w dec04
  else if mj = 0x05 then cutFJ w dec05
  else if mj = 0x06 then cutFI w dec06
  else if mj = 0x07 then cutFU w dec07
  else if mj = 0x08 then cutFM w dec08
  else if mj = 0x09 then cutFC w dec09
  else if mj = 0x0A then cutFW w dec0A
  else if mj = 0x0C then cutFAT w dec0C
  else if mj = 0x0D then cutFX w dec0D
  else if mj = 0x0E then cutFX w dec0E
  else if mj = 0x0F then cutFX w dec0F
  else if mj = 0x10 then cutFX w dec10
  else if mj = 0x11 then cutFX w dec11
  else if mj = 0x12 then cutFX w dec12
  else if mj = 0x13 then cutFT w dec13
  else if mj = 0x14 then cutFX w dec14
  else if mj = 0x15 then cutFX w dec15
  else if mj = 0x16 then cutFX w dec16
  else if mj = 0x18 then cutFV w dec18
  else if mj = 0x19 then cutFV w dec19
  else if mj = 0x1A then cutFV w dec1A
  else if mj = 0x1B then cutFV w dec1B
  else if mj = 0x1C then cutFV w dec1C
  else if mj = 0x1D then cutFV w dec1D
  else if mj = 0x1E then cutFV w dec1E
  else if mj = 0x1F then cutFV w dec1F
  else if mj = 0x20 then cutFV w dec20
  else if mj = 0x21 then cutFVM w dec21
  else if mj = 0x22 then cutFV w dec22
  else if mj = 0x23 then cutFV w dec23
  else if mj = 0x24 then cutFVM w dec24
  else if mj = 0x3C then cutFI w dec3C
  else if mj = 0x3D then cutFX w dec3D
  else if mj = 0x3E then cutFX w dec3E
  else none

/-- A single word as an instruction; `none` is the illegal word of R149. -/
noncomputable def decodeWord (w : Nat) : Option Instr :=
  match decFields (w / 2 ^ 26) w with
  | some i => if i.wellFormed then some i else none
  | none => none

/-- The long form of major 0x3F: both words (R139, R140). -/
def decodeLong (w x : Nat) : Option Instr :=
  let sd := w / 2 ^ 21 % 2 ^ 5
  let sa := w / 2 ^ 16 % 2 ^ 5
  if w % 2 ^ 12 = 0 then
    if w / 2 ^ 12 % 2 ^ 4 = 0 ∧ sa = 0 then some (.liw (bv 5 sd) (bv 32 x))
    else if w / 2 ^ 12 % 2 ^ 4 = 1 then some (.addiw (bv 5 sd) (bv 5 sa) (bv 32 x))
    else none
  else none

/-- Whether a first word opens a long form (R139). -/
def isLong (w : Nat) : Bool := w / 2 ^ 26 = 0x3F

/-- The instruction a word, and for a long form its second word, spell. -/
noncomputable def decode (w x : Nat) : Option Instr := if isLong w then decodeLong w x else decodeWord w

/-- The instruction that bytes in memory spell, low byte first (R138). -/
noncomputable def decodeBytes (bs : List Byte) : Option Instr := decode (leNat (bs.take 4)) (leNat ((bs.drop 4).take 4))

/-- The decoder's reading of a word numbered as the opcode table numbers it. -/
noncomputable def decodeTableWord (_nbits w : Nat) : Option Instr := decodeBytes (leBytes 8 w)

/-- Format FA (R140). -/
def encFA (mj sd sa sb fn : Nat) : Nat :=
  mj * 2 ^ 26 + sd * 2 ^ 21 + sa * 2 ^ 16 + sb * 2 ^ 11 + fn

/-- Format FI (R140). -/
def encFI (mj sd sa fn im : Nat) : Nat :=
  mj * 2 ^ 26 + sd * 2 ^ 21 + sa * 2 ^ 16 + fn * 2 ^ 12 + im

/-- Format FU (R140). -/
def encFU (mj sd im : Nat) : Nat :=
  mj * 2 ^ 26 + sd * 2 ^ 21 + im

/-- Format FB (R140). -/
def encFB (mj sa sb cond off : Nat) : Nat :=
  mj * 2 ^ 26 + sa * 2 ^ 21 + sb * 2 ^ 16 + cond * 2 ^ 13 + off

/-- Format FJ (R140). -/
def encFJ (mj sd off : Nat) : Nat :=
  mj * 2 ^ 26 + sd * 2 ^ 21 + off

/-- Format FM (R140). -/
def encFM (mj sd cap fn im : Nat) : Nat :=
  mj * 2 ^ 26 + sd * 2 ^ 21 + cap * 2 ^ 17 + fn * 2 ^ 13 + im

/-- Format FC (R140). -/
def encFC (mj cd ca sb fn im : Nat) : Nat :=
  mj * 2 ^ 26 + cd * 2 ^ 22 + ca * 2 ^ 18 + sb * 2 ^ 13 + fn * 2 ^ 8 + im

/-- Format FAT (R140). -/
def encFAT (mj sd cap sb op sc ord nr wd z : Nat) : Nat :=
  mj * 2 ^ 26 + sd * 2 ^ 21 + cap * 2 ^ 17 + sb * 2 ^ 12 + op * 2 ^ 8 + sc * 2 ^ 5 + ord * 2 ^ 3 + nr * 2 ^ 2 + wd * 2 ^ 1 + z

/-- Format FW (R140). -/
def encFW (mj ld st cp tl z : Nat) : Nat :=
  mj * 2 ^ 26 + ld * 2 ^ 21 + st * 2 ^ 16 + cp * 2 ^ 11 + tl * 2 ^ 6 + z

/-- Format FX (R140). -/
def encFX (mj sd sa sb fn sc ord : Nat) : Nat :=
  mj * 2 ^ 26 + sd * 2 ^ 21 + sa * 2 ^ 16 + sb * 2 ^ 11 + fn * 2 ^ 5 + sc * 2 ^ 2 + ord

/-- Format FV (R140). -/
def encFV (mj vd va vb mask nf fn : Nat) : Nat :=
  mj * 2 ^ 26 + vd * 2 ^ 20 + va * 2 ^ 14 + vb * 2 ^ 8 + mask * 2 ^ 5 + nf * 2 ^ 4 + fn

/-- Format FVM (R140). -/
def encFVM (mj vd va cap sb mk fn : Nat) : Nat :=
  mj * 2 ^ 26 + vd * 2 ^ 20 + va * 2 ^ 14 + cap * 2 ^ 10 + sb * 2 ^ 5 + mk * 2 ^ 2 + fn

/-- Format FT (R140). -/
def encFT (mj td ta vb sb fn z : Nat) : Nat :=
  mj * 2 ^ 26 + td * 2 ^ 23 + ta * 2 ^ 20 + vb * 2 ^ 14 + sb * 2 ^ 9 + fn * 2 ^ 4 + z

/-- The first word of the long form of major 0x3F (R140). -/
def encFL (sd sa fn : Nat) : Nat :=
  0x3F * 2 ^ 26 + sd * 2 ^ 21 + sa * 2 ^ 16 + fn * 2 ^ 12

/-- The words of an instruction, the first at the lowest address; a device step has none. -/
def encode : Instr → List Nat
  | .add d a b => [encFA 0x01 d.toNat a.toNat b.toNat 0]
  | .sub d a b => [encFA 0x01 d.toNat a.toNat b.toNat 1]
  | .and d a b => [encFA 0x01 d.toNat a.toNat b.toNat 2]
  | .or d a b => [encFA 0x01 d.toNat a.toNat b.toNat 3]
  | .xor d a b => [encFA 0x01 d.toNat a.toNat b.toNat 4]
  | .andn d a b => [encFA 0x01 d.toNat a.toNat b.toNat 5]
  | .sll d a b => [encFA 0x01 d.toNat a.toNat b.toNat 6]
  | .srl d a b => [encFA 0x01 d.toNat a.toNat b.toNat 7]
  | .sra d a b => [encFA 0x01 d.toNat a.toNat b.toNat 8]
  | .ror d a b => [encFA 0x01 d.toNat a.toNat b.toNat 9]
  | .slt d a b => [encFA 0x01 d.toNat a.toNat b.toNat 10]
  | .sltu d a b => [encFA 0x01 d.toNat a.toNat b.toNat 11]
  | .min d a b => [encFA 0x01 d.toNat a.toNat b.toNat 12]
  | .max d a b => [encFA 0x01 d.toNat a.toNat b.toNat 13]
  | .minu d a b => [encFA 0x01 d.toNat a.toNat b.toNat 14]
  | .maxu d a b => [encFA 0x01 d.toNat a.toNat b.toNat 15]
  | .mul d a b => [encFA 0x01 d.toNat a.toNat b.toNat 16]
  | .mulh d a b => [encFA 0x01 d.toNat a.toNat b.toNat 17]
  | .mulhu d a b => [encFA 0x01 d.toNat a.toNat b.toNat 18]
  | .div d a b => [encFA 0x01 d.toNat a.toNat b.toNat 19]
  | .divu d a b => [encFA 0x01 d.toNat a.toNat b.toNat 20]
  | .rem d a b => [encFA 0x01 d.toNat a.toNat b.toNat 21]
  | .remu d a b => [encFA 0x01 d.toNat a.toNat b.toNat 22]
  | .clz d a => [encFA 0x01 d.toNat a.toNat 0 23]
  | .ctz d a => [encFA 0x01 d.toNat a.toNat 0 24]
  | .popc d a => [encFA 0x01 d.toNat a.toNat 0 25]
  | .addi d a imm => [encFI 0x02 d.toNat a.toNat 0 imm.toNat]
  | .andi d a imm => [encFI 0x02 d.toNat a.toNat 1 imm.toNat]
  | .ori d a imm => [encFI 0x02 d.toNat a.toNat 2 imm.toNat]
  | .xori d a imm => [encFI 0x02 d.toNat a.toNat 3 imm.toNat]
  | .slli d a imm => [encFI 0x02 d.toNat a.toNat 4 imm.toNat]
  | .srli d a imm => [encFI 0x02 d.toNat a.toNat 5 imm.toNat]
  | .srai d a imm => [encFI 0x02 d.toNat a.toNat 6 imm.toNat]
  | .slti d a imm => [encFI 0x02 d.toNat a.toNat 7 imm.toNat]
  | .sltiu d a imm => [encFI 0x02 d.toNat a.toNat 8 imm.toNat]
  | .lih d imm => [encFU 0x03 d.toNat imm.toNat]
  | .addpc d imm => [encFU 0x07 d.toNat imm.toNat]
  | .liw d imm => [encFL d.toNat 0 0, imm.toNat]
  | .addiw d a imm => [encFL d.toNat a.toNat 1, imm.toNat]
  | .beq a b off => [encFB 0x04 a.toNat b.toNat 0 off.toNat]
  | .bne a b off => [encFB 0x04 a.toNat b.toNat 1 off.toNat]
  | .blt a b off => [encFB 0x04 a.toNat b.toNat 2 off.toNat]
  | .bge a b off => [encFB 0x04 a.toNat b.toNat 3 off.toNat]
  | .bltu a b off => [encFB 0x04 a.toNat b.toNat 4 off.toNat]
  | .bgeu a b off => [encFB 0x04 a.toNat b.toNat 5 off.toNat]
  | .jal d off => [encFJ 0x05 d.toNat off.toNat]
  | .jalr d a imm => [encFI 0x06 d.toNat a.toNat 0 imm.toNat]
  | .ldb d c imm => [encFM 0x08 d.toNat c.toNat 0 imm.toNat]
  | .ldh d c imm => [encFM 0x08 d.toNat c.toNat 1 imm.toNat]
  | .ldw d c imm => [encFM 0x08 d.toNat c.toNat 2 imm.toNat]
  | .ldd d c imm => [encFM 0x08 d.toNat c.toNat 3 imm.toNat]
  | .ldbu d c imm => [encFM 0x08 d.toNat c.toNat 4 imm.toNat]
  | .ldhu d c imm => [encFM 0x08 d.toNat c.toNat 5 imm.toNat]
  | .ldwu d c imm => [encFM 0x08 d.toNat c.toNat 6 imm.toNat]
  | .stb d c imm => [encFM 0x08 d.toNat c.toNat 7 imm.toNat]
  | .sth d c imm => [encFM 0x08 d.toNat c.toNat 8 imm.toNat]
  | .stw d c imm => [encFM 0x08 d.toNat c.toNat 9 imm.toNat]
  | .std d c imm => [encFM 0x08 d.toNat c.toNat 10 imm.toNat]
  | .cmov d a => [encFC 0x09 d.toNat a.toNat 0 0 0]
  | .cinc d a b => [encFC 0x09 d.toNat a.toNat b.toNat 1 0]
  | .cinci d a imm => [encFC 0x09 d.toNat a.toNat 0 2 imm.toNat]
  | .csetb d a b e => [encFC 0x09 d.toNat a.toNat b.toNat 3 e.toNat]
  | .candp d a p => [encFC 0x09 d.toNat a.toNat 0 4 p.toNat]
  | .cgetb a b => [encFC 0x09 0 a.toNat b.toNat 5 0]
  | .cgetl a b => [encFC 0x09 0 a.toNat b.toNat 6 0]
  | .cgetc a b => [encFC 0x09 0 a.toNat b.toNat 7 0]
  | .cgetp a b => [encFC 0x09 0 a.toNat b.toNat 8 0]
  | .cgett a b => [encFC 0x09 0 a.toNat b.toNat 9 0]
  | .cldc d a imm => [encFC 0x09 d.toNat a.toNat 0 10 imm.toNat]
  | .cstc d a imm => [encFC 0x09 d.toNat a.toNat 0 11 imm.toNat]
  | .waitc l sf c t => [encFW 0x0A l.toNat sf.toNat c.toNat t.toNat 0]
  | .amoadd d c b sf r w => [encFAT 0x0C d.toNat c.toNat b.toNat 0 sf.toNat r.toNat 0 w.toNat 0]
  | .amoand d c b sf r w => [encFAT 0x0C d.toNat c.toNat b.toNat 1 sf.toNat r.toNat 0 w.toNat 0]
  | .amoor d c b sf r w => [encFAT 0x0C d.toNat c.toNat b.toNat 2 sf.toNat r.toNat 0 w.toNat 0]
  | .amoxor d c b sf r w => [encFAT 0x0C d.toNat c.toNat b.toNat 3 sf.toNat r.toNat 0 w.toNat 0]
  | .amomin d c b sf r w => [encFAT 0x0C d.toNat c.toNat b.toNat 4 sf.toNat r.toNat 0 w.toNat 0]
  | .amomax d c b sf r w => [encFAT 0x0C d.toNat c.toNat b.toNat 5 sf.toNat r.toNat 0 w.toNat 0]
  | .amominu d c b sf r w => [encFAT 0x0C d.toNat c.toNat b.toNat 6 sf.toNat r.toNat 0 w.toNat 0]
  | .amomaxu d c b sf r w => [encFAT 0x0C d.toNat c.toNat b.toNat 7 sf.toNat r.toNat 0 w.toNat 0]
  | .amoswp d c b sf r w => [encFAT 0x0C d.toNat c.toNat b.toNat 8 sf.toNat r.toNat 0 w.toNat 0]
  | .amocas d c b sf r w => [encFAT 0x0C d.toNat c.toNat b.toNat 9 sf.toNat r.toNat 0 w.toNat 0]
  | .amofadd d c b sf r => [encFAT 0x0C d.toNat c.toNat b.toNat 10 sf.toNat r.toNat 0 0 0]
  | .amofmin d c b sf r => [encFAT 0x0C d.toNat c.toNat b.toNat 11 sf.toNat r.toNat 0 0 0]
  | .amofmax d c b sf r => [encFAT 0x0C d.toNat c.toNat b.toNat 12 sf.toNat r.toNat 0 0 0]
  | .amobfadd2 d c b sf r => [encFAT 0x0C d.toNat c.toNat b.toNat 13 sf.toNat r.toNat 0 0 0]
  | .redadd c b sf r w => [encFAT 0x0C 0 c.toNat b.toNat 0 sf.toNat r.toNat 1 w.toNat 0]
  | .redand c b sf r w => [encFAT 0x0C 0 c.toNat b.toNat 1 sf.toNat r.toNat 1 w.toNat 0]
  | .redor c b sf r w => [encFAT 0x0C 0 c.toNat b.toNat 2 sf.toNat r.toNat 1 w.toNat 0]
  | .redxor c b sf r w => [encFAT 0x0C 0 c.toNat b.toNat 3 sf.toNat r.toNat 1 w.toNat 0]
  | .redmin c b sf r w => [encFAT 0x0C 0 c.toNat b.toNat 4 sf.toNat r.toNat 1 w.toNat 0]
  | .redmax c b sf r w => [encFAT 0x0C 0 c.toNat b.toNat 5 sf.toNat r.toNat 1 w.toNat 0]
  | .redminu c b sf r w => [encFAT 0x0C 0 c.toNat b.toNat 6 sf.toNat r.toNat 1 w.toNat 0]
  | .redmaxu c b sf r w => [encFAT 0x0C 0 c.toNat b.toNat 7 sf.toNat r.toNat 1 w.toNat 0]
  | .redfadd c b sf r => [encFAT 0x0C 0 c.toNat b.toNat 10 sf.toNat r.toNat 1 0 0]
  | .redfmin c b sf r => [encFAT 0x0C 0 c.toNat b.toNat 11 sf.toNat r.toNat 1 0 0]
  | .redfmax c b sf r => [encFAT 0x0C 0 c.toNat b.toNat 12 sf.toNat r.toNat 1 0 0]
  | .redbfadd2 c b sf r => [encFAT 0x0C 0 c.toNat b.toNat 13 sf.toNat r.toNat 1 0 0]
  | .syncq => [encFX 0x0D 0 0 0 0 0 0]
  | .fence sf r => [encFX 0x0D 0 0 0 1 sf.toNat r.toNat]
  | .waitvis a r => [encFX 0x0D 0 a.toNat 0 2 0 r.toNat]
  | .node => [encFX 0x0D 0 0 0 3 0 0]
  | .ctrsig a b sf r => [encFX 0x0E 0 a.toNat b.toNat 0 sf.toNat r.toNat]
  | .ctrwait d a b sf r => [encFX 0x0E d.toNat a.toNat b.toNat 1 sf.toNat r.toNat]
  | .ctrrd d a => [encFX 0x0E d.toNat a.toNat 0 2 0 0]
  | .barinit c b => [encFX 0x0E 0 c.toNat b.toNat 3 0 0]
  | .bararv d c sf r => [encFX 0x0E d.toNat c.toNat 0 4 sf.toNat r.toNat]
  | .barxb d c b sf r => [encFX 0x0E d.toNat c.toNat b.toNat 5 sf.toNat r.toNat]
  | .barwait c b sf r => [encFX 0x0E 0 c.toNat b.toNat 6 sf.toNat r.toNat]
  | .bartest d c b sf r => [encFX 0x0E d.toNat c.toNat b.toNat 7 sf.toNat r.toNat]
  | .chrsv d a => [encFX 0x0E d.toNat a.toNat 0 8 0 0]
  | .chpush a b r => [encFX 0x0E 0 a.toNat b.toNat 9 0 r.toNat]
  | .chawait d a r => [encFX 0x0E d.toNat a.toNat 0 10 0 r.toNat]
  | .chrel a b => [encFX 0x0E 0 a.toNat b.toNat 11 0 0]
  | .chstat d a b => [encFX 0x0E d.toNat a.toNat b.toNat 12 0 0]
  | .launch d a r => [encFX 0x0F d.toNat a.toNat 0 0 0 r.toNat]
  | .spawn d a r => [encFX 0x0F d.toNat a.toNat 0 1 0 r.toNat]
  | .awaitch d => [encFX 0x0F d.toNat 0 0 2 0 0]
  | .gjoin d a => [encFX 0x0F d.toNat a.toNat 0 3 0 0]
  | .gleave d a => [encFX 0x0F d.toNat a.toNat 0 4 0 0]
  | .gsync a sf => [encFX 0x0F 0 a.toNat 0 5 sf.toNat 3]
  | .exit r => [encFX 0x0F 0 0 0 6 0 r.toNat]
  | .suspend k a b sf r => [encFX 0x0F k.toNat a.toNat b.toNat 7 sf.toNat r.toNat]
  | .yield => [encFX 0x0F 0 0 0 8 0 0]
  | .hintnext => [encFX 0x0F 0 0 0 9 0 0]
  | .self d l => [encFX 0x0F d.toNat l.toNat 0 10 0 0]
  | .cpy d a b => [encFX 0x10 d.toNat a.toNat b.toNat 0 0 0]
  | .cpyt d a b => [encFX 0x10 d.toNat a.toNat b.toNat 1 0 0]
  | .cpyg d a b => [encFX 0x10 d.toNat a.toNat b.toNat 2 0 0]
  | .cpys d a b => [encFX 0x10 d.toNat a.toNat b.toNat 3 0 0]
  | .cpyc d a b => [encFX 0x10 d.toNat a.toNat b.toNat 4 0 0]
  | .cpyf d a b => [encFX 0x10 d.toNat a.toNat b.toNat 5 0 0]
  | .cpyb d a b => [encFX 0x10 d.toNat a.toNat b.toNat 6 0 0]
  | .qbind c q b => [encFX 0x11 c.toNat q.toNat b.toNat 0 0 0]
  | .qaddr q b => [encFX 0x11 0 q.toNat b.toNat 1 0 0]
  | .qpops d q => [encFX 0x11 d.toNat q.toNat 0 2 0 0]
  | .qpopv v q w => [encFX 0x11 v.toNat q.toNat w.toNat 3 0 0]
  | .qpeek d q => [encFX 0x11 d.toNat q.toNat 0 4 0 0]
  | .qstat d q => [encFX 0x11 d.toNat q.toNat 0 5 0 0]
  | .qdrain q => [encFX 0x11 0 q.toNat 0 6 0 0]
  | .qfmt q b => [encFX 0x11 0 q.toNat b.toNat 7 0 0]
  | .mlease d a => [encFX 0x12 d.toNat a.toNat 0 0 0 0]
  | .mfree => [encFX 0x12 0 0 0 1 0 0]
  | .mjob d a c => [encFX 0x12 d.toNat a.toNat c.toNat 2 0 0]
  | .mstat d a => [encFX 0x12 d.toNat a.toNat 0 3 0 0]
  | .mdrain => [encFX 0x12 0 0 0 4 0 0]
  | .merrrd d a => [encFX 0x12 d.toNat a.toNat 0 5 0 0]
  | .tcfg d b => [encFT 0x13 d.toNat 0 0 b.toNat 0 0]
  | .tzero d => [encFT 0x13 d.toNat 0 0 0 1 0]
  | .tldrow d c b => [encFT 0x13 d.toNat 0 c.toNat b.toNat 2 0]
  | .tstrow a c b => [encFT 0x13 0 a.toNat c.toNat b.toNat 3 0]
  | .tld d c b => [encFT 0x13 d.toNat 0 c.toNat b.toNat 4 0]
  | .tst a c b => [encFT 0x13 0 a.toNat c.toNat b.toNat 5 0]
  | .trowv a v b => [encFT 0x13 0 a.toNat v.toNat b.toNat 6 0]
  | .tcolv a v b => [encFT 0x13 0 a.toNat v.toNat b.toNat 7 0]
  | .tvrow d v b => [encFT 0x13 d.toNat 0 v.toNat b.toNat 8 0]
  | .tvcol d v b => [encFT 0x13 d.toNat 0 v.toNat b.toNat 9 0]
  | .ttrans d a => [encFT 0x13 d.toNat a.toNat 0 0 10 0]
  | .tmma d a t => [encFT 0x13 d.toNat a.toNat 0 t.toNat 11 0]
  | .trel d => [encFT 0x13 d.toNat 0 0 0 12 0]
  | .trbind d b => [encFX 0x14 d.toNat 0 b.toNat 0 0 0]
  | .trwait c a b r => [encFX 0x14 c.toNat a.toNat b.toNat 1 0 r.toNat]
  | .trinfo d a => [encFX 0x14 d.toNat a.toNat 0 2 0 0]
  | .trdone => [encFX 0x14 0 0 0 3 0 0]
  | .trhold d a => [encFX 0x14 d.toNat a.toNat 0 4 0 0]
  | .trskip d a => [encFX 0x14 d.toNat a.toNat 0 5 0 0]
  | .trnext d a b => [encFX 0x14 d.toNat a.toNat b.toNat 6 0 0]
  | .trqry d a => [encFX 0x14 d.toNat a.toNat 0 7 0 0]
  | .tagdecl d a b sf => [encFX 0x15 d.toNat a.toNat b.toNat 0 sf.toNat 0]
  | .tagpub a r => [encFX 0x15 0 a.toNat 0 1 0 r.toNat]
  | .tagwait a r => [encFX 0x15 0 a.toNat 0 2 0 r.toNat]
  | .tagqry d a => [encFX 0x15 d.toNat a.toNat 0 3 0 0]
  | .tagret a => [encFX 0x15 0 a.toNat 0 4 0 0]
  | .coll b => [encFX 0x16 0 0 b.toNat 0 0 0]
  | .tkcommit d b => [encFX 0x16 d.toNat 0 b.toNat 1 0 0]
  | .tkput a b => [encFX 0x16 0 a.toNat b.toNat 2 0 0]
  | .wpset d a b => [encFX 0x16 d.toNat a.toNat b.toNat 3 0 0]
  | .wpclr d a => [encFX 0x16 d.toNat a.toNat 0 4 0 0]
  | .wprd d a b => [encFX 0x16 d.toNat a.toNat b.toNat 5 0 0]
  | .seqst d a b => [encFX 0x16 d.toNat a.toNat b.toNat 6 0 0]
  | .vfadd d a b k n => [encFV 0x18 d.toNat a.toNat b.toNat k.toNat n.toNat 0]
  | .vfsub d a b k n => [encFV 0x18 d.toNat a.toNat b.toNat k.toNat n.toNat 1]
  | .vfmul d a b k n => [encFV 0x18 d.toNat a.toNat b.toNat k.toNat n.toNat 2]
  | .vfma d a b k n => [encFV 0x18 d.toNat a.toNat b.toNat k.toNat n.toNat 3]
  | .vfms d a b k n => [encFV 0x18 d.toNat a.toNat b.toNat k.toNat n.toNat 4]
  | .vfnma d a b k n => [encFV 0x18 d.toNat a.toNat b.toNat k.toNat n.toNat 5]
  | .vfnms d a b k n => [encFV 0x18 d.toNat a.toNat b.toNat k.toNat n.toNat 6]
  | .vfmin d a b k n => [encFV 0x18 d.toNat a.toNat b.toNat k.toNat n.toNat 7]
  | .vfmax d a b k n => [encFV 0x18 d.toNat a.toNat b.toNat k.toNat n.toNat 8]
  | .vfminm d a b k n => [encFV 0x18 d.toNat a.toNat b.toNat k.toNat n.toNat 9]
  | .vfmaxm d a b k n => [encFV 0x18 d.toNat a.toNat b.toNat k.toNat n.toNat 10]
  | .vfabs d a k => [encFV 0x18 d.toNat a.toNat 0 k.toNat 0 11]
  | .vfneg d a k => [encFV 0x18 d.toNat a.toNat 0 k.toNat 0 12]
  | .vfsgnj d a b k => [encFV 0x18 d.toNat a.toNat b.toNat k.toNat 0 13]
  | .vfdiv d a b k n => [encFV 0x18 d.toNat a.toNat b.toNat k.toNat n.toNat 14]
  | .vfsqrt d a k n => [encFV 0x18 d.toNat a.toNat 0 k.toNat n.toNat 15]
  | .vfrcp d a k n => [encFV 0x19 d.toNat a.toNat 0 k.toNat n.toNat 0]
  | .vfrsq d a k n => [encFV 0x19 d.toNat a.toNat 0 k.toNat n.toNat 1]
  | .vfexp2 d a k n => [encFV 0x19 d.toNat a.toNat 0 k.toNat n.toNat 2]
  | .vflog2 d a k n => [encFV 0x19 d.toNat a.toNat 0 k.toNat n.toNat 3]
  | .vftanh d a k n => [encFV 0x19 d.toNat a.toNat 0 k.toNat n.toNat 4]
  | .vfceq d a b k n => [encFV 0x1A d.toNat a.toNat b.toNat k.toNat n.toNat 0]
  | .vfcne d a b k n => [encFV 0x1A d.toNat a.toNat b.toNat k.toNat n.toNat 1]
  | .vfclt d a b k n => [encFV 0x1A d.toNat a.toNat b.toNat k.toNat n.toNat 2]
  | .vfcle d a b k n => [encFV 0x1A d.toNat a.toNat b.toNat k.toNat n.toNat 3]
  | .vfcun d a b k n => [encFV 0x1A d.toNat a.toNat b.toNat k.toNat n.toNat 4]
  | .vceq d a b k => [encFV 0x1A d.toNat a.toNat b.toNat k.toNat 0 5]
  | .vcne d a b k => [encFV 0x1A d.toNat a.toNat b.toNat k.toNat 0 6]
  | .vclt d a b k => [encFV 0x1A d.toNat a.toNat b.toNat k.toNat 0 7]
  | .vcle d a b k => [encFV 0x1A d.toNat a.toNat b.toNat k.toNat 0 8]
  | .vcltu d a b k => [encFV 0x1A d.toNat a.toNat b.toNat k.toNat 0 9]
  | .vcleu d a b k => [encFV 0x1A d.toNat a.toNat b.toNat k.toNat 0 10]
  | .vadd d a b k => [encFV 0x1B d.toNat a.toNat b.toNat k.toNat 0 0]
  | .vsub d a b k => [encFV 0x1B d.toNat a.toNat b.toNat k.toNat 0 1]
  | .vadds d a b k => [encFV 0x1B d.toNat a.toNat b.toNat k.toNat 0 2]
  | .vsubs d a b k => [encFV 0x1B d.toNat a.toNat b.toNat k.toNat 0 3]
  | .vmul d a b k => [encFV 0x1B d.toNat a.toNat b.toNat k.toNat 0 4]
  | .vmulh d a b k => [encFV 0x1B d.toNat a.toNat b.toNat k.toNat 0 5]
  | .vmulhu d a b k => [encFV 0x1B d.toNat a.toNat b.toNat k.toNat 0 6]
  | .vmin d a b k => [encFV 0x1B d.toNat a.toNat b.toNat k.toNat 0 7]
  | .vmax d a b k => [encFV 0x1B d.toNat a.toNat b.toNat k.toNat 0 8]
  | .vminu d a b k => [encFV 0x1B d.toNat a.toNat b.toNat k.toNat 0 9]
  | .vmaxu d a b k => [encFV 0x1B d.toNat a.toNat b.toNat k.toNat 0 10]
  | .vabs d a k => [encFV 0x1B d.toNat a.toNat 0 k.toNat 0 11]
  | .vand d a b k => [encFV 0x1C d.toNat a.toNat b.toNat k.toNat 0 0]
  | .vor d a b k => [encFV 0x1C d.toNat a.toNat b.toNat k.toNat 0 1]
  | .vxor d a b k => [encFV 0x1C d.toNat a.toNat b.toNat k.toNat 0 2]
  | .vandn d a b k => [encFV 0x1C d.toNat a.toNat b.toNat k.toNat 0 3]
  | .vnot d a k => [encFV 0x1C d.toNat a.toNat 0 k.toNat 0 4]
  | .vsll d a b k => [encFV 0x1C d.toNat a.toNat b.toNat k.toNat 0 5]
  | .vsrl d a b k => [encFV 0x1C d.toNat a.toNat b.toNat k.toNat 0 6]
  | .vsra d a b k => [encFV 0x1C d.toNat a.toNat b.toNat k.toNat 0 7]
  | .vpopc d a k => [encFV 0x1C d.toNat a.toNat 0 k.toNat 0 8]
  | .vclz d a k => [encFV 0x1C d.toNat a.toNat 0 k.toNat 0 9]
  | .vcvt d a t r k n => [encFV 0x1D d.toNat a.toNat (t.toNat * 4 + r.toNat) k.toNat n.toNat 0]
  | .vcvtsat d a t r k n => [encFV 0x1D d.toNat a.toNat (t.toNat * 4 + r.toNat) k.toNat n.toNat 1]
  | .vqfp4 d a k n => [encFV 0x1D d.toNat a.toNat 21 k.toNat n.toNat 2]
  | .vdqfp4 d a t r k n => [encFV 0x1D d.toNat a.toNat (t.toNat * 4 + r.toNat) k.toNat n.toNat 3]
  | .vqfp8 d a t r k n => [encFV 0x1D d.toNat a.toNat (t.toNat * 4 + r.toNat) k.toNat n.toNat 4]
  | .vblksc d a k n => [encFV 0x1D d.toNat a.toNat 20 k.toNat n.toNat 5]
  | .vbndsc d a k n => [encFV 0x1D d.toNat a.toNat 4 k.toNat n.toNat 6]
  | .vperm d a b k => [encFV 0x1E d.toNat a.toNat b.toNat k.toNat 0 0]
  | .vslideup d a b k => [encFV 0x1E d.toNat a.toNat b.toNat k.toNat 0 1]
  | .vslidedn d a b k => [encFV 0x1E d.toNat a.toNat b.toNat k.toNat 0 2]
  | .vziplo d a b k => [encFV 0x1E d.toNat a.toNat b.toNat k.toNat 0 3]
  | .vziphi d a b k => [encFV 0x1E d.toNat a.toNat b.toNat k.toNat 0 4]
  | .vrev d a k => [encFV 0x1E d.toNat a.toNat 0 k.toNat 0 5]
  | .vcompr d a k => [encFV 0x1E d.toNat a.toNat 0 k.toNat 0 6]
  | .vexpnd d a k => [encFV 0x1E d.toNat a.toNat 0 k.toNat 0 7]
  | .vsel d a b k => [encFV 0x1E d.toNat a.toNat b.toNat k.toNat 0 8]
  | .vrsum d a k n => [encFV 0x1F d.toNat a.toNat 0 k.toNat n.toNat 0]
  | .vrmax d a k n => [encFV 0x1F d.toNat a.toNat 0 k.toNat n.toNat 1]
  | .vrmin d a k n => [encFV 0x1F d.toNat a.toNat 0 k.toNat n.toNat 2]
  | .vrmaxi d a k n => [encFV 0x1F d.toNat a.toNat 0 k.toNat n.toNat 3]
  | .vrmini d a k n => [encFV 0x1F d.toNat a.toNat 0 k.toNat n.toNat 4]
  | .vscans d a k n => [encFV 0x1F d.toNat a.toNat 0 k.toNat n.toNat 5]
  | .vrand d a k => [encFV 0x1F d.toNat a.toNat 0 k.toNat 0 6]
  | .vror d a k => [encFV 0x1F d.toNat a.toNat 0 k.toNat 0 7]
  | .vtopk d a b k n => [encFV 0x1F d.toNat a.toNat b.toNat k.toNat n.toNat 8]
  | .vspc d a n k => [encFV 0x20 d.toNat a.toNat n.toNat k.toNat 0 0]
  | .vspx d a n k f => [encFV 0x20 d.toNat a.toNat n.toNat k.toNat f.toNat 1]
  | .vbpt d a => [encFV 0x20 d.toNat a.toNat 0 0 0 2]
  | .vbpu d a => [encFV 0x20 d.toNat a.toNat 0 0 0 3]
  | .vld d c b k => [encFVM 0x21 d.toNat 0 c.toNat b.toNat k.toNat 0]
  | .vst d c b k => [encFVM 0x21 d.toNat 0 c.toNat b.toNat k.toNat 1]
  | .vlds d sf c b k => [encFVM 0x21 d.toNat sf.toNat c.toNat b.toNat k.toNat 2]
  | .vsts d sf c b k => [encFVM 0x21 d.toNat sf.toNat c.toNat b.toNat k.toNat 3]
  | .vgth d a c b k => [encFVM 0x24 d.toNat a.toNat c.toNat b.toNat k.toNat 0]
  | .vsct d a c b k => [encFVM 0x24 d.toNat a.toNat c.toNat b.toNat k.toNat 1]
  | .vsctadd d a c b k => [encFVM 0x24 d.toNat a.toNat c.toNat b.toNat k.toNat 2]
  | .vldb d c b k => [encFVM 0x24 d.toNat 0 c.toNat b.toNat k.toNat 3]
  | .kand d a b => [encFV 0x22 d.toNat a.toNat b.toNat 0 0 0]
  | .kor d a b => [encFV 0x22 d.toNat a.toNat b.toNat 0 0 1]
  | .kxor d a b => [encFV 0x22 d.toNat a.toNat b.toNat 0 0 2]
  | .knot d a => [encFV 0x22 d.toNat a.toNat 0 0 0 3]
  | .kpop d a => [encFV 0x22 d.toNat a.toNat 0 0 0 4]
  | .kfirst d a => [encFV 0x22 d.toNat a.toNat 0 0 0 5]
  | .kset d a => [encFV 0x22 d.toNat a.toNat 0 0 0 6]
  | .kmov d a => [encFV 0x22 d.toNat a.toNat 0 0 0 7]
  | .vsett sf m t => [encFV 0x23 0 (sf.toNat * 8 + m.toNat) (t.toNat * 4) 0 0 0]
  | .vmvs d a b => [encFV 0x23 d.toNat a.toNat b.toNat 0 0 1]
  | .vmve d a k => [encFV 0x23 d.toNat a.toNat 0 k.toNat 0 2]
  | .vins d a b => [encFV 0x23 d.toNat a.toNat b.toNat 0 0 3]
  | .vid d k => [encFV 0x23 d.toNat 0 0 k.toNat 0 4]
  | .vrng d a k => [encFV 0x23 d.toNat a.toNat 0 k.toNat 0 5]
  | .vgumb d a b k n => [encFV 0x23 d.toNat a.toNat b.toNat k.toNat n.toNat 6]
  | .vflgrd d => [encFV 0x23 d.toNat 0 0 0 0 7]
  | .vflgclr => [encFV 0x23 0 0 0 0 0 8]
  | .vmov d a k => [encFV 0x23 d.toNat a.toNat 0 k.toNat 0 9]
  | .ctlrd d r => [encFI 0x3C d.toNat 0 0 r.toNat]
  | .ctlwr d a r => [encFI 0x3C d.toNat a.toNat 1 r.toNat]
  | .ctlset d a r => [encFI 0x3C d.toNat a.toNat 2 r.toNat]
  | .ctlclr d a r => [encFI 0x3C d.toNat a.toNat 3 r.toNat]
  | .eret a => [encFX 0x3D 0 a.toNat 0 0 0 0]
  | .wfi a => [encFX 0x3D 0 a.toNat 0 1 0 0]
  | .tlbinv a b sf => [encFX 0x3D 0 a.toNat b.toNat 2 sf.toNat 0]
  | .ctxsv d a c => [encFX 0x3D d.toNat a.toNat c.toNat 3 0 0]
  | .ctxld d a c => [encFX 0x3D d.toNat a.toNat c.toNat 4 0 0]
  | .quardr d a => [encFX 0x3D d.toNat a.toNat 0 5 0 0]
  | .halt a => [encFX 0x3D 0 a.toNat 0 6 0 0]
  | .nop => [encFX 0x3E 0 0 0 0 0 0]
  | .trap a => [encFX 0x3E 0 a.toNat 0 1 0 0]
  | .brk => [encFX 0x3E 0 0 0 2 0 0]
  | .ifence => [encFX 0x3E 0 0 0 3 0 0]
  | .illegalInstruction w long => if long then [w.toNat % 2 ^ 32, w.toNat / 2 ^ 32] else [w.toNat % 2 ^ 32]
  | .trapEntry _ _ => []
  | .pmarkWrite _ _ _ => []
  | .efqResume _ _ => []
  | .efqAbort _ _ => []
  | .seqclrStop _ _ => []
  | .seqclrWait _ _ => []
  | .segmentEmission _ => []
  | .firstEmission _ => []
  | .segmentArrival _ _ => []
  | .expansionCheck _ _ => []
  | .originReturnCheck _ => []
  | .homeCopyRestore _ _ => []
  | .slotRetire _ _ => []
  | .slackExpiry _ _ => []
  | .taskPlacement _ => []
  | .bankSwap _ _ _ => []
  | .queueEntryFetch _ _ => []
  | .prestartReport _ _ => []
  | .startRelease _ => []
  | .kernelComplete _ => []
  | .launchKill _ => []
  | .nodePreemption _ _ _ => []
  | .suspendWaitComplete _ => []
  | .forcedEviction _ _ _ => []
  | .evictionRestore _ => []
  | .gangReserveTimeout _ => []
  | .coreError _ _ => []
  | .spareSubstitution _ _ => []
  | .barrierWatchdog _ _ _ => []
  | .copyStart _ _ _ _ => []
  | .copyComplete _ _ _ _ => []
  | .cpytRelease _ _ _ => []
  | .cpybSlotReserve _ _ _ _ => []
  | .streamReadIssue _ _ _ _ => []
  | .streamElementArrival _ _ _ _ => []
  | .matrixLeaseGrant _ _ => []
  | .matrixJobStart _ _ => []
  | .matrixJobComplete _ _ => []
  | .storePerformAtHome _ => []
  | .remoteLoadReturn _ _ _ => []
  | .atomicPerformAtHome _ => []
  | .trbindDecision _ _ _ => []
  | .collContribution _ _ _ => []
  | .collDelivery _ => []
  | .spillScan _ => []
  | .tokenFrameClose _ => []
  | .tsHeadWrite _ _ => []
  | .doorbell _ _ _ => []
  | .map _ _ _ _ _ _ => []
  | .unmap _ _ _ => []
  | .destroy _ _ _ => []
  | .pload _ _ => []
  | .migrate _ _ _ _ => []
  | .migrateComplete _ _ => []
  | .coreset _ _ _ _ => []
  | .movecont _ _ _ _ => []
  | .grant _ _ _ _ _ _ => []
  | .revoke _ _ => []
  | .almset _ _ => []
  | .chcreate _ _ _ _ _ => []
  | .chfree _ _ _ _ => []
  | .rform _ _ _ _ _ => []
  | .rload _ _ _ _ => []
  | .rstart _ _ _ _ => []
  | .rslack _ _ _ => []
  | .rstop _ _ => []
  | .rstopComplete _ => []
  | .rjoin _ _ _ => []
  | .ringLinkDead _ _ => []
  | .missingSegmentReload _ _ => []
  | .bypassLaneRequest _ _ => []
  | .timeFlitSend => []
  | .timeFlitReceive _ _ _ => []
  | .heartbeat _ => []
  | .fabricLinkDead _ => []
  | .eclipseNotice _ _ _ _ _ _ _ => []
  | .routeRedraw _ => []
  | .fabricRequest _ _ _ _ => []
  | .fabricResponse _ => []
  | .groupset _ _ _ _ => []
  | .groupclr _ _ _ => []
  | .ownerset _ _ => []
  | .tsring _ _ _ _ _ => []
  | .readRoutingEntry _ _ => []
  | .pcieLinkDown _ => []
  | .patrolScrub _ => []
  | .powerRequest _ _ _ => []
  | .powerStateEntry => []
  | .powerStateExit => []
  | .droopStretch _ _ => []
  | .freeze => []
  | .freezeReadout => []
  | .reset => []
  | .attestationReport _ _ => []
  | .taskKill _ _ _ => []
  | .trwaitDeadline _ _ _ => []
  | .wfiDeadline _ _ => []
  | .fabricAdmission _ _ _ => []
  | .pcieLinkUp _ => []
  | .cheadWrite _ _ _ => []
  | .firmwareContextRestart _ _ _ => []
  | .linkLevelReplay _ => []

/-- The word of an instruction as TVAL holds it: a long form's second word in bits 63:32 (R149). -/
def tvalWord (i : Instr) : Word :=
  match encode i with
  | [w] => BitVec.ofNat 64 w
  | w :: x :: _ => BitVec.ofNat 64 (x * 2 ^ 32 + w)
  | [] => 0

/-- The bytes an instruction takes in memory: 4, or 8 for a long form, 0 for a device step (R138, R139). -/
def ilen (i : Instr) : Nat := 4 * (encode i).length

end Sys2Proof
end

