-- ==== Sys2Proof/Config.lean ====
section
/-! DEFINITION. Constants of the package (R9) and the free values: what the manual leaves open is an opaque
constant without a body, so that no proof can see its value. -/

namespace Sys2Proof.Config

/-- Extra ticks that pass in the step with this number, beyond the one every step takes (log 1). -/
opaque freeTicks : Nat → Nat
/-- Extra arithmetic-clock cycles that pass in the step with this number (R72, log 1). -/
opaque freeCycles : Nat → Nat
/-- Whether a translation cache that holds a stale entry still answers with it at this step (R405, log 9). -/
opaque staleHit : Nat → Bool
/-- A 64-bit value the manual does not state, drawn at this step (log 11). -/
opaque freeWord : Nat → BitVec 64
/-- A byte the manual does not state: the one with this number of those drawn at this step (log 11). -/
opaque freeByte : Nat → Nat → BitVec 8
/-- ECDSA P-384 verification: public key, message digest, signature (R449, log 13). -/
opaque ecdsaVerify : List Byte → BitVec 384 → List Byte → Bool
/-- ECDSA P-384 signature by the device's identity key (R450, R451, log 13). -/
opaque ecdsaSign : BitVec 384 → BitVec 768
/-- The fused hash of the firmware's public key (R449). -/
opaque fusedKeyHash : BitVec 384

/-- Compute dies of the package (R9). -/
def dies : Nat := 8
/-- Active cores of a die (R9). -/
def cores : Nat := 16
/-- Task slots of a core (R9). -/
def slots : Nat := 4
/-- Scratchpad bytes of a core, 24 MiB (R9). -/
def scratchBytes : Nat := 0x1800000
/-- Resident-store bytes of a die, 768 MiB (R9). -/
def residentBytes : Nat := 0x30000000
/-- Bytes of a meridian slot, 16 MiB (R9). -/
def slotBytes : Nat := 0x1000000
/-- Continuation records a die's pool holds (R51 gives no size, log 5). -/
def contPool : Nat := 4096

end Sys2Proof.Config
end

