-- ==== Sys2Proof/Machine/Float.lean ====
section
/-! DEFINITION. Floating-point formats and exact arithmetic with one rounding (R79–R93): a finite number is a sign, a
natural mantissa and a power of two; every result is an exact real, given as a mantissa, an exponent and a sticky bit
for what lies strictly between two mantissas, and is rounded once. -/

namespace Sys2Proof.Machine

/-- The five flags of R74 and R91: NX 1, UF 2, OF 4, DZ 8, NV 16. -/
abbrev Flags5 := BitVec 5

/-- NX (R91). -/
def fNX : Flags5 := 1
/-- UF (R91). -/
def fUF : Flags5 := 2
/-- OF (R91). -/
def fOF : Flags5 := 4
/-- DZ (R91). -/
def fDZ : Flags5 := 8
/-- NV (R91). -/
def fNV : Flags5 := 16

/-- A floating-point layout (R79): width, fraction bits, bias, whether it has infinities, the code of the largest
finite value and the canonical NaN (R80; E2M1 has none and uses +0). -/
structure Fmt where
  w : Nat
  M : Nat
  bias : Nat
  hasInf : Bool
  maxCode : Nat
  nan : Nat
deriving DecidableEq, Repr, Inhabited

/-- FP32 (R79). -/
def fp32 : Fmt := ⟨32, 23, 127, true, 0x7F7FFFFF, 0x7FC00000⟩
/-- BF16 (R79). -/
def bf16 : Fmt := ⟨16, 7, 127, true, 0x7F7F, 0x7FC0⟩
/-- FP16 (R79). -/
def fp16 : Fmt := ⟨16, 10, 15, true, 0x7BFF, 0x7E00⟩
/-- FP8 E4M3 (R79). -/
def e4m3 : Fmt := ⟨8, 3, 7, false, 0x7E, 0x7F⟩
/-- FP8 E5M2 (R79). -/
def e5m2 : Fmt := ⟨8, 2, 15, true, 0x7B, 0x7E⟩
/-- FP4 E2M1 (R79, R81). -/
def e2m1 : Fmt := ⟨4, 1, 1, false, 0x7, 0x0⟩

/-- The format of a floating-point type code (R143). -/
def fmtOf (t : Nat) : Fmt :=
  if t = 0 then fp32 else if t = 1 then bf16 else if t = 2 then fp16 else if t = 3 then e4m3
  else if t = 4 then e5m2 else e2m1

/-- Bits of an element of a type code (R143). -/
def typeBits (t : Nat) : Nat :=
  if t = 0 || t = 8 then 32 else if t = 1 || t = 2 || t = 9 then 16 else if t = 3 || t = 4 || t = 10 then 8 else 4

/-- A type code is an integer format (R143). -/
def isIntType (t : Nat) : Bool := 8 ≤ t && t ≤ 11

/-- A decoded floating-point value (R79, R80): a finite one is ±m × 2^e. -/
inductive FVal where
  | fin (neg : Bool) (m : Nat) (e : Int)
  | inf (neg : Bool)
  | nan (signalling : Bool)
deriving DecidableEq, Repr, Inhabited

/-- The sign bit of a code. -/
def Fmt.sign (f : Fmt) (x : Nat) : Bool := bitOf x (f.w - 1)
/-- A code without its sign bit. -/
def Fmt.mag (f : Fmt) (x : Nat) : Nat := x % 2 ^ (f.w - 1)
/-- A code with the sign bit given. -/
def Fmt.withSign (f : Fmt) (neg : Bool) (mag : Nat) : Nat := (if neg then 2 ^ (f.w - 1) else 0) + mag
/-- The exponent of a unit in the last place of the subnormals. -/
def Fmt.qmin (f : Fmt) : Int := 1 - (f.bias : Int) - f.M

/-- Decode a code (R79, R80, R81). -/
def Fmt.decode (f : Fmt) (x : Nat) : FVal :=
  let neg := f.sign x
  let e := f.mag x / 2 ^ f.M
  let m := f.mag x % 2 ^ f.M
  if f.hasInf && e = 2 ^ (f.w - 1 - f.M) - 1 then
    if m = 0 then .inf neg else .nan (m / 2 ^ (f.M - 1) = 0)
  else if f.w = 8 && !f.hasInf && f.mag x = 0x7F then .nan false
  else if e = 0 then .fin neg m f.qmin
  else .fin neg (m + 2 ^ f.M) (f.qmin + e - 1)

/-- The infinity of a sign, or the largest finite value where the format has none. -/
def Fmt.infinity (f : Fmt) (neg : Bool) : Nat :=
  f.withSign neg (if f.hasInf then (2 ^ (f.w - 1 - f.M) - 1) * 2 ^ f.M else f.maxCode)

/-- `a × 2^e ≤ b × 2^g` for naturals. -/
def scaledLe (a : Nat) (e : Int) (b : Nat) (g : Int) : Bool :=
  if e ≤ g then a ≤ b * 2 ^ (g - e).toNat else a * 2 ^ (e - g).toNat ≤ b

/-- Whether a mode rounds the magnitude up: `r` of `2^d` with a sticky bit lies above the even or odd neighbour
(R88). -/
def roundsUp (mode : Nat) (neg odd : Bool) (r d : Nat) (st : Bool) : Bool :=
  let half := 2 ^ d / 2
  let inexact := r ≠ 0 || st
  if mode = 0 then r > half || (r = half && d ≠ 0 && (st || odd))
  else if mode = 1 then false
  else if mode = 2 then neg && inexact
  else if mode = 3 then !neg && inexact
  else r ≥ half && d ≠ 0

/-- A real rounded in a mode with an unbounded exponent above the subnormals: mantissa and its exponent, whether the
result differs from the real, and whether the real is tiny (R88, R90). The real is (m + δ) × 2^e, 0 < δ < 1 exactly
when `st`; a sticky real has more bits than the format. -/
def Fmt.quantize (f : Fmt) (mode : Nat) (neg : Bool) (m : Nat) (e : Int) (st : Bool) : Nat × Int × Bool × Bool :=
  let top := e + (Nat.log2 m : Int)
  let q := if m = 0 then max f.qmin (e + 1) else max (top - f.M) f.qmin
  let tiny := (m ≠ 0 || st) && (m = 0 || top < f.qmin + f.M)
  if q ≤ e then (m * 2 ^ (e - q).toNat, q, st, tiny)
  else
    let d := (q - e).toNat
    let n := m / 2 ^ d
    let r := m % 2 ^ d
    ((if roundsUp mode neg (n % 2 = 1) r d st then n + 1 else n), q, r ≠ 0 || st, tiny)

/-- The code of `n × 2^q` where `n` has at most one bit more than the fraction. -/
def Fmt.pack (f : Fmt) (neg : Bool) (n : Nat) (q : Int) : Nat :=
  f.withSign neg (if n = 0 then 0 else (q - f.qmin).toNat * 2 ^ f.M + n)

/-- Whether `n × 2^q` is above the largest finite value (R90). -/
def Fmt.tooBig (f : Fmt) (n : Nat) (q : Int) : Bool :=
  match f.decode f.maxCode with
  | .fin _ mm me => !scaledLe n q mm me
  | _ => false

/-- The overflow result of a mode (R88). -/
def Fmt.overflow (f : Fmt) (mode : Nat) (neg : Bool) : Nat :=
  if mode = 1 || (mode = 2 && !neg) || (mode = 3 && neg) then f.withSign neg f.maxCode else f.infinity neg

/-- Round an exact real once (R88–R91): the code and the flags. -/
def Fmt.round (f : Fmt) (mode : Nat) (neg : Bool) (m : Nat) (e : Int) (st : Bool) : Nat × Flags5 :=
  if m = 0 && !st then (f.withSign neg 0, 0)
  else
    match f.quantize mode neg m e st with
    | (n, q, inexact, tiny) =>
      if f.tooBig n q then (f.overflow mode neg, fOF ||| fNX)
      else (f.pack neg n q, (if inexact then fNX else 0) ||| (if inexact && tiny then fUF else 0))

/-- Round ±num/den × 2^e once; den is not zero. -/
def Fmt.roundRat (f : Fmt) (mode : Nat) (neg : Bool) (num den : Nat) (e : Int) : Nat × Flags5 :=
  let k := 80 + Nat.log2 den
  f.round mode neg (num * 2 ^ k / den) (e - k) (num * 2 ^ k % den ≠ 0)

/-- Bring two numbers to one exponent and add them: the signed sum and the exponent. -/
def addExact (an : Bool) (am : Nat) (ae : Int) (bn : Bool) (bm : Nat) (be : Int) : Int × Int :=
  let e := min ae be
  let x : Int := (am * 2 ^ (ae - e).toNat : Nat)
  let y : Int := (bm * 2 ^ (be - e).toNat : Nat)
  ((if an then -x else x) + (if bn then -y else y), e)

/-- Round the sum of two finite numbers; an exact zero takes the sign of R89. -/
def Fmt.roundSum (f : Fmt) (mode : Nat) (an : Bool) (am : Nat) (ae : Int) (bn : Bool) (bm : Nat) (be : Int) :
    Nat × Flags5 :=
  match addExact an am ae bn bm be with
  | (x, e) =>
    if x = 0 then (f.withSign (if an = bn then an else mode = 2) 0, 0)
    else f.round mode (x < 0) x.natAbs e false

/-- NV when an operand is a signalling NaN (R91, R92). -/
def FVal.snan : FVal → Flags5
  | .nan true => fNV
  | _ => 0

/-- A value is a NaN. -/
def FVal.isNan : FVal → Bool
  | .nan _ => true
  | _ => false

/-- The sign of a value. -/
def FVal.neg : FVal → Bool
  | .fin n _ _ => n
  | .inf n => n
  | .nan _ => false

/-- A value with its sign turned. -/
def FVal.turn (b : Bool) : FVal → FVal
  | .fin n m e => .fin (n != b) m e
  | .inf n => .inf (n != b)
  | .nan s => .nan s

/-- a + b, rounded once (R89, R91, R92). -/
def Fmt.addV (f : Fmt) (mode : Nat) (a b : FVal) : Nat × Flags5 :=
  match a, b with
  | .fin an am ae, .fin bn bm be => f.roundSum mode an am ae bn bm be
  | .inf an, .inf bn => if an = bn then (f.infinity an, 0) else (f.nan, fNV)
  | .inf an, .fin .. => (f.infinity an, 0)
  | .fin .., .inf bn => (f.infinity bn, 0)
  | .nan _, _ => (f.nan, a.snan ||| b.snan)
  | _, .nan _ => (f.nan, a.snan ||| b.snan)

/-- a × b, rounded once. -/
def Fmt.mulV (f : Fmt) (mode : Nat) (a b : FVal) : Nat × Flags5 :=
  match a, b with
  | .fin an am ae, .fin bn bm be => f.round mode (an != bn) (am * bm) (ae + be) false
  | .inf an, .inf bn => (f.infinity (an != bn), 0)
  | .inf an, .fin bn bm _ => if bm = 0 then (f.nan, fNV) else (f.infinity (an != bn), 0)
  | .fin an am _, .inf bn => if am = 0 then (f.nan, fNV) else (f.infinity (an != bn), 0)
  | .nan _, _ => (f.nan, a.snan ||| b.snan)
  | _, .nan _ => (f.nan, a.snan ||| b.snan)

/-- The exact product of two values, and whether it is 0 × ∞. -/
def mulExact (a b : FVal) : FVal × Bool :=
  match a, b with
  | .fin an am ae, .fin bn bm be => (.fin (an != bn) (am * bm) (ae + be), false)
  | .inf an, .inf bn => (.inf (an != bn), false)
  | .inf an, .fin bn bm _ => if bm = 0 then (.nan false, true) else (.inf (an != bn), false)
  | .fin an am _, .inf bn => if am = 0 then (.nan false, true) else (.inf (an != bn), false)
  | .nan _, _ => (.nan false, false)
  | _, .nan _ => (.nan false, false)

/-- ±(a × b) ± d, rounded once; 0 × ∞ is invalid even when d is a quiet NaN (R183). -/
def Fmt.fmaV (f : Fmt) (mode : Nat) (np nd : Bool) (a b d : FVal) : Nat × Flags5 :=
  match mulExact a b with
  | (p, bad) =>
    let fl := a.snan ||| b.snan ||| d.snan ||| (if bad then fNV else 0)
    if p.isNan || d.isNan then (f.nan, fl) else f.addV mode (p.turn np) (d.turn nd)

/-- a / b, rounded once (R183). -/
def Fmt.divV (f : Fmt) (mode : Nat) (a b : FVal) : Nat × Flags5 :=
  match a, b with
  | .fin an am ae, .fin bn bm be =>
    if bm = 0 then if am = 0 then (f.nan, fNV) else (f.infinity (an != bn), fDZ)
    else f.roundRat mode (an != bn) am bm (ae - be)
  | .inf _, .inf _ => (f.nan, fNV)
  | .inf an, .fin bn _ _ => (f.infinity (an != bn), 0)
  | .fin an _ _, .inf bn => (f.withSign (an != bn) 0, 0)
  | .nan _, _ => (f.nan, a.snan ||| b.snan)
  | _, .nan _ => (f.nan, a.snan ||| b.snan)

/-- The integer square root, bit by bit from bit `i`. -/
def isqrtFrom : Nat → Nat → Nat → Nat
  | 0, n, r => if (r + 1) * (r + 1) ≤ n then r + 1 else r
  | i + 1, n, r => isqrtFrom i n (if (r + 2 ^ (i + 1)) * (r + 2 ^ (i + 1)) ≤ n then r + 2 ^ (i + 1) else r)

/-- ⌊√n⌋. -/
def isqrt (n : Nat) : Nat := isqrtFrom (Nat.log2 n / 2 + 1) n 0

/-- Widen a positive mantissa for a root: more than 120 bits and an even exponent. -/
def rootForm (m : Nat) (e : Int) : Nat × Int :=
  if e % 2 = 0 then (m * 2 ^ 240, e - 240) else (m * 2 ^ 241, e - 241)

/-- √a, rounded once (R183). -/
def Fmt.sqrtV (f : Fmt) (mode : Nat) (a : FVal) : Nat × Flags5 :=
  match a with
  | .fin n m e =>
    if m = 0 then (f.withSign n 0, 0)
    else if n then (f.nan, fNV)
    else
      match rootForm m e with
      | (x, g) => f.round mode false (isqrt x) (g / 2) (isqrt x * isqrt x ≠ x)
  | .inf n => if n then (f.nan, fNV) else (f.infinity false, 0)
  | .nan _ => (f.nan, a.snan)

/-- 1 / a, rounded once (R185). -/
def Fmt.rcpV (f : Fmt) (mode : Nat) (a : FVal) : Nat × Flags5 :=
  match a with
  | .fin n m e => if m = 0 then (f.infinity n, fDZ) else f.roundRat mode n 1 m (-e)
  | .inf n => (f.withSign n 0, 0)
  | .nan _ => (f.nan, a.snan)

/-- 1 / √a, rounded once (R185): ⌊√(2^600 / x)⌋ is the root of the reciprocal to more bits than any format has. -/
def Fmt.rsqV (f : Fmt) (mode : Nat) (a : FVal) : Nat × Flags5 :=
  match a with
  | .fin n m e =>
    if m = 0 then (f.infinity n, fDZ)
    else if n then (f.nan, fNV)
    else
      let x := if e % 2 = 0 then m else m * 2
      let g := if e % 2 = 0 then e else e - 1
      let r := isqrt (2 ^ 600 / x)
      f.round mode false r (-300 - g / 2) (r * r * x ≠ 2 ^ 600)
  | .inf n => if n then (f.nan, fNV) else (f.withSign false 0, 0)
  | .nan _ => (f.nan, a.snan)

/-! ### Transcendental functions: certified bounds, then one rounding (R185, log 12)

Bounds are numbers in units of 2^−p, for any precision p; a result is rounded once they leave no doubt. -/

/-- Round a real known to lie strictly between `lo` and `hi` units of 2^e, when both ends round alike. -/
def Fmt.within (f : Fmt) (mode : Nat) (lo hi e : Int) : Option (Nat × Flags5) :=
  let ends := fun (neg : Bool) (a b : Nat) =>
    let x := f.round mode neg a e true
    if x = f.round mode neg (b - 1) e true then some x else none
  if 0 ≤ lo then ends false lo.toNat hi.toNat
  else if hi ≤ 0 then ends true hi.natAbs lo.natAbs
  else none

/-- The rounded result at the first precision 640 × n, 640 × (n + 1), … whose bounds (lo, hi, e) settle it; no result of these
functions lies on a boundary of rounding, so that one does (log 12). -/
def Fmt.settleFrom (f : Fmt) (mode : Nat) (bounds : Nat → Int × Int × Int) : Nat → Nat → Nat × Flags5
  | 0, n => f.round mode ((bounds (640 * n)).1 < 0) (bounds (640 * n)).1.natAbs (bounds (640 * n)).2.2 true
  | k + 1, n =>
    match f.within mode (bounds (640 * n)).1 (bounds (640 * n)).2.1 (bounds (640 * n)).2.2 with
    | some x => x
    | none => f.settleFrom mode bounds k (n + 1)

/-- The rounded result of a real given by its bounds at every precision. -/
def Fmt.settle (f : Fmt) (mode : Nat) (bounds : Nat → Int × Int × Int) : Nat × Flags5 := f.settleFrom mode bounds (2 ^ 64) 1

/-- Taylor terms of exp y for y in fixed point: `n` counts terms. -/
def expSum (p : Nat) : Nat → Nat → Nat → Nat → Nat → Nat
  | 0, _, _, _, acc => acc
  | k + 1, n, y, term, acc =>
    let t := term * y / 2 ^ p / n
    expSum p k (n + 1) y t (acc + t)

/-- A lower bound of exp(y/2^p) × 2^p for 0 ≤ y < 2^p; the value lies less than `slackUnits` above. -/
def expFix (p y : Nat) : Nat := expSum p (p / 4 + 10) 1 y (2 ^ p) (2 ^ p)

/-- Σ z^(2k+1)/(2k+1) in fixed point, z² given. -/
def atanhSum (p : Nat) : Nat → Nat → Nat → Nat → Nat → Nat
  | 0, _, _, _, acc => acc
  | k + 1, n, z2, pow, acc => atanhSum p k (n + 2) z2 (pow * z2 / 2 ^ p) (acc + pow / n)

/-- A lower bound of ln(x/2^p) × 2^p for 2^p ≤ x < 2^(p+1); the value lies less than `slackUnits` above. -/
def lnFix (p x : Nat) : Nat :=
  let z := (x - 2 ^ p) * 2 ^ p / (x + 2 ^ p)
  2 * atanhSum p (p / 3 + 4) 1 (z * z / 2 ^ p) z 0

/-- ⌊ln 2 × 2^640⌋. -/
def ln2At640 : Nat :=
  ((0xb17217f7d1cf79abc9e3b39803f2f6af40f34326 * 2 ^ 160 + 0x7298b62d8a0d175b8baafa2be7b876206debac98) * 2 ^ 160 + 0x559552fb4afa1b10ed2eae35c138214427573b29) * 2 ^ 160 +
    0x1169b8253e96ca16224ae8c51acbda11317c387e

/-- A lower bound of ln 2 × 2^p, less than 2 below: 2 × artanh(1/3), with 64 guard bits. -/
def ln2Low (p : Nat) : Nat :=
  if p = 640 then ln2At640 else 2 * atanhSum (p + 64) (p / 3 + 30) 1 (2 ^ (p + 64) / 9) (2 ^ (p + 64) / 3) 0 / 2 ^ 64

/-- Units of 2^−p by which a bound may fall short. -/
def slackUnits (p : Nat) : Nat := 2 ^ 24 * (p / 640)

/-- The value ±m × 2^e as a fixed-point number, cut toward −∞. -/
def toFix (p : Nat) (neg : Bool) (m : Nat) (e : Int) : Int :=
  let x : Int := if neg then -(m : Int) else m
  if 0 ≤ e + p then x * (2 ^ (e + p).toNat : Nat) else x / (2 ^ (-(e + p)).toNat : Nat)

/-- Bounds of 2^(k + r/2^640) for r < 2^640, in units of 2^(k − p). -/
def exp2Bounds (k : Int) (r p : Nat) : Int × Int × Int :=
  let lo := expFix p (r * 2 ^ (p - 640) * ln2Low p / 2 ^ p)
  (lo, lo + slackUnits p, k - p)

/-- 2^a, rounded once (R185). -/
def Fmt.exp2V (f : Fmt) (mode : Nat) (a : FVal) : Nat × Flags5 :=
  match a with
  | .fin n m e =>
    if m = 0 then f.round mode false 1 0 false
    else if 10 ≤ e + (Nat.log2 m : Int) then f.round mode false (2 ^ 60) (if n then -1084 else 1024) true
    else
      let x := toFix 640 n m e
      let k := x / (2 ^ 640 : Nat)
      let r := (x % (2 ^ 640 : Nat)).toNat
      if r = 0 then f.round mode false 1 k false else f.settle mode (exp2Bounds k r)
  | .inf n => if n then (f.withSign false 0, 0) else (f.infinity false, 0)
  | .nan _ => (f.nan, a.snan)

/-- A number in [1, 2) in fixed point: m × 2^−⌊log2 m⌋. -/
def unitFix (p m : Nat) : Nat := if Nat.log2 m ≤ p then m * 2 ^ (p - Nat.log2 m) else m / 2 ^ (Nat.log2 m - p)

/-- Bounds of log2(m × 2^e) for m > 0, in units of 2^−p. -/
def log2Bounds (m : Nat) (e : Int) (p : Nat) : Int × Int × Int :=
  let lo := (e + Nat.log2 m) * (2 ^ p : Nat) + ((lnFix p (unitFix p m) * 2 ^ p / (ln2Low p + 2) : Nat) : Int)
  (lo, lo + slackUnits p, -(p : Int))

/-- log2 a, rounded once (R185). -/
def Fmt.log2V (f : Fmt) (mode : Nat) (a : FVal) : Nat × Flags5 :=
  match a with
  | .fin n m e =>
    if m = 0 then (f.infinity true, fDZ)
    else if n then (f.nan, fNV)
    else if 2 ^ Nat.log2 m = m then
      let k := e + (Nat.log2 m : Int)
      f.round mode (k < 0) k.natAbs 0 false
    else f.settle mode (log2Bounds m e)
  | .inf n => if n then (f.nan, fNV) else (f.infinity false, 0)
  | .nan _ => (f.nan, a.snan)

/-- Bounds of tanh |x| with sign for x = m × 2^e: (E − 1)/(E + 1) with E = exp 2|x| = 2^k × exp r, in units of 2^−p. -/
def tanhBounds (neg : Bool) (m : Nat) (e : Int) (p : Nat) : Int × Int × Int :=
  let x := (toFix p false m (e + 1)).toNat
  let k := x / (ln2Low p + 2)
  let r := x - k * (ln2Low p + 2)
  let lo := expFix p r * 2 ^ k
  let hi := (expFix p r + slackUnits p) * 2 ^ k
  let a : Int := ((lo - 2 ^ p) * 2 ^ p / (lo + 2 ^ p) : Nat)
  let b : Int := ((hi - 2 ^ p) * 2 ^ p / (hi + 2 ^ p) + 1 : Nat)
  if neg then (-b, -a, -(p : Int)) else (a, b, -(p : Int))

/-- tanh a, rounded once (R185). -/
def Fmt.tanhV (f : Fmt) (mode : Nat) (a : FVal) : Nat × Flags5 :=
  match a with
  | .fin n m e =>
    if m = 0 then (f.withSign n 0, 0)
    else if 8 ≤ e + (Nat.log2 m : Int) then f.round mode n (2 ^ 640 - 1) (-640) true
    else f.settle mode (tanhBounds n m e)
  | .inf n => f.round mode n 1 0 false
  | .nan _ => (f.nan, a.snan)

/-! ### Minimum, maximum and compares -/

/-- The place of a number in the order that puts −0 below +0. -/
def Fmt.rank (f : Fmt) (x : Nat) : Int := if f.sign x then -(f.mag x : Int) - 1 else f.mag x

/-- The minimum and maximum forms (R184): `max` chooses the larger, `byMag` compares magnitudes first. -/
def Fmt.minmax (f : Fmt) (max byMag : Bool) (x y : Nat) : Nat × Flags5 :=
  let a := f.decode x
  let b := f.decode y
  let fl := a.snan ||| b.snan
  if a.isNan && b.isNan then (f.nan, fl)
  else if a.isNan then (y, fl)
  else if b.isNan then (x, fl)
  else
    let less := if byMag && f.mag x ≠ f.mag y then f.mag x < f.mag y else f.rank x ≤ f.rank y
    ((if less = max then y else x), fl)

/-- a < b for numbers, −0 equal to +0. -/
def Fmt.lt (f : Fmt) (x y : Nat) : Bool :=
  if f.mag x = 0 && f.mag y = 0 then false else f.rank x < f.rank y

/-- a = b for numbers, −0 equal to +0. -/
def Fmt.eq (f : Fmt) (x y : Nat) : Bool := x = y || (f.mag x = 0 && f.mag y = 0)

end Sys2Proof.Machine
end

