-- ==== Sys2Proof/Machine/State.lean ====
section
/-! DEFINITION. The state of one Lertan L8 package as plain data, the faults and refusals a step can end with,
and the state right after reset. INVENTORY.md lists every field with its rule. -/

namespace Sys2Proof.Machine

/-- Why a step stops the machine. -/
inductive Fault where
  /-- The boot ROM halted the I/O die after a failed secure boot and nothing is left to do (R449). Raised by
  `step`. Safe: the hardware stays halted. -/
  | bootHalted
  /-- Every clock is stopped by a freeze and no read-out or reset is asked for (R448). Raised by `step`. Safe. -/
  | frozen
deriving DecidableEq, Repr

/-- Why a step has no meaning. -/
inductive Refusal where
  /-- An instruction without a meaning yet. Raised by `exec` alone. Safe: the hardware goes on. -/
  | notModelled (mnemonic : String)
deriving DecidableEq, Repr

/-- The trap causes of R367. -/
inductive Cause where
  | none | illegal | privileged | capTag | capBounds | capPerm | capSpace | misaligned | translation
  | accessDenied | memUncorrectable | tileUnconfigured | transitExpired | tagStale | barrierOverrun
  | barrierStall | channelPoisoned | engineError | gangFault | sequenceTrap | leaseViolation
  | trapInstruction | breakpoint | streamUnbound | replayBlocked | killed
deriving DecidableEq, Repr, Inhabited

/-- A capability register: 128 bits and the hidden tag (R63, R99). -/
structure Cap where
  bits : BitVec 128
  tag : Bool
deriving DecidableEq, Repr, Inhabited

/-- The null capability (R63). -/
def Cap.null : Cap := ⟨0, false⟩

/-- One element of a stream: its bytes, or the trap its pop takes, with its address; and whether it sets MEMERR or OOB
when it arrives (R294). -/
structure QElem where
  data : List Byte
  mark : Cause
  addr : Word
  memErr : Bool
  oob : Bool
deriving DecidableEq, Repr, Inhabited

/-- A stream register (R71, R293–R297): binding, format words, queues, column runs of the panel being built, panels built
and popped, a read stalled in the engine-fault queue, sticky bits; `diverted` are the reads that an eviction diverted to the quarantine, where
each keeps the place of its data-queue element (R393). -/
structure Stream where
  bound : Bool
  cap : Cap
  card : List Byte
  src : BitVec 16
  sink : BitVec 16
  aq : List Word
  inflight : List QElem
  diverted : List QElem
  dq : List QElem
  runs : List (List Byte)
  panels : Nat
  popped : Nat
  faulted : Bool
  memErr : Bool
  oob : Bool
  cvf : BitVec 5
  /-- The bytes of the panel under way that are written (R114, R297). -/
  laid : List Nat
deriving DecidableEq, Repr, Inhabited

/-- An unbound stream (R71). -/
def Stream.unbound : Stream := ⟨false, Cap.null, [], 0, 0, [], [], [], [], [], 0, 0, false, false, false, 0, []⟩

/-- Vector, mask, flag and type registers of a context (R62, R72, R74). -/
structure VecRegs where
  v : Vector VBits 64
  k : Vector KBits 8
  vtype : BitVec 4
  vrm : BitVec 3
  vflg : BitVec 320
deriving DecidableEq, Repr

/-- The vector state at task entry (R38). -/
def VecRegs.entry : VecRegs :=
  ⟨Vector.replicate 64 0, Vector.replicate 8 0, 0, 0, 0⟩

/-- Tile registers with their shapes and dirty bits (R68–R70). -/
structure TileRegs where
  rows : Vector (Vector VBits 64) 8
  shape : Vector Word 8
  dirty : BitVec 8
deriving DecidableEq, Repr

/-- The tiles at task entry: unconfigured (R38). -/
def TileRegs.entry : TileRegs :=
  ⟨Vector.replicate 8 (Vector.replicate 64 0), Vector.replicate 8 0, 0⟩

/-- A token record in the mailbox (R320). -/
structure TokRec where
  part : Nat
  src : Nat
  token : Nat
  stamp : Nat
deriving DecidableEq, Repr, Inhabited

/-- What an entry of a store queue other than a store or an atomic does when it is performed: a fence or the release of a
reduction nothing more; a signal its effect; a push fills its slot; an engine command is accepted (R119, R121, R128, R269). -/
inductive Act where
  | fence
  | signal (ctr inc : Nat)
  | push (chan slot : Nat)
  | copy (eng seq : Nat)
  | job (id : Nat)
  | coll
  | token (r : TokRec)
deriving DecidableEq, Repr

/-- An access held in a store queue or buffer until it is performed at its home (R115, R119). `ord` is the number of its
instruction in its context and `ctx` the context; location keys name home locations. A store lists its bytes, whether it sets
the tag of its granule, and whether it is the last of a tile store, whose completion OUTC counts (R224); an atomic element keeps
the stay of its task in its slot, for OUTC, and the access, for the fault queue (R254); an act waits for every older access of its
task to be performed at its scope. -/
inductive Pending where
  | store (ord ctx : Nat) (cells : List Host.Cell) (tag tile : Bool)
  | atomic (ord ctx stay loc op : Nat) (wide vector : Bool) (v : Word) (space part launch : Nat) (addr : Word)
  | act (ord ctx scope : Nat) (a : Act)
deriving DecidableEq, Repr

/-- Where the result of a load goes (R119): a scalar register, extended from `n` bytes; a capability register, with the tag
if it is kept; elements of `n` bytes of a vector register; rows of a tile of a shape. -/
inductive LoadDest where
  | scalar (d : SReg) (n : Nat) (signed : Bool)
  | cap (d : CReg) (keep : Bool)
  | vector (d : VReg) (n : Nat)
  | tile (d : TReg) (shape : Word)
deriving DecidableEq, Repr

/-- One single-copy-atomic unit of a load: its number, its location, and its value once performed (R114). -/
structure LoadElem where
  index : Nat
  key : Nat
  got : Option Nat
deriving DecidableEq, Repr, Inhabited

/-- An entry of a load queue: a load issued and not yet performed, the number and the address of its instruction, the
space and the bytes of its units (R119, R168). -/
structure LoadRec where
  ord : Nat
  pc : Word
  space : Nat
  n : Nat
  dest : LoadDest
  elems : List LoadElem
deriving DecidableEq, Repr

/-- States of a task slot as SLOTST shows them (R363), and a slot that a gang has reserved and not started in, which it shows empty
(R36, R49). -/
inductive SlotStatus where
  | empty | ready | blocked | trapped | held | reserved
deriving DecidableEq, Repr, Inhabited

/-- What a slot records of a trap (R364). -/
structure TrapRec where
  cause : Cause
  tpc : Word
  tval : Word
  ilen : Nat
  tick : Nat
deriving DecidableEq, Repr, Inhabited

/-- The batch descriptor of a transit task, its members with their rows (R44, R45, R305). -/
structure TransitInfo where
  image : Nat
  tag : Nat
  slot : Nat
  fill : Nat
  batches : Nat
  deadline : Nat
  done : Bool
  members : List (Nat × Nat)
deriving DecidableEq, Repr

/-- What a BLOCKED task waits for, with what its instruction named when it issued (R31, R261): a counter's value, a stage
barrier's phase, a slot to reserve or to take, a publication, a lease, the reads in flight of a stream that then becomes another, quiet before a SUSPEND, the wait of a SUSPEND that stays in its
slot, or an instruction that asks again. -/
inductive Wait where
  | counter (d : SReg) (key : Nat) (thr ref : Word)
  | barrier (key token : Nat) (addr : Word)
  | reserve (d : SReg) (chan : Nat)
  | take (d : SReg) (chan : Nat)
  | tag (part word : Nat)
  | lease (d : SReg)
  | drain (q : QReg) (z : Stream)
  | suspend (mask : Word) (kind : Nat) (x thr : Word) (scope : Nat)
  | stay (kind : Nat) (x thr : Word)
  | again (i : Instr)
deriving DecidableEq, Repr

/-- What a slot keeps of its task besides the registers: identity, launch parameters, region (R30, R33, R39). `uid` is
the model's own number of the task, kept while the task lives, and `stay` that of its present stay in a slot; `spawned` lists the chains its SPAWNs started since its
last AWAITCH (R272, R273), and `lead` is the launch of the first record of its chain or gang (R47). -/
structure TaskInfo where
  uid : Nat
  stay : Nat
  part : Nat
  launch : Nat
  chain : Nat
  taskId : Nat
  tileX : Nat
  tileY : Nat
  tileZ : Nat
  groups : Word
  livex : Nat
  region : Nat
  scratch : Nat
  extX : Nat
  extY : Nat
  extZ : Nat
  arcFirst : Nat
  arcLen : Nat
  ring : Nat
  code : Nat
  codeLen : Nat
  entry : Nat
  args : List Word
  transit : Option TransitInfo
  gang : Bool
  gated : Bool
  lead : Nat
  spawned : List Nat
  sideEffect : Bool
  gangPend : Option Nat
  derr : Bool
  gsync : Option (Nat × Nat)
  waiting : Option Nat
  wait : Option Wait
  atNode : Bool
  launching : Option Nat
  keyWait : Option (CReg × Nat)
  heldChans : List (Nat × Nat × Bool)
  /-- The largest value of CYCLES that the task has read (R73). -/
  cyclesRead : Nat := 0
deriving DecidableEq, Repr

/-- No task. -/
def TaskInfo.none : TaskInfo where
  uid := 0
  stay := 0
  part := 0
  launch := 0
  chain := 0
  taskId := 0
  tileX := 0
  tileY := 0
  tileZ := 0
  groups := 0
  livex := 0
  region := 0
  scratch := 0
  extX := 0
  extY := 0
  extZ := 0
  arcFirst := 0
  arcLen := 0
  ring := 0
  code := 0
  codeLen := 0
  entry := 0
  args := []
  transit := Option.none
  gang := false
  gated := false
  lead := 0
  spawned := []
  sideEffect := false
  gangPend := Option.none
  derr := false
  gsync := Option.none
  waiting := Option.none
  wait := Option.none
  atNode := false
  launching := Option.none
  keyWait := Option.none
  heldChans := []

/-- One hardware context: a task slot, or the firmware context of a core (R32, R62, R359). `issued` counts its
instructions, `forwarded` those before the end of the last store that one of its loads has forwarded from, and `loads` and `stores` are its load and store queues (R119). -/
structure Hart where
  status : SlotStatus
  pc : Word
  s : Vector Word 32
  c : Vector Cap 16
  vec : VecRegs
  tile : TileRegs
  q : Vector Stream 8
  task : TaskInfo
  trap : TrapRec
  issued : Nat
  forwarded : Nat
  loads : List LoadRec
  stores : List Pending
  ahead : List (Nat × BitVec 32)
  age : Nat
  quar : List (Nat × List Byte)
deriving DecidableEq, Repr

/-- An empty slot; also the registers of a firmware context before anything writes them (R38, log 3). -/
def Hart.fresh : Hart where
  status := .empty
  pc := 0
  s := Vector.replicate 32 0
  c := Vector.replicate 16 Cap.null
  vec := VecRegs.entry
  tile := TileRegs.entry
  q := Vector.replicate 8 Stream.unbound
  task := TaskInfo.none
  trap := ⟨.none, 0, 0, 0, 0⟩
  issued := 0
  forwarded := 0
  loads := []
  stores := []
  ahead := []
  age := 0
  quar := []

/-- A pair of parameter banks: the chain it serves, the launches of its active and shadow records, and an older
record whose tasks still run after an early swap (R39–R41). -/
structure BankPair where
  chain : Option Nat
  active : Option Nat
  shadow : Option Nat
  older : Option Nat
deriving DecidableEq, Repr, Inhabited

/-- One sequence trap waiting for its core (R374). -/
structure SeqTrap where
  slot : Nat
  tpc : Word
  seq : Nat
  die : Nat
  pos : Nat
deriving DecidableEq, Repr

/-- One entry of a core's engine-fault queue (R373). -/
structure EngFault where
  cause : Cause
  engine : Nat
  stream : Bool
  slot : Nat
  addr : Word
  num : Nat
  tick : Nat
  entered : Bool
deriving DecidableEq, Repr

/-- Supervisor control registers and the rest of a core outside its slots (R359–R365); `groups` counts the instruction groups that the
task slots have ended since the firmware context last issued, and `midGroup` says that one is under way (R360); `efqHeld` are the faults
of engines that found the engine-fault queue full and stall until an entry frees (R373). -/
structure Core where
  tcause : Word
  tpc : Word
  tval : Word
  tvec : Word
  fwepc : Word
  fwshare : Word
  tactive : Bool
  hxlat : Bool
  pmark : BitVec 4
  traps : List Nat
  seqTraps : List SeqTrap
  efq : List EngFault
  efqHeld : List EngFault
  fwcause : Word
  fwpc : Word
  fwval : Word
  failed : Bool
  retired : Bool
  wfi : Option Nat
  groups : Nat
  midGroup : Bool
  banks : List BankPair
  cycle0 : Nat
deriving DecidableEq, Repr

/-- A core after reset (R363: FWSHARE 16, the rest 0; TVEC comes from boot, log 3). -/
def Core.reset : Core where
  tcause := 0
  tpc := 0
  tval := 0
  tvec := 0
  fwepc := 0
  fwshare := 16
  tactive := false
  hxlat := false
  pmark := 0
  traps := []
  seqTraps := []
  efq := []
  efqHeld := []
  fwcause := 0
  fwpc := 0
  fwval := 0
  failed := false
  retired := false
  wfi := none
  groups := 0
  midGroup := false
  banks := []
  cycle0 := 0

/-- A signal to a counter: its number in the package and the increment (R279, R317). -/
structure Signal where
  ctr : Nat
  inc : Nat
deriving DecidableEq, Repr, Inhabited

/-- States of an engine command; an ended one has only its signal left to apply. -/
inductive CmdState where
  | queued | running | stalled | ended
deriving DecidableEq, Repr, Inhabited

/-- A meridian slot as it stood when the card of a command that reads it was checked (R134): the slot and its fill, the
bytes and the uncorrectable words of its storage, counted from its start. -/
structure Snap where
  slot : Nat
  fill : Nat
  cells : List Host.Cell
  bad : List Nat
deriving DecidableEq, Repr, Inhabited

/-- A copy command (R278–R291): the card and index list as read at issue; `stay` is the stay of its task that issued it,
`taken` that its engine has accepted it (R121), `got` the source elements read, `done` and `extra` the destination units disposed of,
`piece` the slot it holds of a channel and the first unit that goes there. -/
structure CopyCmd where
  kind : Nat
  seq : Nat
  card : List Byte
  cardOff : Nat
  idx : List Nat
  src : Cap
  dst : Cap
  pattern : Word
  chan : Nat
  region : Nat
  part : Nat
  task : Nat × Nat
  stay : Nat
  taken : Bool
  wait : Option (Nat × Nat)
  signal : Option Signal
  tick : Nat
  late : Bool
  meridian : Option Snap
  state : CmdState
  done : Nat
  extra : List Nat
  got : SMap Nat
  bytes : Nat
  flags : Nat
  issue : Nat
  piece : Option (Nat × Nat)
  accepted : Nat
deriving DecidableEq, Repr

/-- One engine context of a task slot: its commands in issue order and the next sequence number. -/
structure CopyCtx where
  cmds : List CopyCmd
  next : Nat
deriving DecidableEq, Repr, Inhabited

/-- A matrix job (R234–R237, R244). `state` is the STATE code of MSTAT (R244); `stay` and `taken` as for a copy; `die` is that of the
task at issue, whose counters the card names; of the pass under way, the steps done, the 32 biases once read, and the output elements
written. -/
structure Job where
  id : Nat
  card : List Byte
  region : Nat
  part : Nat
  slot : Nat
  die : Nat
  task : Nat × Nat
  stay : Nat
  taken : Bool
  meridian : Option Snap
  state : Nat
  pass : Nat
  step : Nat
  bias : List Nat
  outs : List Nat
  flags : Nat
deriving DecidableEq, Repr

/-- A core's lease context: accumulator blocks of 1,024 words (unlisted ones hold zeros), owner, jobs, job numbering (R236, R238, R244). -/
structure LeaseCtx where
  acc : SMap (List (BitVec 32))
  owner : Option (Nat × Nat)
  jobs : List Job
  next : Nat
deriving DecidableEq, Repr, Inhabited

/-- A lease held on an array: the context it was granted to and the task, jobs still to issue and still to complete, and whether it
kept the accumulators (R238, R241). A task evicted with its lease holds it until it resumes (R358). -/
structure Lease where
  core : Nat
  slot : Nat
  task : Nat × Nat
  toIssue : Nat
  toRun : Nat
  kept : Bool
deriving DecidableEq, Repr

/-- A request for a lease (R239, R241); a restored task brings its saved lease context (R246). -/
structure LeaseReq where
  core : Nat
  slot : Nat
  run : Nat
  keep : Bool
  transit : Bool
  restore : Option LeaseCtx
deriving DecidableEq, Repr

/-- A cluster's matrix array (R238, R239, R247). -/
structure Array_ where
  lease : Option Lease
  reqs : List LeaseReq
  lastTransit : Nat
  lastOrdinary : Nat
  log : List (Nat × Word)
deriving DecidableEq, Repr

/-- An idle array: the next grant looks first at core 0. -/
def Array_.idle : Array_ := ⟨none, [], 3, 3, []⟩

/-- A COLL command (R319), `stay` and `taken` as for a copy: `result` is what its turn will deliver, empty for an error. -/
structure CollCmd where
  card : List Byte
  region : Nat
  part : Nat
  task : Nat × Nat
  stay : Nat
  taken : Bool
  wait : Option (Nat × Nat)
  signal : Option Signal
  contributed : Bool
  result : Option (List Byte)
deriving DecidableEq, Repr

/-- Slot states of a channel (R268): 0 FREE, 1 RESERVED, 2 FILLED, 3 TAKEN. -/
structure ChSlot where
  state : Nat
  stamp : Nat
deriving DecidableEq, Repr, Inhabited

/-- A channel descriptor (R268, R413, R414). -/
structure Channel where
  part : Nat
  base : Nat
  size : Nat
  depth : Nat
  rsv : Nat
  take : Nat
  scope : Nat
  rank : Nat
  srcFmt : BitVec 16
  sinkFmt : BitVec 16
  poison : Bool
  gang : Option Nat
  grant : Option (Nat × Nat × Nat × Nat)
  slots : SMap ChSlot
  waiters : List Nat
deriving DecidableEq, Repr

/-- One watch slot of a sequence (R316). -/
structure Watch where
  armed : Bool
  len : Nat
  action : Nat
  ninj : Nat
  once : Bool
  note : Nat
  remain : Nat
  pat : List Nat
  inj : List Nat
  hits : Nat
deriving DecidableEq, Repr, Inhabited

/-- One entry of a die's sequence table (R24, R308, R310). -/
structure SeqEntry where
  state : Nat
  image : Nat
  nextTag : Nat
  input : Option Nat
  rows : Nat
  ready : Nat
  pos : Nat
  hist : List Nat
  parked : Option Signal
  last : Word
  watch : Vector Watch 10
  part : Nat
deriving DecidableEq, Repr

/-- A free entry (R308). -/
def SeqEntry.free : SeqEntry where
  state := 7
  image := 0
  nextTag := 0
  input := none
  rows := 1
  ready := 0
  pos := 0
  hist := []
  parked := none
  last := 0
  watch := Vector.replicate 10 ⟨false, 0, 0, 0, false, 0, 0, [], [], 0⟩
  part := 0

/-- A transit-table entry (R301). -/
structure Binding where
  launch : Nat
  entry : Nat
  scratch : Nat
  cost : Nat
  user : List Word
  bseq : Nat
  brows : Nat
  bcnt : Nat
deriving DecidableEq, Repr

/-- A TRBIND whose decision is still to come: who waits, for which register, the record and the dies asked (R302). -/
structure BindReq where
  ctx : CtxId
  dest : SReg
  record : List Byte
  launch : Nat
  dies : List Nat
deriving DecidableEq, Repr

/-- A meridian slot (R20, R304). `state`: 0 EMPTY, 1 FILLING, 2 PRESENT, 3 HELD, 4 RETIRING; `entry` is the entry of its ring's rotation
order whose segment it takes. -/
structure MSlot where
  state : Nat
  fill : Nat
  image : Nat
  tag : Nat
  present : Nat
  deadline : Nat
  opens : Nat
  holds : Nat
  fmt : Nat
  planes : Nat
  xbytes : Nat
  ring : Nat
  entry : Nat
  retireAt : Nat
  incoming : List Byte
deriving DecidableEq, Repr, Inhabited

/-- A waiter on a readiness tag: the context of a blocked TAGWAIT, a task of a gated launch, a sequence of the table, a suspended task
(R389). -/
inductive TagWaiter where
  | slot (key : Nat)
  | gated (launch index : Nat)
  | seq (key : Nat)
  | cont (id : Nat)
deriving DecidableEq, Repr

/-- A readiness handle of a partition (R313): `state` 0 FREE, 1 DECLARED, 2 PUBLISHED; the dies that hold an entry
and those where it has spilled. -/
structure TagRec where
  state : Nat
  gen : Nat
  retired : Nat
  scope : Nat
  dies : List Nat
  spilled : List Nat
  /-- The waiters on the spill record: each with its die and tag word (R389, R390). -/
  late : List (Nat × Nat × TagWaiter) := []
deriving DecidableEq, Repr, Inhabited

/-- An open phase of a constellation: roster and arrivals (R47). Tasks are (launch, task id). -/
structure Phase where
  launch : Nat
  id : Nat
  number : Nat
  roster : List (Nat × Nat)
  arrived : List (Nat × Nat)
deriving DecidableEq, Repr

/-- The agent that found an uncorrectable word (R112, R330): a task's scalar access or fetch, its vector or tile access, a
copy engine, a stream on an engine, a collective engine, the matrix array, a transit receiver, the patrol scrub, a walker, the
dispatcher, the atomic or write unit of the home. -/
inductive Reader where
  | task | vector | collective | array | receiver | scrub | walker | dispatcher | home
  | copy (eng : Nat)
  | stream (eng q : Nat)
deriving DecidableEq, Repr, Inhabited

/-- Entry of a die's memory-error log (R112). -/
structure MemErr where
  line : Nat
  agent : Reader
  core : Nat
  tick : Nat
deriving DecidableEq, Repr

/-- What one die holds outside cores and memories (R9, R21, R112, R115, R420). -/
structure Die where
  slack : Nat
  period : Nat
  imageBase : Nat
  ephemeris : SMap Nat
  missing : List Nat
  integrity : Nat
  overrun : Nat
  malformed : Nat
  corrected : Nat
  stretch : Nat
  lag : Nat
  errs : List MemErr
  errOverflow : Nat
  outbound : List Pending
deriving DecidableEq, Repr

/-- A die after reset: no image region, empty buffers (log 4). -/
def Die.reset : Die := ⟨0, 0, Config.residentBytes, [], [], 0, 0, 0, 0, 0, 0, [], 0, []⟩

/-- Where a chain came from: a host queue entry, or a LAUNCH or SPAWN of a task (R376, R272). -/
inductive ChainSource where
  | host (die hwq qid entry : Nat)
  | task (ctx : CtxId) (launch : Nat) (spawn : Bool)
deriving DecidableEq, Repr

/-- States of a chain (R384). -/
inductive ChainState where
  | checking | refused | aborted | running | killing | draining | complete
deriving DecidableEq, Repr, Inhabited

/-- A chain of launch records (R35, R384): where its first record lies, the records once read, the launch id of the
first, the tag words of each record as its check read them (R42), what its dies reported, and what its tasks came to: how many ended by
EXIT, how many failed, the lowest failed task as (record, index, cause), and the counts of its completion entry. `since` is the tick its
records were read, then the step it was released in; `reserving` says that lower placements are held back (R388), `reserved` that its gangs
have their slots and descriptors (R36, R49). -/
structure Chain where
  part : Nat
  addr : Nat
  recs : List (List Byte)
  tags : List (List Nat)
  first : Nat
  prio : Option Nat
  source : ChainSource
  state : ChainState
  status : Nat
  reports : List (Nat × Nat)
  since : Nat
  reserving : Bool
  reserved : Bool
  ended : Nat
  failed : Nat
  lowFail : Option (Nat × Nat × Nat)
  derrs : Nat
  rfaults : Nat
  faulted : List Nat := []
deriving DecidableEq, Repr

/-- One record of a running chain (R37, R43, R384): task i is not yet placed iff `next ≤ i` and `i` is not in
`skipped`; `posted` is the number of the last reduction it has in the partition fault queue (R398);
`args` are the words of its argument block (R33), `tags` its tag words (R42); `others` are the packages that have reported their part of
its arc complete (R257). -/
structure Launch where
  chain : Nat
  index : Nat
  record : List Byte
  part : Nat
  next : Nat
  skipped : List Nat
  posted : Nat
  args : List Word
  tags : List Nat
  others : List Nat := []
deriving DecidableEq, Repr

/-- A transit task selected but not yet placed (R25, R27). -/
structure TransitTask where
  die : Nat
  launch : Nat
  info : TransitInfo
  present : Nat
  index : Nat
  binding : Binding
deriving DecidableEq, Repr

/-- A suspended task: the context as it resumes, its home core, its wait, whether that is over, and the trap it ended in
if it failed (R51–R53, R276); `since` is the step it became eligible in (R387), `record` the number of its continuation record in the
pool of its home die, and `mask` its live mask. -/
structure Cont where
  hart : Hart
  home : Nat × Nat
  kind : Nat
  object : Word
  threshold : Word
  complete : Bool
  since : Nat
  fate : Option (Cause × Word)
  mask : Word
  record : Nat
deriving DecidableEq, Repr

/-- A task saved at a NODE or by forced eviction, or to be replayed (R54, R78, R391, R392, R396): the context, the slot it
left, its save slot, whose image it is restored from, a lease to ask for again and its saved lease context, and the step it became
eligible in (R387). -/
structure Saved where
  hart : Hart
  left : CtxId
  evicted : Bool
  replay : Bool
  saveSlot : Option Nat
  lease : Option (Nat × LeaseCtx)
  since : Nat
deriving DecidableEq, Repr

/-- States of a hardware queue (R382). -/
inductive HwState where
  | unmapped | idle | fetch | wait | check | unmapping
deriving DecidableEq, Repr, Inhabited

/-- A hardware queue with its cached descriptor, the threshold that its head entry waits for (R377, R279), and the counter
of an UNMAP under way (R376, R379). -/
structure HwQueue where
  state : HwState
  part : Nat
  qid : Nat
  desc : Nat
  ring : Nat
  size : Nat
  prio : Nat
  cring : Nat
  csize : Nat
  head : Nat
  thr : Nat
  chain : Option Nat
  unmapCtr : Nat
deriving DecidableEq, Repr, Inhabited

/-- The wake latch of a software queue, where its descriptor lies, and whether its wake notice is posted (R378, R380). -/
structure Latch where
  tail : Nat
  pend : Bool
  hold : Bool
  desc : Option Nat
  hwq : Option Nat
  noticed : Bool
deriving DecidableEq, Repr, Inhabited

/-- A partition as the dispatchers cache it (R408): the 256 bytes of its descriptor, and what the device counts. -/
structure Partition where
  desc : List Byte
  view : List Byte
  active : Bool
  posted : Nat
  disposed : Nat
  saveUsed : List Nat
  orphaned : Bool
deriving DecidableEq, Repr, Inhabited

/-- A cached table entry that an access may still use (R404, R405). `core` 16 stands for the die's second level
and walkers. `path` is the virtual address down to the entry's level. -/
structure XEntry where
  die : Nat
  core : Nat
  part : Nat
  space : Nat
  level : Nat
  path : Nat
  entry : Nat
deriving DecidableEq, Repr

/-- A migration under way (R406). -/
structure Migration where
  part : Nat
  va : Nat
  leaf : Nat
  old : Nat
  new : Nat
  ctr : Nat
deriving DecidableEq, Repr

/-- A segment's home copy: good; being restored, which holds back emission (R454); its home die lost, to be reloaded
(R426); or in no region (R426, R454). -/
inductive HomeState where
  | good | restoring | lost | absent | dropped
deriving DecidableEq, Repr, Inhabited

/-- One segment of a ring's rotation order: its tag, home position, size, host address and place in the image region
(R15, R418). -/
structure Home where
  tag : Nat
  home : Nat
  cbytes : Nat
  host : Nat
  off : Nat
  state : HomeState
deriving DecidableEq, Repr

/-- States of a ring (R416). -/
inductive RingMode where
  | formed | loaded | running | degraded | broken
deriving DecidableEq, Repr, Inhabited

/-- A ring (R415–R427). `config`: 0 one ring of eight, 1 dies 0–3, 2 dies 4–7, 3 several packages. `sent` is the entry of
the rotation order that each position's transmitter sent last, `bypassed` the lost positions, `lanes` of the place of each bypassed
package the lane-equivalents granted and the tick from which firmware may ask again (R425), `stopping` the RSTOPs under way with their mailbox slots, `quiet` the
other packages whose segments have come home since (R417), `part` the partition whose host holds the canonical image (R418, log 32),
`silent` the positions that send nothing, each from a tick on (R424). -/
structure Ring where
  config : Nat
  packages : List Nat
  region : Nat
  mode : RingMode
  image : Nat
  manifest : Nat
  order : List Home
  start : Nat
  started : Bool
  sent : SMap Nat
  slack : Nat
  period : Nat
  bypassed : List Nat
  lanes : SMap (Nat × Nat) := []
  stopping : List (Mail × Nat)
  quiet : List Nat := []
  part : Nat := 0
  silent : SMap Nat := []
deriving DecidableEq, Repr

/-- A segment on a link of a ring: its entry in the rotation order, header and payload, the ring position it heads to, and
whether it was cut off or read from an uncorrectable home copy (R18, R424, R454); `old` is of a home copy found bad since (R454). -/
structure Flight where
  ring : Nat
  index : Nat
  bytes : List Byte
  dest : Nat
  cut : Bool
  old : Bool
deriving DecidableEq, Repr

/-- A flit on its way out (R432, R433): its class, 0 REQ, 1 RSP, 2 COLL, 3 MGMT; its hop number; the package it goes to; the request of
this package that it is of, and whether it is a header flit, which carries the tag bits of the granules. -/
structure Flit where
  cls : Nat
  hop : Nat
  target : Nat
  num : Option Nat
  head : Bool
  tags : List Bool
  bytes : List Byte
deriving DecidableEq, Repr

/-- A port of the fabric: the peer, whether the link is in use, the ticks of the last flit received and sent (R428, R435), the flits
queued, and the credits of the next link by class and hop number, 64 of each to begin with (R433). -/
structure Port where
  peer : Nat
  live : Bool
  heard : Nat
  sent : Nat
  queue : List Flit := []
  credits : List Nat := List.replicate 12 64
deriving DecidableEq, Repr, Inhabited

/-- What a request of this package asks: a reduction keeps what the fault queue may need of it (R437). -/
inductive Sought where
  | load | store | returning
  | reduce (p : Pending)
deriving DecidableEq, Repr

/-- A request of this package that its home has not acknowledged: its number, target, 64-byte line and first port, how often it was sent
again, what it asks, its flits, and whether it holds its slot at the target (R433, R436). -/
structure Request where
  num : Nat
  target : Nat
  line : Nat
  port : Nat
  resent : Nat
  what : Sought
  flits : List Flit
  slot : Bool
deriving DecidableEq, Repr

/-- The package's side of the Aivis fabric (R422, R428–R437). `deadLinks` holds the links to peers reported dead as
(peer, reporter), `timeSent` and `redrawn` the ticks of the last time flits and redraw, `draws` the ports drawn for the
non-minimal paths (R430), `flits` what the ports sent, `performed` the requests of others performed here: source, number, answer and its tags (R436). -/
structure Fabric where
  self : Nat
  ports : SMap Port
  admitted : List Nat
  eclipsed : List Nat
  seen : List (Nat × Nat)
  nseq : Nat
  routes : SMap Nat
  unacked : List Request
  nextReq : Nat
  performed : List (Nat × Nat × List Byte × List Bool)
  slots : SMap Nat
  offset : Int
  aligned : Bool
  refusals : Nat
  losses : Nat
  replays : Nat
  deadLinks : List (Nat × Nat)
  timeSent : Nat
  redrawn : Nat
  draws : List Nat
  flits : List (Nat × List Byte)
deriving DecidableEq, Repr

/-- A member's contribution to its group's next operation but those before it (R319, R438). -/
structure Contribution where
  rank : Nat
  op : Nat
  count : Nat
  data : List Byte
deriving DecidableEq, Repr

/-- A collective group: its members as R438 writes them, in rank order, and the contributions that have reached the
root (R438, R439). -/
structure Group where
  part : Nat
  members : List Nat
  dead : Bool
  contributions : List Contribution
deriving DecidableEq, Repr, Inhabited

/-- A partition's token stream; `holding` are the records taken out of the mailbox and not framed yet (R442, R443). -/
structure TokStream where
  port : Nat
  base : Nat
  count : Nat
  tailAddr : Nat
  head : Nat
  fseq : Nat
  holding : List TokRec
  lost : Nat
deriving DecidableEq, Repr, Inhabited

/-- A host port: link, requested power state and frequency (R440, R446); of its mailbox of 64 command slots the replies in them, and the
slot of the next command (R441). -/
structure HostPort where
  up : Bool
  power : Nat
  freq : Nat
  bootStatus : Nat
  replies : SMap (List Byte)
  slot : Nat
deriving DecidableEq, Repr, Inhabited

/-- A host port after reset: its link up, PS0 asked for, no command sent (log 4). -/
def HostPort.reset : HostPort := ⟨true, 0, 70, 0, [], 0⟩

/-- Reports to the service cores and hosts, interrupts and posted frames, newest last. -/
inductive Notice where
  | wake (part qid : Nat)
  | spill (die part handle : Nat)
  | integrity (die image tag : Nat)
  | restored (image tag : Nat) (ok : Bool)
  | missing (ring tag : Nat)
  | coreFailed (die core : Nat)
  | seqLost (die seq : Nat)
  | portLost (port : Nat)
  | interrupt (part : Nat)
  | faultReport (launch task cause : Nat) (tpc tval : Word)
  | identity (port revision line : Nat)
  | attestation (port : Nat) (report : List Byte)
  | readout (port : Nat) (part : Nat)
  | commandFailed (ctr : Nat)
  | discarded (part qid entries : Nat)
deriving DecidableEq, Repr

/-- Power, freeze and boot (R446–R452); `spares` lists the cores whose number a spare has taken, `closed` the cores closed to
placement until CORESET adds them (R445). -/
structure Platform where
  ps : Nat
  freq : Nat
  wakeAt : Option Nat
  frozen : Bool
  booted : Bool
  halted : Bool
  sramLost : Bool
  imageKey : List Byte
  imageBody : List Byte
  imageSig : List Byte
  config : BitVec 384
  spares : List (Nat × Nat)
  closed : List (Nat × Nat)
  partTable : Nat
  readout : Nat
  /-- The uncorrectable words that the patrol scrub has read, each with the tick (R444). -/
  scrubbed : SMap Nat := []
deriving DecidableEq, Repr

/-- Synchronisation objects and the generation machinery of the dies (R262–R271, R299–R320). -/
structure Shared where
  counters : SMap (BitVec 64)
  channels : SMap Channel
  tags : SMap TagRec
  tagWaiters : List (Nat × Nat)
  phases : List Phase
  seqs : SMap SeqEntry
  bindings : SMap Binding
  bindReqs : List BindReq
  slots : SMap MSlot
  mailbox : List TokRec
  groups : SMap Group
deriving DecidableEq, Repr

/-- Engines: copy contexts, arrays, lease contexts, collective contexts (R278, R236, R319). -/
structure Engines where
  copies : SMap CopyCtx
  arrays : SMap Array_
  leases : SMap LeaseCtx
  colls : SMap (List CollCmd)
  imaged : List Job
deriving DecidableEq, Repr

/-- Dispatchers and translation (R376–R414); `replay` holds the NODE image a task was last restored from (R395),
`lastHwq` the hardware queue each die served last (R383), `moveconts` the MOVECONT commands that wait for room on their target as
(partition, record, core, counter), `coresets` the CORESET commands under way as (partition, die, mask,
counter) (R411). -/
structure Dispatch where
  chains : SMap Chain
  launches : SMap Launch
  nextLaunch : Nat
  nextChain : Nat
  transits : List TransitTask
  conts : SMap Cont
  saved : SMap Saved
  replay : SMap Hart
  nextId : Nat
  hwqs : SMap HwQueue
  lastHwq : SMap Nat
  latches : SMap Latch
  parts : SMap Partition
  xcache : List XEntry
  migrations : List Migration
  scanAsked : List Nat
  nextSpill : SMap Nat
  coresets : List (Nat × Nat × Nat × Nat)
  moveconts : List (Nat × Nat × Nat × Nat)
deriving DecidableEq, Repr

/-- What the outside and the free interleaving do next (log 2). -/
inductive Input where
  /-- A device step, command or host action. -/
  | run (i : Instr)
  /-- The next instruction is issued by this context if it can issue. -/
  | issue (c : CtxId)
  /-- The fetch unit of a context reads the word at this address ahead (R177). -/
  | fetchAhead (c : CtxId) (addr : Nat)
  /-- A translation cache of this die (and core, 16 for the die's own) reads an entry (R404). -/
  | fillCache (e : XEntry)
  /-- A soft error makes the aligned 8-byte word at this location uncorrectable (R112, R444). -/
  | upset (word : Nat)
  /-- A soft error that SECDED corrects on this die (R112). -/
  | corrected (die : Nat)
  /-- Firmware has read the memory-error log of this die and clears it (R112). -/
  | clearErrors (die : Nat)
  /-- A segment of another package heads to this ring position (R16). -/
  | ringFlits (ring position : Nat) (bytes : List Byte)
  /-- Another package writes its own resident memory (R115). -/
  | remoteWrite (loc : Nat) (bytes : List Byte)
  /-- The host writes its memory, port 0 or 1 (R137). -/
  | hostWrite (port addr : Nat) (bytes : List Byte)
  /-- A service core takes a record out of the mailbox (R443). -/
  | drainMailbox
  /-- A member of another package contributes to a collective (R438). -/
  | collRemote (group : Nat) (c : Contribution)
  /-- No segment of a ring is in flight between the dies of another package any more (R417). -/
  | ringQuiet (ring package : Nat)
  /-- The member at a position of a ring sends nothing from now on, or sends again (R424). -/
  | ringSilent (ring position : Nat) (silent : Bool)
  /-- The package that reloads a lost segment has read it, or cannot (R426). -/
  | peerReload (ring tag : Nat) (segment : Option (List Byte))
  /-- A departing home copy of another package has failed its check (R454). -/
  | homeCopyBad (ring entry : Nat)
  /-- Another package has restored its home copy, or cannot (R454). -/
  | homeCopyBack (ring entry : Nat) (ok : Bool)
  /-- A replacement package receives a ring's descriptor and rotation order, with the image id that its neighbours hold (R427). -/
  | ringDescriptor (ring : Nat) (r : Ring) (image : Nat)
  /-- The dispatcher of another package reports its part of a launch's arc complete (R257). -/
  | partComplete (launch package : Nat)
  /-- The first flit of a class queued at a port leaves, if it may (R433). -/
  | portSends (port cls : Nat)
  /-- The next router gives a port back a credit of a class and hop number (R433). -/
  | creditReturn (port cls hop : Nat)
  /-- Another package's controller has taken a request: the slot is free again (R433). -/
  | slotReturn (target : Nat)
  /-- A host writes a mailbox slot with an opcode of no command (R441). -/
  | badCommand (port opcode : Nat)
  /-- A flit of other packages comes in by a port, to be routed on (R431). -/
  | transitFlit (port : Nat) (flit : Flit)
  /-- A heartbeat comes in by a port (R435). -/
  | peerHeartbeat (port : Nat)
  /-- The link of a port reports its package frozen (R435). -/
  | peerFrozen (port : Nat)
  /-- A core of another package has taken a core error (R394, R439). -/
  | remoteCoreError (package die core : Nat)
  /-- A soft error in an entry of a counter (0), tag (1), channel (2) or sequence (3) table (R444). -/
  | entryError (table key : Nat)
deriving DecidableEq, Repr

/-- The package. -/
structure State where
  here : CtxId
  hart : Hart
  parked : SMap Hart
  mem : List Host.Cell
  tags : List Nat
  bad : List Nat
  polestar : Nat
  clock : Nat
  steps : Nat
  cores : SMap Core
  dies : SMap Die
  egress : List Pending
  shared : Shared
  eng : Engines
  disp : Dispatch
  rings : SMap Ring
  flights : SMap Flight
  fabric : Fabric
  ports : SMap HostPort
  streams : SMap TokStream
  plat : Platform
  notices : List Notice
  agenda : List Input
deriving DecidableEq, Repr

/-- The fabric of a package that nothing has admitted yet (log 4). -/
def Fabric.reset : Fabric where
  self := 0
  ports := []
  admitted := []
  eclipsed := []
  seen := []
  nseq := 0
  routes := []
  unacked := []
  nextReq := 0
  performed := []
  slots := []
  offset := 0
  aligned := false
  refusals := 0
  losses := 0
  replays := 0
  deadLinks := []
  timeSent := 0
  redrawn := 0
  draws := []
  flits := []

/-- The platform at reset, before bring-up (R452, log 4). -/
def Platform.reset : Platform where
  ps := 0
  freq := 70
  wakeAt := none
  frozen := false
  booted := false
  halted := false
  sramLost := false
  imageKey := []
  imageBody := []
  imageSig := []
  config := 0
  spares := []
  closed := []
  partTable := 0
  readout := 0

/-- The package right after reset: bring-up has not begun, nothing is placed anywhere (R452). -/
def State.reset : State where
  here := ⟨0, 0, 0⟩
  hart := Hart.fresh
  parked := []
  mem := []
  tags := []
  bad := []
  polestar := 0
  clock := 0
  steps := 0
  cores := []
  dies := []
  egress := []
  shared :=
    { counters := [], channels := [], tags := [], tagWaiters := [], phases := [], seqs := [], bindings := [],
      bindReqs := [], slots := [], mailbox := [], groups := [] }
  eng := { copies := [], arrays := [], leases := [], colls := [], imaged := [] }
  disp :=
    { chains := [], launches := [], nextLaunch := 1, nextChain := 1, transits := [], conts := [], saved := [], replay := [],
      nextId := 1, hwqs := [], lastHwq := [], latches := [], parts := [], xcache := [], migrations := [], scanAsked := [],
      nextSpill := [], coresets := [], moveconts := [] }
  rings := []
  flights := []
  fabric := Fabric.reset
  ports := []
  streams := []
  plat := Platform.reset
  notices := []
  agenda := []

/-- How a step ends. -/
abbrev Res := Host.Outcome State Fault Refusal

end Sys2Proof.Machine
end

