-- ==== Sys2Proof/Machine/Ops.lean ====
section
/-! DEFINITION. The named operations that every meaning goes through: how an instruction ends, contexts and registers,
memory at its homes and in the buffers before them, and taking a trap and returning from one. -/

namespace Sys2Proof.Machine

/-! ### How an operation ends -/

/-- An operation's outcome: a value and the state after it, a trap condition, or a wait with nothing changed. The
state of a trap differs from the state before only in error logs (R112, R178) and, for an operation that first waits
for older accesses, in those accesses being performed. -/
inductive R (α : Type) where
  | ok (a : α) (s : State)
  | trap (c : Cause) (v : Word) (s : State)
  | wait

/-- Go on with the value and the state of an outcome. -/
def R.bind {α β : Type} (r : R α) (f : α → State → R β) : R β :=
  match r with
  | .ok a s => f a s
  | .trap c v s => .trap c v s
  | .wait => .wait

/-- Trap unless a condition holds. -/
def R.require (b : Bool) (c : Cause) (v : Word) (s : State) : R Unit :=
  if b then .ok () s else .trap c v s

/-- The low 64 bits of an address for TVAL. -/
def tv (x : Int) : Word := BitVec.ofInt 64 x

/-! ### Contexts -/

/-- The registers of a context: those of the issuing context, or parked ones (R32). -/
def State.hartAt (s : State) (c : CtxId) : Hart :=
  if c = s.here then s.hart else s.parked.getD c.key Hart.fresh

/-- Write the registers of a context. -/
def State.setHart (s : State) (c : CtxId) (h : Hart) : State :=
  if c = s.here then { s with hart := h } else { s with parked := s.parked.insert c.key h }

/-- Change the registers of a context. -/
def State.modHart (s : State) (c : CtxId) (f : Hart → Hart) : State := s.setHart c (f (s.hartAt c))

/-- Change the issuing context's registers. -/
def State.mod (s : State) (f : Hart → Hart) : State := { s with hart := f s.hart }

/-- Make another context the issuing one. -/
def State.switchTo (s : State) (c : CtxId) : State :=
  if c = s.here then s
  else { s with here := c, hart := s.parked.getD c.key Hart.fresh, parked := (s.parked.erase c.key).insert s.here.key s.hart }

/-- The context that a key names. -/
def ctxOf (key : Nat) : CtxId := ⟨key / 256, key / 8 % 32, key % 8⟩

/-- Every context with registers of its own. -/
def State.contexts (s : State) : List CtxId := s.here :: s.parked.map fun p => ctxOf p.1

/-- The firmware context of a core (R359). -/
def fwOf (die core : Nat) : CtxId := ⟨die, core, 4⟩

/-- The issuing context runs at supervisor level (R359). -/
def State.isFw (s : State) : Bool := s.here.slot == 4

/-- A core's state outside its slots. -/
def State.coreAt (s : State) (die core : Nat) : Core := s.cores.getD (coreKey die core) Core.reset

/-- Change a core. -/
def State.modCore (s : State) (die core : Nat) (f : Core → Core) : State :=
  { s with cores := s.cores.insert (coreKey die core) (f (s.coreAt die core)) }

/-- The issuing context's core. -/
def State.myCore (s : State) : Core := s.coreAt s.here.die s.here.core

/-- Change the issuing context's core. -/
def State.modMyCore (s : State) (f : Core → Core) : State := s.modCore s.here.die s.here.core f

/-- What a die holds outside cores and memories. -/
def State.dieAt (s : State) (d : Nat) : Die := s.dies.getD d Die.reset

/-- Change a die. -/
def State.modDie (s : State) (d : Nat) (f : Die → Die) : State := { s with dies := s.dies.insert d (f (s.dieAt d)) }

/-- Add a notice (R19, R380, R390, R426, R442). -/
def State.notify (s : State) (n : Notice) : State := { s with notices := s.notices ++ [n] }

/-- The partition of the issuing context; the supervisor is partition 0 (R408). -/
def State.part (s : State) : Nat := s.hart.task.part

/-- Change the issuing task's information. -/
def State.modTask (s : State) (f : TaskInfo → TaskInfo) : State := s.mod fun h => { h with task := f h.task }

/-- Set the issuing slot's side-effect bit (R395). -/
def State.effect (s : State) : State := s.modTask fun t => { t with sideEffect := true }

/-! ### Registers -/

/-- Read a scalar register: s0 reads zero (R62). -/
def State.rs (s : State) (r : SReg) : Word := if r = 0 then 0 else s.hart.s.get r.toFin

/-- Write a scalar register: a write to s0 is discarded (R62). -/
def State.ws (s : State) (r : SReg) (v : Word) : State :=
  if r = 0 then s else s.mod fun h => { h with s := h.s.set r.toNat v r.isLt }

/-- Read a capability register: c0 reads null (R62, R63). -/
def State.rc (s : State) (r : CReg) : Cap := if r = 0 then Cap.null else s.hart.c.get r.toFin

/-- Write a capability register: a write to c0 is discarded (R62). -/
def State.wc (s : State) (r : CReg) (v : Cap) : State :=
  if r = 0 then s else s.mod fun h => { h with c := h.c.set r.toNat v r.isLt }

/-- Read a vector name (R64). -/
def State.rv (s : State) (r : VReg) : VBits := s.hart.vec.v.get r.toFin

/-- Produce a vector result: the last-result file shifts, the result goes to n0 and to a main or operand register
(R66). -/
def VecRegs.result (q : VecRegs) (d : VReg) (x : VBits) : VecRegs :=
  let v := (((q.v.set 63 q.v[62]).set 62 q.v[61]).set 61 q.v[60]).set 60 x
  { q with v := if d.toNat < 60 then v.set d.toNat x d.isLt else v }

/-- Produce a vector result in the issuing context (R66). -/
def State.wv (s : State) (d : VReg) (x : VBits) : State := s.mod fun h => { h with vec := h.vec.result d x }

/-- Read a mask register: k0 reads all ones (R67). -/
def State.rk (s : State) (r : KReg) : KBits := if r = 0 then BitVec.allOnes 512 else s.hart.vec.k.get r.toFin

/-- Write a mask register: a write to k0 is discarded (R62, R67). -/
def State.wk (s : State) (r : KReg) (x : KBits) : State :=
  if r = 0 then s else s.mod fun h => { h with vec := { h.vec with k := h.vec.k.set r.toNat x r.isLt } }

/-- A stream register (R71). -/
def State.rq (s : State) (r : QReg) : Stream := s.hart.q.get r.toFin

/-- Write a stream register. -/
def State.wq (s : State) (r : QReg) (x : Stream) : State := s.mod fun h => { h with q := h.q.set r.toNat x r.isLt }

/-! ### Memory at its homes -/

/-- The key of a location: region (1 scratchpad, 3 resident store, 4 another package's resident store, 5 and 6 hosts,
7 meridian), package index, die, core or slot, offset. -/
def locKey (region pkg die sub off : Nat) : Nat :=
  (((region * 1024 + pkg) * 8 + die) * 32 + sub) * 2 ^ 48 + off

/-- The region of a location. -/
def keyRegion (k : Nat) : Nat := k / 2 ^ 66
/-- The die of a location. -/
def keyDie (k : Nat) : Nat := k / 2 ^ 53 % 8
/-- The offset of a location in its region. -/
def keyOff (k : Nat) : Nat := k % 2 ^ 48
/-- A byte of a core's scratchpad (R108). -/
def scratchKey (die core off : Nat) : Nat := locKey 1 0 die core off
/-- A byte of the resident store at a space-3 physical address of this package (R399). -/
def residentKey (pa : Nat) : Nat := locKey 3 0 (pa / 2 ^ 30 % 8) 0 (pa % 2 ^ 30)
/-- The package of a location of another package's resident store, and the port of one of a host's memory. -/
def keyPkg (k : Nat) : Nat := k / 2 ^ 56 % 1024
/-- A byte of a host's memory (R103). -/
def hostKey (port addr : Nat) : Nat := locKey (5 + port) 0 0 0 addr
/-- A byte of a meridian slot (R103). -/
def meridianKey (die slot off : Nat) : Nat := locKey 7 0 die slot off

/-- What a location no write has reached reads as (log 6). -/
def emptyByte : Byte := 0

/-- Read a byte of a memory in canonical form. -/
def memGet : List Host.Cell → Nat → Byte
  | [], _ => emptyByte
  | (j, b) :: t, k => if j = k then b else memGet t k

/-- Write a byte, keeping the canonical form: addresses rising, no entry equal to what an unlisted address reads. -/
def memSet : List Host.Cell → Nat → Byte → List Host.Cell
  | [], k, b => if b = emptyByte then [] else [(k, b)]
  | (j, x) :: t, k, b =>
    if k < j then if b = emptyByte then (j, x) :: t else (k, b) :: (j, x) :: t
    else if j = k then if b = emptyByte then t else (k, b) :: t
    else (j, x) :: memSet t k b

/-- Write a list of cells, first to last. -/
def memSetAll (m : List Host.Cell) (cs : List Host.Cell) : List Host.Cell :=
  cs.foldl (fun m c => memSet m c.1 c.2) m

/-- The canonical form of memory. -/
def memCanonical : List Host.Cell → Bool
  | [] => true
  | [(_, b)] => b != emptyByte
  | (j, b) :: (k, c) :: t => decide (j < k) && (b != emptyByte) && memCanonical ((k, c) :: t)

/-- Memory is in canonical form. -/
abbrev Memory.wf (m : List Host.Cell) : Prop := memCanonical m = true

/-- Bytes filled with zeros up to a length, or cut to it. -/
def padTo (n : Nat) (bs : List Byte) : List Byte := (bs ++ List.replicate (n - bs.length) 0).take n

/-- Consecutive cells from a location. -/
def cellsAt (k : Nat) : List Byte → List Host.Cell
  | [] => []
  | b :: t => (k, b) :: cellsAt (k + 1) t

/-- Read a byte at its home. -/
def State.homeByte (s : State) (k : Nat) : Byte := memGet s.mem k

/-- Read bytes at their home. -/
def State.homeBytes (s : State) (k n : Nat) : List Byte := (upFrom k n).map s.homeByte

/-- Read a little-endian number at its home. -/
def State.homeNat (s : State) (k n : Nat) : Nat := leNat (s.homeBytes k n)

/-- Enter an uncorrectable word in its die's memory-error log; a full log counts the overflow (R112). -/
def State.logError (s : State) (agent : Reader) (core word : Nat) : State :=
  s.modDie (keyDie (word * 8)) fun d =>
    if d.errs.length < 64 then { d with errs := d.errs ++ [⟨word / 8, agent, core, s.polestar⟩] }
    else { d with errOverflow := d.errOverflow + 1 }

/-- Enter uncorrectable words that an agent of a core found in the memory-error log, once each (R112). -/
def State.logErrors (s : State) (agent : Reader) (core : Nat) (ws : List Nat) : State :=
  ws.eraseDups.foldl (fun t w => t.logError agent core w) s

/-- The uncorrectable words that a run of locations touches (R112). -/
def State.badWords (s : State) (k n : Nat) : List Nat := s.bad.filter fun w => k < w * 8 + 8 && w * 8 < k + n

/-- Write cells at their homes for an agent of a core (R107, R112): tags of the granules touched are cleared, a capability
store then sets its granule's tag, and a full write of an uncorrectable word clears its error while a narrower one is logged. -/
def State.writeHome (s : State) (core : Nat) (cells : List Host.Cell) (tag : Bool) : State :=
  let touched := fun w : Nat => cells.any fun c => c.1 / 8 = w
  let full := fun w : Nat => (upFrom (w * 8) 8).all fun k => cells.any fun c => c.1 = k
  let hit := s.bad.filter touched
  let tags := s.tags.filter fun g => !(cells.any fun c => c.1 / 16 = g)
  let tags := if tag then match cells with
    | c :: _ => setInsert tags (c.1 / 16)
    | [] => tags else tags
  let t := { s with mem := memSetAll s.mem cells, tags := tags, bad := s.bad.filter fun w => !(touched w && full w) }
  (hit.filter fun w => !full w).foldl (fun t w => t.logError .home core w) t

/-- Write consecutive bytes at their home. -/
def State.writeHomeBytes (s : State) (core k : Nat) (bs : List Byte) : State := s.writeHome core (cellsAt k bs) false

/-- Write a little-endian number at its home. -/
def State.writeHomeNat (s : State) (core k n x : Nat) : State := s.writeHomeBytes core k (leBytes n x)

/-! ### Reading through the buffers -/

/-- The value a store entry gives a byte, if it writes it. -/
def Pending.byte? (p : Pending) (k : Nat) : Option Byte :=
  match p with
  | .store _ _ cells _ _ => (cells.find? fun c => c.1 = k).map (·.2)
  | .atomic .. => none
  | .act .. => none

/-- The newest pending value of a byte in a queue, oldest entry first (R116, R119). -/
def newestByte (q : List Pending) (k : Nat) : Option Byte :=
  q.foldl (fun r p => match p.byte? k with
    | some b => some b
    | none => r) none

/-- A byte as an agent of a die reads it: the die's outbound buffer, for another package the egress buffer, then the
home (R116). -/
def State.dieByte (s : State) (die k : Nat) : Byte :=
  match newestByte (s.dieAt die).outbound k with
  | some b => b
  | none =>
    match (if keyRegion k = 4 then newestByte s.egress k else none) with
    | some b => b
    | none => s.homeByte k

/-- The tag that the newest entry of a queue touching a granule gives it. -/
def newestTag (q : List Pending) (g : Nat) : Option Bool :=
  q.foldl (fun r p => match p with
    | .store _ _ cells tag _ => if cells.any fun c => c.1 / 16 = g then some tag else r
    | .atomic _ _ _ loc .. => if loc / 16 = g then some false else r
    | .act .. => r) none

/-- A granule's tag as an agent of a die reads it; an uncorrectable tag bit reads as clear (R107, R112, R116). -/
def State.dieTag (s : State) (die k : Nat) : Bool :=
  match newestTag (s.dieAt die).outbound (k / 16) with
  | some b => b
  | none =>
    match (if keyRegion k = 4 then newestTag s.egress (k / 16) else none) with
    | some b => b
    | none => s.tags.contains (k / 16) && !s.bad.contains (k / 16 * 2)

/-! ### Traps and faults -/

/-- The code of a cause (R367). -/
def Cause.code : Cause → Nat
  | .none => 0x00
  | .illegal => 0x01
  | .privileged => 0x02
  | .capTag => 0x03
  | .capBounds => 0x04
  | .capPerm => 0x05
  | .capSpace => 0x06
  | .misaligned => 0x07
  | .translation => 0x08
  | .accessDenied => 0x09
  | .memUncorrectable => 0x0A
  | .tileUnconfigured => 0x0B
  | .transitExpired => 0x0C
  | .tagStale => 0x0D
  | .barrierOverrun => 0x0E
  | .barrierStall => 0x0F
  | .channelPoisoned => 0x10
  | .engineError => 0x11
  | .gangFault => 0x12
  | .sequenceTrap => 0x13
  | .leaseViolation => 0x14
  | .trapInstruction => 0x15
  | .breakpoint => 0x16
  | .streamUnbound => 0x17
  | .replayBlocked => 0x18
  | .killed => 0x19

/-- A firmware fault: the firmware context stops and the core with all its slots, the record is kept and the core is
reported failed (R362). -/
def State.firmwareFault (s : State) (die core : Nat) (cause : Nat) (pc val : Word) : State :=
  (s.modCore die core fun k =>
    { k with fwcause := BitVec.ofNat 64 cause, fwpc := pc, fwval := val, failed := true }).notify (.coreFailed die core)

/-- A task's identity: its launch and its own number (R30). -/
def TaskInfo.ident (t : TaskInfo) : Nat × Nat := (t.launch, t.uid)

/-- A task that has issued waits for nothing. -/
def TaskInfo.issued (t : TaskInfo) : TaskInfo := { t with waiting := Option.none, wait := Option.none, atNode := false, keyWait := Option.none }

/-- A slot joins the pending task traps of its core: oldest first, and of one tick the lowest slot first (R365). -/
def State.joinTraps (s : State) (c : CtxId) (traps : List Nat) : List Nat :=
  let before := fun j : Nat => (s.hartAt ⟨c.die, c.core, j⟩).trap.tick ≠ s.polestar || j < c.slot
  traps.takeWhile before ++ c.slot :: traps.dropWhile before

/-- A task trap of a context: the slot stops TRAPPED with its cause, TPC, TVAL, instruction length and tick, and becomes
pending for its core's firmware (R364, R365). No register of the task changes (R77). -/
def State.trapContext (s : State) (c : CtxId) (cause : Cause) (val : Word) (len : Nat) : State :=
  let h := s.hartAt c
  (s.setHart c { h with status := .trapped, trap := ⟨cause, h.pc, val, len, s.polestar⟩, task := h.task.issued }).modCore c.die c.core
    fun k => { k with traps := s.joinTraps c k.traps }

/-- TAKE AN EXCEPTION in the issuing context: a task trap, or at supervisor level a firmware fault (R362, R364). -/
def State.takeTrap (s : State) (cause : Cause) (val : Word) (len : Nat) : State :=
  if s.isFw then s.firmwareFault s.here.die s.here.core cause.code s.hart.pc val
  else s.trapContext s.here cause val len

/-! ### The engine-fault queue (R373) -/

/-- Faults of stalled engines enter the engine-fault queue while it has room: it holds 32 entries (R373). -/
def Core.refillFaults (k : Core) : Core :=
  let n := 32 - k.efq.length
  { k with efq := k.efq ++ k.efqHeld.take n, efqHeld := k.efqHeld.drop n }

/-- An engine of a core posts a fault; it stalls while the queue is full (R373). -/
def State.postEngine (s : State) (die core : Nat) (e : EngFault) : State :=
  s.modCore die core fun k => { k with efqHeld := k.efqHeld ++ [e] }.refillFaults

/-- An engine of a core stalls on a fault that the full queue has not taken (R373). -/
def State.engineHeld (s : State) (die core eng : Nat) : Bool := (s.coreAt die core).efqHeld.any fun e => e.engine = eng

/-- Faults of a core whose command or read is gone leave the engine-fault queue. -/
def State.dropFaults (s : State) (die core : Nat) (gone : EngFault → Bool) : State :=
  s.modCore die core fun k =>
    { k with efq := k.efq.filter fun e => !gone e, efqHeld := k.efqHeld.filter fun e => !gone e }.refillFaults

/-- The engine-fault queue of a core without its head entry (R373). -/
def State.popFault (s : State) (die core : Nat) : State := s.modCore die core fun k => { k with efq := k.efq.tail }.refillFaults

/-- TCAUSE of a delivered trap: KIND in 11:10, SLOT in 9:8, CAUSE in 7:0 (R363). -/
def tcauseWord (cause : Cause) (slot kind : Nat) : Word := BitVec.ofNat 64 (cause.code + slot * 256 + kind * 1024)

/-- The next pending trap of a core in the order of R365: task traps oldest first, sequence traps, engine faults; with
the core after the entry consumed it (an engine fault stays readable until EFQDISP, log 14). -/
def nextTrap (s : State) (die core : Nat) : Option ((Word × Word × Word) × Core) :=
  let k := s.coreAt die core
  match k.traps with
  | slot :: rest =>
    let t := (s.hartAt ⟨die, core, slot⟩).trap
    some ((tcauseWord t.cause slot 0, t.tpc, t.tval), { k with traps := rest })
  | [] =>
    match k.seqTraps with
    | e :: rest =>
      some ((tcauseWord .sequenceTrap e.slot 1, e.tpc, BitVec.ofNat 64 (e.seq + e.die * 2 ^ 10 + e.pos * 2 ^ 16)),
        { k with seqTraps := rest })
    | [] =>
      match k.efq.find? fun e => !e.entered with
      | none => none
      | some e =>
        some ((tcauseWord e.cause e.slot 2, 0, e.addr),
          { k with efq := k.efq.map fun f => if f = e then { f with entered := true } else f })

/-- Whether a trap is pending for a core's firmware context (R365). -/
def State.trapPending (s : State) (die core : Nat) : Bool := (nextTrap s die core).isSome

/-- The low 48 bits of an address: bits 63:48 of FWEPC are reserved (R5, R363). -/
def low48 (x : Word) : Word := x &&& 0xFFFFFFFFFFFF

/-- ENTER THE HANDLER for the next pending trap: FWEPC, TCAUSE, TPC, TVAL, TACTIVE and the PC change in one step
(R365). `bg` is the PC of the next background instruction. -/
def State.enterHandler (s : State) (die core : Nat) (bg : Word) : State :=
  match nextTrap s die core with
  | none => s
  | some ((cause, tpc, tval), k) =>
    let s := s.modCore die core fun _ =>
      { k with fwepc := low48 bg, tcause := cause, tpc := tpc, tval := tval, tactive := true, wfi := none }
    s.modHart (fwOf die core) fun h => { h with pc := k.tvec, status := .ready, task := h.task.issued }

/-- RETURN FROM THE HANDLER: TACTIVE and HXLAT clear; the next pending trap is entered, or the background goes on at
FWEPC (R361, R371). -/
def State.leaveHandler (s : State) (die core : Nat) : State :=
  let k := s.coreAt die core
  let s := s.modCore die core fun k => { k with tactive := false, hxlat := false }
  if s.trapPending die core then s.enterHandler die core k.fwepc
  else s.modHart (fwOf die core) fun h => { h with pc := k.fwepc, status := .ready }

/-! ### How an instruction ends -/

/-- A context that has issued an instruction and goes on at an address: its wait is over. -/
def Hart.goOn (h : Hart) (pc : Word) : Hart :=
  { h with pc := pc, status := .ready, issued := h.issued + 1, task := h.task.issued }

/-- Move past an instruction of `len` bytes. -/
def State.advance (s : State) (len : Nat) : State := s.mod fun h => h.goOn (h.pc + BitVec.ofNat 64 len)

/-- Stay at the instruction, BLOCKED, since the tick of the first attempt (R31). -/
def State.block (s : State) : State :=
  s.mod fun h =>
    { h with status := .blocked, task := { h.task with waiting := some (h.task.waiting.getD s.polestar) } }

/-- Stay at the instruction, BLOCKED on a wait that needs no new issue (R31, R261). -/
def State.blockOn (s : State) (w : Wait) : State := (s.modTask fun t => { t with wait := some w }).block

/-- End an instruction of `len` bytes: advance, trap or wait. -/
def finish (len : Nat) (s : State) (r : R Unit) : Res :=
  match r with
  | .ok _ t => .next (t.advance len)
  | .trap c v t => .next (t.takeTrap c v len)
  | .wait => .next s.block

/-- An instruction that only tasks have: at supervisor level the word is an illegal-instruction condition (R359). -/
def taskOnly {α : Type} (s : State) (word : Word) (r : R α) : R α :=
  if s.isFw then .trap .illegal word s else r

/-- A system instruction: at task level the word traps with PRIVILEGED (R150, R370). -/
def systemOnly (s : State) (word : Word) (r : R Unit) : R Unit :=
  if s.isFw then r else .trap .privileged word s

end Sys2Proof.Machine
end

