-- ==== Sys2Proof/Machine/Operands.lean ====
section
/-! DEFINITION. Operand forms: the fields and bounds of a capability (R99–R102), effective addresses and access kinds
(R105, R106), vector lanes (R65) and counter references. -/

namespace Sys2Proof.Machine

/-! ### Capabilities -/

/-- The bounds exponent (R99). -/
def Cap.e (c : Cap) : Nat := bitsOf c.bits.toNat 127 122
/-- The space code (R99). -/
def Cap.space (c : Cap) : Nat := bitsOf c.bits.toNat 121 118
/-- The base mantissa (R99). -/
def Cap.bm (c : Cap) : Nat := bitsOf c.bits.toNat 117 95
/-- The top mantissa (R99). -/
def Cap.tm (c : Cap) : Nat := bitsOf c.bits.toNat 94 72
/-- The permissions (R99). -/
def Cap.perms (c : Cap) : BitVec 8 := c.bits.extractLsb' 56 8
/-- The cursor (R99). -/
def Cap.cursor (c : Cap) : Nat := c.bits.toNat % 2 ^ 56

/-- A capability of these fields (R99). -/
def Cap.mk' (e space bm tm : Nat) (perms : BitVec 8) (cursor : Nat) (tag : Bool) : Cap :=
  ⟨BitVec.ofNat 128 (e % 64 * 2 ^ 122 + space % 16 * 2 ^ 118 + bm % 2 ^ 23 * 2 ^ 95 + tm % 2 ^ 23 * 2 ^ 72 +
    perms.toNat * 2 ^ 56 + cursor % 2 ^ 56), tag⟩

/-- The base less the mantissa part: (w − hi_a) × 2^(E+23) of R100. -/
def Cap.window (c : Cap) : Int :=
  let a := c.cursor / 2 ^ c.e % 2 ^ 23
  let w := c.cursor / 2 ^ (c.e + 23)
  ((w : Int) - (if a < c.bm then 1 else 0)) * (2 ^ (c.e + 23) : Nat)

/-- The base address (R100). -/
def Cap.base (c : Cap) : Nat := ((c.window + (c.bm * 2 ^ c.e : Nat)) % (2 ^ 56 : Nat)).toNat

/-- The top address (R100). -/
def Cap.top (c : Cap) : Nat :=
  ((c.window + ((if c.tm < c.bm then 2 ^ (c.e + 23) else 0) + c.tm * 2 ^ c.e : Nat)) % (2 ^ 56 : Nat)).toNat

/-- A cursor lies in the representable region: base to base + 2^(E+23) − 1 (R100). -/
def Cap.inRegion (c : Cap) (cur : Int) : Bool := (c.base : Int) ≤ cur && cur < c.base + (2 ^ (c.e + 23) : Nat)

/-- A capability with its cursor moved; the tag clears outside the representable region (R102, R170). -/
def Cap.move (c : Cap) (d : Int) : Cap :=
  let cur := (c.cursor : Int) + d
  let bits := c.bits.toNat / 2 ^ 56 * 2 ^ 56 + (cur % (2 ^ 56 : Nat)).toNat
  ⟨BitVec.ofNat 128 bits, c.tag && 0 ≤ cur && cur < (2 ^ 56 : Nat) && c.inRegion cur⟩

/-- Round up to a multiple of 2^e, in units of it. -/
def ceilShift (x e : Nat) : Nat := (x + 2 ^ e - 1) / 2 ^ e

/-- The smallest exponent, from `e` up, whose mantissas hold a range (R101). -/
def boundsExp : Nat → Nat → Nat → Nat → Nat
  | 0, e, _, _ => e
  | k + 1, e, b, t => if ceilShift t e - b / 2 ^ e ≤ 2 ^ 23 - 1 then e else boundsExp k (e + 1) b t

/-- A capability with bounds for [b, t) and these fields; `e` is the smallest exponent (R101). -/
def boundedCap (space : Nat) (perms : BitVec 8) (b t cursor : Nat) (tag : Bool) : Cap :=
  let e := boundsExp 34 0 b t
  Cap.mk' e space (b / 2 ^ e) (ceilShift t e) perms cursor tag

/-- Set bounds at the cursor (R171). -/
def Cap.setBounds (c : Cap) (len : Nat) (exact : Bool) : Cap :=
  let b := c.cursor
  let t := b + len
  if t > 2 ^ 56 then { c with tag := false }
  else
    let e := boundsExp 34 0 b t
    let b2 := b / 2 ^ e * 2 ^ e
    let t2 := ceilShift t e * 2 ^ e
    boundedCap c.space c.perms b t b
      (c.tag && c.base ≤ b2 && t2 ≤ c.top && e ≤ 33 && (!exact || (b2 = b && t2 = t)))

/-- A capability with permissions removed (R172). -/
def Cap.mask (c : Cap) (m : BitVec 8) : Cap :=
  let x := c.bits.toNat
  ⟨BitVec.ofNat 128 (x / 2 ^ 64 * 2 ^ 64 + (c.perms &&& m).toNat * 2 ^ 56 + x % 2 ^ 56), c.tag⟩

/-- LD (R99). -/
def Cap.ld (c : Cap) : Bool := c.perms.getLsbD 0
/-- ST (R99). -/
def Cap.st (c : Cap) : Bool := c.perms.getLsbD 1
/-- LDC (R99). -/
def Cap.ldc (c : Cap) : Bool := c.perms.getLsbD 2
/-- STC (R99). -/
def Cap.stc (c : Cap) : Bool := c.perms.getLsbD 3
/-- EXE (R99). -/
def Cap.exe (c : Cap) : Bool := c.perms.getLsbD 4
/-- ATOM (R99). -/
def Cap.atom (c : Cap) : Bool := c.perms.getLsbD 5
/-- REMOTE (R99). -/
def Cap.remote (c : Cap) : Bool := c.perms.getLsbD 6
/-- GRANT (R99). -/
def Cap.grant (c : Cap) : Bool := c.perms.getLsbD 7

/-! ### Accesses -/

/-- What an access does (R103, R106). A capability store says whether the stored value is tagged and holds GRANT. -/
inductive Kind where
  | fetch | load | store | capLoad | atomic
  | capStore (tagged grant : Bool)
deriving DecidableEq, Repr, Inhabited

/-- SPACE permits the access kind (R103). -/
def spaceAllows (space : Nat) (k : Kind) : Bool :=
  match k with
  | .fetch => space = 3
  | .load | .capLoad => 1 ≤ space && space ≤ 8
  | .store => 1 ≤ space && space ≤ 8 && space ≠ 7
  | .capStore .. | .atomic => 1 ≤ space && space ≤ 4

/-- PERMS holds every permission of R106; `away` says that the space needs REMOTE. -/
def permsAllow (c : Cap) (k : Kind) (away : Bool) : Bool :=
  (!away || c.remote) &&
  match k with
  | .fetch => c.exe
  | .load | .capLoad => c.ld
  | .store => c.st
  | .atomic => c.ld && c.st && c.atom
  | .capStore tagged grant => c.st && (!tagged || (c.stc && (c.space = 1 || grant)))

/-- The agent of an access: where it is, whose tables translate and whose channels it may use, and its space-1 region
(R104, R361). -/
structure Who where
  die : Nat
  core : Nat
  xpart : Nat
  part : Nat
  region : Nat
  len : Nat
deriving DecidableEq, Repr, Inhabited

/-- The agent that a task is (R104). -/
def whoTask (c : CtxId) (t : TaskInfo) : Who := ⟨c.die, c.core, t.part, t.part, t.region, t.scratch * 4096⟩

/-- The issuing context as an agent: the firmware context uses the region, and under HXLAT the tables, of the slot in
TCAUSE.SLOT while TACTIVE = 1, and no region in background mode (R361). -/
def State.who (s : State) : Who :=
  if s.isFw then
    let k := s.myCore
    let t := (s.hartAt ⟨s.here.die, s.here.core, bitsOf k.tcause.toNat 9 8⟩).task
    ⟨s.here.die, s.here.core, if k.tactive && k.hxlat then t.part else 0, 0, t.region,
      if k.tactive then t.scratch * 4096 else 0⟩
  else whoTask s.here s.hart.task

/-! ### Lanes -/

/-- Lane `i` of width `w` as a number (R65). -/
def lane (x : VBits) (w i : Nat) : Nat := x.toNat / 2 ^ (w * i) % 2 ^ w

/-- A vector from its lanes of width `w`, lane 0 first (R65). -/
def ofLanes (w : Nat) : List Nat → Nat
  | [] => 0
  | a :: t => a % 2 ^ w + 2 ^ w * ofLanes w t

/-- Every lane of width `w` (R65). -/
def lanes (x : VBits) (w : Nat) : List Nat := (List.range (2048 / w)).map (lane x w)

/-- A vector register from its lanes. -/
def vecOf (w : Nat) (ls : List Nat) : VBits := BitVec.ofNat 2048 (ofLanes w ls)

/-- Cut a list into `k` pieces of `n`. -/
def pieces {α : Type} (n : Nat) : Nat → List α → List (List α)
  | 0, _ => []
  | k + 1, l => l.take n :: pieces n k (l.drop n)

/-- Lanes under a governing mask: a masked lane keeps the old one (R182). -/
def masked (k : KBits) (old : VBits) (w : Nat) (f : Nat → Nat) : VBits :=
  vecOf w ((List.range (2048 / w)).map fun i => if k.getLsbD i then f i else lane old w i)

/-! ### Geometry (R68, R222) -/

/-- Rows of a shape. -/
def shapeRows (sh : Word) : Nat := sh.toNat % 2 ^ 7
/-- Bytes of a row: COLS × 4. -/
def shapeBytes (sh : Word) : Nat := sh.toNat / 2 ^ 8 % 2 ^ 7 * 4
/-- WIDTH. -/
def shapeWidth (sh : Word) : Nat := sh.toNat / 2 ^ 16 % 4
/-- Bytes of an element. -/
def shapeElem (sh : Word) : Nat := 4 / 2 ^ shapeWidth sh
/-- Elements of a row. -/
def shapeCols (sh : Word) : Nat := shapeBytes sh / shapeElem sh

/-- Tile registers with every row of one tile written: bytes outside its state are discarded, the dirty bit of a configured
tile is set (R70, R222). -/
def TileRegs.write (q : TileRegs) (t : TReg) (f : Nat → VBits) : TileRegs :=
  let sh := q.shape.get t.toFin
  let keep := BitVec.ofNat 2048 (2 ^ (8 * shapeBytes sh) - 1)
  let rows := Vector.ofFn fun r : Fin 64 => if r.val < shapeRows sh then f r.val &&& keep else 0
  { q with rows := q.rows.set t.toNat rows t.isLt,
           dirty := if shapeRows sh = 0 then q.dirty else q.dirty ||| (1#8 <<< t.toNat) }

/-- The element type in VTYPE (R72). -/
def State.vt (s : State) : Nat := s.hart.vec.vtype.toNat

/-- A counter reference: id in bits 7:0, die in bits 10:8; other bits must be zero (R262). -/
def ctrKey (r : Nat) : Nat := r / 2 ^ 8 % 8 * 256 + r % 256

end Sys2Proof.Machine
end

