-- ==== Sys2Proof/Machine/Flags.lean ====
section
/-! DEFINITION. The vector flags: 64 slots of five sticky bits and their sum (R74, R91). -/

namespace Sys2Proof.Machine

/-- One lane's flags in their slot of VFLG (R74). -/
def flagWord (slot : Nat) (f : Flags5) : BitVec 320 := BitVec.ofNat 320 (f.toNat * 2 ^ (5 * slot))

/-- The flags of lanes of width `w`, lane 0 first, each in slot ⌊i × w / 32⌋ (R74). -/
def laneFlags (w : Nat) (fs : List Flags5) : BitVec 320 :=
  fs.zipIdx.foldl (fun acc p => if p.1 = 0 then acc else acc ||| flagWord (p.2 * w / 32) p.1) 0

/-- Accrue flags unless nf suppresses them (R74). -/
def State.accrue (s : State) (nf : Bool) (f : BitVec 320) : State :=
  if nf then s else s.mod fun h => { h with vec := { h.vec with vflg := h.vec.vflg ||| f } }

/-- VFLGSUM: the OR of all slots, field by field (R74). -/
def vflgSum (v : BitVec 320) : Flags5 :=
  (List.range 64).foldl (fun acc j => acc ||| v.extractLsb' (5 * j) 5) 0

end Sys2Proof.Machine
end

