-- ==== Sys2Proof/Machine/Translate.lean ====
section
/-! DEFINITION. Translation by the three-level walk (R399–R406) and the checks of an access at issue (R105). -/

namespace Sys2Proof.Machine

/-- The descriptor of a partition as the dispatchers cache it (R408). -/
def State.partOf (s : State) (p : Nat) : Partition := s.disp.parts.getD p ⟨[], [], false, 0, 0, [], false⟩

/-- A root pointer entry: ROOT3–ROOT6 of a partition descriptor (R408). -/
def State.root (s : State) (p space : Nat) : Nat := field (s.partOf p).desc (8 + 8 * (space - 3)) 8

/-- The outcome of a walk (R402): a physical address, a failure with the uncorrectable word it read, or a park, with the physical address in
the frame that still holds the page, if its leaf allows the access (R406). -/
inductive Xl where
  | at (pa : Nat)
  | fail (c : Cause) (bad : Option Nat)
  | park (pa : Option Nat)
deriving DecidableEq, Repr

/-- A table entry as this access sees it: memory, or a stale copy that a cache may still hold (R404, R405, log 9). -/
def State.tableEntry (s : State) (die core part space level path : Nat) (fresh : Nat) : Nat :=
  match s.disp.xcache.find? fun e => e.die = die && (e.core = core || e.core = 16) && e.part = part && e.space = space
    && e.level = level && e.path = path with
  | some e => if e.entry ≠ fresh && Config.staleHit s.steps then e.entry else fresh
  | none => fresh

/-- The location of a table entry: the entry's table lies in this package or in a host's memory (R401). -/
def tableKey (loc pa : Nat) : Nat := if loc = 0 then residentKey pa else hostKey (loc - 1) pa

/-- A pointer entry is well formed: reserved bits, LOC, alignment of the next table, no leaf bits (R401, R402). -/
def pointerOk (e align : Nat) : Bool :=
  bitOf e 1 && bitsOf e 63 48 = 0 && bitsOf e 11 10 = 0 && !bitOf e 7 && bitsOf e 9 8 ≠ 3 && bitsOf e 6 2 = 0 &&
  bitsOf e 47 12 * 4096 % align = 0

/-- A leaf entry is well formed (R401, R402). -/
def leafOk (e size : Nat) : Bool :=
  !bitOf e 1 && bitsOf e 63 48 = 0 && bitsOf e 11 7 = 0 && bitsOf e 47 12 * 4096 % size = 0

/-- The leaf bits an access needs (R402). -/
def leafAllows (e : Nat) (k : Kind) : Bool :=
  match k with
  | .fetch => bitOf e 4
  | .load | .capLoad => bitOf e 2
  | .store | .capStore .. => bitOf e 3
  | .atomic => bitOf e 2 && bitOf e 3 && bitOf e 5

/-- What a leaf of this size gives an access at `va` (R402, R406). -/
def leafResult (e size va : Nat) (k : Option Kind) : Xl :=
  let pa := bitsOf e 47 12 * 4096 + va % size
  let allows := match k with
    | some k => leafAllows e k
    | none => true
  if !leafOk e size then .fail .translation none
  else if bitOf e 6 then .park (if allows then some pa else none)
  else if allows then .at pa
  else .fail .accessDenied none

/-- A pointer's table lies at an address that its LOC can name: of space 3 one that R399 allows, of a host any (R399, R401, R402). -/
def tableOk (e : Nat) : Bool :=
  bitsOf e 9 8 ≠ 0 || (bitsOf e 47 33 = 0 && bitsOf e 29 12 * 4096 < Config.residentBytes)

/-- A location of this package's own image region, reached through space 4: its controller refuses every access (R11, R403). -/
def State.refused (s : State) (k : Nat) : Bool := keyRegion k = 4 && keyPkg k = s.fabric.self

/-- Accesses that this package's controllers have refused (R403). -/
def State.countRefusal (s : State) : State := { s with fabric := { s.fabric with refusals := s.fabric.refusals + 1 } }

/-- A host port's PCIe link is up (R440, R442). -/
def State.portUp (s : State) (p : Nat) : Bool := (s.ports.getD p HostPort.reset).up

/-- A location belongs to a lost target: an eclipsed package, or a host behind a port that is down (R437). -/
def State.lost (s : State) (k : Nat) : Bool :=
  if keyRegion k = 4 then s.fabric.eclipsed.contains (keyPkg k)
  else if keyRegion k = 5 || keyRegion k = 6 then !s.portUp (keyRegion k - 5)
  else false

/-- Read one table entry; an uncorrectable one, or a host table behind a port that is down, fails the walk (R402). -/
def State.readEntry (s : State) (die core part space level path loc pa : Nat) : Nat × Option Xl :=
  let k := tableKey loc pa
  match s.badWords k 8 with
  | w :: _ => (0, some (.fail .translation (some w)))
  | [] =>
    if loc ≠ 0 && !s.portUp (loc - 1) then (0, some (.fail .translation none))
    else (s.tableEntry die core part space level path (s.homeNat k 8), none)

/-- The walk of a virtual address through a partition's tables of a space (R400–R402). Without an access kind the
leaf's permissions are not asked. -/
def State.walk (s : State) (die core part space va : Nat) (k : Option Kind) : Xl :=
  let r := s.tableEntry die core part space 0 0 (s.root part space)
  if !bitOf r 0 then .fail .translation none
  else if !pointerOk r (2 ^ 13) then .fail .translation none
  else if !tableOk r then .fail .accessDenied none
  else
    match s.readEntry die core part space 1 (va / 2 ^ 38) (bitsOf r 9 8) (bitsOf r 47 12 * 4096 + va / 2 ^ 38 * 8) with
    | (_, some x) => x
    | (a, none) =>
      if !bitOf a 0 then .fail .translation none
      else if !pointerOk a (2 ^ 14) then .fail .translation none
      else if !tableOk a then .fail .accessDenied none
      else
        match s.readEntry die core part space 2 (va / 2 ^ 27) (bitsOf a 9 8)
          (bitsOf a 47 12 * 4096 + va / 2 ^ 27 % 2 ^ 11 * 8) with
        | (_, some x) => x
        | (b, none) =>
          if !bitOf b 0 then .fail .translation none
          else if !bitOf b 1 then leafResult b (2 ^ 27) va k
          else if !pointerOk b (2 ^ 14) then .fail .translation none
          else if !tableOk b then .fail .accessDenied none
          else
            match s.readEntry die core part space 3 (va / 2 ^ 16) (bitsOf b 9 8)
              (bitsOf b 47 12 * 4096 + va / 2 ^ 16 % 2 ^ 11 * 8) with
            | (_, some x) => x
            | (c, none) => if !bitOf c 0 then .fail .translation none else leafResult c (2 ^ 16) va k

/-- A package is a member of a partition's almanac view (R412). -/
def State.isMember (s : State) (part pkg : Nat) : Bool := bitOf (field (s.partOf part).view 0 128) pkg

/-- The home of a physical address, or ACCESS_DENIED (R399, R402). A space-4 address that names this package reaches its resident store, but
for the image region, whose refusal is the home's: it keeps a location of its own, at which every access is refused (R11, R403). -/
def State.physical (s : State) (part space pa : Nat) : Option Nat :=
  let off := pa % 2 ^ 30
  if space = 3 then
    if pa / 2 ^ 33 ≠ 0 || off ≥ Config.residentBytes || off ≥ (s.dieAt (pa / 2 ^ 30 % 8)).imageBase then none
    else some (residentKey pa)
  else if space = 4 then
    let pkg := pa / 2 ^ 33 % 2 ^ 10
    if pa / 2 ^ 43 ≠ 0 || off ≥ Config.residentBytes || pkg > 992 || !s.isMember part pkg then none
    else if pkg = s.fabric.self && off < (s.dieAt (pa / 2 ^ 30 % 8)).imageBase then some (residentKey (pa % 2 ^ 33))
    else some (locKey 4 pkg (pa / 2 ^ 30 % 8) 0 off)
  else some (hostKey (space - 5) pa)

/-- Translate an access: step 7 of R105. A trap leaves only the memory-error log changed. -/
def State.translate (s : State) (die core part space va : Nat) (k : Option Kind) (tval : Word) : R Nat :=
  match s.walk die core part space va k with
  | .park _ => .wait
  | .fail c none => .trap c tval s
  | .fail c (some w) => .trap c tval (s.logError .walker core w)
  | .at pa =>
    match s.physical part space pa with
    | some key => .ok key s
    | none => .trap .accessDenied tval s

/-- A translation for agents of the device that report a failure by other means. A page that migrates is still in its old frame, where such
an access counts as translated before the migration (R406, log 125). -/
def State.locate? (s : State) (die core part space va : Nat) (k : Option Kind) : Option Nat :=
  match s.walk die core part space va k with
  | .at pa => s.physical part space pa
  | .park (some pa) => s.physical part space pa
  | .park none => none
  | .fail .. => none

/-- The memory-error log after the walk of such an agent (R112, R402). -/
def State.walked (s : State) (die core part space va : Nat) (k : Option Kind) : State :=
  match s.walk die core part space va k with
  | .fail _ (some w) => s.logError .walker core w
  | _ => s

/-- A meridian slot (R20, R304). -/
def State.mslot (s : State) (die slot : Nat) : MSlot := s.shared.slots.getD (die * 8 + slot) default

/-- Change a meridian slot. -/
def State.modSlot (s : State) (die slot : Nat) (f : MSlot → MSlot) : State :=
  { s with shared := { s.shared with slots := s.shared.slots.insert (die * 8 + slot) (f (s.mslot die slot)) } }

/-- A channel descriptor's base for a partition, if the descriptor is its (R104, R268, R413). -/
def Channel.baseFor (c : Channel) (part : Nat) : Option Nat :=
  match c.grant with
  | some (pp, pb, cp, cb) => if part = pp then some pb else if part = cp then some cb else none
  | none => if part = c.part then some c.base else none

/-- A slot's size in bytes (R48, R414). -/
def Channel.slotBytes (c : Channel) : Nat := 64 * 2 ^ c.size

/-- Step 6 of R105 for the untranslated spaces and the form of an address in the others: the location, a virtual
address of a space still to translate, or the failure (R103, R104). -/
inductive Place where
  | home (k : Nat)
  | virt (space va : Nat)
  | bad (c : Cause)
deriving DecidableEq, Repr

/-- Where an access of `n` bytes at `x` lies (R103, R104). -/
def State.place (s : State) (w : Who) (space x n : Nat) : Place :=
  if space = 1 then
    if x + n ≤ Config.scratchBytes && w.region ≤ x && x + n ≤ w.region + w.len then .home (scratchKey w.die w.core x)
    else .bad .accessDenied
  else if space = 2 then
    let off := x % 2 ^ 25
    if x < 2 ^ 29 && off + n ≤ Config.scratchBytes then .home (scratchKey w.die (x / 2 ^ 25) off) else .bad .accessDenied
  else if space = 7 then
    let slot := x / 2 ^ 24 % 8
    let m := s.mslot w.die slot
    if x ≥ 2 ^ 35 || slot ≥ 6 then .bad .accessDenied
    else if (m.state = 2 || m.state = 3) && m.fill % 256 = x / 2 ^ 27 then .home (meridianKey w.die slot (x % 2 ^ 24))
    else .bad .transitExpired
  else if space = 8 then
    let off := x % 2 ^ 29
    if x ≥ 2 ^ 41 then .bad .accessDenied
    else
      match s.shared.channels.find? (x / 2 ^ 38 * 512 + x / 2 ^ 29 % 512) with
      | none => .bad .accessDenied
      | some c =>
        match c.baseFor w.part with
        | some b => if off + n ≤ c.slotBytes * c.depth then .virt 3 ((b + off) % 2 ^ 48) else .bad .accessDenied
        | none => .bad .accessDenied
  else if x < 2 ^ 48 then .virt space x
  else .bad .accessDenied

/-- REMOTE is needed: spaces 2 and 4, and space 8 on another die (R106). -/
def needsRemote (w : Who) (space : Nat) (x : Int) : Bool :=
  space = 2 || space = 4 || (space = 8 && x / (2 ^ 38 : Nat) % 8 ≠ w.die)

/-- Steps 1 to 5 of R105: tag, space, permissions, bounds, alignment to `al`. -/
def capChecks (w : Who) (c : Cap) (x : Int) (n al : Nat) (k : Kind) : Option Cause :=
  if !c.tag then some .capTag
  else if !spaceAllows c.space k then some .capSpace
  else if !permsAllow c k (needsRemote w c.space x) then some .capPerm
  else if !((c.base : Int) ≤ x && x + n ≤ c.top) then some .capBounds
  else if x % (al : Int) ≠ 0 then some .misaligned
  else none

/-- The checks of R105 in order: the home location of an access of `n` bytes at `x`, or the first failure with
TVAL := x. -/
def State.access (s : State) (w : Who) (c : Cap) (x : Int) (n al : Nat) (k : Kind) : R Nat :=
  match capChecks w c x n al k with
  | some e => .trap e (tv x) s
  | none =>
    match s.place w c.space x.toNat n with
    | .home key => .ok key s
    | .bad e => .trap e (tv x) s
    | .virt space va => s.translate w.die w.core w.xpart space va (some k) (tv x)

end Sys2Proof.Machine
end

