-- ==== Sys2Proof/Machine/Home.lean ====
section
/-! DEFINITION. Performing accesses at their homes and the buffers before them (R109, R115–R117, R250–R254). -/

namespace Sys2Proof.Machine

/-! ### Atomics at the home -/

/-- Signed value of `n` bits. -/
def sgn (x n : Nat) : Int := sextInt x n

/-- The value an atomic stores (R249–R251): `op` of R249 on `bits`-bit operands, CAS not among them. -/
def atomicNew (op bits m v : Nat) : Nat :=
  if op = 0 then (m + v) % 2 ^ bits
  else if op = 1 then m &&& v
  else if op = 2 then m ||| v
  else if op = 3 then m ^^^ v
  else if op = 4 then if sgn v bits < sgn m bits then v else m
  else if op = 5 then if sgn m bits < sgn v bits then v else m
  else if op = 6 then Nat.min m v
  else if op = 7 then Nat.max m v
  else if op = 8 then v
  else if op = 10 then (fp32.addV 0 (fp32.decode m) (fp32.decode v)).1
  else if op = 11 then (fp32.minmax false false m v).1
  else if op = 12 then (fp32.minmax true false m v).1
  else
    (bf16.addV 0 (bf16.decode (m % 2 ^ 16)) (bf16.decode (v % 2 ^ 16))).1 +
      (bf16.addV 0 (bf16.decode (m / 2 ^ 16)) (bf16.decode (v / 2 ^ 16))).1 * 2 ^ 16

/-- The value a VSCTADD element of type `t` stores (R220). -/
def scatterNew (t m v : Nat) : Nat :=
  if isIntType t then (m + v) % 2 ^ typeBits t
  else ((fmtOf t).addV 0 ((fmtOf t).decode m) ((fmtOf t).decode v)).1

/-- Bytes of an atomic element: by width, or for VSCTADD by its type. -/
def atomicBytes (op : Nat) (wide vector : Bool) : Nat := if vector then typeBits op / 8 else if wide then 8 else 4

/-- Perform a reduction or VSCTADD element of an agent of a core at its home (R250, R252, R220): an uncorrectable word is
logged; a 64-bit RED then writes new(0, v), a narrower one nothing. -/
def State.atomicHome (s : State) (core loc op : Nat) (wide vector : Bool) (v : Nat) : State :=
  let n := atomicBytes op wide vector
  let new := fun m => if vector then scatterNew op m v else atomicNew op (8 * n) m v
  match s.badWords loc n with
  | w :: _ =>
    let t := s.logError .home core w
    if wide && !vector then t.writeHomeNat core loc 8 (new 0) else t
  | [] => s.writeHomeNat core loc n (new (s.homeNat loc n))

/-- Post a reduction that found no translation at its home to the partition fault queue (R254, R397): the op of a VSCTADD element is ADD or
FADD, as its type is integer or not (log 123). -/
def State.postFault (s : State) (c : CtxId) (op : Nat) (wide vector : Bool) (v : Word) (space part launch : Nat) (addr : Word)
    (cause : Nat) : State :=
  let p := s.partOf part
  let num := p.posted + 1
  let add := if isIntType op then 0 else 10
  let opByte := (if vector then add else op % 16) + (if wide then 16 else 0) + (if vector then 32 else 0)
  let rec_ := leBytes 4 launch ++ [BitVec.ofNat 8 opByte, BitVec.ofNat 8 cause, 0, 0] ++
    leBytes 8 (addr.toNat % 2 ^ 56 + space * 2 ^ 56) ++ leBytes 8 v.toNat ++ leBytes 8 num
  let at_ := field p.desc 72 8 + (num - 1) % (Nat.max 1 (field p.desc 80 4)) * 32
  let s := { s with disp := { s.disp with
    parts := s.disp.parts.insert part { p with posted := num },
    launches := match s.disp.launches.find? launch with
      | some l => s.disp.launches.insert launch { l with posted := num }
      | none => s.disp.launches
    chains := match s.disp.launches.find? launch with
      | some l => s.disp.chains.map fun (p : Nat × Chain) => if p.1 = l.chain then (p.1, { p.2 with rfaults := p.2.rfaults + 1 }) else p
      | none => s.disp.chains } }
  match s.locate? c.die 16 part 3 at_ (some .store) with
  | some k => s.writeHomeBytes c.core k rec_
  | none => s

/-! ### Requests to other packages (R431–R433, R436) -/

/-- A package takes part in the fabric as this one sees it. -/
def Fabric.present (f : Fabric) (p : Nat) : Bool := f.admitted.contains p && !f.eclipsed.contains p

/-- Flits of a class queued at a port. -/
def Fabric.queued (f : Fabric) (port cls : Nat) : Nat :=
  match f.ports.find? port with
  | some p => (p.queue.filter fun x => x.cls = cls).length
  | none => 0

/-- The first port of a path to a package: the minimal one, unless more than 2n + 16 flits of the class are queued there, n the fewest
at a valid non-minimal port: then that one, the lowest k on a tie (R431). -/
def Fabric.pathPort (f : Fabric) (target cls : Nat) : Nat :=
  let e := f.routes.getD target 0
  let near := bitsOf e 4 0
  let others := ((List.range 4).filter fun k => bitOf e (28 + k)).map fun k => bitsOf e (12 + 5 * k) (8 + 5 * k)
  match (others.map fun p => f.queued p cls).min? with
  | some n => if 2 * n + 16 < f.queued near cls then (others.find? fun p => f.queued p cls = n).getD near else near
  | none => near

/-- The bytes of a transfer's flits: 16 bytes of header, whose content no rule gives, with up to 48 bytes of data, then 64 bytes of data
each (R432). -/
def transferFlits (header : Nat) (bs : List Byte) : List (List Byte) :=
  let n := 1 + (bs.length - 48 + 63) / 64
  let all := padTo (64 * n) (leBytes 16 header ++ bs)
  (List.range n).map fun i => (all.drop (64 * i)).take 64

/-- The flits of a transfer of a class to a package (R432). -/
def State.flitsTo (s : State) (cls target : Nat) (num : Option Nat) (tags : List Bool) (bs : List Byte) : List Flit :=
  (transferFlits (Config.freeWord (2 ^ 64 * (s.fabric.nextReq + 2) + s.steps)).toNat bs).zipIdx.map fun x =>
    ⟨cls, 0, target, num, x.2 = 0, if x.2 = 0 then tags else [], x.1⟩

/-- Flits join a port's queue. -/
def Fabric.enqueue (f : Fabric) (port : Nat) (l : List Flit) : Fabric :=
  { f with ports := f.ports.map fun p => if p.1 = port then (p.1, { p.2 with queue := p.2.queue ++ l }) else p }

/-- The path of a request to a line of another package: that of an earlier request to it not yet acknowledged, else the one chosen for it
(R431). -/
def State.requestPort (s : State) (k : Nat) : Nat :=
  match s.fabric.unacked.find? fun q => q.target = keyPkg k && q.line = k / 64 with
  | some q => q.port
  | none => s.fabric.pathPort (keyPkg k) 0

/-- A request to another package is queued at its port, and kept until its home acknowledges it (R432, R436). -/
def State.sendRequest (s : State) (k : Nat) (what : Sought) (tags : List Bool) (bs : List Byte) : State :=
  if keyRegion k ≠ 4 then s
  else
    let n := s.fabric.nextReq
    let q : Request := ⟨n, keyPkg k, k / 64, s.requestPort k, 0, what, s.flitsTo 0 (keyPkg k) (some n) tags bs, false⟩
    { s with fabric := { s.fabric.enqueue q.port q.flits with nextReq := n + 1, unacked := s.fabric.unacked ++ [q] } }

/-- A load of another package's memory is asked of its home (R432). -/
def State.sendLoad (s : State) (k : Nat) : State := if s.lost k || s.refused k then s else s.sendRequest k .load [] []

/-- The requests of a store, one for each 64-byte line, with the tags of its granules (R107, R432). -/
def State.sendStore (s : State) (cells : List Host.Cell) (tag : Bool) : State :=
  ((cells.map fun c => c.1 / 64).eraseDups).foldl (fun s l =>
    let mine := cells.filter fun c => c.1 / 64 = l
    match mine with
    | [] => s
    | c :: _ => s.sendRequest c.1 .store ((mine.map fun c => c.1 / 16).eraseDups.map fun _ => tag) (mine.map (·.2))) s

/-- A store at its home; what goes to a lost target, or into this package's image region, is discarded and counted (R403, R437). -/
def State.storeHome (s : State) (core : Nat) (cells : List Host.Cell) (tag : Bool) : State :=
  let s := if cells.any fun c => s.refused c.1 then s.countRefusal else s
  let cells := cells.filter fun c => !s.refused c.1
  let gone := cells.filter fun c => s.lost c.1
  let live := cells.filter fun c => !s.lost c.1
  let s := match gone with
    | [] => s
    | _ :: _ => { s with fabric := { s.fabric with losses := s.fabric.losses + 1 } }
  if live = [] then s
  else ((if live.any fun c => keyRegion c.1 = 4 then s.sendStore (live.filter fun c => keyRegion c.1 = 4) tag else s)).writeHome core live tag

/-- A reduction at its home, discarded where this package refuses it, or its post when the home is lost (R403, R437). -/
def State.reduceHome (s : State) (c : CtxId) (loc op : Nat) (wide vector : Bool) (v : Word) (space part launch : Nat)
    (addr : Word) : State :=
  if s.refused loc then s.countRefusal
  else if s.lost loc then s.postFault c op wide vector v space part launch addr Cause.accessDenied.code
  else
    let p := Pending.atomic 0 c.key 0 loc op wide vector v space part launch addr
    (s.sendRequest loc (.reduce p) [] (leBytes (atomicBytes op wide vector) v.toNat)).atomicHome c.core loc op wide vector v.toNat

/-- Perform a buffered access at its home. A translated reduction is translated again: the mapping may have changed
(R254). -/
def State.performAtHome (s : State) (p : Pending) : State :=
  match p with
  | .store _ ctx cells tag _ => s.storeHome (ctxOf ctx).core cells tag
  | .atomic _ ctx _ loc op wide vector v space part launch addr =>
    let c := ctxOf ctx
    if space = 3 || space = 4 then
      match s.translate c.die 16 part space addr.toNat (some .atomic) 0 with
      | .ok k _ => s.reduceHome c k op wide vector v space part launch addr
      | .trap e _ _ => s.postFault c op wide vector v space part launch addr e.code
      | .wait => s.reduceHome c loc op wide vector v space part launch addr
    else s.reduceHome c loc op wide vector v space part launch addr
  | .act .. => s

/-! ### The buffers before the homes (R115–R117) -/

/-- The home needs no buffer: a scratchpad of the die, or its resident store (R115). -/
def straight (die k : Nat) : Bool := keyRegion k = 1 || (keyRegion k = 3 && keyDie k = die)

/-- The locations that an access writes. -/
def Pending.keys : Pending → List Nat
  | .store _ _ cells _ _ => cells.map (·.1)
  | .atomic _ _ _ loc op wide vector .. => upFrom loc (atomicBytes op wide vector)
  | .act .. => []

/-- An atomic element. -/
def Pending.isAtomic : Pending → Bool
  | .store .. => false
  | .atomic .. => true
  | .act .. => false

/-- A store. -/
def Pending.isStore : Pending → Bool
  | .store .. => true
  | .atomic .. => false
  | .act .. => false

/-- The instruction an access is of, by its number in its context. -/
def Pending.ord : Pending → Nat
  | .store ord .. => ord
  | .atomic ord .. => ord
  | .act ord .. => ord

/-- An atomic that touches a run of locations. -/
def Pending.atomicOn (p : Pending) (k n : Nat) : Bool := p.isAtomic && p.keys.any fun j => k ≤ j && j < k + n

/-- Whether an atomic of a queue touches a run of locations. -/
def atomicTouches (q : List Pending) (k n : Nat) : Bool := q.any (·.atomicOn k n)

/-- Two accesses touch one granule: their order at its home is that of their buffer (R107, R117). -/
def Pending.meets (p q : Pending) : Bool := p.keys.any fun j => q.keys.any fun k => j / 16 = k / 16

/-- Two accesses go to one place behind a port or in another package, which keeps their order (R115, R434). -/
def Pending.sameRoad (p q : Pending) : Bool :=
  p.keys.any fun j => q.keys.any fun k =>
    keyRegion j = keyRegion k && (keyRegion j = 4 || keyRegion j = 5 || keyRegion j = 6)

/-- Two atomics of one stay of a task in its slot: they are performed in the order of its store queue (R119). -/
def Pending.sameTask (p q : Pending) : Bool :=
  match p, q with
  | .atomic _ c t .., .atomic _ d u .. => c = d && t = u
  | _, _ => false

/-- An atomic of a context's present task. -/
def Pending.ofStay (p : Pending) (ctx stay : Nat) : Bool :=
  match p with
  | .store .. => false
  | .atomic _ c t .. => c = ctx && t = stay
  | .act .. => false

/-- An access of an outbound buffer goes before a younger one: to one granule, by one road, or atomics of one task (R115, R117, R119). -/
def Pending.before (q p : Pending) : Bool := q.meets p || q.sameRoad p || q.sameTask p

/-- An access of the egress buffer goes before a younger one: to one line, or atomics of one task (R119, R434). -/
def Pending.ahead (q p : Pending) : Bool := q.sameTask p || p.keys.any fun j => q.keys.any fun k => j / 64 = k / 64

/-- An access of an outbound buffer may reach its home, or the egress buffer, before those older than it: the buffer drains in
FIFO order and the time of transit is free, but for those that go before it (R115, log 97). -/
def mayLand (older : List Pending) (p : Pending) : Bool := !older.any fun q => q.before p

/-- An access of the egress buffer may reach its home before those older than it that do not go before it (R434, log 97). -/
def mayArrive (older : List Pending) (p : Pending) : Bool := !older.any fun q => q.ahead p

/-- An access leaves a die's outbound buffer: to the egress buffer for another package, else to its home (R115). -/
def State.leaveOutbound (s : State) (p : Pending) : State :=
  match p with
  | .store ord ctx cells tag _ =>
    let far := cells.filter fun c => keyRegion c.1 = 4
    let near := cells.filter fun c => keyRegion c.1 ≠ 4
    let s := if near = [] then s else s.performAtHome (.store ord ctx near tag false)
    if far = [] then s else { s with egress := s.egress ++ [.store ord ctx far tag false] }
  | .atomic _ _ _ loc .. => if keyRegion loc = 4 then { s with egress := s.egress ++ [p] } else s.performAtHome p
  | .act .. => s

/-- The accesses of a buffer that meet a condition with the older ones that go before them, and the rest, which the time of transit may
hold back (R115). -/
def pickOut (before : Pending → Pending → Bool) (f : Pending → Bool) (l : List Pending) : List Pending × List Pending :=
  l.foldr (fun q x => if f q || x.1.any (before q) then (q :: x.1, x.2) else (x.1, q :: x.2)) ([], [])

/-- The accesses of a die's outbound buffer that meet a condition go on, and those that go before them (R115). -/
def State.drainOutboundTo (s : State) (die : Nat) (f : Pending → Bool) : State :=
  let q := pickOut Pending.before f (s.dieAt die).outbound
  q.1.foldl State.leaveOutbound (s.modDie die fun d => { d with outbound := q.2 })

/-- The accesses of the package's egress buffer that meet a condition are performed, and those that go before them (R115). -/
def State.drainEgressTo (s : State) (f : Pending → Bool) : State :=
  let q := pickOut Pending.ahead f s.egress
  q.1.foldl State.performAtHome { s with egress := q.2 }

/-- Drain a die's outbound buffer in order (R115). -/
def State.drainOutbound (s : State) (die : Nat) : State := s.drainOutboundTo die fun _ => true

/-- Drain the package's egress buffer in order (R115). -/
def State.drainEgress (s : State) : State := s.drainEgressTo fun _ => true

/-- An agent of a die releases at a scope: what entered the buffers before is performed there (R115, R126, log 8). -/
def State.releaseFrom (s : State) (die scope : Nat) : State :=
  let s := if 2 ≤ scope then s.drainOutbound die else s
  if 3 ≤ scope then s.drainEgress else s

/-- Pending atomics on a run of locations that an agent of a die would read past are performed first (R116, log 8). -/
def State.settleAtomics (s : State) (die k n : Nat) : State :=
  let s := if atomicTouches (s.dieAt die).outbound k n then s.drainOutboundTo die (·.atomicOn k n) else s
  if keyRegion k = 4 && atomicTouches s.egress k n then s.drainEgressTo (·.atomicOn k n) else s

/-- Every atomic of a task's stay in a slot that has left its store queue is performed at its home (R116, R119). -/
def State.landAtomics (s : State) (c : CtxId) (stay : Nat) : State :=
  let mine := fun p : Pending => p.ofStay c.key stay
  let s := if (s.dieAt c.die).outbound.any mine then s.drainOutboundTo c.die mine else s
  if s.egress.any mine then s.drainEgressTo mine else s

end Sys2Proof.Machine
end

