-- ==== Sys2Proof/Machine/Objects.lean ====
section
/-! DEFINITION. Synchronising objects and who waits on them: allocation bitmaps, counters, stage barriers, channels, tags and
engine contexts, the waits of blocked and suspended tasks, and what an entry of a store queue does when it is performed (R119,
R121, R261–R271, R276, R313–R315). -/

namespace Sys2Proof.Machine

/-! ### Allocation bitmaps -/

/-- The byte of the bitmaps at a partition's ALLOC address that holds bit `i`. -/
def State.allocKey (s : State) (part i : Nat) : Option Nat :=
  s.locate? s.here.die 16 part 3 (field (s.partOf part).desc 104 8 + i / 8) none

/-- Bit `i` of the bitmaps at a partition's ALLOC address, clear where it cannot be read: counters from bit 0, channel descriptors from bit 2,048,
collective groups from bit 6,144 (R408 gives no layout, log 15). -/
def State.allocated (s : State) (part i : Nat) : Bool :=
  match s.allocKey part i with
  | some k => s.badWords k 1 = [] && bitOf (s.homeByte k).toNat (i % 8)
  | none => false

/-- The uncorrectable words that a look at the bitmaps finds enter the memory-error log (R112). -/
def State.noteAllocated (s : State) (part i : Nat) : State :=
  match s.allocKey part i with
  | some k => s.logErrors .dispatcher s.here.core (s.badWords k 1)
  | none => s.walked s.here.die 16 part 3 (field (s.partOf part).desc 104 8 + i / 8) none

/-- Set or clear bit `i` of a partition's allocation bitmaps (R408, R413, log 15). -/
def State.setAllocated (s : State) (part i : Nat) (b : Bool) : State :=
  match s.allocKey part i with
  | some k => s.writeHomeNat s.here.core k 1 (withBit (s.homeByte k).toNat (i % 8) b)
  | none => s

/-! ### Counters -/

/-- A counter's 64 bits (R262). -/
def State.counter (s : State) (k : Nat) : BitVec 64 := s.shared.counters.getD k 0

/-- A counter's value, bits 62:0 (R262). -/
def ctrValue (c : BitVec 64) : Nat := c.toNat % 2 ^ 63

/-- A counter's poison bit (R262). -/
def ctrPoison (c : BitVec 64) : Bool := c.getLsbD 63

/-- A counter after an increment and perhaps a poison (R262, R263): the value stops at 2^63 − 1. -/
def ctrAdd (c : BitVec 64) (inc : Nat) (poison : Bool) : BitVec 64 :=
  BitVec.ofNat 64 (Nat.min (ctrValue c + inc) (2 ^ 63 - 1) + if ctrPoison c || poison then 2 ^ 63 else 0)

/-- The window of 32-bit thresholds: the 64-bit threshold is the value within 2^31 of the counter whose low 32 bits
are `thr`; it is met when it is not above the counter (R279). -/
def windowMet (value thr : Nat) : Bool := (value + 2 ^ 32 - thr % 2 ^ 32) % 2 ^ 32 < 2 ^ 31

/-- Where the entry of a ring at a running count lies. -/
def State.entryKey (s : State) (part ring size head : Nat) : Option Nat :=
  s.locate? s.here.die 16 part 3 (ring + 16 * (head % Nat.max 1 size)) none

/-- The entry of a ring at a running count waits for a counter that has reached its threshold (R377, R381). -/
def State.entryWoken (s : State) (part ring size head key : Nat) : Bool :=
  match s.entryKey part ring size head with
  | none => false
  | some e => s.badWords e 16 = [] && bitOf (s.homeNat (e + 10) 1) 0 && ctrKey (s.homeNat (e + 8) 2) = key &&
      windowMet (ctrValue (s.counter key)) (s.homeNat (e + 12) 4)

/-- The head entry of an unmapped queue, by its descriptor, waits for such a counter; with HEAD at TAIL there is no such entry (R377,
R381). -/
def State.headWoken (s : State) (part desc tail key : Nat) : Bool :=
  match s.locate? s.here.die 16 part 3 desc none with
  | none => false
  | some k =>
    s.badWords k 64 = [] && s.homeNat (k + 12) 4 ≠ tail &&
      s.entryWoken part (s.homeNat k 6) (s.homeNat (k + 8) 4) (s.homeNat (k + 12) 4) key

/-- An event for every firmware context wakes those that wait in WFI (R372, log 108). -/
def State.wakeAll (s : State) : State := { s with cores := s.cores.map fun p => (p.1, { p.2 with wfi := none }) }

/-- A queue's latch takes a wake: PEND is set, and an unmapped queue whose HOLD is set posts one wake notice (R378,
R380). -/
def State.latchWake (s : State) (q : Nat) : State :=
  match s.disp.latches.find? q with
  | none => s
  | some l =>
    let tell := l.hold && l.hwq.isNone && !l.noticed
    let s := { s with disp := { s.disp with
      latches := s.disp.latches.insert q { l with pend := true, noticed := l.noticed || tell } } }
    if tell then (s.notify (.wake (q / 4096) (q % 4096))).wakeAll else s

/-- A latch's queue is unmapped or UNMAPPING, and its head entry waits for a counter that reached its threshold
(R381). -/
def State.latchWoken (s : State) (q : Nat) (l : Latch) (key : Nat) : Bool :=
  match l.hwq, l.desc with
  | none, some d => s.headWoken (q / 4096) d l.tail key
  | some h, _ =>
    match s.disp.hwqs.find? h with
    | some w => w.state = .unmapping && w.head ≠ l.tail && s.entryWoken w.part w.ring w.size w.head key
    | none => false
  | none, none => false

/-- The uncorrectable words that a look at an unmapped queue's descriptor and head entry finds enter the memory-error log (R112, R381). -/
def State.noteHead (s : State) (q : Nat) (l : Latch) : State :=
  if s.bad = [] || l.hwq.isSome then s
  else
    match l.desc.bind fun d => s.locate? s.here.die 16 (q / 4096) 3 d none with
    | none => s
    | some k =>
      let s := s.logErrors .dispatcher 0 (s.badWords k 64)
      match s.entryKey (q / 4096) (s.homeNat k 6) (s.homeNat (k + 8) 4) (s.homeNat (k + 12) 4) with
      | some e => s.logErrors .dispatcher 0 (s.badWords e 16)
      | none => s

/-- A signal reached a counter: unmapped queues whose head entry it satisfies latch the wake (R381). -/
def State.counterWake (s : State) (key : Nat) : State :=
  let s := s.disp.latches.foldl (fun t p => t.noteHead p.1 p.2) s
  (s.disp.latches.filter fun p => s.latchWoken p.1 p.2 key).foldl (fun t p => t.latchWake p.1) s

/-! ### Stage barriers -/

/-- The four fields of a stage barrier (R264). -/
structure Barrier where
  count : Nat
  left : Nat
  phase : Nat
  err : Bool
  pend : Int
deriving DecidableEq, Repr

/-- Read a barrier's 16 bytes (R264). -/
def State.barrierAt (s : State) (k : Nat) : Barrier :=
  ⟨s.homeNat k 2, s.homeNat (k + 2) 2, s.homeNat (k + 4) 4 % 2 ^ 31, bitOf (s.homeNat (k + 4) 4) 31,
    sextInt (s.homeNat (k + 8) 8) 64⟩

/-- The bytes of a barrier (R264). -/
def Barrier.bytes (b : Barrier) : List Byte :=
  leBytes 2 b.count ++ leBytes 2 b.left ++ leBytes 4 (b.phase + if b.err then 2 ^ 31 else 0) ++
    leBytes 8 (BitVec.ofInt 64 b.pend).toNat

/-- The completion check after a barrier operation (R266). -/
def Barrier.check (b : Barrier) : Barrier :=
  if b.left = 0 ∧ b.pend ≤ 0 then
    { b with err := decide (b.pend < 0), pend := 0, left := b.count, phase := (b.phase + 1) % 2 ^ 31 }
  else b

/-- A barrier as its 16 bytes hold it: PEND is 64 bits (R264). -/
def Barrier.held (b : Barrier) : Barrier := { b with pend := (BitVec.ofInt 64 b.pend).toInt }

/-- A barrier's error state covers a token of its phase or the phase before (R266). -/
def Barrier.overrun (b : Barrier) (token : Nat) : Bool :=
  b.err && (token = b.phase || (token + 1) % 2 ^ 31 = b.phase)

/-! ### Channels -/

/-- The state of a slot (R268). -/
def Channel.slot (c : Channel) (i : Nat) : ChSlot := c.slots.getD i ⟨0, 0⟩

/-- A channel with a slot changed. -/
def Channel.setSlot (c : Channel) (i state stamp : Nat) : Channel := { c with slots := c.slots.insert i ⟨state, stamp⟩ }

/-- Write a channel descriptor. -/
def State.setChannel (s : State) (h : Nat) (c : Channel) : State :=
  { s with shared := { s.shared with channels := s.shared.channels.insert h c } }

/-- The slots of a channel in a state. -/
def Channel.count (c : Channel) (state : Nat) : Nat :=
  ((List.range c.depth).filter fun i => (c.slot i).state = state).length

/-- Which side of a channel an instruction is on (R413). -/
inductive Side where
  | producer | consumer | either
deriving DecidableEq, Repr

/-- A partition may use a channel on a side; a granted channel has one partition on each (R413). -/
def Channel.allows (c : Channel) (part : Nat) (side : Side) : Bool :=
  match c.grant with
  | none => part = c.part
  | some (pp, _, cp, _) =>
    match side with
    | .producer => part = pp
    | .consumer => part = cp
    | .either => part = pp || part = cp

/-- The slot word of a slot at the issuing partition's base (R268, R413). -/
def Channel.slotWord (c : Channel) (part i : Nat) : Word :=
  BitVec.ofNat 64 (((c.baseFor part).getD 0 + i * c.slotBytes) % 2 ^ 48 + i * 2 ^ 48)

/-! ### Tags -/

/-- The number of a handle of a partition. -/
def tagKey (part word : Nat) : Nat := part * 2 ^ 16 + word % 2 ^ 16

/-- The generation of a tag word (R313). -/
def tagGen (word : Nat) : Nat := word / 2 ^ 16 % 2 ^ 16

/-- A handle's record; unlisted ones are FREE with last retired generation 0 (R313). -/
def State.tagRec (s : State) (part word : Nat) : TagRec := s.shared.tags.getD (tagKey part word) ⟨0, 0, 0, 0, [], [], []⟩

/-- Write a handle's record. -/
def State.setTag (s : State) (part word : Nat) (t : TagRec) : State :=
  { s with shared := { s.shared with tags := s.shared.tags.insert (tagKey part word) t } }

/-- A handle is DECLARED or PUBLISHED with a generation. -/
def TagRec.live (t : TagRec) (gen : Nat) : Bool := (t.state = 1 || t.state = 2) && t.gen = gen

/-- A handle is FREE and a generation is the next it may be declared with. -/
def TagRec.nextGen (t : TagRec) (gen : Nat) : Bool := t.state = 0 && gen = (t.retired + 1) % 2 ^ 16

/-- A tag word is stale for TAGPUB and TAGRET (R314). -/
def State.stalePub (s : State) (part word : Nat) : Bool := !(s.tagRec part word).live (tagGen word)

/-- A tag word is stale for TAGWAIT and TRNEXT (R314). -/
def State.staleWait (s : State) (part word : Nat) : Bool :=
  !(s.tagRec part word).live (tagGen word) && !(s.tagRec part word).nextGen (tagGen word)

/-- A tag word's handle and generation are published. -/
def State.published (s : State) (part word : Nat) : Bool :=
  (s.tagRec part word).state = 2 && (s.tagRec part word).gen = tagGen word

/-- A waiter on a tag: the tag as one number, and the context. -/
def tagWaitKey (part word : Nat) : Nat := part * 2 ^ 32 + word % 2 ^ 32

/-- A waiter of a tag word is on the handle's spill record: only firmware's scan serves it (R389, R390). -/
def State.isLate (s : State) (part word : Nat) (w : TagWaiter) : Bool :=
  (s.tagRec part word).late.any fun x => x.2 = (word, w)

/-- Change a waiting sequence entry on the hardware wait list of a tag word of a partition. -/
def State.modWaiting (s : State) (part word : Nat) (f : SeqEntry → SeqEntry) : State :=
  { s with shared := { s.shared with seqs := s.shared.seqs.map fun p =>
      if p.2.state = 0 && p.2.part = part && p.2.input = some word && !s.isLate part word (.seq p.1) then (p.1, f p.2) else p } }

/-- The contexts blocked on a tag, in the order they joined (R389). -/
def State.tagQueue (s : State) (part word : Nat) : List CtxId :=
  (s.shared.tagWaiters.filter fun w => w.1 = tagWaitKey part word).map fun w => ⟨w.2 / 256, w.2 / 8 % 32, w.2 % 8⟩

/-- Nobody is on a tag's hardware wait list any more. -/
def State.clearWaiters (s : State) (part word : Nat) : State :=
  { s with shared := { s.shared with
    tagWaiters := s.shared.tagWaiters.filter fun w => w.1 ≠ tagWaitKey part word || s.isLate part word (.slot w.2) } }

/-- A context leaves every tag's wait list. -/
def State.leaveTags (s : State) (key : Nat) : State :=
  { s with shared := { s.shared with tagWaiters := s.shared.tagWaiters.filter fun w => w.2 ≠ key } }

/-- The homes of the descriptors of the partition table: those of 64 partitions and the supervisor's (R400, R408, log 15). -/
def State.tableHomes (s : State) : List Nat := (List.range 65).map fun i => residentKey (s.plat.partTable + 256 * i)

/-- The home of a partition's descriptor in the partition table; an entry of zeros is nobody's (R408). -/
def State.descHome (s : State) (part : Nat) : Option Nat :=
  s.tableHomes.find? fun k => s.homeNat k 2 = part && (part ≠ 0 || bitOf (s.homeNat (k + 3) 1) 0)

/-- A field of a partition descriptor that the device writes: the cached copy and the table (R408). -/
def State.writeDesc (s : State) (part off n x : Nat) : State :=
  let p := s.partOf part
  let q := { p with desc := p.desc.take off ++ leBytes n x ++ p.desc.drop (off + n) }
  let s := { s with disp := { s.disp with parts := s.disp.parts.insert part q } }
  match s.descHome part with
  | some k => s.writeHomeNat s.here.core (k + off) n x
  | none => s

/-! ### Engine contexts -/

/-- The key of an engine context: engines 0 and 1 of a task slot (R278). -/
def engKey (c : CtxId) (eng : Nat) : Nat := c.key * 2 + eng

/-- An engine context's commands. -/
def State.copyCtx (s : State) (c : CtxId) (eng : Nat) : CopyCtx := s.eng.copies.getD (engKey c eng) ⟨[], 0⟩

/-- A core's lease context (R238). -/
def State.leaseCtx (s : State) (die core : Nat) : LeaseCtx := s.eng.leases.getD (coreKey die core) ⟨[], none, [], 0⟩

/-- Change an engine context. -/
def State.modCopy (s : State) (c : CtxId) (eng : Nat) (f : CopyCtx → CopyCtx) : State :=
  { s with eng := { s.eng with copies := s.eng.copies.insert (engKey c eng) (f (s.copyCtx c eng)) } }

/-- A cluster's array. -/
def State.arrayAt (s : State) (die cl : Nat) : Array_ := s.eng.arrays.getD (die * 4 + cl) Array_.idle

/-- Change a cluster's array. -/
def State.modArray (s : State) (die cl : Nat) (f : Array_ → Array_) : State :=
  { s with eng := { s.eng with arrays := s.eng.arrays.insert (die * 4 + cl) (f (s.arrayAt die cl)) } }

/-- The lease that the task of a context holds. -/
def State.leaseOf (s : State) (c : CtxId) : Option Lease :=
  match (s.arrayAt c.die (c.core / 4)).lease with
  | some l => if l.core = c.core && l.slot = c.slot && l.task = (s.hartAt c).task.ident then some l else none
  | none => none

/-- The request of a context that its array has not granted. -/
def State.leaseWaits (s : State) (c : CtxId) : Option LeaseReq :=
  (s.arrayAt c.die (c.core / 4)).reqs.find? fun r => r.core = c.core && r.slot = c.slot

/-- A job is not yet complete (R236, R244). -/
def Job.pending (j : Job) : Bool := j.state < 4

/-- The jobs of the task of a context whose status is known, oldest first: those of its core's lease context, and those that wait with a
restored task for its lease (R244, R246). -/
def State.allJobs (s : State) (c : CtxId) : List Job :=
  (s.leaseCtx c.die c.core).jobs.filter (fun j => j.task = (s.hartAt c).task.ident) ++
    match s.leaseWaits c with
    | some ⟨_, _, _, _, _, some x⟩ => x.jobs
    | _ => []

/-- The jobs of the task of a context that are not yet complete. -/
def State.jobsOf (s : State) (c : CtxId) : List Job := (s.allJobs c).filter Job.pending

/-- Change a core's lease context. -/
def State.modLease (s : State) (die core : Nat) (f : LeaseCtx → LeaseCtx) : State :=
  { s with eng := { s.eng with leases := s.eng.leases.insert (coreKey die core) (f (s.leaseCtx die core)) } }

/-- The commands of a context's collective engine. -/
def State.collsOf (s : State) (key : Nat) : List CollCmd := s.eng.colls.getD key []

/-- Write the commands of a context's collective engine. -/
def State.setColls (s : State) (key : Nat) (l : List CollCmd) : State :=
  { s with eng := { s.eng with colls := if l = [] then s.eng.colls.erase key else s.eng.colls.insert key l } }

/-! ### Waits (R31, R261) -/

/-- A core runs: no firmware fault has stopped it and it is not retired (R362, R445). -/
def State.coreRuns (s : State) (c : CtxId) : Bool :=
  let k := s.coreAt c.die c.core
  !k.failed && !k.retired

/-- A trap of a context other than the issuing one: a task trap or a firmware fault (R362, R364). -/
def State.trapAt (s : State) (c : CtxId) (cause : Cause) (val : Word) (len : Nat) : State :=
  if c.slot = 4 then s.firmwareFault c.die c.core cause.code (s.hartAt c).pc val else s.trapContext c cause val len

/-- A context's wait is over: it goes on past its instruction, with a result in a scalar register. -/
def State.complete (s : State) (c : CtxId) (d : SReg) (v : Word) : State :=
  s.modHart c fun h => { (h.goOn (h.pc + 4)) with s := if d = 0 then h.s else h.s.set d.toNat v d.isLt }

/-- Reserve the slot at the reserve pointer for a context or an engine (R269). -/
def State.chReserve (s : State) (h key : Nat) (c : Channel) : State :=
  s.setChannel h { c.setSlot c.rsv 1 (c.slot c.rsv).stamp with
    rsv := (c.rsv + 1) % Nat.max 1 c.depth, waiters := c.waiters.filter (· ≠ key) }

/-- Take the slot at the take pointer (R270). -/
def State.chTake (s : State) (h : Nat) (c : Channel) : State :=
  s.setChannel h { c.setSlot c.take 3 (c.slot c.take).stamp with take := (c.take + 1) % Nat.max 1 c.depth }

/-- A task holds a channel slot it reserved (true) or took (R56, R275). -/
def State.holdAt (s : State) (c : CtxId) (h i : Nat) (reserved : Bool) : State :=
  s.modHart c fun x => { x with task := { x.task with heldChans := x.task.heldChans ++ [(h, i, reserved)] } }

/-- The slot at the reserve pointer is FREE and it is the turn of a context or engine (R269). -/
def Channel.mayReserve (c : Channel) (key : Nat) : Bool :=
  (c.slot c.rsv).state = 0 && (match c.waiters with
    | [] => true
    | k :: _ => k = key)

/-- A wait as it stands: it holds, it does not yet, or the fate of its instruction (R276). -/
inductive WaitState where
  | met
  | unmet
  | fate (c : Cause) (v : Word)
deriving DecidableEq, Repr

/-- The wait of a SUSPEND on an object, once its instruction has issued: kinds ctr, chfill, chfree and tag (R276). -/
def State.objectState (s : State) (part kind : Nat) (x thr : Word) : WaitState :=
  let yes := fun b : Bool => if b then WaitState.met else .unmet
  let chan := fun (st : Channel → Bool) =>
    match s.shared.channels.find? x.toNat with
    | none => WaitState.unmet
    | some c => if c.poison then .fate .channelPoisoned x else yes (st c)
  if kind = 0 then
    if ctrPoison (s.counter (ctrKey x.toNat)) then .fate .engineError x
    else yes (thr.toNat ≤ ctrValue (s.counter (ctrKey x.toNat)))
  else if kind = 1 then chan fun c => (c.slot c.take).state = 2
  else if kind = 2 then chan fun c => (c.slot c.rsv).state = 0
  else if kind = 3 then
    if s.staleWait part x.toNat then .fate .tagStale x else yes (s.published part x.toNat)
  else .unmet

/-- A blocked context's wait on an object ends if it is met, or in the trap that its instruction takes while blocked (R261,
R263, R266, R267, R269–R271, R315). -/
def State.tryWait (s : State) (c : CtxId) : State :=
  let t := (s.hartAt c).task
  match t.wait with
  | some (.counter d k thr ref) =>
    if ctrPoison (s.counter k) then s.trapAt c .engineError ref 4
    else if thr.toNat ≤ ctrValue (s.counter k) then s.complete c d (s.counter k)
    else s
  | some (.barrier k token addr) =>
    let b := s.barrierAt k
    if b.overrun token then s.trapAt c .barrierOverrun addr 4
    else if b.phase ≠ token then s.complete c 0 0
    else s
  | some (.reserve d h) =>
    match s.shared.channels.find? h with
    | none => s
    | some ch =>
      if ch.poison then s.trapAt c .channelPoisoned (BitVec.ofNat 64 h) 4
      else if ch.mayReserve c.key then
        ((s.chReserve h c.key ch).holdAt c h ch.rsv true).complete c d (ch.slotWord t.part ch.rsv)
      else s
  | some (.take d h) =>
    match s.shared.channels.find? h with
    | none => s
    | some ch =>
      if ch.poison then s.trapAt c .channelPoisoned (BitVec.ofNat 64 h) 4
      else if (ch.slot ch.take).state = 2 then
        ((s.chTake h ch).holdAt c h ch.take false).complete c d (ch.slotWord t.part ch.take)
      else s
  | some (.tag part word) =>
    if s.isLate part word (.slot c.key) then s
    else if s.staleWait part word then s.trapAt c .tagStale (BitVec.ofNat 64 word) 4
    else if s.published part word then s.complete c 0 0
    else s
  | some (.drain q z) =>
    if ((s.hartAt c).q.get q.toFin).inflight = [] then
      (s.modHart c fun h => { h with q := h.q.set q.toNat z q.isLt }).complete c 0 0
    else s
  | some (.stay kind x thr) =>
    match s.objectState t.part kind x thr with
    | .met => s.complete c 0 0
    | .fate e v => s.trapAt c e v 4
    | .unmet => s
  | _ => s

/-- The BLOCKED contexts of running cores whose wait meets a condition. -/
def State.waitersOf (s : State) (f : Wait → Bool) : List CtxId :=
  s.contexts.filter fun c => s.coreRuns c && (s.hartAt c).status = .blocked && (s.hartAt c).task.wait.any f

/-- A suspended task looks at the object it waits on: it becomes PENDING-RESUME, or failed (R51, R52, R276, R387). -/
def State.look (s : State) (k : Cont) : Cont :=
  match s.objectState k.hart.task.part k.kind k.object k.threshold with
  | .met => { k with complete := true, since := s.steps }
  | .unmet => k
  | .fate c v => { k with fate := some (c, v), since := s.steps }

/-- A suspended task of kind tag waits on its handle's spill record (R389). -/
def State.lateCont (s : State) (id_ : Nat) (k : Cont) : Bool := k.kind = 3 && s.isLate k.hart.task.part k.object.toNat (.cont id_)

/-- Suspended tasks that meet a condition and still wait look at their objects. -/
def State.resumeOn (s : State) (f : Cont → Bool) : State :=
  let g := fun (n : Nat) (k : Cont) => if k.complete || k.fate.isSome || !f k || s.lateCont n k then k else s.look k
  { s with disp := { s.disp with conts := s.disp.conts.map fun (p : Nat × Cont) => (p.1, g p.1 p.2) } }

/-- The tasks that a change of an object may concern look at it again, blocked ones first. -/
def State.wakeOn (s : State) (f : Wait → Bool) (g : Cont → Bool) : State :=
  ((s.waitersOf f).foldl State.tryWait s).resumeOn g

/-- Apply a signal to a counter: each waiter sees the value and the poison bit that this operation leaves (R262, R263, R381). -/
def State.signal (s : State) (k inc : Nat) (poison : Bool) : State :=
  let s := { s with shared := { s.shared with counters := s.shared.counters.insert k (ctrAdd (s.counter k) inc poison) } }
  (s.counterWake k).wakeOn
    (fun w => match w with
      | .counter _ j _ _ => j = k
      | .stay kind x _ => kind = 0 && ctrKey x.toNat = k
      | _ => false)
    fun p => p.kind = 0 && ctrKey p.object.toNat = k


/-- Write a barrier after the completion check; the tasks blocked at it see what the operation leaves (R264, R266, R267). -/
def State.setBarrier (s : State) (k : Nat) (b : Barrier) : State :=
  (s.writeHomeBytes s.here.core k b.held.check.bytes).wakeOn
    (fun w => match w with
      | .barrier j _ _ => j = k
      | _ => false) fun _ => false

/-- A copy delivers its bytes to a barrier; one that holds uncorrectable data is logged and left as it is (R112, R265, log 126). -/
def State.barrierDeliver (s : State) (k bytes : Nat) : State :=
  match s.badWords k 16 with
  | w :: _ => s.logError .home s.here.core w
  | [] =>
    let b := s.barrierAt k
    s.setBarrier k { b with pend := b.pend - bytes }

/-- A list turned by a free amount. -/
def State.turned {α : Type} (s : State) (l : List α) : List α :=
  let n := (Config.freeWord s.steps).toNat / 2 ^ 40 % Nat.max 1 l.length
  l.drop n ++ l.take n

/-- The tasks blocked at a channel look at it again: reservers in the order of their line, takers in a free order (R269–R271,
log 98). -/
def State.serveChannel (s : State) (h : Nat) : State :=
  let line := match s.shared.channels.find? h with
    | some c => (c.waiters.filter fun k => k < 2 ^ 20).map ctxOf
    | none => []
  let waits := fun (t : State) (f : Wait → Bool) => t.waitersOf f
  let reserves := waits s fun w => match w with
    | .reserve _ j => j = h
    | _ => false
  let s := (line.filter fun c => reserves.contains c).foldl State.tryWait s
  let takers := waits s fun w => match w with
    | .take _ j => j = h
    | .stay kind x _ => (kind = 1 || kind = 2) && x.toNat = h
    | _ => false
  ((s.turned takers).foldl State.tryWait s).resumeOn fun p => (p.kind = 1 || p.kind = 2) && p.object.toNat = h

/-- A slot is FILLED and stamped (R269). -/
def State.fillSlot (s : State) (h i : Nat) : State :=
  match s.shared.channels.find? h with
  | some c => (s.setChannel h (c.setSlot i 2 s.polestar)).serveChannel h
  | none => s

/-- A slot that is still RESERVED is FILLED: what CHPUSH does once its older accesses are performed (R269). -/
def State.pushSlot (s : State) (h i : Nat) : State :=
  match s.shared.channels.find? h with
  | some c => if (c.slot i).state = 1 then s.fillSlot h i else s
  | none => s

/-- A slot is FREE again (R270). -/
def State.freeSlot (s : State) (h i : Nat) : State :=
  match s.shared.channels.find? h with
  | some c => (s.setChannel h (c.setSlot i 0 (c.slot i).stamp)).serveChannel h
  | none => s

/-- A channel gets the poison bit, if it is still there, and every task blocked at it takes CHANNEL_POISONED (R271, R287). -/
def State.poisonChannel (s : State) (h : Nat) : State :=
  match s.shared.channels.find? h with
  | some ch => (s.setChannel h { ch with poison := true }).serveChannel h
  | none => s

/-- The waiters of a tag see what has become of it, in the order they joined: TAGWAITs and suspended waits end (R311, R315,
R389). -/
def State.serveTag (s : State) (part word : Nat) : State :=
  let mine := s.waitersOf fun w => match w with
    | .tag p x => p = part && x = word
    | _ => false
  let s := ((s.tagQueue part word).filter fun c => mine.contains c).foldl State.tryWait s
  let stays := s.waitersOf fun w => match w with
    | .stay kind x _ => kind = 3 && x.toNat = word
    | _ => false
  ((stays.foldl State.tryWait s).clearWaiters part word).resumeOn fun p => p.kind = 3 && p.object.toNat = word && p.hart.task.part = part

/-- Every waiter of a published tag is woken: TAGWAITs complete, WAITING sequences become READY (R311, R315). -/
def State.wakeTag (s : State) (part word : Nat) : State :=
  (s.serveTag part word).modWaiting part word fun e => { e with state := 1, ready := s.polestar }

/-- The firmware context of a core is woken from WFI (R372). -/
def State.wakeCore (s : State) (die core : Nat) : State := s.modCore die core fun k => { k with wfi := none }

/-- An event for the firmware contexts of a die wakes them (R372, R390). -/
def State.wakeDie (s : State) (die : Nat) : State :=
  { s with cores := s.cores.map fun p => if p.1 / 32 = die then (p.1, { p.2 with wfi := none }) else p }

/-! ### Acts of the store queue (R119, R121) -/

/-- The threshold of a 32-bit WTHR field, or the tick of a TIME field, in the window about a value (R279). -/
def windowThreshold (v thr : Nat) : Nat :=
  ((v : Int) - 2 ^ 31 + (((thr : Int) - v + 2 ^ 31) % (2 ^ 32 : Nat))).toNat

/-- A copy command as its engine accepts it: threshold and issue tick are read through their windows (R121, R279, R291). -/
def CopyCmd.atAccept (m : CopyCmd) (s : State) : CopyCmd :=
  let tick := windowThreshold s.polestar m.tick
  { m with
    taken := true, accepted := s.steps, tick := tick, late := m.kind = 1 && tick < s.polestar
    wait := m.wait.map fun w => (w.1, windowThreshold (ctrValue (s.counter w.1)) w.2) }

/-- An engine accepts a command of a context (R121), a token record enters the mailbox with the tick of that (R320), or another entry of the
store queue has its effect. -/
def State.accept (s : State) (c : CtxId) (a : Act) : State :=
  match a with
  | .copy eng seq =>
    let f := fun m : CopyCmd => if m.seq = seq then m.atAccept s else m
    s.modCopy c eng fun x => { x with cmds := x.cmds.map f }
  | .job id_ => s.modLease c.die c.core fun x => { x with jobs := x.jobs.map fun j =>
      if j.slot = c.slot && j.id = id_ && !j.taken then { j with taken := true } else j }
  | .coll =>
    let l := s.collsOf c.key
    s.setColls c.key (l.takeWhile (·.taken) ++ match l.dropWhile (·.taken) with
      | m :: t => { m with taken := true, wait := m.wait.map fun w => (w.1, windowThreshold (ctrValue (s.counter w.1)) w.2) } :: t
      | [] => [])
  | .token r => { s with shared := { s.shared with mailbox := s.shared.mailbox ++ [{ r with stamp := s.polestar }] } }
  | .signal k inc => s.signal k inc false
  | .push h i => s.pushSlot h i
  | .fence => s

end Sys2Proof.Machine
end

