-- ==== Sys2Proof/Machine/Memory.lean ====
section
/-! DEFINITION. The load and store queue of a context: what a load returns and when it is performed, when an entry of the store
queue is performed, draining and releases, loads and stores of the issuing context, and the outstanding counts (R105, R112, R113,
R115–R121, R126, R168, R255). -/

namespace Sys2Proof.Machine

/-! ### What a load reads (R112, R113, R116, R119) -/

/-- The stores of a context that an instruction's loads may forward from: those of older instructions (R119). -/
def State.olderStores (s : State) (c : CtxId) (ord : Nat) : List Pending := (s.hartAt c).stores.filter fun p => p.ord < ord

/-- A byte as a load of a context reads it: its own older stores first, then the die's buffers and the home (R116, R119). -/
def State.queueByte (s : State) (c : CtxId) (ord k : Nat) : Byte :=
  match newestByte (s.olderStores c ord) k with
  | some b => b
  | none => s.dieByte c.die k

/-- A granule's tag as a load of a context reads it (R107). -/
def State.queueTag (s : State) (c : CtxId) (ord k : Nat) : Bool :=
  match newestTag (s.olderStores c ord) (k / 16) with
  | some b => b
  | none => s.dieTag c.die k

/-- The bytes of a run that no buffer supplies: they are drawn from the home. -/
def State.drawn (s : State) (c : CtxId) (ord k n : Nat) : List Nat :=
  (upFrom k n).filter fun j => (newestByte (s.olderStores c ord) j).isNone && (newestByte (s.dieAt c.die).outbound j).isNone &&
    !(keyRegion j = 4 && (newestByte s.egress j).isSome)

/-- The uncorrectable words a scalar load finds: those of bytes drawn from the home (R112, R116). -/
def State.badDrawn (s : State) (c : CtxId) (ord k n : Nat) : List Nat :=
  if s.bad = [] then [] else s.bad.filter fun w => (s.drawn c ord k n).any fun j => j / 8 = w

/-- The uncorrectable words of the 64-byte lines that a vector or tile load draws from (R112, R113). -/
def State.badLines (s : State) (c : CtxId) (ord k n : Nat) : List Nat :=
  if s.bad = [] then [] else s.bad.filter fun w => (s.drawn c ord k n).any fun j => j / 64 = w / 8

/-- The value of a unit of a load: a scalar's bytes, with the tag above a capability's, or an element with zeros for
uncorrectable lines and for a lost target (R107, R113, R437). -/
def State.unitValue (s : State) (c : CtxId) (r : LoadRec) (k : Nat) : Nat :=
  let bytes := (upFrom k r.n).map (s.queueByte c r.ord)
  match r.dest with
  | .scalar .. => leNat bytes
  | .cap .. => leNat bytes + if s.queueTag c r.ord k then 2 ^ 128 else 0
  | .vector .. | .tile .. =>
    if s.lost k then 0
    else leNat ((upFrom k r.n).map fun j => if s.badLines c r.ord j 1 = [] then s.queueByte c r.ord j else 0)

/-! ### Leaving the store queue (R116, R119) -/

/-- An access leaves its task's store queue: it is performed, or enters the die's outbound buffer; an act releases at its scope
and takes effect (R115, R121, R126). -/
def State.leaveQueue (s : State) (p : Pending) : State :=
  match p with
  | .store ord ctx cells tag _ =>
    let die := (ctxOf ctx).die
    let near := cells.filter fun c => straight die c.1
    let far := cells.filter fun c => !straight die c.1
    let s := if near = [] then s else s.writeHome (ctxOf ctx).core near tag
    if far = [] then s else s.modDie die fun d => { d with outbound := d.outbound ++ [.store ord ctx far tag false] }
  | .atomic _ ctx _ loc .. =>
    let die := (ctxOf ctx).die
    if straight die loc then s.performAtHome p else s.modDie die fun d => { d with outbound := d.outbound ++ [p] }
  | .act _ ctx scope a => (s.releaseFrom (ctxOf ctx).die scope).accept (ctxOf ctx) a

/-- An atomic whose home is not straight from its die: it is performed only there (R115). -/
def Pending.far (p : Pending) : Bool :=
  match p with
  | .atomic _ ctx _ loc .. => !straight (ctxOf ctx).die loc
  | .store .. => false
  | .act .. => false

/-- An entry leaves the store queue after those before it: what is not itself a far atomic waits until every older atomic of the
task has been performed at its home (R116, R119). -/
def State.leaveNext (s : State) (c : CtxId) (p : Pending) : State :=
  (if p.far then s else s.landAtomics c (s.hartAt c).task.stay).leaveQueue p

/-- The entries of a context's store queue older than an instruction leave it. -/
def State.drainBefore (s : State) (c : CtxId) (n : Nat) : State :=
  let q := (s.hartAt c).stores
  (q.takeWhile fun p => p.ord < n).foldl (fun t p => t.leaveNext c p) (s.modHart c fun h => { h with stores := q.dropWhile fun p => p.ord < n })

/-- Nothing is left of an atomic to a run of locations that a load would read past: one of an older instruction of its own task
leaves the store queue with what stands before it and is performed at its home, as are those in the buffers of the die (R116, R119). -/
def State.settleFor (s : State) (c : CtxId) (ord k n : Nat) : State :=
  let own := (s.olderStores c ord).filter fun p => p.atomicOn k n
  let s := if own = [] then s
    else (s.drainBefore c ((own.map fun p => p.ord + 1).foldl Nat.max 0)).landAtomics c (s.hartAt c).task.stay
  s.settleAtomics c.die k n

/-! ### The load queue (R119) -/

/-- The value of a unit of a load that has been performed. -/
def LoadRec.value (r : LoadRec) (i : Nat) : Option Nat := (r.elems.find? fun e => e.index = i).bind (·.got)

/-- Registers after a load whose units have all been performed (R66, R70, R166, R174, R217, R226). -/
def Hart.receive (h : Hart) (r : LoadRec) : Hart :=
  match r.dest with
  | .scalar d n signed =>
    let v := (r.value 0).getD 0
    { h with s := if d = 0 then h.s else h.s.set d.toNat (if signed then BitVec.ofInt 64 (sextInt v (8 * n)) else BitVec.ofNat 64 v) d.isLt }
  | .cap d keep =>
    let v := (r.value 0).getD 0
    { h with c := if d = 0 then h.c else h.c.set d.toNat ⟨BitVec.ofNat 128 v, keep && bitOf v 128⟩ d.isLt }
  | .vector d n =>
    let old := if hd : d.toNat < 64 then h.vec.v[d.toNat] else 0
    { h with vec := h.vec.result d (vecOf (8 * n) ((List.range (256 / n)).map fun i => (r.value i).getD (lane old (8 * n) i))) }
  | .tile d sh =>
    let old := h.tile.rows.get d.toFin
    let row := fun i : Nat =>
      if r.elems.any fun e => e.index / 256 = i then
        vecOf (8 * shapeElem sh) ((List.range (shapeCols sh)).map fun j => (r.value (i * 256 + j)).getD 0)
      else old[i]?.getD 0
    { h with tile := h.tile.write d row }

/-- A unit of a load is performed: its value is fixed, an uncorrectable line is logged and sets DERR (R113, R116). -/
def State.performUnit (s : State) (c : CtxId) (i : Nat) : State :=
  match (s.hartAt c).loads with
  | [] => s
  | r :: rest =>
    let s := match r.elems[i]? with
      | some ⟨_, k, none⟩ =>
        let s := s.settleFor c r.ord k r.n
        let s := if keyRegion k = 4 && s.drawn c r.ord k r.n ≠ [] then s.sendLoad k else s
        let wide := match r.dest with
          | .scalar .. | .cap .. => false
          | .vector .. | .tile .. => true
        let bad := if wide then s.badLines c r.ord k r.n else s.badDrawn c r.ord k r.n
        let v := s.unitValue c r k
        let s := if s.refused k then s.countRefusal else s
        let s := if bad = [] && !(wide && s.lost k) then s
          else (s.logErrors (if wide then .vector else .task) c.core bad).modHart c fun h => { h with task := { h.task with derr := h.task.derr || wide } }
        let from_ : List Nat := ((s.olderStores c r.ord).filter fun p : Pending => p.keys.any fun j => k ≤ j && j < k + r.n).map fun p : Pending => p.ord + 1
        s.modHart c fun h => { h with
          forwarded := from_.foldl Nat.max h.forwarded
          loads := { r with elems := r.elems.modify i fun e => { e with got := some v } } :: rest }
      | _ => s
    match (s.hartAt c).loads with
    | r :: rest =>
      if r.elems.all fun e => e.got.isSome then s.modHart c fun h => { h.receive r with loads := rest } else s
    | [] => s

/-- The oldest load of a context is performed, all its units. -/
def State.performOldest (s : State) (c : CtxId) : State :=
  match (s.hartAt c).loads with
  | [] => s
  | r :: _ =>
    let left := (List.range r.elems.length).filter fun i => (r.elems[i]?.getD default).got.isNone
    match left with
    | [] => s.performUnit c 0
    | l => l.foldl (fun t i => t.performUnit c i) s

/-- The `n` oldest loads of a context are performed, in order (R119). -/
def State.performFirst (s : State) (c : CtxId) (n : Nat) : State := (List.range n).foldl (fun t _ => t.performOldest c) s

/-- Every load of a context is performed (R119, R120). -/
def State.performLoads (s : State) (c : CtxId) : State := s.performFirst c (s.hartAt c).loads.length

/-- A load has a unit still to perform at a location that meets a condition. -/
def LoadRec.waitsAt (r : LoadRec) (f : Nat → Bool) : Bool :=
  r.elems.any fun e => e.got.isNone && (upFrom e.key r.n).any f

/-- The loads of every context that have still to read locations meeting a condition are performed before something happens to
these locations (R135, R371, R406, log 7). -/
def State.performWhere (s : State) (f : Nat → Bool) : State :=
  (s.contexts.filter fun c => (s.hartAt c).loads.any fun r => r.waitsAt f).foldl State.performLoads s

/-! ### The store queue (R119–R121) -/

/-- A context's loads are performed and its store queue drains in order; reductions may still be on their way home (R119,
R275). -/
def State.drainStores (s : State) (c : CtxId) : State :=
  let s := s.performLoads c
  (s.hartAt c).stores.foldl (fun t p => t.leaveNext c p) (s.modHart c fun h => { h with stores := [] })

/-- Every older access of a context is performed at scope 0 (R119, R120). -/
def State.drainCtx (s : State) (c : CtxId) : State := (s.drainStores c).landAtomics c (s.hartAt c).task.stay

/-- Every older access of the issuing task is performed at scope 0 (R120, log 8). -/
def State.drainQueue (s : State) : State := s.drainCtx s.here

/-- Two accesses write one byte. -/
def Pending.overlaps (p q : Pending) : Bool := p.keys.any fun k => q.keys.contains k

/-- An entry of a store queue other than an access. -/
def Pending.isAct (p : Pending) : Bool := !p.isStore && !p.isAtomic

/-- Whether an entry of a context's store queue may be performed, or enter the outbound buffer, next: queue order, but for the
units of one instruction that do not overlap; never before an older load of the same bytes, an act never before any older load;
and never before an older atomic of the task that is still on its way, but that a far atomic may follow it (R114, R117, R119,
R121, log 97). -/
def State.mayLeave (s : State) (c : CtxId) (older : List Pending) (p : Pending) : Bool :=
  let h := s.hartAt c
  let mine := fun q : Pending => q.ofStay c.key h.task.stay
  (older.all fun q => q.ord = p.ord && !q.isAct && !p.isAct && !q.overlaps p) &&
  (h.loads.all fun r => p.ord ≤ r.ord || !(p.isAct || r.waitsAt fun k => p.keys.contains k)) &&
  (p.far || !((s.dieAt c.die).outbound.any mine || s.egress.any mine))

/-! ### Releases (R126) -/

/-- Every older access of the issuing task is performed at a scope (R115, R126, log 8). -/
def State.release (s : State) (scope : Nat) : State := s.drainQueue.releaseFrom s.here.die scope

/-- An acquire whose order is ar is also a release, taken before it (R260). -/
def State.releaseAr (s : State) (scope : Nat) (r : BitVec 2) : State := if r = 3 then s.release scope else s

/-- The oldest load of a context is performed bound at a scope: the stores of the task that it would forward from, and what the
die's buffers hold, are performed there first (R116). -/
def State.bindOldest (s : State) (c : CtxId) (scope : Nat) : State :=
  match (s.hartAt c).loads with
  | [] => s
  | r :: _ =>
    let own := (s.olderStores c r.ord).filter fun p => r.waitsAt fun k => p.keys.contains k
    ((s.drainBefore c ((own.map fun p => p.ord + 1).foldl Nat.max 0)).releaseFrom c.die scope).performOldest c

/-- Every older load of the issuing task is performed and bound at a scope, those that took their values from a buffer before
too (R116, R128, R129, log 99). -/
def State.bindLoads (s : State) (scope : Nat) : State :=
  let c := s.here
  let s := (List.range s.hart.loads.length).foldl (fun t _ => t.bindOldest c scope) s
  (s.drainBefore c (s.hartAt c).forwarded).releaseFrom c.die scope

/-- A release whose order is ar is also an acquire, as if a FENCE acq followed it (R260). -/
def State.acquireAr (s : State) (scope : Nat) (r : BitVec 2) : State := if r = 3 then s.bindLoads scope else s

/-! ### Loads and stores of the issuing context -/

/-- A byte as a read of the issuing task finds it in its own step: in its store queue, then as its die reads it (R116, R119). -/
def State.readByte (s : State) (k : Nat) : Byte :=
  match newestByte s.hart.stores k with
  | some b => b
  | none => s.dieByte s.here.die k

/-- A granule's tag as the issuing task reads it (R107). -/
def State.readTag (s : State) (k : Nat) : Bool :=
  match newestTag s.hart.stores (k / 16) with
  | some b => b
  | none => s.dieTag s.here.die k

/-- Bytes as the issuing task reads them. -/
def State.readBytes (s : State) (k n : Nat) : List Byte := (upFrom k n).map s.readByte

/-- The uncorrectable words a read of the issuing task finds. -/
def State.badBytes (s : State) (k n : Nat) : List Nat := s.badDrawn s.here s.hart.issued k n

/-- A load enters the load queue of the issuing task (R119). -/
def State.queueLoad (s : State) (space n : Nat) (dest : LoadDest) (elems : List (Nat × Nat)) : State :=
  s.mod fun h => { h with
    loads := h.loads ++ [⟨h.issued, h.pc, space, n, dest, elems.map fun e => ⟨e.1, e.2, none⟩⟩] }

/-- Load `n` aligned bytes at `x` through a capability into a register, checked precisely at issue (R105, R113, R119, R166,
R437). -/
def State.load (s : State) (c : Cap) (x : Int) (n : Nat) (kind : Kind) (dest : LoadDest) : R Unit :=
  (s.access s.who c x n n kind).bind fun key s =>
  if s.lost key then .trap .accessDenied (tv x) s else
  match s.badBytes key n with
  | w :: _ => .trap .memUncorrectable (tv x) (s.logError .task s.here.core w)
  | [] => .ok () (s.queueLoad c.space n dest [(0, key)])

/-- Put an access into the issuing task's store queue (R119). -/
def State.enqueue (s : State) (p : Pending) : State := s.mod fun h => { h with stores := h.stores ++ [p] }

/-- Put a store into the issuing task's store queue. -/
def State.enqueueStore (s : State) (cells : List Host.Cell) (tag tile : Bool) : State :=
  s.enqueue (.store s.hart.issued s.here.key cells tag tile)

/-- Put an atomic element into the issuing task's store queue (R253). -/
def State.enqueueAtomic (s : State) (loc op : Nat) (wide vector : Bool) (v : Word) (space : Nat) (addr : Word) : State :=
  s.enqueue (.atomic s.hart.issued s.here.key s.hart.task.stay loc op wide vector v space s.who.xpart s.hart.task.launch addr)

/-- Put an act into the issuing task's store queue (R119, R121). -/
def State.enqueueAct (s : State) (scope : Nat) (a : Act) : State := s.enqueue (.act s.hart.issued s.here.key scope a)

/-- A store whose destination is not space 1 sets the side-effect bit (R395). -/
def State.storeEffect (s : State) (space : Nat) : State := if space = 1 then s else s.effect

/-- Store `n` bytes at `x` through a capability: the store enters the store queue (R105, R119, R166). -/
def State.store (s : State) (c : Cap) (x : Int) (n v : Nat) : R Unit :=
  (s.access s.who c x n n .store).bind fun key s =>
    .ok () ((s.enqueueStore (cellsAt key (leBytes n v)) false false).storeEffect c.space)

/-- A counter, channel or group that a card or record names is its partition's (R262, R300, R408). -/
def State.needAllocated (s : State) (i : Nat) (ref : Word) : R Unit :=
  if s.allocated s.part i then .ok () s else .trap .accessDenied ref (s.noteAllocated s.part i)

/-! ### Outstanding counts (R255) -/

/-- Spaces whose loads OUTC counts until they return (R168). -/
def nonLocal (space : Nat) : Bool := (2 ≤ space && space ≤ 6) || space = 8

/-- A load of the load class: its return is its performance (R168, R255). -/
def LoadRec.counted (r : LoadRec) : Bool :=
  nonLocal r.space && (match r.dest with
    | .tile .. => false
    | _ => true)

/-- Non-local loads not returned (R255). -/
def State.outLoads (s : State) (c : CtxId) : Nat := ((s.hartAt c).loads.filter (·.counted)).length

/-- An element of a tile store (R224). -/
def Pending.ofTile : Pending → Bool
  | .store _ _ _ _ tile => tile
  | .atomic .. => false
  | .act .. => false

/-- No store of a tile of the issuing task is outstanding: those in its store queue leave it, after the loads older than them (R69, R75). -/
def State.settleTiles (s : State) : State :=
  let n := ((s.hart.stores.filter (·.ofTile)).map fun p => p.ord + 1).foldl Nat.max 0
  if n = 0 then s else (s.performFirst s.here (s.hart.loads.takeWhile fun r => r.ord < n).length).drainBefore s.here n

/-- Stores not performed at scope 0 and atomics not performed at their home (R255); each element of a vector store counts (DESIGN CHOICE, log
130). -/
def State.outStores (s : State) (c : CtxId) : Nat :=
  let mine := fun p : Pending => p.ofStay c.key (s.hartAt c).task.stay
  ((s.hartAt c).stores.filter fun p => !p.isAct && !p.ofTile).length + ((s.dieAt c.die).outbound.filter mine).length +
    (s.egress.filter mine).length

/-- Copy commands and COLL commands of the present stay not completed (R78, R255). -/
def State.outCopies (s : State) (c : CtxId) : Nat :=
  let t := (s.hartAt c).task
  (([(s.copyCtx c 0).cmds, (s.copyCtx c 1).cmds].flatMap fun l => l.filter fun m => m.task = t.ident && m.stay = t.stay).length) +
    ((s.collsOf c.key).filter fun m => m.task = t.ident && m.stay = t.stay).length

/-- Tile loads, tile stores and matrix jobs of the present stay not completed; other tile operations complete in their own step
(R78, R224, R255). -/
def State.outTiles (s : State) (c : CtxId) : Nat :=
  let h := s.hartAt c
  (h.loads.filter fun r => match r.dest with
    | .tile .. => true
    | _ => false).length +
  ((h.stores.filter (·.ofTile)).map (·.ord)).eraseDups.length +
  ((s.jobsOf c).filter fun j => j.stay = h.task.stay).length

/-- OUTC (R72). -/
def State.outc (s : State) (c : CtxId) : Word :=
  BitVec.ofNat 64 (s.outLoads c % 2 ^ 16 + s.outStores c % 2 ^ 16 * 2 ^ 16 + s.outCopies c % 2 ^ 16 * 2 ^ 32 +
    s.outTiles c % 2 ^ 16 * 2 ^ 48)

end Sys2Proof.Machine
end

