-- ==== Sys2Proof/Machine/Touch.lean ====
section
/-! DEFINITION. Which registers an instruction reads or writes, and the loads that are performed before it for them: a load's
register is written when the load is performed, and a younger instruction that names the register waits for that (R119, R168,
log 7). -/

namespace Sys2Proof.Machine

/-- The registers an instruction names: scalar, capability and vector registers; whether it produces a vector result, which every
older vector load precedes in the last-result file (R66); tiles; or every register. -/
structure Touch where
  s : List SReg
  c : List CReg
  v : List VReg
  vec : Bool
  tile : Bool
  every : Bool
deriving DecidableEq, Repr

/-- Scalar and capability registers only. -/
def Touch.regs (s : List SReg) (c : List CReg) : Touch := ⟨s, c, [], false, false, false⟩

/-- The registers an instruction names. A vector load leaves its destination to the order of the load queue; a read of DERR waits
for vector and tile loads, one of TDIRTY or a tile's shape for tile loads (R70, R113). -/
def Instr.touch : Instr → Touch
  | .add d a b => .regs [d, a, b] []
  | .sub d a b => .regs [d, a, b] []
  | .and d a b => .regs [d, a, b] []
  | .or d a b => .regs [d, a, b] []
  | .xor d a b => .regs [d, a, b] []
  | .andn d a b => .regs [d, a, b] []
  | .sll d a b => .regs [d, a, b] []
  | .srl d a b => .regs [d, a, b] []
  | .sra d a b => .regs [d, a, b] []
  | .ror d a b => .regs [d, a, b] []
  | .slt d a b => .regs [d, a, b] []
  | .sltu d a b => .regs [d, a, b] []
  | .min d a b => .regs [d, a, b] []
  | .max d a b => .regs [d, a, b] []
  | .minu d a b => .regs [d, a, b] []
  | .maxu d a b => .regs [d, a, b] []
  | .mul d a b => .regs [d, a, b] []
  | .mulh d a b => .regs [d, a, b] []
  | .mulhu d a b => .regs [d, a, b] []
  | .div d a b => .regs [d, a, b] []
  | .divu d a b => .regs [d, a, b] []
  | .rem d a b => .regs [d, a, b] []
  | .remu d a b => .regs [d, a, b] []
  | .clz d a => .regs [d, a] []
  | .ctz d a => .regs [d, a] []
  | .popc d a => .regs [d, a] []
  | .addi d a _ => .regs [d, a] []
  | .andi d a _ => .regs [d, a] []
  | .ori d a _ => .regs [d, a] []
  | .xori d a _ => .regs [d, a] []
  | .slli d a _ => .regs [d, a] []
  | .srli d a _ => .regs [d, a] []
  | .srai d a _ => .regs [d, a] []
  | .slti d a _ => .regs [d, a] []
  | .sltiu d a _ => .regs [d, a] []
  | .liw d _ => .regs [d] []
  | .lih d _ => .regs [d] []
  | .addiw d a _ => .regs [d, a] []
  | .addpc d _ => .regs [d] []
  | .beq a b _ => .regs [a, b] []
  | .bne a b _ => .regs [a, b] []
  | .blt a b _ => .regs [a, b] []
  | .bge a b _ => .regs [a, b] []
  | .bltu a b _ => .regs [a, b] []
  | .bgeu a b _ => .regs [a, b] []
  | .jal d _ => .regs [d] []
  | .jalr d a _ => .regs [d, a] []
  | .ldb d c _ => .regs [d] [c]
  | .ldh d c _ => .regs [d] [c]
  | .ldw d c _ => .regs [d] [c]
  | .ldd d c _ => .regs [d] [c]
  | .ldbu d c _ => .regs [d] [c]
  | .ldhu d c _ => .regs [d] [c]
  | .ldwu d c _ => .regs [d] [c]
  | .stb d c _ => .regs [d] [c]
  | .sth d c _ => .regs [d] [c]
  | .stw d c _ => .regs [d] [c]
  | .std d c _ => .regs [d] [c]
  | .cmov d a => .regs [] [d, a]
  | .cinc d a b => .regs [b] [d, a]
  | .cinci d a _ => .regs [] [d, a]
  | .csetb d a b _ => .regs [b] [d, a]
  | .candp d a _ => .regs [] [d, a]
  | .cgetb a b => .regs [b] [a]
  | .cgetl a b => .regs [b] [a]
  | .cgetc a b => .regs [b] [a]
  | .cgetp a b => .regs [b] [a]
  | .cgett a b => .regs [b] [a]
  | .cldc d a _ => .regs [] [d, a]
  | .cstc d a _ => .regs [] [d, a]
  | .amoadd d c b _ _ _ => .regs [d, b] [c]
  | .amoand d c b _ _ _ => .regs [d, b] [c]
  | .amoor d c b _ _ _ => .regs [d, b] [c]
  | .amoxor d c b _ _ _ => .regs [d, b] [c]
  | .amomin d c b _ _ _ => .regs [d, b] [c]
  | .amomax d c b _ _ _ => .regs [d, b] [c]
  | .amominu d c b _ _ _ => .regs [d, b] [c]
  | .amomaxu d c b _ _ _ => .regs [d, b] [c]
  | .amoswp d c b _ _ _ => .regs [d, b] [c]
  | .amocas d c b _ _ _ => .regs [d, b, b + 1] [c]
  | .amofadd d c b _ _ => .regs [d, b] [c]
  | .amofmin d c b _ _ => .regs [d, b] [c]
  | .amofmax d c b _ _ => .regs [d, b] [c]
  | .amobfadd2 d c b _ _ => .regs [d, b] [c]
  | .redadd c b _ _ _ => .regs [b] [c]
  | .redand c b _ _ _ => .regs [b] [c]
  | .redor c b _ _ _ => .regs [b] [c]
  | .redxor c b _ _ _ => .regs [b] [c]
  | .redmin c b _ _ _ => .regs [b] [c]
  | .redmax c b _ _ _ => .regs [b] [c]
  | .redminu c b _ _ _ => .regs [b] [c]
  | .redmaxu c b _ _ _ => .regs [b] [c]
  | .redfadd c b _ _ => .regs [b] [c]
  | .redfmin c b _ _ => .regs [b] [c]
  | .redfmax c b _ _ => .regs [b] [c]
  | .redbfadd2 c b _ _ => .regs [b] [c]
  | .waitvis a _ => .regs [a] []
  | .ctrsig a b _ _ => .regs [a, b] []
  | .ctrwait d a b _ _ => .regs [d, a, b] []
  | .ctrrd d a => .regs [d, a] []
  | .barinit c b => .regs [b] [c]
  | .bararv d c _ _ => .regs [d] [c]
  | .barxb d c b _ _ => .regs [d, b] [c]
  | .barwait c b _ _ => .regs [b] [c]
  | .bartest d c b _ _ => .regs [d, b] [c]
  | .chrsv d a => .regs [d, a] []
  | .chpush a b _ => .regs [a, b] []
  | .chawait d a _ => .regs [d, a] []
  | .chrel a b => .regs [a, b] []
  | .chstat d a b => .regs [d, a, b] []
  | .launch d a _ => .regs [d, a] [2]
  | .spawn d a _ => .regs [d, a] [2]
  | .awaitch d => .regs [d] []
  | .gjoin d a => .regs [d, a] []
  | .gleave d a => .regs [d, a] []
  | .gsync a _ => .regs [a] []
  | .suspend _ a b _ _ => ⟨[a, b, b + 1], [], [], false, false, true⟩
  | .self d _ => .regs [d] []
  | .cpy d a b => .regs [b] [d, a]
  | .cpyt d a b => .regs [b] [d, a]
  | .cpyg d a b => .regs [b] [d, a]
  | .cpys d a b => .regs [b] [d, a]
  | .cpyc d a b => .regs [b] [d, a]
  | .cpyf d a b => .regs [a, b] [d]
  | .cpyb d a b => .regs [d, b] [a]
  | .qbind c _ b => .regs [b] [c]
  | .qaddr _ b => .regs [b] []
  | .qpops d _ => .regs [d] []
  | .qpopv _ _ _ => ⟨[], [], [], true, false, false⟩
  | .qpeek d _ => .regs [d] []
  | .qstat d _ => .regs [d] []
  | .qfmt _ b => .regs [b] []
  | .mlease d a => .regs [d, a] []
  | .mjob d a c => .regs [d, a] [c]
  | .mstat d a => .regs [d, a] []
  | .merrrd d a => .regs [d, a] []
  | .tcfg _ b => ⟨[b], [], [], false, true, false⟩
  | .tzero _ => ⟨[], [], [], false, true, false⟩
  | .tldrow _ c b => ⟨[b], [c], [], false, true, false⟩
  | .tstrow _ c b => ⟨[b], [c], [], false, true, false⟩
  | .tld _ c b => ⟨[b], [c], [], false, true, false⟩
  | .tst _ c b => ⟨[b], [c], [], false, true, false⟩
  | .trowv _ _ b => ⟨[b], [], [], true, true, false⟩
  | .tcolv _ _ b => ⟨[b], [], [], true, true, false⟩
  | .tvrow _ v b => ⟨[b], [], [v], false, true, false⟩
  | .tvcol _ v b => ⟨[b], [], [v], false, true, false⟩
  | .ttrans _ _ => ⟨[], [], [], false, true, false⟩
  | .tmma _ _ _ => ⟨[], [], [], false, true, false⟩
  | .trel _ => ⟨[], [], [], false, true, false⟩
  | .trbind d b => .regs [d, b] []
  | .trwait c a b _ => .regs [a, b] [c]
  | .trinfo d a => .regs [d, a] []
  | .trhold d a => .regs [d, a] []
  | .trskip d a => .regs [d, a] []
  | .trnext d a b => .regs [d, a, b] []
  | .trqry d a => .regs [d, a] []
  | .tagdecl d a b _ => .regs [d, a, b] []
  | .tagpub a _ => .regs [a] []
  | .tagwait a _ => .regs [a] []
  | .tagqry d a => .regs [d, a] []
  | .tagret a => .regs [a] []
  | .coll b => .regs [b] []
  | .tkcommit d b => .regs [d, b] []
  | .tkput a b => .regs [a, b] []
  | .wpset d a b => .regs [d, a, b] []
  | .wpclr d a => .regs [d, a] []
  | .wprd d a b => .regs [d, a, b] []
  | .seqst d a b => .regs [d, a, b] []
  | .vfadd _ _ _ _ _ => ⟨[], [], [], true, false, false⟩
  | .vfsub _ _ _ _ _ => ⟨[], [], [], true, false, false⟩
  | .vfmul _ _ _ _ _ => ⟨[], [], [], true, false, false⟩
  | .vfma _ _ _ _ _ => ⟨[], [], [], true, false, false⟩
  | .vfms _ _ _ _ _ => ⟨[], [], [], true, false, false⟩
  | .vfnma _ _ _ _ _ => ⟨[], [], [], true, false, false⟩
  | .vfnms _ _ _ _ _ => ⟨[], [], [], true, false, false⟩
  | .vfmin _ _ _ _ _ => ⟨[], [], [], true, false, false⟩
  | .vfmax _ _ _ _ _ => ⟨[], [], [], true, false, false⟩
  | .vfminm _ _ _ _ _ => ⟨[], [], [], true, false, false⟩
  | .vfmaxm _ _ _ _ _ => ⟨[], [], [], true, false, false⟩
  | .vfabs _ _ _ => ⟨[], [], [], true, false, false⟩
  | .vfneg _ _ _ => ⟨[], [], [], true, false, false⟩
  | .vfsgnj _ _ _ _ => ⟨[], [], [], true, false, false⟩
  | .vfdiv _ _ _ _ _ => ⟨[], [], [], true, false, false⟩
  | .vfsqrt _ _ _ _ => ⟨[], [], [], true, false, false⟩
  | .vfrcp _ _ _ _ => ⟨[], [], [], true, false, false⟩
  | .vfrsq _ _ _ _ => ⟨[], [], [], true, false, false⟩
  | .vfexp2 _ _ _ _ => ⟨[], [], [], true, false, false⟩
  | .vflog2 _ _ _ _ => ⟨[], [], [], true, false, false⟩
  | .vftanh _ _ _ _ => ⟨[], [], [], true, false, false⟩
  | .vfceq _ a b _ _ => ⟨[], [], [a, b], false, false, false⟩
  | .vfcne _ a b _ _ => ⟨[], [], [a, b], false, false, false⟩
  | .vfclt _ a b _ _ => ⟨[], [], [a, b], false, false, false⟩
  | .vfcle _ a b _ _ => ⟨[], [], [a, b], false, false, false⟩
  | .vfcun _ a b _ _ => ⟨[], [], [a, b], false, false, false⟩
  | .vceq _ a b _ => ⟨[], [], [a, b], false, false, false⟩
  | .vcne _ a b _ => ⟨[], [], [a, b], false, false, false⟩
  | .vclt _ a b _ => ⟨[], [], [a, b], false, false, false⟩
  | .vcle _ a b _ => ⟨[], [], [a, b], false, false, false⟩
  | .vcltu _ a b _ => ⟨[], [], [a, b], false, false, false⟩
  | .vcleu _ a b _ => ⟨[], [], [a, b], false, false, false⟩
  | .vadd _ _ _ _ => ⟨[], [], [], true, false, false⟩
  | .vsub _ _ _ _ => ⟨[], [], [], true, false, false⟩
  | .vadds _ _ _ _ => ⟨[], [], [], true, false, false⟩
  | .vsubs _ _ _ _ => ⟨[], [], [], true, false, false⟩
  | .vmul _ _ _ _ => ⟨[], [], [], true, false, false⟩
  | .vmulh _ _ _ _ => ⟨[], [], [], true, false, false⟩
  | .vmulhu _ _ _ _ => ⟨[], [], [], true, false, false⟩
  | .vmin _ _ _ _ => ⟨[], [], [], true, false, false⟩
  | .vmax _ _ _ _ => ⟨[], [], [], true, false, false⟩
  | .vminu _ _ _ _ => ⟨[], [], [], true, false, false⟩
  | .vmaxu _ _ _ _ => ⟨[], [], [], true, false, false⟩
  | .vabs _ _ _ => ⟨[], [], [], true, false, false⟩
  | .vand _ _ _ _ => ⟨[], [], [], true, false, false⟩
  | .vor _ _ _ _ => ⟨[], [], [], true, false, false⟩
  | .vxor _ _ _ _ => ⟨[], [], [], true, false, false⟩
  | .vandn _ _ _ _ => ⟨[], [], [], true, false, false⟩
  | .vnot _ _ _ => ⟨[], [], [], true, false, false⟩
  | .vsll _ _ _ _ => ⟨[], [], [], true, false, false⟩
  | .vsrl _ _ _ _ => ⟨[], [], [], true, false, false⟩
  | .vsra _ _ _ _ => ⟨[], [], [], true, false, false⟩
  | .vpopc _ _ _ => ⟨[], [], [], true, false, false⟩
  | .vclz _ _ _ => ⟨[], [], [], true, false, false⟩
  | .vcvt _ _ _ _ _ _ => ⟨[], [], [], true, false, false⟩
  | .vcvtsat _ _ _ _ _ _ => ⟨[], [], [], true, false, false⟩
  | .vqfp4 _ _ _ _ => ⟨[], [], [], true, false, false⟩
  | .vdqfp4 _ _ _ _ _ _ => ⟨[], [], [], true, false, false⟩
  | .vqfp8 _ _ _ _ _ _ => ⟨[], [], [], true, false, false⟩
  | .vblksc _ _ _ _ => ⟨[], [], [], true, false, false⟩
  | .vbndsc _ _ _ _ => ⟨[], [], [], true, false, false⟩
  | .vperm _ _ _ _ => ⟨[], [], [], true, false, false⟩
  | .vslideup _ _ _ _ => ⟨[], [], [], true, false, false⟩
  | .vslidedn _ _ _ _ => ⟨[], [], [], true, false, false⟩
  | .vziplo _ _ _ _ => ⟨[], [], [], true, false, false⟩
  | .vziphi _ _ _ _ => ⟨[], [], [], true, false, false⟩
  | .vrev _ _ _ => ⟨[], [], [], true, false, false⟩
  | .vcompr _ _ _ => ⟨[], [], [], true, false, false⟩
  | .vexpnd _ _ _ => ⟨[], [], [], true, false, false⟩
  | .vsel _ _ _ _ => ⟨[], [], [], true, false, false⟩
  | .vrsum _ _ _ _ => ⟨[], [], [], true, false, false⟩
  | .vrmax _ _ _ _ => ⟨[], [], [], true, false, false⟩
  | .vrmin _ _ _ _ => ⟨[], [], [], true, false, false⟩
  | .vrmaxi _ _ _ _ => ⟨[], [], [], true, false, false⟩
  | .vrmini _ _ _ _ => ⟨[], [], [], true, false, false⟩
  | .vscans _ _ _ _ => ⟨[], [], [], true, false, false⟩
  | .vrand _ _ _ => ⟨[], [], [], true, false, false⟩
  | .vror _ _ _ => ⟨[], [], [], true, false, false⟩
  | .vtopk _ _ _ _ _ => ⟨[], [], [], true, false, false⟩
  | .vspc _ _ _ _ => ⟨[], [], [], true, false, false⟩
  | .vspx _ _ _ _ _ => ⟨[], [], [], true, false, false⟩
  | .vbpt _ _ => ⟨[], [], [], true, false, false⟩
  | .vbpu _ _ => ⟨[], [], [], true, false, false⟩
  | .vld _ c b _ => .regs [b] [c]
  | .vst d c b _ => ⟨[b], [c], [d], false, false, false⟩
  | .vlds _ s c b _ => .regs [s, b] [c]
  | .vsts d s c b _ => ⟨[s, b], [c], [d], false, false, false⟩
  | .vgth _ a c b _ => ⟨[b], [c], [a], false, false, false⟩
  | .vsct d a c b _ => ⟨[b], [c], [d, a], false, false, false⟩
  | .vsctadd d a c b _ => ⟨[b], [c], [d, a], false, false, false⟩
  | .vldb _ c b _ => .regs [b] [c]
  | .kpop d _ => .regs [d] []
  | .kfirst d _ => .regs [d] []
  | .kset _ a => .regs [a] []
  | .vmvs d a b => ⟨[d, b], [], [a], false, false, false⟩
  | .vmve _ a _ => ⟨[a], [], [], true, false, false⟩
  | .vins _ a b => ⟨[a, b], [], [], true, false, false⟩
  | .vid _ _ => ⟨[], [], [], true, false, false⟩
  | .vrng _ a _ => ⟨[a, a + 1, a + 2], [], [], true, false, false⟩
  | .vgumb _ _ _ _ _ => ⟨[], [], [], true, false, false⟩
  | .vflgrd _ => ⟨[], [], [], true, false, false⟩
  | .vmov _ _ _ => ⟨[], [], [], true, false, false⟩
  | .ctlrd d r => ⟨[d], [], [], r = 0x003, r = 0x003 || (0x010 ≤ r.toNat && r.toNat ≤ 0x018), false⟩
  | .ctlwr d a r => ⟨[d, a], [], [], r = 0x003, r = 0x003 || (0x010 ≤ r.toNat && r.toNat ≤ 0x018), false⟩
  | .ctlset d a r => ⟨[d, a], [], [], r = 0x003, r = 0x003 || (0x010 ≤ r.toNat && r.toNat ≤ 0x018), false⟩
  | .ctlclr d a r => ⟨[d, a], [], [], r = 0x003, r = 0x003 || (0x010 ≤ r.toNat && r.toNat ≤ 0x018), false⟩
  | .eret a => .regs [a] []
  | .wfi a => .regs [a] []
  | .tlbinv a b _ => .regs [a, b] []
  | .ctxsv d a c => ⟨[d, a], [c], [], false, false, true⟩
  | .ctxld d a c => ⟨[d, a], [c], [], false, false, true⟩
  | .quardr d a => .regs [d, a] []
  | .halt a => .regs [a] []
  | .trap a => .regs [a] []
  | .node => ⟨[], [], [], false, false, true⟩
  | _ => .regs [] []

/-- A load has to be performed before an instruction that names these registers. -/
def Touch.needs (t : Touch) (r : LoadRec) : Bool :=
  t.every ||
  match r.dest with
  | .scalar d _ _ => t.s.contains d
  | .cap d _ => t.c.contains d
  | .vector d _ => t.vec || t.v.any fun v => v = d || 60 ≤ v.toNat
  | .tile .. => t.tile

/-- The loads of a context that meet a condition are performed, with every load older than one of them. -/
def State.performFor (s : State) (c : CtxId) (f : LoadRec → Bool) : State :=
  let loads := (s.hartAt c).loads
  s.performFirst c (loads.length - (loads.reverse.takeWhile fun r => !f r).length)

/-- The loads that an instruction's registers wait for are performed. -/
def State.performTouched (s : State) (i : Instr) : State := s.performFor s.here (Instr.touch i).needs

/-- The loads that write the code capability are performed before a fetch. -/
def State.performCode (s : State) : State := s.performFor s.here (Touch.regs [] [15]).needs

end Sys2Proof.Machine
end

