-- ==== Sys2Proof/Machine/Fetch.lean ====
section
/-! DEFINITION. Instruction fetch (R138, R139, R162, R177), the choice of the context that issues (R59, R60, R360),
and the passing of time. -/

namespace Sys2Proof.Machine

/-- One word of code at an address: a fetch access through c15 (R138, R162). Of the words that the fetch unit has read there since the last
IFENCE, entry, resumption or ERET, and the word that a load would read now, a free one is used (R116, R177). -/
def State.fetchWord (s : State) (pc : Word) : R Nat :=
  (s.access s.who (s.rc 15) (pc.toNat : Int) 4 4 .fetch).bind fun key s =>
  let held := s.hart.ahead.filter fun p => p.1 = pc.toNat
  match held[(Config.freeWord s.steps).toNat / 2 ^ 16 % (held.length + 1)]? with
  | some p => .ok p.2.toNat s
  | none =>
    let s := s.settleAtomics s.here.die key 4
    match s.badWords key 4 with
    | w :: _ => .trap .memUncorrectable pc (s.logError .task s.here.core w)
    | [] => .ok (leNat ((upFrom key 4).map (s.dieByte s.here.die))) s

/-- The word at the PC and, for a long form, the second word (R139). -/
def State.fetch (s : State) : R (Nat × Nat) :=
  (s.fetchWord s.hart.pc).bind fun w s =>
  if isLong w then (s.fetchWord (s.hart.pc + 4)).bind fun x s => .ok (w, x) s else .ok (w, 0) s

/-- The word of an illegal instruction as TVAL holds it (R149). -/
def illegalWord (w x : Nat) : Word := BitVec.ofNat 64 (x * 2 ^ 32 + w)

/-- Time passes after a step: the model takes no cycle counts, so a free positive number of ticks and of arithmetic-clock
cycles (R72, log 1). The polestar is slewed towards the time master by 0 or 2 instead of 1 on one tick of at least 1,024
(R422); the arithmetic clock stands while the clocks are gated (R446). -/
def State.tick (s : State) : State :=
  let ticks := 1 + Config.freeTicks s.steps
  let slew : Int := if s.steps % 1024 ≠ 0 then 0 else if 0 < s.fabric.offset then 1 else if s.fabric.offset < 0 then -1 else 0
  { s with
    steps := s.steps + 1
    polestar := s.polestar + ((ticks : Int) + slew).toNat
    clock := if 2 ≤ s.plat.ps then s.clock else s.clock + 1 + Config.freeCycles s.steps
    fabric := { s.fabric with offset := s.fabric.offset - slew } }

/-- A context can issue: READY on a working core, and not waiting in WFI (R31, R362, R372, R445). -/
def State.canIssue (s : State) (c : CtxId) : Bool :=
  let h := s.hartAt c
  s.coreRuns c && h.status = .ready && (c.slot < 4 || (s.coreAt c.die c.core).wfi.isNone)

/-- A context is BLOCKED in its instruction on a working core: it looks again whether it may go on (R31, R261). -/
def State.retries (s : State) (c : CtxId) : Bool := s.coreRuns c && (s.hartAt c).status = .blocked

/-- The task slots of a core that can issue. -/
def State.ableSlots (s : State) (die core : Nat) : List CtxId :=
  ((List.range 4).map fun i => CtxId.mk die core i).filter s.canIssue

/-- The firmware context of a core issues before its tasks: in its handler, or in background mode at the end of a group, once in
FWSHARE groups (R60, R360). -/
def State.fwFirst (s : State) (die core : Nat) : Bool :=
  let k := s.coreAt die core
  s.canIssue (fwOf die core) && (k.tactive || (k.fwshare.toNat ≤ k.groups && !k.midGroup))

/-- With no slot able to issue no group ends: between groups the firmware context of a core goes on (R60, R360, log 114). -/
def State.fwIdle (s : State) (die core : Nat) : Bool :=
  s.canIssue (fwOf die core) && !(s.coreAt die core).midGroup && s.ableSlots die core = []

/-- The context of a core that issues next: the firmware context when its turn has come, else the READY slot that has not issued
for longest, the lowest on a tie; with no slot able, the firmware context again (R59, R60, R360). -/
def State.issuer (s : State) (die core : Nat) : Option CtxId :=
  if s.fwFirst die core || s.fwIdle die core then some (fwOf die core)
  else
    match s.ableSlots die core with
    | c :: l => some (l.foldl (fun b c => if (s.hartAt b).age < (s.hartAt c).age then c else b) c)
    | [] => none

/-- The context that issues next: the cores with one that can take turns (log 2). -/
def State.pick (s : State) : Option CtxId :=
  let cores := ((s.contexts.filter s.canIssue).map fun c => (c.die, c.core)).eraseDups
  match cores[s.steps / 2 % Nat.max 1 cores.length]? with
  | some (d, k) => s.issuer d k
  | none => none

/-- The issues of the other contexts of the core since a context last issued (R59). -/
def State.ageOthers (s : State) (c : CtxId) : State :=
  let grow := fun (k : Nat) (h : Hart) => if k = c.key then { h with age := 0 } else if k / 8 = c.key / 8 then { h with age := h.age + 1 } else h
  { s with hart := grow s.here.key s.hart, parked := s.parked.map fun (p : Nat × Hart) => (p.1, grow p.1 p.2) }

/-- Task issue that crosses an aligned 16-byte boundary of code, or a vector instruction that completes, ends an instruction
group, as does a task that leaves its slot (log 114); an issue of the firmware context starts the count again (R360). -/
def State.countGroup (s : State) (c : CtxId) (before after : Word) (vector : Bool) : State :=
  let gone := (s.hartAt c).status = .empty
  s.modCore c.die c.core fun k =>
    if c.slot = 4 then { k with groups := 0, midGroup := false }
    else if vector || gone || before.toNat / 16 ≠ after.toNat / 16 then { k with groups := k.groups + 1, midGroup := false }
    else { k with midGroup := true }

/-- A word of a vector major, whose instruction ends a group when it completes (R360). -/
def isVectorWord (w : Nat) : Bool := 0x18 ≤ w / 2 ^ 26 && w / 2 ^ 26 ≤ 0x24

end Sys2Proof.Machine
end

