-- ==== Sys2Proof/Machine/Atomic.lean ====
section
/-! DEFINITION. Atomics and reductions of major 0x0C (R249–R254). -/

namespace Sys2Proof.Machine

/-- Older accesses that a returning atomic is performed after: those of both queues, and what goes before it in the buffers on its way
home (R115, R119). -/
def State.drainTo (s : State) (key : Nat) : State :=
  let s := s.drainQueue
  if straight s.here.die key then s
  else
    let p : Pending := .atomic s.hart.issued s.here.key s.hart.task.stay key 0 false false 0 0 0 0 0
    let s := s.drainOutboundTo s.here.die (·.before p)
    if keyRegion key = 4 then s.drainEgressTo (·.ahead p) else s

/-- The release of a returning atomic whose order is rel or ar (R128). -/
def State.releaseIf (s : State) (sf : BitVec 3) (r : BitVec 2) : State :=
  if r = 2 ∨ r = 3 then s.release sf.toNat else s

/-- The release of a reduction whose order is rel or ar: a fence before it in the store queue (R128, R253). -/
def State.fenceIf (s : State) (sf : BitVec 3) (r : BitVec 2) : State :=
  if r = 2 ∨ r = 3 then s.enqueueAct sf.toNat .fence else s

/-- A returning atomic of `n` bytes on another package's memory is asked of its home, with its operand, whose place in the flit no rule
gives (R432). -/
def State.sendReturning (s : State) (k n : Nat) : State :=
  if keyRegion k ≠ 4 || s.refused k then s
  else s.sendRequest k .returning [] ((List.range n).map (Config.freeByte s.steps))

/-- A returning atomic: checked at issue, performed at its home in one indivisible step after the older accesses of
both queues, its old value returned (R249–R253). `new` gives the value stored, or none for no write. -/
def atomicReturn (d : SReg) (c : CReg) (sf : BitVec 3) (r : BitVec 2) (wide fp : Bool) (new : Nat → Option Nat)
    (s : State) : Res :=
  let n := if wide then 8 else 4
  let cap := s.rc c
  let x : Int := cap.cursor
  finish 4 s ((s.access s.who cap x n n .atomic).bind fun key s =>
    if s.lost key then .trap .accessDenied (tv x) s else
    let s := ((s.releaseIf sf r).drainTo key).sendReturning key n
    match s.badWords key n with
    | w :: _ => .trap .memUncorrectable (tv x) (s.logError .home s.here.core w)
    | [] =>
      let m := s.homeNat key n
      let s := if s.refused key then s.countRefusal
        else match new m with
          | some v => s.writeHomeNat s.here.core key n v
          | none => s
      .ok () (s.effect.ws d (if fp then BitVec.ofNat 64 m else wordOfInt (sextInt m (8 * n)))))

/-- The operand of an atomic: the low 8n bits of a register (R249). -/
def atomicOperand (wide : Bool) (v : Word) : Nat := if wide then v.toNat else v.toNat % 2 ^ 32

/-- The new value of an operation of R249, as the stored value. -/
def storeNew (op : Nat) (wide : Bool) (v : Word) (m : Nat) : Option Nat :=
  some (atomicNew op (if wide then 64 else 32) m (atomicOperand wide v))

/-- A non-returning reduction: checked at issue, then an entry of the store queue (R252–R254). -/
def atomicReduce (c : CReg) (b : SReg) (sf : BitVec 3) (r : BitVec 2) (wide : Bool) (op : Nat) (s : State) : Res :=
  let n := if wide then 8 else 4
  let cap := s.rc c
  let x : Int := cap.cursor
  finish 4 s ((s.access s.who cap x n n .atomic).bind fun key s =>
    let v := BitVec.ofNat 64 (atomicOperand wide (s.rs b))
    .ok () ((s.fenceIf sf r).enqueueAtomic key op wide false v cap.space (tv x)).effect)

/-! ### Returning forms -/

/-- AMOADD (R249). -/
def execAmoadd (d : SReg) (c : CReg) (b : SReg) (sf : BitVec 3) (r : BitVec 2) (w : BitVec 1) (s : State) : Res :=
  atomicReturn d c sf r (w == 1) false (storeNew 0 (w == 1) (s.rs b)) s
/-- AMOAND (R249). -/
def execAmoand (d : SReg) (c : CReg) (b : SReg) (sf : BitVec 3) (r : BitVec 2) (w : BitVec 1) (s : State) : Res :=
  atomicReturn d c sf r (w == 1) false (storeNew 1 (w == 1) (s.rs b)) s
/-- AMOOR (R249). -/
def execAmoor (d : SReg) (c : CReg) (b : SReg) (sf : BitVec 3) (r : BitVec 2) (w : BitVec 1) (s : State) : Res :=
  atomicReturn d c sf r (w == 1) false (storeNew 2 (w == 1) (s.rs b)) s
/-- AMOXOR (R249). -/
def execAmoxor (d : SReg) (c : CReg) (b : SReg) (sf : BitVec 3) (r : BitVec 2) (w : BitVec 1) (s : State) : Res :=
  atomicReturn d c sf r (w == 1) false (storeNew 3 (w == 1) (s.rs b)) s
/-- AMOMIN (R249). -/
def execAmomin (d : SReg) (c : CReg) (b : SReg) (sf : BitVec 3) (r : BitVec 2) (w : BitVec 1) (s : State) : Res :=
  atomicReturn d c sf r (w == 1) false (storeNew 4 (w == 1) (s.rs b)) s
/-- AMOMAX (R249). -/
def execAmomax (d : SReg) (c : CReg) (b : SReg) (sf : BitVec 3) (r : BitVec 2) (w : BitVec 1) (s : State) : Res :=
  atomicReturn d c sf r (w == 1) false (storeNew 5 (w == 1) (s.rs b)) s
/-- AMOMINU (R249). -/
def execAmominu (d : SReg) (c : CReg) (b : SReg) (sf : BitVec 3) (r : BitVec 2) (w : BitVec 1) (s : State) : Res :=
  atomicReturn d c sf r (w == 1) false (storeNew 6 (w == 1) (s.rs b)) s
/-- AMOMAXU (R249). -/
def execAmomaxu (d : SReg) (c : CReg) (b : SReg) (sf : BitVec 3) (r : BitVec 2) (w : BitVec 1) (s : State) : Res :=
  atomicReturn d c sf r (w == 1) false (storeNew 7 (w == 1) (s.rs b)) s
/-- AMOSWP (R249). -/
def execAmoswp (d : SReg) (c : CReg) (b : SReg) (sf : BitVec 3) (r : BitVec 2) (w : BitVec 1) (s : State) : Res :=
  atomicReturn d c sf r (w == 1) false (storeNew 8 (w == 1) (s.rs b)) s
/-- AMOCAS: compare with s[sb], swap in s[sb+1] (R250). -/
def execAmocas (d : SReg) (c : CReg) (b : SReg) (sf : BitVec 3) (r : BitVec 2) (w : BitVec 1) (s : State) : Res :=
  atomicReturn d c sf r (w == 1) false
    (fun m => if m = atomicOperand (w == 1) (s.rs b) then some (atomicOperand (w == 1) (s.rs (b + 1))) else none) s
/-- AMOFADD (R251). -/
def execAmofadd (d : SReg) (c : CReg) (b : SReg) (sf : BitVec 3) (r : BitVec 2) (s : State) : Res :=
  atomicReturn d c sf r false true (storeNew 10 false (s.rs b)) s
/-- AMOFMIN (R251). -/
def execAmofmin (d : SReg) (c : CReg) (b : SReg) (sf : BitVec 3) (r : BitVec 2) (s : State) : Res :=
  atomicReturn d c sf r false true (storeNew 11 false (s.rs b)) s
/-- AMOFMAX (R251). -/
def execAmofmax (d : SReg) (c : CReg) (b : SReg) (sf : BitVec 3) (r : BitVec 2) (s : State) : Res :=
  atomicReturn d c sf r false true (storeNew 12 false (s.rs b)) s
/-- AMOBFADD2 (R251). -/
def execAmobfadd2 (d : SReg) (c : CReg) (b : SReg) (sf : BitVec 3) (r : BitVec 2) (s : State) : Res :=
  atomicReturn d c sf r false true (storeNew 13 false (s.rs b)) s

/-! ### Reductions -/

/-- REDADD (R249). -/
def execRedadd (c : CReg) (b : SReg) (sf : BitVec 3) (r : BitVec 2) (w : BitVec 1) (s : State) : Res :=
  atomicReduce c b sf r (w == 1) 0 s
/-- REDAND (R249). -/
def execRedand (c : CReg) (b : SReg) (sf : BitVec 3) (r : BitVec 2) (w : BitVec 1) (s : State) : Res :=
  atomicReduce c b sf r (w == 1) 1 s
/-- REDOR (R249). -/
def execRedor (c : CReg) (b : SReg) (sf : BitVec 3) (r : BitVec 2) (w : BitVec 1) (s : State) : Res :=
  atomicReduce c b sf r (w == 1) 2 s
/-- REDXOR (R249). -/
def execRedxor (c : CReg) (b : SReg) (sf : BitVec 3) (r : BitVec 2) (w : BitVec 1) (s : State) : Res :=
  atomicReduce c b sf r (w == 1) 3 s
/-- REDMIN (R249). -/
def execRedmin (c : CReg) (b : SReg) (sf : BitVec 3) (r : BitVec 2) (w : BitVec 1) (s : State) : Res :=
  atomicReduce c b sf r (w == 1) 4 s
/-- REDMAX (R249). -/
def execRedmax (c : CReg) (b : SReg) (sf : BitVec 3) (r : BitVec 2) (w : BitVec 1) (s : State) : Res :=
  atomicReduce c b sf r (w == 1) 5 s
/-- REDMINU (R249). -/
def execRedminu (c : CReg) (b : SReg) (sf : BitVec 3) (r : BitVec 2) (w : BitVec 1) (s : State) : Res :=
  atomicReduce c b sf r (w == 1) 6 s
/-- REDMAXU (R249). -/
def execRedmaxu (c : CReg) (b : SReg) (sf : BitVec 3) (r : BitVec 2) (w : BitVec 1) (s : State) : Res :=
  atomicReduce c b sf r (w == 1) 7 s
/-- REDFADD (R251). -/
def execRedfadd (c : CReg) (b : SReg) (sf : BitVec 3) (r : BitVec 2) (s : State) : Res :=
  atomicReduce c b sf r false 10 s
/-- REDFMIN (R251). -/
def execRedfmin (c : CReg) (b : SReg) (sf : BitVec 3) (r : BitVec 2) (s : State) : Res :=
  atomicReduce c b sf r false 11 s
/-- REDFMAX (R251). -/
def execRedfmax (c : CReg) (b : SReg) (sf : BitVec 3) (r : BitVec 2) (s : State) : Res :=
  atomicReduce c b sf r false 12 s
/-- REDBFADD2 (R251). -/
def execRedbfadd2 (c : CReg) (b : SReg) (sf : BitVec 3) (r : BitVec 2) (s : State) : Res :=
  atomicReduce c b sf r false 13 s

end Sys2Proof.Machine
end

