-- ==== Sys2Proof/Machine/Capability.lean ====
section
/-! DEFINITION. The capability instructions of major 0x09 (R169–R174). -/

namespace Sys2Proof.Machine

/-- Write a capability result and move on. -/
def capResult (d : CReg) (v : Cap) (s : State) : Res := .next ((s.wc d v).advance 4)

/-- CMOV (R170). -/
def execCmov (d a : CReg) (s : State) : Res := capResult d (s.rc a) s
/-- CINC (R170). -/
def execCinc (d a : CReg) (b : SReg) (s : State) : Res := capResult d ((s.rc a).move (s.rs b).toInt) s
/-- CINCI (R170). -/
def execCinci (d a : CReg) (imm : BitVec 8) (s : State) : Res := capResult d ((s.rc a).move (imm.toInt * 16)) s
/-- CSETB (R171). -/
def execCsetb (d a : CReg) (b : SReg) (e : BitVec 1) (s : State) : Res :=
  capResult d ((s.rc a).setBounds (s.rs b).toNat (e == 1)) s
/-- CANDP (R172). -/
def execCandp (d a : CReg) (p : BitVec 8) (s : State) : Res := capResult d ((s.rc a).mask p) s

/-- Write what a getter reads and move on (R173). -/
def getter (b : SReg) (v : Nat) (s : State) : Res := .next ((s.ws b (BitVec.ofNat 64 v)).advance 4)

/-- CGETB (R173). -/
def execCgetb (a : CReg) (b : SReg) (s : State) : Res := getter b (s.rc a).base s
/-- CGETL (R173). -/
def execCgetl (a : CReg) (b : SReg) (s : State) : Res :=
  getter b ((((s.rc a).top : Int) - (s.rc a).base) % (2 ^ 56 : Nat)).toNat s
/-- CGETC (R173). -/
def execCgetc (a : CReg) (b : SReg) (s : State) : Res := getter b (s.rc a).cursor s
/-- CGETP: PERMS in bits 7:0, SPACE in 11:8, E in 17:12 (R173). -/
def execCgetp (a : CReg) (b : SReg) (s : State) : Res :=
  getter b ((s.rc a).perms.toNat + (s.rc a).space * 2 ^ 8 + (s.rc a).e * 2 ^ 12) s
/-- CGETT (R173). -/
def execCgett (a : CReg) (b : SReg) (s : State) : Res := getter b (if (s.rc a).tag then 1 else 0) s

/-- The address of a capability access (R174). -/
def capAddr (c : Cap) (imm : BitVec 8) : Int := (c.cursor : Int) + imm.toInt * 16

/-- CLDC enters the load queue: 16 bytes and, with LDC and in a space that holds tags, their tag (R107, R119, R174). -/
def execCldc (d a : CReg) (imm : BitVec 8) (s : State) : Res :=
  let c := s.rc a
  let x := capAddr c imm
  finish 4 s (s.load c x 16 .capLoad (.cap d (decide (c.space ≤ 4) && c.ldc)))

/-- CSTC: 16 bytes with their tag (R106, R107, R174). -/
def execCstc (d a : CReg) (imm : BitVec 8) (s : State) : Res :=
  let v := s.rc d
  let x := capAddr (s.rc a) imm
  finish 4 s ((s.access s.who (s.rc a) x 16 16 (.capStore v.tag v.grant)).bind fun key s =>
    .ok () ((s.enqueueStore (cellsAt key (leBytes 16 v.bits.toNat)) v.tag false).storeEffect (s.rc a).space))

end Sys2Proof.Machine
end

