-- ==== Sys2Proof/Machine/Sync.lean ====
section
/-! DEFINITION. Waiting on a task's own traffic, ordering, counters and stage barriers: majors 0x0A, 0x0D and the first
part of 0x0E (R120, R128, R255–R258, R262–R267). -/

namespace Sys2Proof.Machine

/-- A counter reference that the issuing context may use: upper bits zero and, for a task, allocated to its partition
(R262). -/
def State.ctrRef (s : State) (r : Word) : R Nat :=
  if r.toNat / 2 ^ 11 = 0 && (s.isFw || s.allocated s.part r.toNat) then .ok (ctrKey r.toNat) s
  else .trap .accessDenied r (if s.isFw || r.toNat / 2 ^ 11 ≠ 0 then s else s.noteAllocated s.part r.toNat)

/-- CTRSIG: a release in the store queue, then the signal (R119, R126, R263); ar also acquires (R260). -/
def execCtrsig (a b : SReg) (sf : BitVec 3) (r : BitVec 2) (s : State) : Res :=
  finish 4 s ((s.ctrRef (s.rs a)).bind fun k s =>
    .ok () ((s.acquireAr sf.toNat r).enqueueAct sf.toNat (.signal k ((s.rs b).toNat % 2 ^ 32))))

/-- A wait that starts: the context blocks on it and looks at once. -/
def State.startWait (s : State) (w : Wait) : State := (s.blockOn w).tryWait s.here

/-- End an instruction of 4 bytes that starts a wait. -/
def finishWait (s : State) (r : R Wait) : Res :=
  match r with
  | .ok w t => .next (t.startWait w)
  | .trap c v t => .next (t.takeTrap c v 4)
  | .wait => .next s.block

/-- CTRWAIT (R131, R263); ar also releases (R260). -/
def execCtrwait (d a b : SReg) (sf : BitVec 3) (r : BitVec 2) (s : State) : Res :=
  finishWait s ((s.ctrRef (s.rs a)).bind fun k s => .ok (.counter d k (s.rs b) (s.rs a)) (s.releaseAr sf.toNat r))

/-- CTRRD (R263). -/
def execCtrrd (d a : SReg) (s : State) : Res :=
  finish 4 s ((s.ctrRef (s.rs a)).bind fun k s => .ok () (s.ws d (s.counter k)))

/-! ### A task's own traffic and order -/

/-- A count is within its literal limit; 31 ignores the class (R255). -/
def withinLimit (count : Nat) (limit : BitVec 5) : Bool := limit = 31 || count ≤ limit.toNat

/-- WAITC (R255). -/
def execWaitc (l sf c t : BitVec 5) (s : State) : Res :=
  finish 4 s (if withinLimit (s.outLoads s.here) l && withinLimit (s.outStores s.here) sf &&
      withinLimit (s.outCopies s.here) c && withinLimit (s.outTiles s.here) t then .ok () s else .wait)

/-- SYNCQ: every older access is performed at scope 0 (R120). -/
def execSyncq (s : State) : Res := finish 4 s (.ok () s.drainQueue)

/-- FENCE (R128): rlx is a NOP; acq binds the older loads; rel is a marker of the store queue, behind which younger stores
wait; ar performs every older access at the scope. -/
def execFence (sf : BitVec 3) (r : BitVec 2) (s : State) : Res :=
  finish 4 s (.ok () (
    if r = 0 then s
    else if r = 1 then s.bindLoads sf.toNat
    else if r = 2 then s.enqueueAct sf.toNat .fence
    else (s.bindLoads sf.toNat).release sf.toNat))

/-- A launch of a partition is still running (R43, R257). -/
def State.launchLive (s : State) (part id : Nat) : Bool :=
  match s.disp.launches.find? id with
  | some l => l.part = part
  | none => false

/-- The launch of the record before a task's own in its chain is still running (R257). -/
def State.priorLive (s : State) (t : TaskInfo) : Bool :=
  match s.disp.launches.find? t.launch with
  | none => false
  | some l => s.disp.launches.any fun p => p.2.chain = l.chain && p.2.index + 1 = l.index

/-- WAITVIS (R257); ar also releases (R260). -/
def execWaitvis (a : SReg) (r : BitVec 2) (s : State) : Res :=
  match taskOnly s (tvalWord (.waitvis a r)) (.ok () (s.releaseAr 2 r)) with
  | .trap c v t => .next (t.takeTrap c v 4)
  | .wait => .next s.block
  | .ok _ t =>
    if (if a = 0 then t.priorLive t.hart.task else t.launchLive t.part ((t.rs a).toNat % 2 ^ 32)) then .next t.block
    else .next (t.advance 4)

/-! ### Stage barriers -/

/-- A barrier operation's location: an atomic access of 16 bytes in space 1 or 2 (R264); the operation follows the
task's older accesses, performed at a scope. -/
def State.barrierRef (s : State) (c : Cap) (sf : Nat) : R Nat :=
  let x : Int := c.cursor
  if c.tag && c.space ≠ 1 && c.space ≠ 2 then .trap .capSpace (tv x) s
  else (s.access s.who c x 16 16 .atomic).bind fun k s =>
    let s := s.release sf
    match s.badWords k 16 with
    | w :: _ => .trap .memUncorrectable (tv x) (s.logError .home s.here.core w)
    | [] => .ok k s

/-- The contexts blocked at a barrier take BARRIER_STALL (R265). -/
def State.stallWaiters (s : State) (k : Nat) : State :=
  (s.waitersOf fun w => match w with
    | .barrier j _ _ => j = k
    | _ => false).foldl (fun t c =>
      match (t.hartAt c).task.wait with
      | some (.barrier _ _ x) => t.trapAt c .barrierStall x 4
      | _ => t) s

/-- BARINIT (R265). -/
def execBarinit (c : CReg) (b : SReg) (s : State) : Res :=
  finish 4 s (taskOnly s (tvalWord (.barinit c b)) (
    (s.barrierRef (s.rc c) 0).bind fun k s =>
      let n := (s.rs b).toNat % 2 ^ 16
      if n = 0 then .trap .illegal (s.rs b) s
      else .ok () ((s.stallWaiters k).setBarrier k ⟨n, n, 0, false, 0⟩)))

/-- An arrival: one less awaited, bytes announced; the token is the phase (R265). -/
def barrierArrive (d : SReg) (c : CReg) (sf : BitVec 3) (bytes : Nat) (s : State) : R Unit :=
  (s.barrierRef (s.rc c) sf.toNat).bind fun k s =>
    let b := s.barrierAt k
    if b.left = 0 then .trap .barrierOverrun (tv (s.rc c).cursor) s
    else .ok () ((s.setBarrier k { b with left := b.left - 1, pend := b.pend + bytes }).ws d (BitVec.ofNat 64 b.phase))

/-- BARARV (R265). -/
def execBararv (d : SReg) (c : CReg) (sf : BitVec 3) (r : BitVec 2) (s : State) : Res :=
  finish 4 s (taskOnly s (tvalWord (.bararv d c sf r)) (barrierArrive d c sf 0 s))

/-- BARXB (R265). -/
def execBarxb (d : SReg) (c : CReg) (b : SReg) (sf : BitVec 3) (r : BitVec 2) (s : State) : Res :=
  finish 4 s (taskOnly s (tvalWord (.barxb d c b sf r)) (barrierArrive d c sf (s.rs b).toNat s))

/-- BARWAIT (R266, R267): a blocked task waits at the barrier's location; ar also releases (R260). -/
def execBarwait (c : CReg) (b : SReg) (sf : BitVec 3) (r : BitVec 2) (s : State) : Res :=
  finishWait s (taskOnly s (tvalWord (.barwait c b sf r)) (
    (s.barrierRef (s.rc c) (if r = 3 then sf.toNat else 0)).bind fun k s =>
      .ok (.barrier k ((s.rs b).toNat % 2 ^ 31) (tv (s.rc c).cursor)) s))

/-- BARTEST (R266, R267); ar makes it an acquire and no release (R260, log 111). -/
def execBartest (d : SReg) (c : CReg) (b : SReg) (sf : BitVec 3) (r : BitVec 2) (s : State) : Res :=
  finish 4 s (taskOnly s (tvalWord (.bartest d c b sf r)) (
    (s.barrierRef (s.rc c) 0).bind fun k s =>
      let token := (s.rs b).toNat % 2 ^ 31
      let bar := s.barrierAt k
      if bar.overrun token then .trap .barrierOverrun (tv (s.rc c).cursor) s
      else .ok () (s.ws d (if bar.phase ≠ token then 1 else 0))))

end Sys2Proof.Machine
end

