-- ==== Sys2Proof/Machine/Channel.lean ====
section
/-! DEFINITION. Channels: the descriptor, its slots and the instructions CHRSV to CHSTAT (R268–R271, R413). -/

namespace Sys2Proof.Machine

/-- The descriptor a handle names, for the issuing task on a side; ACCESS_DENIED or CHANNEL_POISONED with the handle
(R268, R271). -/
def State.chanRef (s : State) (r : Word) (side : Side) : R Channel :=
  if r.toNat / 2 ^ 12 ≠ 0 then .trap .accessDenied r s
  else
    match s.shared.channels.find? r.toNat with
    | none => .trap .accessDenied r s
    | some c =>
      if !c.allows s.part side then .trap .accessDenied r s
      else if c.poison then .trap .channelPoisoned r s
      else .ok c s

/-- The task holds a channel slot it reserved (true) or took (R56, R275). -/
def State.hold (s : State) (h i : Nat) (reserved : Bool) : State :=
  s.modTask fun t => { t with heldChans := t.heldChans ++ [(h, i, reserved)] }

/-- A task's list of channel slots without one. -/
def TaskInfo.without (t : TaskInfo) (h i : Nat) : TaskInfo :=
  { t with heldChans := t.heldChans.filter fun p => p.1 ≠ h || p.2.1 ≠ i }

/-- No task holds a channel slot any more: it has been pushed or released, whichever task reserved or took it (R268, R275). -/
def State.unhold (s : State) (h i : Nat) : State :=
  let f := fun x : Hart => { x with task := x.task.without h i }
  { s with
    hart := f s.hart
    parked := s.parked.map fun p => (p.1, f p.2)
    disp := { s.disp with
      conts := s.disp.conts.map fun p => (p.1, { p.2 with hart := f p.2.hart })
      saved := s.disp.saved.map fun p => (p.1, { p.2 with hart := f p.2.hart }) } }

/-- A push of a slot is in the issuing task's store queue. -/
def State.pushDue (s : State) (h i : Nat) : Bool :=
  s.hart.stores.any fun p => match p with
    | .act _ _ _ (.push a b) => a = h && b = i
    | _ => false

/-- CHRSV (R269): reservers are served in the order they arrived. -/
def execChrsv (d a : SReg) (s : State) : Res :=
  finishWait s (taskOnly s (tvalWord (.chrsv d a)) ((s.chanRef (s.rs a) .producer).bind fun c s =>
    .ok (.reserve d (s.rs a).toNat) (s.setChannel (s.rs a).toNat { c with waiters := c.waiters ++ [s.here.key] })))

/-- The slot index of a slot word (R268). -/
def slotIndex (w : Word) : Nat := w.toNat / 2 ^ 48 % 2 ^ 12

/-- CHPUSH: checked at issue, it holds a place in the store queue, from where it is a release at the descriptor's scope, after which the
slot is FILLED and stamped (R119, R130, R269); ar also acquires (R260). An older push of the same slot is performed before the check. -/
def execChpush (a b : SReg) (r : BitVec 2) (s : State) : Res :=
  finish 4 s (taskOnly s (tvalWord (.chpush a b r)) (
    let h := (s.rs a).toNat
    let i := slotIndex (s.rs b)
    ((if s.pushDue h i then s.drainQueue else s).chanRef (s.rs a) .producer).bind fun c s =>
      if i ≥ c.depth || (c.slot i).state ≠ 1 then .trap .accessDenied (s.rs b) s
      else .ok () ((((s.acquireAr c.scope r).enqueueAct c.scope (.push h i)).unhold h i).effect)))

/-- CHAWAIT (R270); ar also releases (R260). -/
def execChawait (d a : SReg) (r : BitVec 2) (s : State) : Res :=
  finishWait s (taskOnly s (tvalWord (.chawait d a r)) ((s.chanRef (s.rs a) .consumer).bind fun c s =>
    .ok (.take d (s.rs a).toNat) (s.releaseAr c.scope r)))

/-- CHREL: the slot is FREE once every older load of the task has been performed (R270). -/
def execChrel (a b : SReg) (s : State) : Res :=
  finish 4 s (taskOnly s (tvalWord (.chrel a b)) (
    (s.chanRef (s.rs a) .consumer).bind fun c s =>
      let h := (s.rs a).toNat
      let i := slotIndex (s.rs b)
      if i ≥ c.depth || (c.slot i).state ≠ 3 then .trap .accessDenied (s.rs b) s
      else .ok () (((s.performLoads s.here).freeSlot h i).unhold h i)))

/-- The status word of a channel (R271). -/
def Channel.status (c : Channel) : Word :=
  BitVec.ofNat 64 (c.count 2 % 2 ^ 13 + c.count 0 % 2 ^ 13 * 2 ^ 16 + (if c.poison then 2 ^ 31 else 0) +
    c.rank % 2 ^ 8 * 2 ^ 32 + c.size % 2 ^ 4 * 2 ^ 48)

/-- CHSTAT (R271). -/
def execChstat (d a b : SReg) (s : State) : Res :=
  finish 4 s (taskOnly s (tvalWord (.chstat d a b)) (
    (s.chanRef (s.rs a) .either).bind fun c s =>
      let sel := (s.rs b).toNat
      if sel / 2 ^ 17 ≠ 0 || bitsOf sel 15 12 ≠ 0 then .trap .accessDenied (s.rs b) s
      else if bitOf sel 16 then
        if sel % 2 ^ 12 ≥ c.depth then .trap .accessDenied (s.rs b) s
        else .ok () (s.ws d (BitVec.ofNat 64 (c.slot (sel % 2 ^ 12)).stamp))
      else .ok () (s.ws d c.status)))

/-- EXIT pushes every slot a task holds reserved, as CHPUSH would, and releases every slot it holds taken, as CHREL would, while the slot is
still in that state (R275). -/
def State.dropHeld (s : State) (held : List (Nat × Nat × Bool)) : State :=
  held.foldl (fun t p =>
    match t.shared.channels.find? p.1 with
    | some c =>
      if p.2.2 then (t.release c.scope).pushSlot p.1 p.2.1
      else if (c.slot p.2.1).state = 3 then t.freeSlot p.1 p.2.1
      else t
    | none => t) s

/-- A context leaves every channel's line of blocked reservers. -/
def State.leaveLines (s : State) (key : Nat) : State :=
  { s with shared := { s.shared with
      channels := s.shared.channels.map fun p => (p.1, { p.2 with waiters := p.2.waiters.filter (· ≠ key) }) } }

/-! ### Revoked channels (R413) -/

/-- A slot holds a task that has started. -/
def State.holds (s : State) (c : CtxId) : Bool :=
  c.slot < 4 && (s.hartAt c).status ≠ .empty && (s.hartAt c).status ≠ .reserved

/-- The slots that a launch has reserved for tasks of a gang that have not started (R36, R49). -/
def State.reservedFor (s : State) (launch : Nat) : List CtxId :=
  s.contexts.filter fun c => (s.hartAt c).status = .reserved && (s.hartAt c).task.launch = launch

/-- The tasks that exist, in slots, suspended, pre-empted or evicted. -/
def State.tasks (s : State) : List TaskInfo :=
  ((s.contexts.filter s.holds).map fun c => (s.hartAt c).task) ++ (s.disp.conts.map fun p => p.2.hart.task) ++
    (s.disp.saved.map fun p => p.2.hart.task)

/-- The partitions of a grant. -/
def Channel.granted (c : Channel) : List Nat :=
  match c.grant with
  | some (p, _, q, _) => [p, q]
  | none => []

/-- A SUSPEND under way names a channel. -/
def Wait.suspendsOn (h : Nat) : Wait → Bool
  | .suspend _ kind x _ _ => (kind = 1 || kind = 2) && x.toNat = h
  | .stay kind x _ => (kind = 1 || kind = 2) && x.toNat = h
  | _ => false

/-- A descriptor is still in use: a task or a CPYB under way holds a slot of it, a push of one is in a store queue, or a SUSPEND on it has
still to take CHANNEL_POISONED (R413). -/
def State.chanBusy (s : State) (h : Nat) : Bool :=
  (s.tasks.any fun t => t.heldChans.any fun x => x.1 = h) ||
  (s.eng.copies.any fun p => p.2.cmds.any fun m => m.chan = h && m.piece.isSome) ||
  (s.contexts.any fun c => ((s.hartAt c).task.wait.any fun w => w.suspendsOn h) || (s.hartAt c).stores.any fun p => match p with
    | .act _ _ _ (.push k _) => k = h
    | _ => false) ||
  s.disp.conts.any fun p => (p.2.kind = 1 || p.2.kind = 2) && p.2.object.toNat = h && !p.2.complete && p.2.fate.isNone

/-- Revoked channels that nothing uses any more leave their descriptors, which are FREE again in both bitmaps (R413). -/
def State.reapRevoked (s : State) : State :=
  let free := fun p : Nat × Channel => p.2.poison && p.2.grant.isSome && !s.chanBusy p.1
  let gone := s.shared.channels.filter free
  let s := { s with shared := { s.shared with channels := s.shared.channels.filter fun p => !free p } }
  gone.foldl (fun s p => p.2.granted.foldl (fun s part => s.setAllocated part (2048 + p.1) false) s) s

end Sys2Proof.Machine
end

