-- ==== Sys2Proof/Machine/Vector.lean ====
section
/-! DEFINITION. Vector arithmetic: majors 0x18 to 0x1C (R180–R188). Every instruction is element-wise under a governing
mask (R182). -/

namespace Sys2Proof.Machine

/-- The word of an FV instruction, for TVAL (R140, R149). -/
def fvWord (mj vd va vb mask nf fn : Nat) : Word := BitVec.ofNat 64 (encFV mj vd va vb mask nf fn)

/-- FP32, BF16 or FP16 (R180). -/
def isWideFp (t : Nat) : Bool := t ≤ 2

/-- A vector instruction: a task's, and with an element type that it allows (R180, R359). -/
def vectorOp (word : Word) (allowed : Nat → Bool) (s : State) (t : State) : Res :=
  finish 4 s (taskOnly s word (if allowed s.vt then .ok () t else .trap .illegal word s))

/-- Element-wise results of width `w` with their flags, under a governing mask (R182). -/
def State.elementwise (s : State) (w : Nat) (d : VReg) (k : KReg) (nf : Bool) (f : Nat → Nat × Flags5) : State :=
  let m := s.rk k
  let old := s.rv d
  let rs := (List.range (2048 / w)).map fun i => if m.getLsbD i then f i else (lane old w i, 0)
  (s.accrue nf (laneFlags w (rs.map (·.2)))).wv d (vecOf w (rs.map (·.1)))

/-- The rounding mode in VRM (R72). -/
def State.mode (s : State) : Nat := s.hart.vec.vrm.toNat

/-- A floating-point instruction of one, two or three operands in the type of VTYPE (R183). -/
def vectorFp (word : Word) (d a b : VReg) (k : KReg) (nf : Bool) (f : Fmt → Nat → Nat → Nat → Nat → Nat × Flags5)
    (s : State) : Res :=
  let fm := fmtOf s.vt
  vectorOp word isWideFp s (s.elementwise fm.w d k nf fun i =>
    f fm s.mode (lane (s.rv a) fm.w i) (lane (s.rv b) fm.w i) (lane (s.rv d) fm.w i))

/-- An integer instruction in the type of VTYPE (R187, R188). -/
def vectorInt (word : Word) (allowed : Nat → Bool) (d a b : VReg) (k : KReg) (f : Nat → Nat → Nat → Nat) (s : State) :
    Res :=
  let w := typeBits s.vt
  vectorOp word allowed s (s.elementwise w d k true fun i => (f w (lane (s.rv a) w i) (lane (s.rv b) w i), 0))

/-- An operation on decoded operands. -/
def fp2 (g : Fmt → Nat → FVal → FVal → Nat × Flags5) (f : Fmt) (mode x y _z : Nat) : Nat × Flags5 :=
  g f mode (f.decode x) (f.decode y)

/-- ±(a × b) ± d on codes. -/
def fp3 (np nd : Bool) (f : Fmt) (mode x y z : Nat) : Nat × Flags5 :=
  f.fmaV mode np nd (f.decode x) (f.decode y) (f.decode z)

/-- A function of one operand. -/
def fp1 (g : Fmt → Nat → FVal → Nat × Flags5) (f : Fmt) (mode x _y _z : Nat) : Nat × Flags5 := g f mode (f.decode x)

/-- a − b. -/
def Fmt.subV (f : Fmt) (mode : Nat) (a b : FVal) : Nat × Flags5 := f.addV mode a (b.turn true)

/-! ### Floating-point arithmetic (R183–R185) -/

/-- VFADD (R183). -/
def execVfadd (d a b : VReg) (k : KReg) (n : BitVec 1) (s : State) : Res :=
  vectorFp (fvWord 0x18 d.toNat a.toNat b.toNat k.toNat n.toNat 0) d a b k (n == 1) (fp2 Fmt.addV) s
/-- VFSUB (R183). -/
def execVfsub (d a b : VReg) (k : KReg) (n : BitVec 1) (s : State) : Res :=
  vectorFp (fvWord 0x18 d.toNat a.toNat b.toNat k.toNat n.toNat 1) d a b k (n == 1) (fp2 Fmt.subV) s
/-- VFMUL (R183). -/
def execVfmul (d a b : VReg) (k : KReg) (n : BitVec 1) (s : State) : Res :=
  vectorFp (fvWord 0x18 d.toNat a.toNat b.toNat k.toNat n.toNat 2) d a b k (n == 1) (fp2 Fmt.mulV) s
/-- VFMA (R183). -/
def execVfma (d a b : VReg) (k : KReg) (n : BitVec 1) (s : State) : Res :=
  vectorFp (fvWord 0x18 d.toNat a.toNat b.toNat k.toNat n.toNat 3) d a b k (n == 1) (fp3 false false) s
/-- VFMS (R183). -/
def execVfms (d a b : VReg) (k : KReg) (n : BitVec 1) (s : State) : Res :=
  vectorFp (fvWord 0x18 d.toNat a.toNat b.toNat k.toNat n.toNat 4) d a b k (n == 1) (fp3 false true) s
/-- VFNMA (R183). -/
def execVfnma (d a b : VReg) (k : KReg) (n : BitVec 1) (s : State) : Res :=
  vectorFp (fvWord 0x18 d.toNat a.toNat b.toNat k.toNat n.toNat 5) d a b k (n == 1) (fp3 true false) s
/-- VFNMS (R183). -/
def execVfnms (d a b : VReg) (k : KReg) (n : BitVec 1) (s : State) : Res :=
  vectorFp (fvWord 0x18 d.toNat a.toNat b.toNat k.toNat n.toNat 6) d a b k (n == 1) (fp3 true true) s
/-- VFMIN (R184). -/
def execVfmin (d a b : VReg) (k : KReg) (n : BitVec 1) (s : State) : Res :=
  vectorFp (fvWord 0x18 d.toNat a.toNat b.toNat k.toNat n.toNat 7) d a b k (n == 1) (fun f _ x y _ => f.minmax false false x y) s
/-- VFMAX (R184). -/
def execVfmax (d a b : VReg) (k : KReg) (n : BitVec 1) (s : State) : Res :=
  vectorFp (fvWord 0x18 d.toNat a.toNat b.toNat k.toNat n.toNat 8) d a b k (n == 1) (fun f _ x y _ => f.minmax true false x y) s
/-- VFMINM (R184). -/
def execVfminm (d a b : VReg) (k : KReg) (n : BitVec 1) (s : State) : Res :=
  vectorFp (fvWord 0x18 d.toNat a.toNat b.toNat k.toNat n.toNat 9) d a b k (n == 1) (fun f _ x y _ => f.minmax false true x y) s
/-- VFMAXM (R184). -/
def execVfmaxm (d a b : VReg) (k : KReg) (n : BitVec 1) (s : State) : Res :=
  vectorFp (fvWord 0x18 d.toNat a.toNat b.toNat k.toNat n.toNat 10) d a b k (n == 1) (fun f _ x y _ => f.minmax true true x y) s
/-- VFDIV (R183). -/
def execVfdiv (d a b : VReg) (k : KReg) (n : BitVec 1) (s : State) : Res :=
  vectorFp (fvWord 0x18 d.toNat a.toNat b.toNat k.toNat n.toNat 14) d a b k (n == 1) (fp2 Fmt.divV) s
/-- VFABS (R80, R183). -/
def execVfabs (d a : VReg) (k : KReg) (s : State) : Res :=
  vectorFp (fvWord 0x18 d.toNat a.toNat 0 k.toNat 0 11) d a a k true (fun f _ x _ _ => (f.mag x, 0)) s
/-- VFNEG (R80, R183). -/
def execVfneg (d a : VReg) (k : KReg) (s : State) : Res :=
  vectorFp (fvWord 0x18 d.toNat a.toNat 0 k.toNat 0 12) d a a k true (fun f _ x _ _ => (f.withSign (!f.sign x) (f.mag x), 0)) s
/-- VFSGNJ (R80, R183). -/
def execVfsgnj (d a b : VReg) (k : KReg) (s : State) : Res :=
  vectorFp (fvWord 0x18 d.toNat a.toNat b.toNat k.toNat 0 13) d a b k true
    (fun f _ x y _ => (f.withSign (f.sign y) (f.mag x), 0)) s
/-- VFSQRT (R183). -/
def execVfsqrt (d a : VReg) (k : KReg) (n : BitVec 1) (s : State) : Res :=
  vectorFp (fvWord 0x18 d.toNat a.toNat 0 k.toNat n.toNat 15) d a a k (n == 1) (fp1 Fmt.sqrtV) s
/-- VFRCP (R185). -/
def execVfrcp (d a : VReg) (k : KReg) (n : BitVec 1) (s : State) : Res :=
  vectorFp (fvWord 0x19 d.toNat a.toNat 0 k.toNat n.toNat 0) d a a k (n == 1) (fp1 Fmt.rcpV) s
/-- VFRSQ (R185). -/
def execVfrsq (d a : VReg) (k : KReg) (n : BitVec 1) (s : State) : Res :=
  vectorFp (fvWord 0x19 d.toNat a.toNat 0 k.toNat n.toNat 1) d a a k (n == 1) (fp1 Fmt.rsqV) s
/-- VFEXP2 (R185). -/
def execVfexp2 (d a : VReg) (k : KReg) (n : BitVec 1) (s : State) : Res :=
  vectorFp (fvWord 0x19 d.toNat a.toNat 0 k.toNat n.toNat 2) d a a k (n == 1) (fp1 Fmt.exp2V) s
/-- VFLOG2 (R185). -/
def execVflog2 (d a : VReg) (k : KReg) (n : BitVec 1) (s : State) : Res :=
  vectorFp (fvWord 0x19 d.toNat a.toNat 0 k.toNat n.toNat 3) d a a k (n == 1) (fp1 Fmt.log2V) s
/-- VFTANH (R185). -/
def execVftanh (d a : VReg) (k : KReg) (n : BitVec 1) (s : State) : Res :=
  vectorFp (fvWord 0x19 d.toNat a.toNat 0 k.toNat n.toNat 4) d a a k (n == 1) (fp1 Fmt.tanhV) s

/-! ### Compares (R186) -/

/-- A compare into a mask: masked lanes keep the old bit, bits at and above L clear; k0 discards the mask (R67). -/
def State.compare (s : State) (w : Nat) (d : KReg) (k : KReg) (nf : Bool) (f : Nat → Bool × Flags5) : State :=
  let m := s.rk k
  let old := s.rk d
  let rs := (List.range (2048 / w)).map fun i => if m.getLsbD i then f i else (old.getLsbD i, 0)
  (s.accrue nf (laneFlags w (rs.map (·.2)))).wk d (BitVec.ofNat 512 (ofLanes 1 (rs.map fun r => if r.1 then 1 else 0)))

/-- A floating-point compare: the relation on codes that are not NaN, the result with a NaN, and whether a quiet NaN is
invalid (R186). -/
def vectorFcmp (fn : Nat) (d : KReg) (a b : VReg) (k : KReg) (n : BitVec 1) (rel : Fmt → Nat → Nat → Bool)
    (onNan quietNv : Bool) (s : State) : Res :=
  let fm := fmtOf s.vt
  vectorOp (fvWord 0x1A d.toNat a.toNat b.toNat k.toNat n.toNat fn) isWideFp s
    (s.compare fm.w d k (n == 1) fun i =>
      let x := lane (s.rv a) fm.w i
      let y := lane (s.rv b) fm.w i
      let u := fm.decode x
      let v := fm.decode y
      if u.isNan || v.isNan then (onNan, if quietNv then fNV else u.snan ||| v.snan) else (rel fm x y, 0))

/-- An integer compare (R186). -/
def vectorIcmp (fn : Nat) (d : KReg) (a b : VReg) (k : KReg) (rel : Nat → Nat → Nat → Bool) (s : State) : Res :=
  let w := typeBits s.vt
  vectorOp (fvWord 0x1A d.toNat a.toNat b.toNat k.toNat 0 fn) isIntType s
    (s.compare w d k true fun i => (rel w (lane (s.rv a) w i) (lane (s.rv b) w i), 0))

/-- VFCEQ (R186). -/
def execVfceq (d : KReg) (a b : VReg) (k : KReg) (n : BitVec 1) (s : State) : Res :=
  vectorFcmp 0 d a b k n (Fmt.eq) false false s
/-- VFCNE (R186). -/
def execVfcne (d : KReg) (a b : VReg) (k : KReg) (n : BitVec 1) (s : State) : Res :=
  vectorFcmp 1 d a b k n (fun f x y => !f.eq x y) true false s
/-- VFCLT (R186). -/
def execVfclt (d : KReg) (a b : VReg) (k : KReg) (n : BitVec 1) (s : State) : Res :=
  vectorFcmp 2 d a b k n (Fmt.lt) false true s
/-- VFCLE (R186). -/
def execVfcle (d : KReg) (a b : VReg) (k : KReg) (n : BitVec 1) (s : State) : Res :=
  vectorFcmp 3 d a b k n (fun f x y => f.lt x y || f.eq x y) false true s
/-- VFCUN (R186). -/
def execVfcun (d : KReg) (a b : VReg) (k : KReg) (n : BitVec 1) (s : State) : Res :=
  vectorFcmp 4 d a b k n (fun _ _ _ => false) true false s
/-- VCEQ (R186). -/
def execVceq (d : KReg) (a b : VReg) (k : KReg) (s : State) : Res := vectorIcmp 5 d a b k (fun _ x y => x = y) s
/-- VCNE (R186). -/
def execVcne (d : KReg) (a b : VReg) (k : KReg) (s : State) : Res := vectorIcmp 6 d a b k (fun _ x y => x ≠ y) s
/-- VCLT (R186). -/
def execVclt (d : KReg) (a b : VReg) (k : KReg) (s : State) : Res := vectorIcmp 7 d a b k (fun w x y => sgn x w < sgn y w) s
/-- VCLE (R186). -/
def execVcle (d : KReg) (a b : VReg) (k : KReg) (s : State) : Res := vectorIcmp 8 d a b k (fun w x y => sgn x w ≤ sgn y w) s
/-- VCLTU (R186). -/
def execVcltu (d : KReg) (a b : VReg) (k : KReg) (s : State) : Res := vectorIcmp 9 d a b k (fun _ x y => x < y) s
/-- VCLEU (R186). -/
def execVcleu (d : KReg) (a b : VReg) (k : KReg) (s : State) : Res := vectorIcmp 10 d a b k (fun _ x y => x ≤ y) s

/-! ### Integer arithmetic (R82, R187) -/

/-- An integer as a lane of width `w`, modulo 2^w. -/
def wrapLane (w : Nat) (x : Int) : Nat := (x % (2 ^ w : Nat)).toNat

/-- An integer clamped to the signed range of width `w` (R82). -/
def clampLane (w : Nat) (x : Int) : Nat :=
  wrapLane w (max (-(2 ^ (w - 1) : Nat)) (min x ((2 ^ (w - 1) : Nat) - 1)))

/-- VADD (R187). -/
def execVadd (d a b : VReg) (k : KReg) (s : State) : Res :=
  vectorInt (fvWord 0x1B d.toNat a.toNat b.toNat k.toNat 0 0) isIntType d a b k (fun w x y => (x + y) % 2 ^ w) s
/-- VSUB (R187). -/
def execVsub (d a b : VReg) (k : KReg) (s : State) : Res :=
  vectorInt (fvWord 0x1B d.toNat a.toNat b.toNat k.toNat 0 1) isIntType d a b k (fun w x y => wrapLane w ((x : Int) - y)) s
/-- VADDS (R187). -/
def execVadds (d a b : VReg) (k : KReg) (s : State) : Res :=
  vectorInt (fvWord 0x1B d.toNat a.toNat b.toNat k.toNat 0 2) isIntType d a b k (fun w x y => clampLane w (sgn x w + sgn y w)) s
/-- VSUBS (R187). -/
def execVsubs (d a b : VReg) (k : KReg) (s : State) : Res :=
  vectorInt (fvWord 0x1B d.toNat a.toNat b.toNat k.toNat 0 3) isIntType d a b k (fun w x y => clampLane w (sgn x w - sgn y w)) s
/-- VMUL (R187). -/
def execVmul (d a b : VReg) (k : KReg) (s : State) : Res :=
  vectorInt (fvWord 0x1B d.toNat a.toNat b.toNat k.toNat 0 4) isIntType d a b k (fun w x y => x * y % 2 ^ w) s
/-- VMULH (R187). -/
def execVmulh (d a b : VReg) (k : KReg) (s : State) : Res :=
  vectorInt (fvWord 0x1B d.toNat a.toNat b.toNat k.toNat 0 5) isIntType d a b k (fun w x y => wrapLane w (sgn x w * sgn y w / (2 ^ w : Nat))) s
/-- VMULHU (R187). -/
def execVmulhu (d a b : VReg) (k : KReg) (s : State) : Res :=
  vectorInt (fvWord 0x1B d.toNat a.toNat b.toNat k.toNat 0 6) isIntType d a b k (fun w x y => x * y / 2 ^ w) s
/-- VMIN (R187). -/
def execVmin (d a b : VReg) (k : KReg) (s : State) : Res :=
  vectorInt (fvWord 0x1B d.toNat a.toNat b.toNat k.toNat 0 7) isIntType d a b k (fun w x y => if sgn y w < sgn x w then y else x) s
/-- VMAX (R187). -/
def execVmax (d a b : VReg) (k : KReg) (s : State) : Res :=
  vectorInt (fvWord 0x1B d.toNat a.toNat b.toNat k.toNat 0 8) isIntType d a b k (fun w x y => if sgn x w < sgn y w then y else x) s
/-- VMINU (R187). -/
def execVminu (d a b : VReg) (k : KReg) (s : State) : Res :=
  vectorInt (fvWord 0x1B d.toNat a.toNat b.toNat k.toNat 0 9) isIntType d a b k (fun _ x y => Nat.min x y) s
/-- VMAXU (R187). -/
def execVmaxu (d a b : VReg) (k : KReg) (s : State) : Res :=
  vectorInt (fvWord 0x1B d.toNat a.toNat b.toNat k.toNat 0 10) isIntType d a b k (fun _ x y => Nat.max x y) s
/-- VABS (R187). -/
def execVabs (d a : VReg) (k : KReg) (s : State) : Res :=
  vectorInt (fvWord 0x1B d.toNat a.toNat 0 k.toNat 0 11) isIntType d a a k (fun w x _ => (sgn x w).natAbs % 2 ^ w) s

/-! ### Bitwise, shift and count forms (R188) -/

/-- Every type that VTYPE can hold (R180). -/
def anyType (_t : Nat) : Bool := true

/-- VAND (R188). -/
def execVand (d a b : VReg) (k : KReg) (s : State) : Res :=
  vectorInt (fvWord 0x1C d.toNat a.toNat b.toNat k.toNat 0 0) anyType d a b k (fun _ x y => x &&& y) s
/-- VOR (R188). -/
def execVor (d a b : VReg) (k : KReg) (s : State) : Res :=
  vectorInt (fvWord 0x1C d.toNat a.toNat b.toNat k.toNat 0 1) anyType d a b k (fun _ x y => x ||| y) s
/-- VXOR (R188). -/
def execVxor (d a b : VReg) (k : KReg) (s : State) : Res :=
  vectorInt (fvWord 0x1C d.toNat a.toNat b.toNat k.toNat 0 2) anyType d a b k (fun _ x y => x ^^^ y) s
/-- VANDN (R188). -/
def execVandn (d a b : VReg) (k : KReg) (s : State) : Res :=
  vectorInt (fvWord 0x1C d.toNat a.toNat b.toNat k.toNat 0 3) anyType d a b k (fun w x y => x &&& (y ^^^ (2 ^ w - 1))) s
/-- VNOT (R188). -/
def execVnot (d a : VReg) (k : KReg) (s : State) : Res :=
  vectorInt (fvWord 0x1C d.toNat a.toNat 0 k.toNat 0 4) anyType d a a k (fun w x _ => x ^^^ (2 ^ w - 1)) s
/-- VSLL (R188). -/
def execVsll (d a b : VReg) (k : KReg) (s : State) : Res :=
  vectorInt (fvWord 0x1C d.toNat a.toNat b.toNat k.toNat 0 5) isIntType d a b k (fun w x y => x * 2 ^ (y % w) % 2 ^ w) s
/-- VSRL (R188). -/
def execVsrl (d a b : VReg) (k : KReg) (s : State) : Res :=
  vectorInt (fvWord 0x1C d.toNat a.toNat b.toNat k.toNat 0 6) isIntType d a b k (fun w x y => x / 2 ^ (y % w)) s
/-- VSRA (R188). -/
def execVsra (d a b : VReg) (k : KReg) (s : State) : Res :=
  vectorInt (fvWord 0x1C d.toNat a.toNat b.toNat k.toNat 0 7) isIntType d a b k (fun w x y => wrapLane w (sgn x w / (2 ^ (y % w) : Nat))) s
/-- One bits among the low `w` bits of a lane. -/
def laneOnes (w x : Nat) : Nat := ((List.range w).filter fun j => bitOf x j).length

/-- Leading zero bits of a lane of `w` bits. -/
def laneClz (w x : Nat) : Nat := if x = 0 then w else w - 1 - Nat.log2 x

/-- VPOPC (R188). -/
def execVpopc (d a : VReg) (k : KReg) (s : State) : Res :=
  vectorInt (fvWord 0x1C d.toNat a.toNat 0 k.toNat 0 8) isIntType d a a k (fun w x _ => laneOnes w x) s
/-- VCLZ (R188). -/
def execVclz (d a : VReg) (k : KReg) (s : State) : Res :=
  vectorInt (fvWord 0x1C d.toNat a.toNat 0 k.toNat 0 9) isIntType d a a k (fun w x _ => laneClz w x) s

end Sys2Proof.Machine
end

