-- ==== Sys2Proof/Machine/Convert.lean ====
section
/-! DEFINITION. Conversions and quantisation: major 0x1D (R83, R85, R93, R94, R189–R196). -/

namespace Sys2Proof.Machine

/-! ### Conversion of one element (R93) -/

/-- The rounding mode that RSEL selects (R146). -/
def State.rsel (s : State) (r : BitVec 2) : Nat :=
  if r = 0 then s.mode else if r = 1 then 0 else if r = 2 then 1 else 4

/-- Round ±num/den × 2^e once to a format as R93 has it: overflow saturates in VCVTSAT forms and in E2M1, and is
S.1111.111 in E4M3 under VCVT. -/
def Fmt.roundCvt (f : Fmt) (sat : Bool) (mode : Nat) (neg : Bool) (num den : Nat) (e : Int) : Nat × Flags5 :=
  let r := f.roundRat mode neg num den e
  if r.2.getLsbD 2 then
    (if sat || f.w = 4 then f.withSign neg f.maxCode
      else if f.hasInf then r.1 else f.withSign neg 0x7F, fOF ||| fNX)
  else r

/-- An infinity converted to a format (R93). An E5M2 infinity under VCVTSAT to a wider float follows this table, ±largest finite with OF, and
not R190's sentence that a widening is exact and sets only NV (DESIGN CHOICE, log 133). -/
def Fmt.cvtInf (f : Fmt) (sat : Bool) (neg : Bool) : Nat × Flags5 :=
  if sat || f.w = 4 then (f.withSign neg f.maxCode, fOF)
  else if f.hasInf then (f.infinity neg, 0)
  else (f.nan, fNV)

/-- A value converted to a floating-point format (R93). -/
def Fmt.cvt (f : Fmt) (sat : Bool) (mode : Nat) (a : FVal) : Nat × Flags5 :=
  match a with
  | .nan s => (f.nan, if f.w = 4 || s then fNV else 0)
  | .inf n => f.cvtInf sat n
  | .fin n m e => f.roundCvt sat mode n m 1 e

/-- The magnitude m × 2^e rounded to an integer, and whether that is exact (R88). -/
def roundInt (mode : Nat) (neg : Bool) (m : Nat) (e : Int) : Nat × Bool :=
  if 0 ≤ e then (m * 2 ^ e.toNat, true)
  else
    let d := (-e).toNat
    let n := m / 2 ^ d
    let r := m % 2 ^ d
    (if roundsUp mode neg (n % 2 = 1) r d false then n + 1 else n, r = 0)

/-- A floating-point value converted to an integer of width `w` (R93). -/
def cvtToInt (w mode : Nat) (a : FVal) : Nat × Flags5 :=
  match a with
  | .nan _ => (0, fNV)
  | .inf n => (if n then 2 ^ (w - 1) else 2 ^ (w - 1) - 1, fNV)
  | .fin n m e =>
    match roundInt mode n m e with
    | (x, exact) =>
      if n then if x ≤ 2 ^ (w - 1) then (wrapLane w (-(x : Int)), if exact then 0 else fNX) else (2 ^ (w - 1), fNV)
      else if x < 2 ^ (w - 1) then (x, if exact then 0 else fNX) else (2 ^ (w - 1) - 1, fNV)

/-- Convert a lane from one type to another (R93, R190). -/
def convert (from_ to_ mode : Nat) (sat : Bool) (x : Nat) : Nat × Flags5 :=
  let ws := typeBits from_
  let wu := typeBits to_
  if isIntType from_ then
    let v := sgn x ws
    if isIntType to_ then (if sat then clampLane wu v else wrapLane wu v, 0)
    else (fmtOf to_).roundCvt sat mode (v < 0) v.natAbs 1 0
  else if isIntType to_ then cvtToInt wu mode ((fmtOf from_).decode x)
  else (fmtOf to_).cvt sat mode ((fmtOf from_).decode x)

/-! ### The scale record (R83, R191) -/

/-- The value of an E3M5 code in units of 2^−7; the poison marker reads as zero (R83). -/
def e3m5 (code : Nat) : Nat :=
  if code = 0xFF then 0
  else if code / 32 = 0 then code else (32 + code % 32) * 2 ^ (code / 32 - 1)

/-- The code of the smallest E3M5 value at or above m × 2^e divided by 6 × sm × 2^se; 0xFE when none is (R94, R193). -/
def e3m5Up (m : Nat) (e : Int) (sm : Nat) (se : Int) : Nat :=
  ((List.range 255).find? fun c => scaledLe m e (6 * sm * e3m5 c) (se - 7)).getD 0xFE

/-- BAND of a scale record, as a value (R191). -/
def bandOf (v : VBits) : FVal := bf16.decode (lane v 16 64)

/-- BLK b of a scale record (R191). -/
def blkOf (v : VBits) (b : Nat) : Nat := lane v 8 (136 + b)

/-- A band scale as a reader takes it: NaN, infinite and negative ones are invalid and read as zero (R85). -/
def bandScale (b : FVal) : Nat × Int × Bool :=
  match b with
  | .fin n m e => if n && m ≠ 0 then (0, 0, true) else (m, e, false)
  | _ => (0, 0, true)

/-- mag(x) of R94: a NaN reads 0 and sets NV, an infinity reads smax and sets OF. -/
def magOf (f : Fmt) (a : FVal) : Nat × Int × Flags5 :=
  match a with
  | .fin _ m e => (m, e, 0)
  | .inf _ =>
    match f.decode f.maxCode with
    | .fin _ m e => (m, e, fOF)
    | _ => (0, 0, fOF)
  | .nan _ => (0, 0, fNV)

/-- The element loop of R94 with scale sm × 2^se. A quotient above 6 sets OF and NX (R194); an infinite element sets them too, and
never UF (R94). -/
def quantElem (f : Fmt) (sm : Nat) (se : Int) (x : Nat) : Nat × Flags5 :=
  match f.decode x with
  | .nan _ => (0, fNV)
  | a =>
    match magOf f a with
    | (m, e, fl) =>
      if sm = 0 then (e2m1.withSign a.neg 0, fl ||| (if m = 0 then 0 else fNX))
      else
        match e2m1.roundCvt true 0 a.neg m sm (e - se) with
        | (q, g) => (q, if fl ≠ 0 || !scaledLe m e (6 * sm) se then fOF ||| fNX else g)

/-! ### The instructions -/

/-- The lowest unmasked element among `n` from `b` (R191). -/
def flagElem (k : KBits) (b n : Nat) : Option Nat := (upFrom b n).find? fun i => k.getLsbD i

/-- Flags that belong to a block or a record: set in the slot of its flag element, in elements of width `w` (R191). -/
def groupFlag (k : KBits) (b n w : Nat) (f : Flags5) : BitVec 320 :=
  match flagElem k b n with
  | some i => flagWord (i * w / 32) f
  | none => 0

/-- The conversion loop of R189: elements of width `ws` to width `wu`, the rest of vd kept, more flags added. -/
def State.convertTo (s : State) (ws wu : Nat) (d : VReg) (k : KReg) (nf : Bool) (more : BitVec 320)
    (f : Nat → Nat × Flags5) : State :=
  let m := s.rk k
  let old := s.rv d
  let wm := Nat.max ws wu
  let rs := (List.range (2048 / wm)).map fun i => if m.getLsbD i then f i else (lane old wu i, 0)
  let n := rs.length
  let rest := (upFrom n (2048 / wu - n)).map (lane old wu)
  (s.accrue nf (laneFlags wm (rs.map (·.2)) ||| more)).wv d (vecOf wu (rs.map (·.1) ++ rest))

/-- VCVT and VCVTSAT: the target type differs from the source type (R146, R190). -/
def vectorConvert (fn : Nat) (sat : Bool) (d a : VReg) (t : BitVec 4) (r : BitVec 2) (k : KReg) (n : BitVec 1)
    (s : State) : Res :=
  vectorOp (fvWord 0x1D d.toNat a.toNat (t.toNat * 4 + r.toNat) k.toNat n.toNat fn) (fun v => v ≠ t.toNat) s
    (s.convertTo (typeBits s.vt) (typeBits t.toNat) d k (n == 1) 0 fun i =>
      convert s.vt t.toNat (s.rsel r) sat (lane (s.rv a) (typeBits s.vt) i))

/-- VCVT (R189, R190). -/
def execVcvt (d a : VReg) (t : BitVec 4) (r : BitVec 2) (k : KReg) (n : BitVec 1) (s : State) : Res :=
  vectorConvert 0 false d a t r k n s
/-- VCVTSAT (R189, R190). -/
def execVcvtsat (d a : VReg) (t : BitVec 4) (r : BitVec 2) (k : KReg) (n : BitVec 1) (s : State) : Res :=
  vectorConvert 1 true d a t r k n s

/-- VQFP4 (R94, R191, R194). -/
def execVqfp4 (d a : VReg) (k : KReg) (n : BitVec 1) (s : State) : Res :=
  let f := fmtOf s.vt
  let rec_ := s.rv d
  let m := s.rk k
  let count := 2048 / f.w
  match bandScale (bandOf rec_) with
  | (sm, se, bad) =>
    let blocks := (List.range (count / 8)).foldl (fun acc b =>
      if blkOf rec_ b = 0xFF then acc ||| groupFlag m (8 * b) 8 f.w fNV else acc) (0 : BitVec 320)
    let more := blocks ||| (if bad then groupFlag m 0 count f.w fNV else 0)
    vectorOp (fvWord 0x1D d.toNat a.toNat 21 k.toNat n.toNat 2) isWideFp s
      (s.convertTo f.w 4 d k (n == 1) more fun i =>
        quantElem f (e3m5 (blkOf rec_ (i / 8)) * sm) (se - 7) (lane (s.rv a) f.w i))

/-- VDQFP4 (R85, R195). -/
def execVdqfp4 (d a : VReg) (t : BitVec 4) (r : BitVec 2) (k : KReg) (n : BitVec 1) (s : State) : Res :=
  let f := fmtOf t.toNat
  let rec_ := s.rv a
  match bandScale (bandOf rec_) with
  | (sm, se, bad) =>
    vectorOp (fvWord 0x1D d.toNat a.toNat (t.toNat * 4 + r.toNat) k.toNat n.toNat 3) (fun v => v = 5) s
      (s.convertTo 4 f.w d k (n == 1) 0 fun i =>
        let b := blkOf rec_ (i / 8)
        let inv := if bad || b = 0xFF then fNV else 0
        match e2m1.decode (lane rec_ 4 i) with
        | .fin neg m e =>
          match f.round (s.rsel r) neg (m * e3m5 b * sm) (e + se - 7) false with
          | (x, g) => (x, g ||| inv)
        | _ => (0, inv))

/-- VQFP8 (R196). Under a zero or invalid BAND an element's own slot gets no flag, whatever the element (DESIGN CHOICE, log 84). -/
def execVqfp8 (d a : VReg) (t : BitVec 4) (r : BitVec 2) (k : KReg) (n : BitVec 1) (s : State) : Res :=
  let f := fmtOf s.vt
  let u := fmtOf t.toNat
  match bandScale (bandOf (s.rv d)) with
  | (sm, se, _) =>
    let more := if sm = 0 then groupFlag (s.rk k) 0 (2048 / f.w) f.w fNV else 0
    vectorOp (fvWord 0x1D d.toNat a.toNat (t.toNat * 4 + r.toNat) k.toNat n.toNat 4) isWideFp s
      (s.convertTo f.w 8 d k (n == 1) more fun i =>
        if sm = 0 then (0, 0)
        else
          match f.decode (lane (s.rv a) f.w i) with
          | .fin neg m e => u.roundCvt true (s.rsel r) neg m sm (e - se)
          | v => u.cvt true (s.rsel r) v)

/-- The code of block b of VBLKSC and its flag (R193). -/
def blockCode (band : FVal) (m : Nat) (e : Int) : Nat × Flags5 :=
  match bandScale band with
  | (sm, se, bad) =>
    if bad then (0, fNV)
    else if sm = 0 || m = 0 then (0, 0)
    else if !scaledLe m e (6 * 31 * sm) se then (0xFE, fOF)
    else (e3m5Up m e sm se, 0)

/-- The greatest of a list of magnitudes. -/
def maxMag (l : List (Nat × Int)) : Nat × Int :=
  l.foldl (fun b x => if scaledLe x.1 x.2 b.1 b.2 then b else x) (0, 0)

/-- VBLKSC (R193): the block codes of the scale record. -/
def execVblksc (d a : VReg) (k : KReg) (n : BitVec 1) (s : State) : Res :=
  let f := fmtOf s.vt
  let m := s.rk k
  let old := s.rv d
  let band := bandOf old
  let mags := (List.range (2048 / f.w)).map fun i =>
    if m.getLsbD i then magOf f (f.decode (lane (s.rv a) f.w i)) else (0, 0, 0)
  let codes := (List.range (2048 / f.w / 8)).map fun b =>
    match maxMag (((mags.drop (8 * b)).take 8).map fun x => (x.1, x.2.1)) with
    | (x, e) => blockCode band x e
  let blocks := codes.zipIdx.foldl (fun acc p => acc ||| groupFlag m (8 * p.2) 8 f.w p.1.2) (0 : BitVec 320)
  let bytes := (List.range 256).map fun j =>
    if 136 ≤ j && j < 136 + codes.length then (codes.getD (j - 136) (0, 0)).1 else lane old 8 j
  vectorOp (fvWord 0x1D d.toNat a.toNat 20 k.toNat n.toNat 5) isWideFp s
    ((s.accrue (n == 1) (laneFlags f.w (mags.map (·.2.2)) ||| blocks)).wv d (vecOf 8 bytes))

/-- VBNDSC (R192): the band scale of each lane. -/
def execVbndsc (d a : VReg) (k : KReg) (n : BitVec 1) (s : State) : Res :=
  let f := fmtOf s.vt
  vectorOp (fvWord 0x1D d.toNat a.toNat 4 k.toNat n.toNat 6) isWideFp s
    (s.convertTo f.w 16 d k (n == 1) 0 fun i =>
      match magOf f (f.decode (lane (s.rv a) f.w i)) with
      | (m, e, fl) =>
        match bf16.roundRat 3 false m 96 e with
        | (x, g) => (x, fl ||| g))

end Sys2Proof.Machine
end

