-- ==== Sys2Proof/Machine/VectorData.lean ====
section
/-! DEFINITION. Vector data movement, reductions, scans, ranking, sparsity, bit planes, masks and element moves: majors
0x1E, 0x1F, 0x20, 0x22 and 0x23 (R95, R179, R197–R216). -/

namespace Sys2Proof.Machine

/-! ### Lane movement (R202, R203) -/

/-- A lane movement under a governing mask; lane i comes from `f` (R202). -/
def vectorMove (fn : Nat) (d a b : VReg) (k : KReg) (f : Nat → Nat → Nat) (s : State) : Res :=
  let w := typeBits s.vt
  vectorOp (fvWord 0x1E d.toNat a.toNat b.toNat k.toNat 0 fn) anyType s
    (s.wv d (masked (s.rk k) (s.rv d) w (f w)))

/-- The slide amount: the low 16 bits of a register, at most L (R202). -/
def slideAmount (b : VBits) (w : Nat) : Nat := Nat.min (b.toNat % 2 ^ 16) (2048 / w)

/-- VPERM (R202). -/
def execVperm (d a b : VReg) (k : KReg) (s : State) : Res :=
  vectorMove 0 d a b k (fun w i => lane (s.rv a) w (lane (s.rv b) w i % (2048 / w))) s
/-- VSLIDEUP (R202). -/
def execVslideup (d a b : VReg) (k : KReg) (s : State) : Res :=
  vectorMove 1 d a b k (fun w i =>
    let n := slideAmount (s.rv b) w
    if n ≤ i then lane (s.rv a) w (i - n) else lane (s.rv d) w i) s
/-- VSLIDEDN (R202). -/
def execVslidedn (d a b : VReg) (k : KReg) (s : State) : Res :=
  vectorMove 2 d a b k (fun w i =>
    let n := slideAmount (s.rv b) w
    if i + n < 2048 / w then lane (s.rv a) w (i + n) else lane (s.rv d) w i) s
/-- VZIPLO (R202). -/
def execVziplo (d a b : VReg) (k : KReg) (s : State) : Res :=
  vectorMove 3 d a b k (fun w i => lane (if i % 2 = 0 then s.rv a else s.rv b) w (i / 2)) s
/-- VZIPHI (R202). -/
def execVziphi (d a b : VReg) (k : KReg) (s : State) : Res :=
  vectorMove 4 d a b k (fun w i => lane (if i % 2 = 0 then s.rv a else s.rv b) w (2048 / w / 2 + i / 2)) s
/-- VREV (R202). -/
def execVrev (d a : VReg) (k : KReg) (s : State) : Res :=
  vectorMove 5 d a 0 k (fun w i => lane (s.rv a) w (2048 / w - 1 - i)) s

/-- The lanes below `n` that a mask selects, in ascending order. -/
def setLanes (k : KBits) (n : Nat) : List Nat := (List.range n).filter fun i => k.getLsbD i

/-- VCOMPR (R203). -/
def execVcompr (d a : VReg) (k : KReg) (s : State) : Res :=
  let w := typeBits s.vt
  let sel := setLanes (s.rk k) (2048 / w)
  vectorOp (fvWord 0x1E d.toNat a.toNat 0 k.toNat 0 6) anyType s
    (s.wv d (vecOf w (sel.map (lane (s.rv a) w) ++
      (upFrom sel.length (2048 / w - sel.length)).map (lane (s.rv d) w))))

/-- Lanes from `i` up: a selected one takes the next source lane (R203). -/
def expandLanes (k : KBits) (a d : VBits) (w : Nat) : Nat → Nat → Nat → List Nat
  | 0, _, _ => []
  | n + 1, i, j =>
    if k.getLsbD i then lane a w j :: expandLanes k a d w n (i + 1) (j + 1)
    else lane d w i :: expandLanes k a d w n (i + 1) j

/-- VEXPND (R203). -/
def execVexpnd (d a : VReg) (k : KReg) (s : State) : Res :=
  let w := typeBits s.vt
  vectorOp (fvWord 0x1E d.toNat a.toNat 0 k.toNat 0 7) anyType s
    (s.wv d (vecOf w (expandLanes (s.rk k) (s.rv a) (s.rv d) w (2048 / w) 0 0)))

/-- VSEL (R202): the mask selects va or vb. -/
def execVsel (d a b : VReg) (k : KReg) (s : State) : Res :=
  let w := typeBits s.vt
  vectorOp (fvWord 0x1E d.toNat a.toNat b.toNat k.toNat 0 8) anyType s
    (s.wv d (masked (s.rk k) (s.rv b) w (lane (s.rv a) w)))

/-! ### Reductions, scans and ranking (R95, R204–R207) -/

/-- The types of reductions, scans, VTOPK and VID (R200). -/
def reducible (t : Nat) : Bool := isWideFp t || isIntType t

/-- A sum of two lanes: one rounding in RNE, or modulo 2^w (R95). -/
def sumLane (t : Nat) (x y : Nat) : Nat × Flags5 :=
  if isIntType t then ((x + y) % 2 ^ typeBits t, 0)
  else (fmtOf t).addV 0 ((fmtOf t).decode x) ((fmtOf t).decode y)

/-- The identity of a sum: −0, or 0 for integers (R95). -/
def sumIdentity (t : Nat) : Nat := if isIntType t then 0 else (fmtOf t).withSign true 0

/-- One level of the reduction tree: neighbours are joined (R95). -/
def pairUp {α : Type} (f : α → α → α) : List α → List α
  | x :: y :: t => f x y :: pairUp f t
  | l => l

/-- The reduction tree, at most `n` levels (R95). -/
def treeReduce {α : Type} (f : α → α → α) : Nat → List α → List α
  | 0, l => l
  | n + 1, l => treeReduce f n (pairUp f l)

/-- The lanes of a source with the identity in the masked ones (R95). -/
def takenLanes (k : KBits) (a : VBits) (w id_ : Nat) : List Nat :=
  (List.range (2048 / w)).map fun i => if k.getLsbD i then lane a w i else id_

/-- The tree of R95 over lanes. -/
def treeOf (f : Nat → Nat → Nat × Flags5) (l : List Nat) : Nat × Flags5 :=
  ((treeReduce (fun (x y : Nat × Flags5) =>
    match f x.1 y.1 with
    | (r, g) => (r, g ||| x.2 ||| y.2)) 9 (l.map fun x => (x, (0 : Flags5)))).head?).getD (0, 0)

/-- A reduction: the register is written whole, flags go to slot 0 (R204). -/
def vectorReduce (fn : Nat) (allowed : Nat → Bool) (d a : VReg) (k : KReg) (n : BitVec 1) (r : Nat × Flags5)
    (s : State) : Res :=
  vectorOp (fvWord 0x1F d.toNat a.toNat 0 k.toNat n.toNat fn) allowed s
    ((s.accrue (n == 1) (flagWord 0 r.2)).wv d (BitVec.ofNat 2048 r.1))

/-- VRSUM (R95, R204). -/
def execVrsum (d a : VReg) (k : KReg) (n : BitVec 1) (s : State) : Res :=
  vectorReduce 0 reducible d a k n
    (treeOf (sumLane s.vt) (takenLanes (s.rk k) (s.rv a) (typeBits s.vt) (sumIdentity s.vt))) s

/-- The value of a lane in the order of R205; none for a NaN. -/
def rankOf (t x : Nat) : Option Int :=
  if isIntType t then some (sgn x (typeBits t))
  else if ((fmtOf t).decode x).isNan then none else some ((fmtOf t).rank x)

/-- Lane x comes strictly before lane y in the order of R205, indices apart; a NaN comes last. -/
def before (t : Nat) (max : Bool) (x y : Nat) : Bool :=
  match rankOf t x, rankOf t y with
  | some a, some b => if max then b < a else a < b
  | some _, none => true
  | none, _ => false

/-- NV when any of these lanes is a signalling NaN (R205, R207). -/
def anySnan (t : Nat) (l : List Nat) : Flags5 :=
  if isIntType t then 0 else l.foldl (fun acc x => acc ||| ((fmtOf t).decode x).snan) 0

/-- The winning lane of the maximum or minimum forms, its value and its index (R205). -/
def rankWinner (t : Nat) (max : Bool) (k : KBits) (a : VBits) : Nat × Nat × Flags5 :=
  let w := typeBits t
  let ls := setLanes k (2048 / w)
  let fl := anySnan t (ls.map (lane a w))
  match ls.foldl (fun best i =>
    match best with
    | none => some i
    | some j => if before t max (lane a w i) (lane a w j) then some i else some j) none with
  | none =>
    (if isIntType t then (if max then 2 ^ (w - 1) else 2 ^ (w - 1) - 1) else (fmtOf t).infinity max, 0xFFFFFFFF, 0)
  | some i => (if (rankOf t (lane a w i)).isNone then (fmtOf t).nan else lane a w i, i, fl)

/-- VRMAX (R204, R205). -/
def execVrmax (d a : VReg) (k : KReg) (n : BitVec 1) (s : State) : Res :=
  let r := rankWinner s.vt true (s.rk k) (s.rv a)
  vectorReduce 1 reducible d a k n (r.1, r.2.2) s
/-- VRMIN (R204, R205). -/
def execVrmin (d a : VReg) (k : KReg) (n : BitVec 1) (s : State) : Res :=
  let r := rankWinner s.vt false (s.rk k) (s.rv a)
  vectorReduce 2 reducible d a k n (r.1, r.2.2) s
/-- VRMAXI: the index in bits 63:32 (R204, R205). -/
def execVrmaxi (d a : VReg) (k : KReg) (n : BitVec 1) (s : State) : Res :=
  let r := rankWinner s.vt true (s.rk k) (s.rv a)
  vectorReduce 3 reducible d a k n (r.1 + r.2.1 * 2 ^ 32, r.2.2) s
/-- VRMINI (R204, R205). -/
def execVrmini (d a : VReg) (k : KReg) (n : BitVec 1) (s : State) : Res :=
  let r := rankWinner s.vt false (s.rk k) (s.rv a)
  vectorReduce 4 reducible d a k n (r.1 + r.2.1 * 2 ^ 32, r.2.2) s

/-- Running sums from lane `i` up: a masked lane adds nothing and keeps the old one (R206). -/
def scanLanes (t : Nat) (k : KBits) (a d : VBits) (w : Nat) : Nat → Nat → Nat → List (Nat × Flags5)
  | 0, _, _ => []
  | n + 1, i, acc =>
    if k.getLsbD i then
      let r := sumLane t acc (lane a w i)
      r :: scanLanes t k a d w n (i + 1) r.1
    else (lane d w i, 0) :: scanLanes t k a d w n (i + 1) acc

/-- VSCANS (R206). -/
def execVscans (d a : VReg) (k : KReg) (n : BitVec 1) (s : State) : Res :=
  let w := typeBits s.vt
  let rs := scanLanes s.vt (s.rk k) (s.rv a) (s.rv d) w (2048 / w) 0 (sumIdentity s.vt)
  vectorOp (fvWord 0x1F d.toNat a.toNat 0 k.toNat n.toNat 5) reducible s
    ((s.accrue (n == 1) (laneFlags w (rs.map (·.2)))).wv d (vecOf w (rs.map (·.1))))

/-- VRAND (R204). -/
def execVrand (d a : VReg) (k : KReg) (s : State) : Res :=
  let w := typeBits s.vt
  vectorReduce 6 anyType d a k 0 ((takenLanes (s.rk k) (s.rv a) w (2 ^ w - 1)).foldl (· &&& ·) (2 ^ w - 1), 0) s
/-- VROR (R204). -/
def execVror (d a : VReg) (k : KReg) (s : State) : Res :=
  vectorReduce 7 anyType d a k 0 ((takenLanes (s.rk k) (s.rv a) (typeBits s.vt) 0).foldl (· ||| ·) 0, 0) s

/-- Put a lane into a ranked list, after those that come no later than it. -/
def rankInsert (bef : Nat → Nat → Bool) (i : Nat) : List Nat → List Nat
  | [] => [i]
  | j :: t => if bef i j then i :: j :: t else j :: rankInsert bef i t

/-- Rank lanes, equal ones in their order of appearance. -/
def rankLanes (bef : Nat → Nat → Bool) (l : List Nat) : List Nat := l.foldl (fun acc i => rankInsert bef i acc) []

/-- VTOPK (R207). -/
def execVtopk (d a b : VReg) (k : KReg) (n : BitVec 1) (s : State) : Res :=
  let w := typeBits s.vt
  let ls := setLanes (s.rk k) (2048 / w)
  let order := rankLanes (fun i j => before s.vt true (lane (s.rv a) w i) (lane (s.rv a) w j)) ls
  let kk := (s.rv b).toNat % 2 ^ 16
  let res := (List.range 128).map fun j => if j < kk then order.getD j 0xFFFF else 0xFFFF
  vectorOp (fvWord 0x1F d.toNat a.toNat b.toNat k.toNat n.toNat 8) reducible s
    ((s.accrue (n == 1) (flagWord 0 (anySnan s.vt (ls.map (lane (s.rv a) w))))).wv d (vecOf 16 res))

/-! ### Sparsity and bit planes (R86, R87, R209–R212) -/

/-- The magnitude by which VSPC ranks a lane: a NaN above infinity (R210). -/
def sparseMag (t x : Nat) : Nat :=
  if isIntType t then (sgn x (typeBits t)).natAbs
  else if ((fmtOf t).decode x).isNan then 2 ^ typeBits t else (fmtOf t).mag x

/-- The positions of a group of 16 lanes that VSPC keeps, ascending (R210). -/
def keptLanes (t : Nat) (a : VBits) (g n : Nat) : List Nat :=
  let w := typeBits t
  let best := (rankLanes (fun i j => sparseMag t (lane a w j) < sparseMag t (lane a w i)) (upFrom (16 * g) 16)).take n
  (upFrom (16 * g) 16).filter fun i => best.contains i

/-- VSPC (R209, R210). -/
def execVspc (d a : VReg) (n : VReg) (k : KReg) (s : State) : Res :=
  let t := s.vt
  let w := typeBits t
  let groups := (List.range (2048 / w / 16)).map fun g => keptLanes t (s.rv a) g n.toNat
  let vals := groups.flatten.map (lane (s.rv a) w)
  let mask := (List.range (2048 / w)).map fun i => if (groups.getD (i / 16) []).contains i then 1 else 0
  vectorOp (fvWord 0x20 d.toNat a.toNat n.toNat k.toNat 0 0) anyType s
    ((s.wv d (vecOf w vals)).wk k (BitVec.ofNat 512 (ofLanes 1 mask)))

/-- Expand the stored values of a group over its presence mask, from position `i` up (R86, R87). -/
def expandGroup (mask : Nat) : Nat → Nat → List Nat → List Nat
  | 0, _, _ => []
  | n + 1, i, vs =>
    if bitOf mask i then
      match vs with
      | v :: t => v :: expandGroup mask n (i + 1) t
      | [] => 0 :: expandGroup mask n (i + 1) []
    else 0 :: expandGroup mask n (i + 1) vs

/-- VSPX (R209, R211). -/
def execVspx (d a : VReg) (n : VReg) (k : KReg) (f : BitVec 1) (s : State) : Res :=
  let w := typeBits s.vt
  let groups := List.range (2048 / w / 16)
  let maskOf := fun g => (s.rk k).toNat / 2 ^ (16 * g) % 2 ^ 16
  let res := groups.map fun g => expandGroup (maskOf g) 16 0 ((upFrom (g * n.toNat) n.toNat).map (lane (s.rv a) w))
  let fl := groups.foldl (fun acc g =>
    if laneOnes 16 (maskOf g) = n.toNat then acc else acc ||| flagWord (16 * g * w / 32) fNV) 0
  vectorOp (fvWord 0x20 d.toNat a.toNat n.toNat k.toNat f.toNat 1) anyType s
    ((s.accrue (f == 1) fl).wv d (vecOf w res.flatten))

/-- VBPT (R212). -/
def execVbpt (d a : VReg) (s : State) : Res :=
  let w := typeBits s.vt
  vectorOp (fvWord 0x20 d.toNat a.toNat 0 0 0 2) anyType s
    (s.wv d (vecOf 1 ((List.range 2048).map fun j => lane (s.rv a) w (j % (2048 / w)) / 2 ^ (j / (2048 / w)))))
/-- VBPU (R212). -/
def execVbpu (d a : VReg) (s : State) : Res :=
  let w := typeBits s.vt
  vectorOp (fvWord 0x20 d.toNat a.toNat 0 0 0 3) anyType s
    (s.wv d (vecOf 1 ((List.range 2048).map fun j => lane (s.rv a) 1 (j % w * (2048 / w) + j / w))))

/-! ### Masks (R213) -/

/-- A mask instruction: no vector result (R213). -/
def maskOp (fn d a b : Nat) (s t : State) : Res := vectorOp (fvWord 0x22 d a b 0 0 fn) anyType s t

/-- KAND (R213). -/
def execKand (d a b : KReg) (s : State) : Res := maskOp 0 d.toNat a.toNat b.toNat s (s.wk d (s.rk a &&& s.rk b))
/-- KOR (R213). -/
def execKor (d a b : KReg) (s : State) : Res := maskOp 1 d.toNat a.toNat b.toNat s (s.wk d (s.rk a ||| s.rk b))
/-- KXOR (R213). -/
def execKxor (d a b : KReg) (s : State) : Res := maskOp 2 d.toNat a.toNat b.toNat s (s.wk d (s.rk a ^^^ s.rk b))
/-- KNOT (R213). -/
def execKnot (d a : KReg) (s : State) : Res := maskOp 3 d.toNat a.toNat 0 s (s.wk d (~~~s.rk a))
/-- KPOP: the set bits below L (R213). -/
def execKpop (d : SReg) (a : KReg) (s : State) : Res :=
  maskOp 4 d.toNat a.toNat 0 s (s.ws d (BitVec.ofNat 64 (setLanes (s.rk a) (2048 / typeBits s.vt)).length))
/-- KFIRST: the lowest set bit below L, or all ones (R213). -/
def execKfirst (d : SReg) (a : KReg) (s : State) : Res :=
  maskOp 5 d.toNat a.toNat 0 s (s.ws d (match setLanes (s.rk a) (2048 / typeBits s.vt) with
    | i :: _ => BitVec.ofNat 64 i
    | [] => BitVec.allOnes 64))
/-- KSET (R213). -/
def execKset (d : KReg) (a : SReg) (s : State) : Res :=
  maskOp 6 d.toNat a.toNat 0 s (s.wk d (BitVec.ofNat 512 (2 ^ Nat.min (s.rs a).toNat 512 - 1)))
/-- KMOV (R213). -/
def execKmov (d a : KReg) (s : State) : Res := maskOp 7 d.toNat a.toNat 0 s (s.wk d (s.rk a))

/-! ### VTYPE, flags, element moves and noise (R179, R197, R198, R214–R216) -/

/-- VSETT (R179). -/
def execVsett (sf : BitVec 1) (m : BitVec 3) (t : BitVec 4) (s : State) : Res :=
  vectorOp (fvWord 0x23 0 (sf.toNat * 8 + m.toNat) (t.toNat * 4) 0 0 0) anyType s
    (s.mod fun h => { h with vec := { h.vec with vtype := t, vrm := if sf = 1 then m else h.vec.vrm } })
/-- VMVS (R214). -/
def execVmvs (d : SReg) (a : VReg) (b : SReg) (s : State) : Res :=
  let w := typeBits s.vt
  let x := lane (s.rv a) w ((s.rs b).toNat % (2048 / w))
  vectorOp (fvWord 0x23 d.toNat a.toNat b.toNat 0 0 1) anyType s
    (s.ws d (if isIntType s.vt then wordOfInt (sextInt x w) else BitVec.ofNat 64 x))
/-- VMVE (R214). -/
def execVmve (d : VReg) (a : SReg) (k : KReg) (s : State) : Res :=
  let w := typeBits s.vt
  vectorOp (fvWord 0x23 d.toNat a.toNat 0 k.toNat 0 2) anyType s
    (s.wv d (masked (s.rk k) (s.rv d) w fun _ => (s.rs a).toNat))
/-- VINS (R214). -/
def execVins (d : VReg) (a b : SReg) (s : State) : Res :=
  let w := typeBits s.vt
  let j := (s.rs b).toNat % (2048 / w)
  vectorOp (fvWord 0x23 d.toNat a.toNat b.toNat 0 0 3) anyType s
    (s.wv d (vecOf w ((List.range (2048 / w)).map fun i => if i = j then (s.rs a).toNat else lane (s.rv d) w i)))
/-- VID (R214). -/
def execVid (d : VReg) (k : KReg) (s : State) : Res :=
  let w := typeBits s.vt
  vectorOp (fvWord 0x23 d.toNat 0 0 k.toNat 0 4) reducible s
    (s.wv d (masked (s.rk k) (s.rv d) w fun i =>
      if isIntType s.vt then i else ((fmtOf s.vt).round 0 false i 0 false).1))

/-- One round of the generator of VRNG (R215). -/
def rngRound (z : Word) : Word :=
  let z := (z ^^^ (z >>> 30)) * 0xBF58476D1CE4E5B9
  let z := (z ^^^ (z >>> 27)) * 0x94D049BB133111EB
  z ^^^ (z >>> 31)

/-- Word j of VRNG (R215). -/
def rngWord (seed step base : Word) (j : Nat) : Nat :=
  let z := (seed ^^^ (step * 0x9E3779B97F4A7C15)) + (base + BitVec.ofNat 64 j) * 0xBF58476D1CE4E5B9
  (rngRound (rngRound (rngRound (rngRound z)))).toNat / 2 ^ 32

/-- VRNG (R215): 32-bit words whatever VTYPE holds. -/
def execVrng (d : VReg) (a : SReg) (k : KReg) (s : State) : Res :=
  vectorOp (fvWord 0x23 d.toNat a.toNat 0 k.toNat 0 5) anyType s
    (s.wv d (masked (s.rk k) (s.rv d) 32 (rngWord (s.rs a) (s.rs (a + 1)) (s.rs (a + 2)))))

/-- A lower bound of ln(m × 2^e) in units of 2^−p, for m > 0; the value lies less than `slackUnits` above. -/
def lnLow (p m : Nat) (e : Int) : Int :=
  let k := e + (Nat.log2 m : Int)
  k * ((if k < 0 then ln2Low p + 2 else ln2Low p : Nat) : Int) + lnFix p (unitFix p m)

/-- Bounds of −ln(−ln u) for u = k / 2^n, 0 < u < 1, in units of 2^−p (R216). -/
def gumbelBounds (k n p : Nat) : Int × Int :=
  let yhi := (-lnLow p k (-(n : Int))).toNat
  let ylo := yhi - slackUnits p
  (-(lnLow p yhi (-(p : Int)) + slackUnits p), -lnLow p ylo (-(p : Int)))

/-- a + g rounded once, g within bounds (R216). -/
def Fmt.gumbelV (f : Fmt) (mode : Nat) (a : FVal) (k n : Nat) : Nat × Flags5 :=
  match a with
  | .fin neg m e => f.settle mode fun p => (toFix p neg m e + (gumbelBounds k n p).1, toFix p neg m e + (gumbelBounds k n p).2, -(p : Int))
  | .inf n => (f.infinity n, 0)
  | .nan _ => (f.nan, a.snan)

/-- VGUMB (R216): lane i of vb draws u = (2x + 1) / 2^(w+1). -/
def execVgumb (d a b : VReg) (k : KReg) (n : BitVec 1) (s : State) : Res :=
  let f := fmtOf s.vt
  vectorOp (fvWord 0x23 d.toNat a.toNat b.toNat k.toNat n.toNat 6) isWideFp s
    (s.elementwise f.w d k (n == 1) fun i =>
      let x := lane (s.rv a) f.w i
      let y := lane (s.rv b) f.w i
      f.gumbelV s.mode (f.decode x) (2 * y + 1) (f.w + 1))
/-- VFLGRD (R197). -/
def execVflgrd (d : VReg) (s : State) : Res :=
  vectorOp (fvWord 0x23 d.toNat 0 0 0 0 7) anyType s (s.wv d (s.hart.vec.vflg.setWidth 2048))
/-- VFLGCLR (R198). -/
def execVflgclr (s : State) : Res :=
  vectorOp (fvWord 0x23 0 0 0 0 0 8) anyType s (s.mod fun h => { h with vec := { h.vec with vflg := 0 } })
/-- VMOV (R214). -/
def execVmov (d a : VReg) (k : KReg) (s : State) : Res :=
  let w := typeBits s.vt
  vectorOp (fvWord 0x23 d.toNat a.toNat 0 k.toNat 0 9) anyType s
    (s.wv d (masked (s.rk k) (s.rv d) w (lane (s.rv a) w)))

end Sys2Proof.Machine
end

