-- ==== Sys2Proof/Machine/Panel.lean ====
section
/-! DEFINITION. Weight formats, the alignment of blocks, A units, B panels and the expansion of panel records (R13, R86,
R87, R96, R230–R232, R453). -/

namespace Sys2Proof.Machine

/-- The element type code of a weight format (R13, R143). -/
def wfType (fmt : Nat) : Nat :=
  if fmt = 0 then 5 else if fmt = 1 then 11 else if fmt = 2 then 3 else if fmt = 3 then 4 else if fmt = 4 then 10 else 1

/-- K positions of a step (R230). -/
def wfKs (fmt : Nat) : Nat := if fmt ≤ 1 then 768 else if fmt ≤ 4 then 384 else 192

/-- An integer weight format. -/
def wfInt (fmt : Nat) : Bool := fmt = 1 || fmt = 4

/-- Planes of A in a float format (R96). -/
def wfPlanes (fmt : Nat) : Nat := if fmt = 0 then 4 else if fmt = 5 then 12 else 8

/-- Bytes of a B panel (R232, R453). -/
def panelBytes (fmt pl : Nat) : Nat :=
  (1 + pl + (if wfInt fmt then 0 else if fmt = 0 then 2 else 1)) * 4 * wfKs fmt + (if fmt = 0 then 64 else 0)

/-- Bytes of an A unit (R231). -/
def unitBytes (fmt : Nat) : Nat := if fmt = 0 then 15424 else 12288

/-- Bytes of a panel record (R453). -/
def recordBytes (fmt dens : Nat) : Nat :=
  (if dens = 16 then 12288 else 4 * wfKs fmt + 12288 * dens / 16) + (if fmt = 0 then 3074 else 0)

/-- The elements of `w` bits that bytes hold (R82). -/
def unpackElems (w n : Nat) (bs : List Byte) : List Nat :=
  let x := leNat bs
  (List.range n).map fun k => x / 2 ^ (w * k) % 2 ^ w

/-! ### Alignment (R96) -/

/-- The exponent of a block of finite values, or none when all are zero (R96). -/
def blockExp (l : List FVal) : Option Int :=
  l.foldl (fun acc v => match v with
    | .fin _ m e =>
      if m = 0 then acc
      else
        let x : Int := e + Nat.log2 m
        some (match acc with
          | some a => max a x
          | none => max (-126) x)
    | _ => acc) none

/-- ⌊m × 2^e × 2^d⌋. -/
def scaleFloor (m : Nat) (e : Int) : Nat := if 0 ≤ e then m * 2 ^ e.toNat else m / 2 ^ (-e).toNat

/-- The aligned magnitudes of a block at `p` planes, in units of 2^(E − p + 1) (R96). -/
def alignMags (p : Nat) (ex : Int) (l : List FVal) : List Nat :=
  l.map fun v => match v with
    | .fin _ m e => scaleFloor m (e + p - 1 - ex)
    | _ => 0

/-- A value is neither NaN nor infinite. -/
def FVal.finite : FVal → Bool
  | .fin .. => true
  | _ => false

/-! ### Expansion (R18, R232, R453) -/

/-- A column of a panel: sign and magnitude of each position, and the block exponents (R232). -/
def columnOf (fmt pl : Nat) (codes : List Nat) : List (Bool × Nat) × List Byte :=
  let t := wfType fmt
  if wfInt fmt then
    (codes.map fun c => (sgn c (typeBits t) < 0, (sgn c (typeBits t)).natAbs % 2 ^ pl), [])
  else
    let bs := (pieces 8 (codes.length / 8) codes).map fun b =>
      let l := b.map (fmtOf t).decode
      if l.all FVal.finite then
        match blockExp l with
        | none => (l.map fun v => (v.neg, 0), (0x80 : Byte))
        | some e => ((l.map FVal.neg).zip (alignMags pl e l), BitVec.ofInt 8 e)
      else (l.map fun _ => (false, 0), 0x81)
    ((bs.map (·.1)).flatten, bs.map (·.2))

/-- Bytes of a column of a bit section. -/
def bitBytes (l : List Bool) : List Byte :=
  leBytes (l.length / 8) (ofLanes 1 (l.map fun b => if b then 1 else 0))

/-- The bytes of a panel from its 32 columns of codes, block scales and band scale (R232). -/
def panelOf (fmt pl : Nat) (cols : List (List Nat)) (scales band : List Byte) : List Byte :=
  let cs := cols.map (columnOf fmt pl)
  let plane := fun q => (cs.map fun c => bitBytes (c.1.map fun x => bitOf x.2 q)).flatten
  (cs.map fun c => bitBytes (c.1.map (·.1))).flatten ++
  ((List.range pl).map fun i => plane (pl - 1 - i)).flatten ++
  (cs.map (·.2)).flatten ++
  (if fmt = 0 then scales ++ band ++ List.replicate 62 0 else [])

/-- The element codes of a panel record, column by column, and its malformed groups (R86, R87, R453). -/
def recordCodes (fmt dens : Nat) (rec_ : List Byte) : List Nat × Nat :=
  let w := typeBits (wfType fmt)
  let n := 32 * wfKs fmt
  if dens = 16 then (((pieces 384 32 rec_).map (unpackElems w (wfKs fmt))).flatten, 0)
  else
    let masks := (pieces 2 (n / 16) rec_).map leNat
    let vals := ((pieces (wfKs fmt / 16 * dens * w / 8) 32 (rec_.drop (n / 8))).map
      (unpackElems w (wfKs fmt / 16 * dens))).flatten
    (((masks.zip (pieces dens (n / 16) vals)).map fun p => expandGroup p.1 16 0 p.2).flatten,
      (masks.filter fun m => laneOnes 16 m ≠ dens).length)

/-- Expand a panel record: the panel's bytes and its malformed groups (R453). -/
def expandRecord (fmt dens pl : Nat) (rec_ : List Byte) : List Byte × Nat :=
  match recordCodes fmt dens rec_ with
  | (codes, bad) =>
    let tail := rec_.drop (recordBytes fmt dens - 3074)
    (panelOf fmt pl (pieces (wfKs fmt) 32 codes) (tail.take 3072) ((tail.drop 3072).take 2), bad)

/-- Expand a payload of whole panel records. -/
def expandPayload (fmt dens pl : Nat) (payload : List Byte) : List Byte × Nat :=
  let rs := (pieces (recordBytes fmt dens) (payload.length / recordBytes fmt dens) payload).map (expandRecord fmt dens pl)
  ((rs.map (·.1)).flatten, (rs.map (·.2)).sum)

/-! ### What the array reads (R96, R97, R230–R232, R247) -/

/-- A row of A or a column of B as the array takes it: signed integers (for float formats in units of 2^−148, block
scale included), the elements' signs, and whether it holds a NaN or infinite element (R97). -/
structure Strip where
  ints : List Int
  negs : List Bool
  special : Bool
deriving DecidableEq, Repr, Inhabited

/-- An operand of a step: 32 strips, the band scale and whether some scale was poisoned or invalid (R97, R247). -/
structure Operand where
  strips : List Strip
  bandM : Nat
  bandE : Int
  operr : Bool
deriving DecidableEq, Repr, Inhabited

/-- A signed number. -/
def signed (neg : Bool) (m : Nat) : Int := if neg then -(m : Int) else m

/-- Aligned elements of one block in units of 2^−148, from magnitudes in units of 2^(ex − p + 1) and a block scale in
units of 2^−7. -/
def blockInts (p : Nat) (ex : Int) (scale : Nat) (l : List (Bool × Nat)) : List Int :=
  l.map fun x => signed x.1 (x.2 * scale * 2 ^ (ex - p + 142).toNat)

/-- Join the blocks of a strip. -/
def joinBlocks (bs : List (List Int × List Bool × Bool)) : Strip :=
  ⟨(bs.map (·.1)).flatten, (bs.map (·.2.1)).flatten, bs.any (·.2.2)⟩

/-- The block scale of a code in units of 2^−7; other formats have 1 (R83, R97). -/
def scaleUnits (fmt code : Nat) : Nat := if fmt = 0 then e3m5 code else 128

/-- A row of an A unit (R96, R231). -/
def unitRow (fmt : Nat) (row scales : List Byte) : Strip :=
  let t := wfType fmt
  let codes := unpackElems (typeBits t) (wfKs fmt) row
  if wfInt fmt then ⟨codes.map fun c => sgn c (typeBits t), codes.map fun c => sgn c (typeBits t) < 0, false⟩
  else
    let p := wfPlanes fmt
    let blocks := pieces 8 (wfKs fmt / 8) (codes.map (fmtOf t).decode)
    joinBlocks (blocks.zipIdx.map fun b =>
      let negs := b.1.map FVal.neg
      match blockExp b.1 with
      | none => (b.1.map fun _ => 0, negs, !b.1.all FVal.finite)
      | some e =>
        (blockInts p e (scaleUnits fmt ((scales.getD b.2 0).toNat)) (negs.zip (alignMags p e b.1)), negs,
          !b.1.all FVal.finite))

/-- A band scale and whether it is invalid (R85). -/
def bandField (fmt : Nat) (bs : List Byte) : Nat × Int × Bool :=
  if fmt = 0 then bandScale (bf16.decode (leNat (bs.take 2))) else (1, 0, false)

/-- An A unit (R231). -/
def readUnit (fmt : Nat) (bs : List Byte) : Operand :=
  let scales := (bs.drop 12288).take 3072
  match bandField fmt (bs.drop 15360) with
  | (bm, be, bad) =>
    { strips := ((pieces 384 32 bs).zip (if fmt = 0 then pieces 96 32 scales else List.replicate 32 [])).map
        fun p => unitRow fmt p.1 p.2
      bandM := bm
      bandE := be
      operr := bad || (fmt = 0 && scales.contains 0xFF) }

/-- A column of a B panel from its sign bits, its planes most significant first, exponents and scales (R232). -/
def panelColumn (fmt pl p sign : Nat) (planes : List Nat) (exps scales : List Byte) : Strip :=
  let mags := (List.range (wfKs fmt)).map fun k =>
    (planes.take p).foldl (fun acc x => 2 * acc + (if bitOf x k then 1 else 0)) 0
  let els := ((List.range (wfKs fmt)).map fun k => bitOf sign k).zip mags
  if wfInt fmt then ⟨els.map fun x => signed x.1 (x.2 * 2 ^ (pl - p)), els.map (·.1), false⟩
  else
    joinBlocks ((pieces 8 (wfKs fmt / 8) els).zipIdx.map fun b =>
      let e := exps.getD b.2 0
      if e = 0x80 || e = 0x81 then (b.1.map fun _ => 0, b.1.map (·.1), e = 0x81)
      else (blockInts p e.toInt (scaleUnits fmt ((scales.getD b.2 0).toNat)) b.1, b.1.map (·.1), false))

/-- A B panel as a job with `p` planes reads it (R230, R232). -/
def readPanel (fmt pl p : Nat) (bs : List Byte) : Operand :=
  let col := wfKs fmt / 8
  let secs := (pieces (32 * col) (pl + 3) bs).map (pieces col 32)
  let get := fun s j => ((secs.getD s []).getD j [])
  let scales := if fmt = 0 then secs.getD (pl + 2) [] else []
  match bandField fmt (bs.drop ((pl + 3) * 32 * col)) with
  | (bm, be, bad) =>
    { strips := (List.range 32).map fun j =>
        panelColumn fmt pl p (leNat (get 0 j)) ((List.range pl).map fun i => leNat (get (1 + i) j)) (get (pl + 1) j)
          (scales.getD j [])
      bandM := bm
      bandE := be
      operr := bad || scales.any fun c => c.contains 0xFF }

end Sys2Proof.Machine
end

