-- ==== Sys2Proof/Machine/VectorMemory.lean ====
section
/-! DEFINITION. Vector memory: majors 0x21 and 0x24 (R112, R113, R217–R220). -/

namespace Sys2Proof.Machine

/-- The word of an FVM instruction, for TVAL (R140, R149). -/
def fvmWord (mj vd va cap sb mk fn : Nat) : Word := BitVec.ofNat 64 (encFVM mj vd va cap sb mk fn)

/-- Bytes of a memory element: a lane, or for 4-bit types the byte of two lanes (R217). -/
def elemBytes (t : Nat) : Nat := Nat.max 1 (typeBits t / 8)

/-- Lanes of a memory element: its mask bit is that of the first (R217). -/
def elemLanes (t : Nat) : Nat := if typeBits t = 4 then 2 else 1

/-- The effective base of a vector access (R217). -/
def vecBase (s : State) (c : CReg) (b : SReg) : Int := ((s.rc c).cursor : Int) + (s.rs b).toInt

/-- The unmasked memory elements (R217). -/
def State.elems (s : State) (k : KReg) : List Nat :=
  (List.range (256 / elemBytes s.vt)).filter fun j => (s.rk k).getLsbD (j * elemLanes s.vt)

/-- Check every unmasked element in ascending order: their numbers, addresses and locations, or the first failure
(R218). -/
def checkElems (c : Cap) (n : Nat) (kind : Kind) (addr : Nat → Int) : List Nat → State → R (List (Nat × Nat × Int))
  | [], s => .ok [] s
  | i :: t, s =>
    (s.access s.who c (addr i) n n kind).bind fun key s =>
      (checkElems c n kind addr t s).bind fun r s => .ok ((i, key, addr i) :: r) s

/-- A vector load: its unmasked elements enter the load queue as one load, whose units are performed in no fixed order (R114,
R119, R217–R219). -/
def vectorLoad (word : Word) (allowed : Nat → Bool) (d : VReg) (c : CReg) (k : KReg) (addr : Nat → Int) (s : State) : Res :=
  let n := elemBytes s.vt
  let cap := s.rc c
  finish 4 s (taskOnly s word (if allowed s.vt then
    (checkElems cap n .load addr (s.elems k) s).bind fun es s =>
      .ok () (s.queueLoad cap.space n (.vector d n) (es.map fun e => (e.1, e.2.1)))
    else .trap .illegal word s))

/-- A vector store: each element a store of its own, performed in no fixed order (R114, R217–R219). -/
def vectorStore (word : Word) (allowed : Nat → Bool) (d : VReg) (c : CReg) (k : KReg) (addr : Nat → Int) (s : State) :
    Res :=
  let n := elemBytes s.vt
  let cap := s.rc c
  finish 4 s (taskOnly s word (if allowed s.vt then
    (checkElems cap n .store addr (s.elems k) s).bind fun es s =>
      let t := es.foldl (fun t e => t.enqueueStore (cellsAt e.2.1 (leBytes n (lane (s.rv d) (8 * n) e.1))) false false) s
      .ok () (if es = [] then t else t.storeEffect cap.space)
    else .trap .illegal word s))

/-- Consecutive elements (R217). -/
def unitAddr (s : State) (c : CReg) (b : SReg) (i : Nat) : Int := vecBase s c b + (i * elemBytes s.vt : Nat)
/-- Strided elements (R217). -/
def strideAddr (s : State) (c : CReg) (b st : SReg) (i : Nat) : Int := vecBase s c b + (i : Int) * (s.rs st).toInt
/-- Indexed elements (R217). -/
def indexAddr (s : State) (c : CReg) (b : SReg) (a : VReg) (i : Nat) : Int :=
  vecBase s c b + (lane (s.rv a) (typeBits s.vt) i * elemBytes s.vt : Nat)

/-- The types of VGTH and VSCT (R200). -/
def gatherable (t : Nat) : Bool := t ≠ 5 && t ≠ 11
/-- The types of VSCTADD (R200). -/
def scatterable (t : Nat) : Bool := isWideFp t || (isIntType t && t ≠ 11)

/-- VLD (R217). -/
def execVld (d : VReg) (c : CReg) (b : SReg) (k : KReg) (s : State) : Res :=
  vectorLoad (fvmWord 0x21 d.toNat 0 c.toNat b.toNat k.toNat 0) anyType d c k (unitAddr s c b) s
/-- VST (R217). -/
def execVst (d : VReg) (c : CReg) (b : SReg) (k : KReg) (s : State) : Res :=
  vectorStore (fvmWord 0x21 d.toNat 0 c.toNat b.toNat k.toNat 1) anyType d c k (unitAddr s c b) s
/-- VLDS (R217). -/
def execVlds (d : VReg) (st : BitVec 5) (c : CReg) (b : SReg) (k : KReg) (s : State) : Res :=
  vectorLoad (fvmWord 0x21 d.toNat st.toNat c.toNat b.toNat k.toNat 2) anyType d c k (strideAddr s c b st) s
/-- VSTS (R217). -/
def execVsts (d : VReg) (st : BitVec 5) (c : CReg) (b : SReg) (k : KReg) (s : State) : Res :=
  vectorStore (fvmWord 0x21 d.toNat st.toNat c.toNat b.toNat k.toNat 3) anyType d c k (strideAddr s c b st) s
/-- VGTH (R217). -/
def execVgth (d a : VReg) (c : CReg) (b : SReg) (k : KReg) (s : State) : Res :=
  vectorLoad (fvmWord 0x24 d.toNat a.toNat c.toNat b.toNat k.toNat 0) gatherable d c k (indexAddr s c b a) s
/-- VSCT (R217). -/
def execVsct (d a : VReg) (c : CReg) (b : SReg) (k : KReg) (s : State) : Res :=
  vectorStore (fvmWord 0x24 d.toNat a.toNat c.toNat b.toNat k.toNat 1) gatherable d c k (indexAddr s c b a) s
/-- VLDB (R217). -/
def execVldb (d : VReg) (c : CReg) (b : SReg) (k : KReg) (s : State) : Res :=
  vectorLoad (fvmWord 0x24 d.toNat 0 c.toNat b.toNat k.toNat 3) anyType d c k (fun _ => vecBase s c b) s

/-- VSCTADD: one reduction per unmasked element, performed in no fixed order but those of one location, which keep lane order
(R114, R218–R220). -/
def execVsctadd (d a : VReg) (c : CReg) (b : SReg) (k : KReg) (s : State) : Res :=
  let word := fvmWord 0x24 d.toNat a.toNat c.toNat b.toNat k.toNat 2
  let n := elemBytes s.vt
  let cap := s.rc c
  finish 4 s (taskOnly s word (if scatterable s.vt then
    (checkElems cap n .atomic (indexAddr s c b a) (s.elems k) s).bind fun es s =>
      let t := es.foldl (fun t e =>
        t.enqueueAtomic e.2.1 s.vt false true (BitVec.ofNat 64 (lane (s.rv d) (8 * n) e.1)) cap.space (tv e.2.2)) s
      .ok () t.effect
    else .trap .illegal word s))

end Sys2Proof.Machine
end

