-- ==== Sys2Proof/Machine/Records.lean ====
section
/-! DEFINITION. Records and cards in a task's scratchpad region: reading one at issue, its first bad field (R243, R288,
R300), engine acceptance (R121) and meridian snapshots (R134). -/

namespace Sys2Proof.Machine

/-- Bytes of the issuing task's scratchpad region. -/
def State.regionLen (s : State) : Nat := s.hart.task.scratch * 4096

/-- The space-1 address of a region offset. -/
def State.regionAddr (s : State) (off : Nat) : Int := ((s.hart.task.region + off : Nat) : Int)

/-- A record at a region offset lies inside the region and is aligned to `al` (R243, R288, R300). -/
def State.recordFits (s : State) (off n al : Nat) : R Unit :=
  let x := tv (s.regionAddr off)
  if off + n > s.regionLen then .trap .capBounds x s
  else if off % al ≠ 0 then .trap .misaligned x s
  else .ok () s

/-- The bytes of a record that fits, read as task loads with forwarding: they hold no uncorrectable data (R119, R243, R288, R300). -/
def State.recordBytes (s : State) (off n : Nat) : R (List Byte) :=
  let k := scratchKey s.here.die s.here.core (s.hart.task.region + off)
  let s := s.settleFor s.here s.hart.issued k n
  match s.badBytes k n with
  | [] => .ok (s.readBytes k n) s
  | ws => .trap .memUncorrectable (tv (s.regionAddr off)) (s.logErrors .task s.here.core ws)

/-- Read a record at a region offset (R243, R288, R300). -/
def State.readRecord (s : State) (off n al : Nat) : R (List Byte) :=
  (s.recordFits off n al).bind fun _ s => s.recordBytes off n

/-- The byte offset of the first field that fails, the fields given in byte order. -/
def firstBad (l : List (Nat × Bool)) : Option Nat := (l.find? fun p => !p.2).map (·.1)

/-- TVAL of a bad field: the word in bits 31:0 and the byte offset in bits 47:40 (R243, R288, R300). -/
def fieldWord (word : Word) (off : Nat) : Word := BitVec.ofNat 64 (word.toNat % 2 ^ 32 + off * 2 ^ 40)

/-- Trap on the first bad field of a record. -/
def checkFields (word : Word) (l : List (Nat × Bool)) (s : State) : R Unit :=
  match firstBad l with
  | some off => .trap .illegal (fieldWord word off) s
  | none => .ok () s

/-- A signed field of a record. -/
def sfield (r : List Byte) (off n : Nat) : Int := sextInt (field r off n) (8 * n)

/-- A meridian slot as it stands (R134). -/
def State.snap (s : State) (die slot : Nat) : Snap :=
  let k := meridianKey die slot 0
  { slot := slot
    fill := (s.mslot die slot).fill
    cells := (s.mem.filter fun c => k ≤ c.1 && c.1 < k + Config.slotBytes).map fun c => (c.1 - k, c.2)
    bad := (s.bad.filter fun w => k ≤ w * 8 && w * 8 < k + Config.slotBytes).map fun w => w - k / 8 }

/-- Words of a list that a run of locations touches. -/
def touchedWords (bad : List Nat) (k n : Nat) : List Nat := bad.filter fun w => k < w * 8 + 8 && w * 8 < k + n

/-- Bytes with those of uncorrectable words zeroed; `k` is the location of the first. -/
def zeroBad (bad : List Nat) (k : Nat) (bs : List Byte) : List Byte :=
  if bad = [] then bs else bs.zipIdx.map fun p => if bad.contains ((k + p.2) / 8) then 0 else p.1

end Sys2Proof.Machine
end

