-- ==== Sys2Proof/Machine/SaveArea.lean ====
section
/-! DEFINITION. Context images in the save slots of a partition: their pieces, how they are written and read there, and the LIVEX extents
behind them (R375, R391–R393). -/

namespace Sys2Proof.Machine

/-! ### Pieces of an image (R375) -/

/-- A piece of an image: its offset, its bytes, and whether it is a tagged capability. -/
structure Piece where
  off : Nat
  bytes : List Byte
  tag : Bool
deriving DecidableEq, Repr

/-- Bytes cut into pieces of 64 from an offset. -/
def cutPieces (off : Nat) (bs : List Byte) : List Piece :=
  (pieces 64 ((bs.length + 63) / 64) bs).zipIdx.map fun p => ⟨off + 64 * p.2, p.1, false⟩

/-- QUAR: entries of an 8-byte offset, an 8-byte length and the bytes; a length of 0 ends them (R375, log 16). -/
def quarPieces (q : List (Nat × List Byte)) : List Piece :=
  cutPieces 0x8C000 (padTo 65536 (q.flatMap fun e => leBytes 8 e.1 ++ leBytes 8 e.2.length ++ e.2))

/-! ### Save slots (R391, R392) -/

/-- The resident address of a save slot's image (R391). -/
def State.saveBase (s : State) (part slot : Nat) : Nat := field (s.partOf part).desc 48 8 + slot * (0x9C000 + 0x600000)

/-- The offset of the LIVEX extent in a save slot: it follows the image (R391). -/
def extentAt : Nat := 0x9C000

/-- The home of a place in a save slot, as a die's translation gives it. -/
def State.saveKey (s : State) (die part slot off : Nat) (k : Kind) : Option Nat :=
  s.locate? die 16 part 3 (s.saveBase part slot + off) (some k)

/-- Write the pieces of an image into a save slot; one at a page without a translation goes nowhere (log 53). -/
def State.saveImage (s : State) (die part slot : Nat) (ps : List Piece) : State :=
  ps.foldl (fun s p =>
    match s.saveKey die part slot p.off .store with
    | some k => s.writeHome 0 (cellsAt k p.bytes) p.tag
    | none => s) s

/-- 64 bytes of a save slot at an offset, the tags of their granules, and their uncorrectable words; a page without a translation reads
free bytes (log 53). -/
def State.savedLine (s : State) (die part slot off : Nat) : (Nat × List Byte × List Bool) × List Nat :=
  match s.saveKey die part slot off .load with
  | some k => ((off, s.homeBytes k 64, (List.range 4).map fun i => s.tags.contains (k / 16 + i)), s.badWords k 64)
  | none => ((off, (upFrom off 64).map (Config.freeByte s.steps), List.replicate 4 false), [])

/-- Lines of a save slot as the core that restores a task reads them; uncorrectable words are logged (R112, R391, R392). -/
def State.savedLines (s : State) (c : CtxId) (part slot : Nat) (offs : List Nat) : List (Nat × List Byte × List Bool) × State :=
  let l := offs.map (s.savedLine c.die part slot)
  (l.map (·.1), s.logErrors .task c.core (l.flatMap (·.2)))

/-! ### LIVEX extents (R392, R411) -/

/-- A granule is copied from one home to another with its tag by a dispatcher; an uncorrectable word is logged and stays one at its new
place (R107, R112, log 105). -/
def State.copyGranule (s : State) (core src dst : Nat) : State :=
  let bad := s.badWords src 16
  let s := (s.logErrors .dispatcher core bad).writeHome core (cellsAt dst (s.homeBytes src 16)) (s.tags.contains (src / 16))
  { s with bad := bad.foldl (fun l w => setInsert l (dst / 8 + (w - src / 8))) s.bad }

/-- Copy the first `n` bytes of a region into a save slot (R392 step 4). -/
def State.saveExtent (s : State) (c : CtxId) (part slot region n : Nat) : State :=
  (List.range (n / 16)).foldl (fun s i =>
    match s.saveKey c.die part slot (extentAt + 16 * i) .store with
    | some k => s.copyGranule c.core (scratchKey c.die c.core (region + 16 * i)) k
    | none => s) s

/-- Copy the first `n` bytes of a save slot's extent into a region (R392). -/
def State.loadExtent (s : State) (c : CtxId) (part slot region n : Nat) : State :=
  (List.range (n / 16)).foldl (fun s i =>
    let k := scratchKey c.die c.core (region + 16 * i)
    match s.saveKey c.die part slot (extentAt + 16 * i) .load with
    | some src => s.copyGranule c.core src k
    | none => s.writeHomeBytes c.core k ((upFrom (extentAt + 16 * i) 16).map (Config.freeByte s.steps))) s

end Sys2Proof.Machine
end

