-- ==== Sys2Proof/Machine/Copy.lean ====
section
/-! DEFINITION. Copy engines: cards, issue checks, element moves, packing sinks, channels as destinations, completion,
faults and timed copies: major 0x10 and the engines' own steps (R278–R291). -/

namespace Sys2Proof.Machine

/-! ### Cards (R279, R280) -/

/-- NDIM: the dimension count less 1. -/
def cNdim (c : List Byte) : Nat := field c 0 1 % 4
/-- ESZ. -/
def cEsz (c : List Byte) : Nat := field c 0 1 / 4 % 16
/-- ENG. -/
def cEng (c : List Byte) : Nat := field c 0 1 / 64 % 2
/-- IDX64. -/
def cIdx64 (c : List Byte) : Bool := bitOf (field c 0 1) 7
/-- WEN, SEN, BEN, REC: bits 8 to 11 of MODE. -/
def cFlag (c : List Byte) (k : Nat) : Bool := bitOf (field c 0 2) k
/-- STYPE. -/
def cStype (c : List Byte) : Nat := field c 1 1 / 16
/-- DFMT. -/
def cDfmt (c : List Byte) : Nat := field c 2 2
/-- EXT of a dimension. -/
def cExt (c : List Byte) (d : Nat) : Nat := field c (4 + 2 * d) 2
/-- BND of a dimension. -/
def cBnd (c : List Byte) (d : Nat) : Nat := field c (12 + 2 * d) 2
/-- Source stride of a dimension; dimension 0 is contiguous. -/
def cSstr (c : List Byte) (d : Nat) : Int := if d = 0 then 0 else sfield c (16 + 4 * d) 4
/-- Destination stride of a dimension. -/
def cDstr (c : List Byte) (d : Nat) : Int := if d = 0 then 0 else sfield c (28 + 4 * d) 4

/-- EN of a format word. -/
def wEn (w : Nat) : Bool := bitOf w 15
/-- Q4 of a sink word. -/
def wQ4 (w : Nat) : Bool := wEn w && bitOf w 13
/-- BP of a sink word. -/
def wBp (w : Nat) : Bool := wEn w && bitOf w 8
/-- Planes stored under a bit-plane sink. -/
def wPl (w : Nat) : Nat := w / 2 ^ 9 % 16 + 1
/-- SAT of a sink word. -/
def wSat (w : Nat) : Bool := bitOf w 7
/-- ROUND of a sink word. -/
def wRound (w : Nat) : Nat := w / 16 % 8
/-- TYPE of a format word. -/
def wType (w : Nat) : Nat := w % 16

/-- A type code of R143. -/
def typeOk (t : Nat) : Bool := t ≤ 5 || (8 ≤ t && t ≤ 11)

/-- The weight format whose elements a bit-plane sink stores (R286). -/
def bpFormat (t : Nat) : Nat := if t = 11 then 1 else if t = 3 then 2 else if t = 4 then 3 else if t = 10 then 4 else 5

/-- A sink word is well formed for values of a source type (R280, R281, R285, R286). -/
def sinkOk (w src : Nat) : Bool :=
  if !wEn w then w = 0
  else
    !bitOf w 14 && wRound w ≤ 4 && typeOk (wType w) && typeOk src &&
    (if wBp w then
      !bitOf w 13 && (if wType w = 10 then wPl w = 8 else if wType w = 11 then wPl w = 4 else [1, 3, 4].contains (wType w))
    else
      wPl w = 1 && wType w ≠ src && (!bitOf w 13 || (wType w = 5 && isWideFp src && wRound w = 0 && !wSat w)))

/-- One value on an engine's path (R281). -/
def convValue (src sink x : Nat) : Nat × Flags5 :=
  if src = wType sink then (x, 0) else convert src (wType sink) (wRound sink) (wSat sink) x

/-- Values packed as the elements of a type (R82). -/
def packValues (w : Nat) (l : List Nat) : List Byte := leBytes (l.length * w / 8) (ofLanes w l)

/-- Bytes of values converted on an engine's path, with their flags (R281). -/
def convBytes (src sink : Nat) (bs : List Byte) : List Byte × Flags5 :=
  let ws := typeBits src
  let rs := (unpackElems ws (bs.length * 8 / ws) bs).map (convValue src sink)
  (packValues (typeBits (wType sink)) (rs.map (·.1)), rs.foldl (fun acc r => acc ||| r.2) 0)

/-! ### Kinds of command -/

/-- CPYT. -/
def kCpyt : Nat := 1
/-- CPYG. -/
def kCpyg : Nat := 2
/-- CPYS. -/
def kCpys : Nat := 3
/-- CPYC. -/
def kCpyc : Nat := 4
/-- CPYF. -/
def kCpyf : Nat := 5
/-- CPYB. -/
def kCpyb : Nat := 6

/-- The source type and sink word of a command whose destination is memory or, for CPYB, a channel's words; none
where the elements pass unconverted. -/
def copyConv (kind : Nat) (card : List Byte) (ch : Option Channel) : Option (Nat × Nat) :=
  match ch with
  | some c => if wEn c.srcFmt.toNat && wEn c.sinkFmt.toNat then some (wType c.srcFmt.toNat, c.sinkFmt.toNat) else none
  | none => if kind = kCpyc then some (cStype card, cDfmt card) else none

/-- Bits of a source element. -/
def srcBits (card : List Byte) (cv : Option (Nat × Nat)) : Nat :=
  match cv with
  | some p => typeBits p.1
  | none => 8 * 2 ^ cEsz card
/-- Bits of a destination element. -/
def dstBits (card : List Byte) (cv : Option (Nat × Nat)) : Nat :=
  match cv with
  | some p => typeBits (wType p.2)
  | none => 8 * 2 ^ cEsz card

/-- A 4-bit type is involved. -/
def hasFour (cv : Option (Nat × Nat)) : Bool :=
  match cv with
  | some p => typeBits p.1 = 4 || typeBits (wType p.2) = 4
  | none => false

/-- The fields of a copy card in byte order, each with its check (R279, R283, R285, R286); of a field with parts, such as WAIT, the offset is
that of the part that is bad (DESIGN CHOICE, log 132). -/
def cardFields (kind : Nat) (c : List Byte) : List (Nat × Bool) :=
  let nd := cNdim c
  let w := cDfmt c
  let cpyc := kind = kCpyc
  let q4 := cpyc && wQ4 w
  let bp := cpyc && wBp w
  let four := hasFour (copyConv kind c none)
  ([(0, cEsz c ≤ 8 && (!cpyc || cEsz c = 0) && (!q4 || nd = 2)),
    (1, if cpyc then typeOk (cStype c) else cStype c = 0),
    (2, if cpyc then wEn w && sinkOk w (cStype c) else w = 0)] : List (Nat × Bool)) ++
  ((List.range 4).map fun d =>
    ((4 + 2 * d, (if nd < d then cExt c d = 1 else 1 ≤ cExt c d) &&
        (d ≠ 0 || ((!four || cExt c 0 % 2 = 0) && (!q4 || cExt c 0 % 8 = 0) && (!bp || cExt c 0 = wfKs (bpFormat (wType w))))) &&
        (d ≠ 1 || !bp || cExt c 1 * cExt c 2 * cExt c 3 % 32 = 0) && (d ≠ 2 || !q4 || cExt c 2 = 1)) : Nat × Bool)) ++
  ((List.range 4).map fun d =>
    ((12 + 2 * d, (d ≤ nd || cBnd c d = 0) && (d ≠ 0 || !four || cBnd c 0 % 2 = 0)) : Nat × Bool)) ++
  ([1, 2, 3].map fun d => ((16 + 4 * d, d ≤ nd || cSstr c d = 0) : Nat × Bool)) ++
  ([1, 2, 3].map fun d => ((28 + 4 * d, (d ≤ nd || cDstr c d = 0) && (!(q4 || bp) || cDstr c d = 0)) : Nat × Bool)) ++
  ([(44, cFlag c 8 || field c 44 2 % 2 ^ 11 = 0), (45, field c 45 1 / 8 = 0), (46, cFlag c 8 || field c 46 4 = 0),
    (50, cFlag c 9 || field c 50 2 % 2 ^ 11 = 0), (51, field c 51 1 / 8 = 0),
    (52, if cFlag c 9 then 1 ≤ field c 52 4 else field c 52 4 = 0),
    (56, kind = kCpyt || field c 56 4 = 0),
    (60, cFlag c 10 || field c 60 4 % 2 ^ 25 = 0), (63, field c 63 1 / 2 = 0)] : List (Nat × Bool))

/-! ### Issue (R284, R288, R121) -/

/-- In-bounds coordinates of a dimension, a count; bounds of 0 do not bind. -/
def inCount (c : List Byte) (d : Nat) : Nat := if cBnd c d = 0 then cExt c d else Nat.min (cExt c d) (cBnd c d)

/-- The entries of an index list that are in bounds, with their places in it (R283). -/
def inIndices (c : List Byte) (idx : List Nat) : List (Nat × Nat) := idx.zipIdx.filter fun i => cBnd c 1 = 0 || i.1 < cBnd c 1

/-- The lowest and highest byte offset that a dimension adds. -/
def dimSpan (n : Nat) (stride : Int) : Int × Int :=
  let x := stride * ((n : Int) - 1)
  (min x 0, max x 0)

/-- The lowest and highest offset of the rows of a nest; `rows` lists what dimension 1 counts by where an index list bounds it, and
none when no element is in bounds (R288). -/
def copySpan (c : List Byte) (str : Nat → Int) (rows : Option (List Nat)) : Option (Int × Int) :=
  let rest := [2, 3].map fun d => dimSpan (inCount c d) (str d)
  let first := match rows with
    | none => some (dimSpan (inCount c 1) (str 1))
    | some l =>
      match l.map fun i : Nat => str 1 * (i : Int) with
      | [] => none
      | x :: t => some (t.foldl min x, t.foldl max x)
  first.map fun f => rest.foldl (fun acc s => (acc.1 + s.1, acc.2 + s.2)) f

/-- Steps 1 to 6 of R105 at an address. -/
def State.checkSix (s : State) (w : Who) (c : Cap) (x : Int) (n al : Nat) (k : Kind) : Option Cause :=
  match capChecks w c x n al k with
  | some e => some e
  | none =>
    match s.place w c.space x.toNat n with
    | .bad e => some e
    | _ => none

/-- Step 6 of R288 for one side: the lowest and highest in-bounds elements of `n` bytes, then the cursor and strides;
`len` bytes are the contiguous run of dimension 0. -/
def checkSide (c : Cap) (sp : Option (Int × Int)) (len n : Nat) (strides : List Int) (k : Kind) (s : State) : R Unit :=
  match sp with
  | none => .ok () s
  | some (lo, hi) =>
    let a : Int := c.cursor + lo
    let b : Int := c.cursor + hi + len - n
    match s.checkSix s.who c a n n k with
    | some e => .trap e (tv a) s
    | none =>
      match s.checkSix s.who c b n n k with
      | some e => .trap e (tv b) s
      | none =>
        if c.cursor % n ≠ 0 || strides.any fun t => t % (n : Int) ≠ 0 then .trap .misaligned (tv a) s else .ok () s

/-- Bytes of an element of `bits` bits for alignment: 4-bit values count as bytes. -/
def byteSize (bits : Nat) : Nat := Nat.max 1 (bits / 8)

/-- Bytes of the index list that follows a card: EXT1 entries of 4 or 8 bytes (R279, R283). -/
def listBytes (card : List Byte) : Nat := (if cIdx64 card then 8 else 4) * cExt card 1

/-- The card of a copy or stream and, with `list`, the index list that follows it: both lie inside the region before either is tested
for uncorrectable data (R279, R283, R288 steps 2 and 3). -/
def State.readCard (s : State) (off : Nat) (list : Bool) : R (List Byte × List Nat) :=
  (s.recordFits off 64 64).bind fun _ s =>
  let size := listBytes (s.readBytes (scratchKey s.here.die s.here.core (s.hart.task.region + off)) 64)
  (if list then s.recordFits (off + 64) size 4 else .ok () s).bind fun _ s =>
  (s.recordBytes off 64).bind fun card s =>
  if !list then .ok (card, []) s
  else
    (s.recordBytes (off + 64) (listBytes card)).bind fun bs s =>
      .ok (card, (pieces (if cIdx64 card then 8 else 4) (cExt card 1) bs).map leNat) s

/-- A counter reference of a card, allocated to the partition (R288 step 5). -/
def cardCounter (on : Bool) (r : Nat) (s : State) : R (Option Nat) :=
  if on then (s.ctrRef (BitVec.ofNat 64 (r % 2 ^ 11))).bind fun k s => .ok (some k) s else .ok none s

/-- The barrier of a card lies in the region, 16-byte aligned (R288 step 5). -/
def cardBarrier (c : List Byte) (s : State) : R Unit :=
  let b := field c 60 4 % 2 ^ 25
  if !cFlag c 10 then .ok () s
  else if s.regionLen < b + 16 then .trap .capBounds (tv (s.regionAddr b)) s
  else if b % 16 ≠ 0 then .trap .misaligned (tv (s.regionAddr b)) s
  else .ok () s

/-- Elements of a nest. -/
def cardTotal (c : List Byte) : Nat := cExt c 0 * cExt c 1 * cExt c 2 * cExt c 3

/-- The channel of a CPYB: its handle names a descriptor of the partition as producer; a poisoned one is accepted and
the command ends with CHANPOISON (R271, R287, R288). -/
def State.chanOf (s : State) (r : Word) : Option Channel :=
  if r.toNat / 2 ^ 12 ≠ 0 then none
  else
    match s.shared.channels.find? r.toNat with
    | some c => if c.allows s.part .producer then some c else none
    | none => none

/-- A CPYB card agrees with its descriptor: whole panels under a bit-plane sink, else whole slots (R283, R286, R287). -/
def cpybAgrees (card : List Byte) (ch : Channel) : Bool :=
  let cv := copyConv kCpyb card (some ch)
  let w := ch.sinkFmt.toNat
  if wQ4 w then false
  else if wBp w then
    let f := bpFormat (wType w)
    (!hasFour cv || (cExt card 0 % 2 = 0 && cBnd card 0 % 2 = 0)) && cardTotal card % (32 * wfKs f) = 0 &&
      panelBytes f (wPl w) ≤ ch.slotBytes
  else
    (!hasFour cv || (cExt card 0 % 2 = 0 && cBnd card 0 % 2 = 0)) &&
      cardTotal card * dstBits card cv % (8 * ch.slotBytes) = 0

/-- Step 5 of R288 for the channel of a CPYB. -/
def copyChannel (word : Word) (kind : Nat) (handle : Word) (card : List Byte) (s : State) : R (Option Channel) :=
  if kind = kCpyb then
    match s.chanOf handle with
    | some ch => if cpybAgrees card ch then .ok (some ch) s else .trap .illegal (fieldWord word 4) s
    | none => .trap .accessDenied handle s
  else .ok none s

/-- Bytes that a packing sink of a CPYC card writes in all (R84, R286). -/
def packedBytes (card : List Byte) : Nat :=
  let w := cDfmt card
  if wQ4 w then cExt card 0 * cExt card 1 / 2 + cExt card 0 * cExt card 1 / 8 + 2 * ((cExt card 1 + 63) / 64)
  else
    let f := bpFormat (wType w)
    cExt card 1 * cExt card 2 * cExt card 3 / 32 * panelBytes f (wPl w)

/-- Strides of the dimensions of a card. -/
def usedStrides (c : List Byte) (str : Nat → Int) : List Int := (upFrom 1 (cNdim c)).map str

/-- Commands of an engine context accepted and not started, timed copies aside (R278). -/
def CopyCtx.waiting (x : CopyCtx) : List CopyCmd := x.cmds.filter fun c => c.state = .queued && c.kind ≠ kCpyt

/-- Timed copies in the time buffer of an engine of a core (R291). -/
def State.timed (s : State) (die core eng : Nat) : List CopyCmd :=
  ((List.range 4).map fun i => (s.copyCtx ⟨die, core, i⟩ eng).cmds.filter fun c => c.state = .queued && c.kind = kCpyt).flatten

/-- A copy instruction: the checks of R288 in order, then the command enters its context and the store queue, where its engine
accepts it after the task's older accesses (R121). The index list of CPYG is read here, as R283 says (log 100). -/
def copyIssue (word : Word) (kind : Nat) (dst src : Cap) (pattern handle : Word) (b : SReg) (s : State) : Res :=
  let indexed := kind = kCpyg || kind = kCpys
  finish 4 s (taskOnly s word (
    (s.readCard (s.rs b).toNat indexed).bind fun (card, idx) s =>
    (checkFields word (cardFields kind card) s).bind fun _ s =>
    (cardCounter (cFlag card 8) (field card 44 2) s).bind fun wait s =>
    (cardCounter (cFlag card 9) (field card 50 2) s).bind fun sig s =>
    (cardBarrier card s).bind fun _ s =>
    (copyChannel word kind handle card s).bind fun ch s =>
    let cv := copyConv kind card ch
    let packs := kind = kCpyc && (wQ4 (cDfmt card) || wBp (cDfmt card))
    let sb := srcBits card cv
    let db := dstBits card cv
    let n0 := inCount card 0
    let rows := fun listed : Bool => if indexed then some ((inIndices card idx).map fun p => if listed then p.1 else p.2) else none
    let sSpan := copySpan card (cSstr card) (rows (kind = kCpyg))
    let dSpan := copySpan card (cDstr card) (rows (kind = kCpys))
    let anyIn := !indexed || inIndices card idx ≠ []
    (if kind = kCpyf || !anyIn then .ok () s
      else checkSide src sSpan (n0 * sb / 8) (byteSize sb) (usedStrides card (cSstr card)) .load s).bind fun _ s =>
    (if kind = kCpyb || !anyIn then .ok () s
      else if packs then checkSide dst (some (0, 0)) (packedBytes card) 1 [] .store s
      else checkSide dst dSpan (n0 * db / 8) (byteSize db) (usedStrides card (cDstr card)) .store s).bind fun _ s =>
    let eng := cEng card
    let ctx := s.copyCtx s.here eng
    if 16 ≤ ctx.waiting.length || (kind = kCpyt && 64 ≤ (s.timed s.here.die s.here.core eng).length) then .wait
    else
      let t := s.hart.task
      let cmd : CopyCmd :=
        { kind := kind, seq := ctx.next, card := card, cardOff := (s.rs b).toNat, idx := idx, src := src, dst := dst
          pattern := pattern, chan := handle.toNat, region := t.region, part := t.part, task := t.ident, stay := t.stay
          taken := false, wait := wait.map fun k => (k, field card 46 4), signal := sig.map fun k => ⟨k, field card 52 4⟩
          tick := field card 56 4, late := false
          meridian := if kind ≠ kCpyf && src.space = 7 then some (s.snap s.here.die (src.cursor / 2 ^ 24 % 8)) else none
          state := .queued, done := 0, extra := [], got := [], bytes := 0, flags := 0, issue := 0, piece := none, accepted := s.steps }
      let s := (s.modCopy s.here eng fun x => { cmds := x.cmds ++ [cmd], next := x.next + 1 }).enqueueAct 0 (.copy eng ctx.next)
      .ok () (if kind = kCpyb then s.effect else s.storeEffect dst.space)))

/-- CPY (R282, R283). -/
def execCpy (d a : CReg) (b : SReg) (s : State) : Res := copyIssue (tvalWord (.cpy d a b)) 0 (s.rc d) (s.rc a) 0 0 b s
/-- CPYT (R282, R291). -/
def execCpyt (d a : CReg) (b : SReg) (s : State) : Res := copyIssue (tvalWord (.cpyt d a b)) 1 (s.rc d) (s.rc a) 0 0 b s
/-- CPYG (R282, R283). -/
def execCpyg (d a : CReg) (b : SReg) (s : State) : Res := copyIssue (tvalWord (.cpyg d a b)) 2 (s.rc d) (s.rc a) 0 0 b s
/-- CPYS (R282, R283). -/
def execCpys (d a : CReg) (b : SReg) (s : State) : Res := copyIssue (tvalWord (.cpys d a b)) 3 (s.rc d) (s.rc a) 0 0 b s
/-- CPYC (R282, R283). -/
def execCpyc (d a : CReg) (b : SReg) (s : State) : Res := copyIssue (tvalWord (.cpyc d a b)) 4 (s.rc d) (s.rc a) 0 0 b s
/-- CPYF: the source is a pattern scalar (R282, R283). -/
def execCpyf (d : CReg) (a b : SReg) (s : State) : Res :=
  copyIssue (tvalWord (.cpyf d a b)) 5 (s.rc d) Cap.null (s.rs a) 0 b s
/-- CPYB: the destination is a channel (R282, R287). -/
def execCpyb (d : SReg) (a : CReg) (b : SReg) (s : State) : Res :=
  copyIssue (tvalWord (.cpyb d a b)) 6 Cap.null (s.rc a) 0 (s.rs d) b s

/-! ### Where a command's task is (R393) -/

/-- The context that holds a task now. -/
def State.findTask (s : State) (id_ : Nat × Nat) : Option CtxId :=
  s.contexts.find? fun c => c.slot < 4 && (s.hartAt c).status ≠ .empty && (s.hartAt c).task.ident = id_

/-- The evicted task of this identity. -/
def State.findEvicted (s : State) (id_ : Nat × Nat) : Option (Nat × Saved) :=
  List.find? (fun p : Nat × Saved => p.2.evicted && p.2.hart.task.ident = id_) s.disp.saved

/-- Bytes that the entries of a quarantine buffer take: 16 more than their data each (R393, log 16). -/
def quarBytes (q : List (Nat × List Byte)) : Nat := (q.map fun e => e.2.length + 16).sum

/-- The outcome of a write into the issuing task's region by an engine (R392, R393): done, diverted to the quarantine of
the evicted task, whose QUAR section takes it, or held back because the quarantine is full. The region of a task that has ended is another's: nothing is written. -/
def State.writeRegion (s : State) (task : Nat × Nat) (off : Nat) (bs : List Byte) : Option State :=
  match s.findTask task with
  | some c => some (s.writeHomeBytes c.core (scratchKey c.die c.core ((s.hartAt c).task.region + off)) bs)
  | none =>
    match s.findEvicted task with
    | none => some s
    | some (id_, v) =>
      if 65536 < quarBytes v.hart.quar + bs.length + 16 then none
      else
        let q := v.hart.quar ++ [(off, bs)]
        let s := { s with disp := { s.disp with saved := s.disp.saved.insert id_ { v with hart := { v.hart with quar := q } } } }
        some (match v.saveSlot with
          | some i => s.saveImage v.left.die v.hart.task.part i (quarPieces q)
          | none => s)

/-! ### Moving elements (R283, R284, R290) -/

/-- What one engine access came to. -/
inductive Moved (α : Type) where
  | ok (a : α) (s : State)
  | fault (c : Cause) (x : Int) (s : State)
  | hold (s : State)

/-- Go on after an engine access. -/
def Moved.bind {α β : Type} (r : Moved α) (f : α → State → Moved β) : Moved β :=
  match r with
  | .ok a s => f a s
  | .fault c x s => .fault c x s
  | .hold s => .hold s

/-- The agent an engine acts as: its core, for a command's partition (R104). Region bounds were checked at issue. -/
def CopyCmd.who (m : CopyCmd) (c : CtxId) : Who := ⟨c.die, c.core, m.part, m.part, 0, Config.scratchBytes⟩

/-- The home of an engine access (R105 steps 6 and 7, R290); a lost target refuses it (R437). -/
def State.engineKey (s : State) (w : Who) (space : Nat) (x : Int) (n : Nat) (k : Kind) : Moved Nat :=
  match s.place w space x.toNat n with
  | .home key => .ok key s
  | .bad _ => .fault .accessDenied x s
  | .virt sp va =>
    match s.translate w.die w.core w.xpart sp va (some k) 0 with
    | .ok key s => if s.lost key then .fault .accessDenied x s else .ok key s
    | .trap c _ s => .fault (if c = .accessDenied then .accessDenied else .translation) x s
    | .wait => .hold s

/-- Bytes as an engine of a die reads them: reductions on their way to these bytes come first, and an uncorrectable line arrives as
zeros and is logged (R112, R113, R116). -/
def State.engineLines (s : State) (die core : Nat) (agent : Reader) (k n : Nat) : List Byte × Bool × State :=
  let s := s.settleAtomics die k n
  let s := if keyRegion k = 4 then s.sendLoad k else s
  let out := (s.dieAt die).outbound
  let bad := if s.bad = [] then [] else
    s.bad.filter fun w => (upFrom k n).any fun j => j / 64 = w / 8 && (newestByte out j).isNone
  ((upFrom k n).map fun j => if (bad.any fun w => w / 8 = j / 64) && (newestByte out j).isNone then 0 else s.dieByte die j,
    bad ≠ [], s.logErrors agent core bad)

/-- A run of bytes cut at multiples of 64: an engine translates each piece, so that a run may cross a page (R294). -/
def lineRuns (x n : Nat) : List (Nat × Nat) :=
  (List.range ((x % 64 + n + 63) / 64)).map fun i =>
    let a := Nat.max x (x / 64 * 64 + 64 * i)
    (a, Nat.min (x + n) (x / 64 * 64 + 64 * i + 64) - a)

/-- Runs of a save slot as an engine reads them; none where a page has no translation. -/
def State.slotRuns (s : State) (die core : Nat) (agent : Reader) (part slot : Nat) : List (Nat × Nat) → Option (List Byte × Bool × State)
  | [] => some ([], false, s)
  | (x, n) :: t =>
    match s.saveKey die part slot x .load with
    | none => none
    | some k =>
      match s.engineLines die core agent k n with
      | (bs, bad, s) => (s.slotRuns die core agent part slot t).map fun r => (bs ++ r.1, bad || r.2.1, r.2.2)

/-- Bytes of an evicted task's region at an offset as an engine reads them, from the extent in its save slot (R78, R113, R392, log 101); none
beyond LIVEX, which is lost (R77). -/
def State.extentBytes (s : State) (die core : Nat) (agent : Reader) (v : Saved) (off n : Nat) : Option (List Byte × Bool × State) :=
  match v.saveSlot with
  | some i =>
    if off + n ≤ v.hart.task.livex * 4096 then s.slotRuns die core agent v.hart.task.part i (lineRuns (extentAt + off) n) else none
  | none => none

/-- Bytes of a meridian snapshot at an offset, and the uncorrectable words of their lines (R113, R134). -/
def Snap.bytes (p : Snap) (off n : Nat) : List Byte × List Nat :=
  let bad := touchedWords p.bad (off / 64 * 64) ((off + n + 63) / 64 * 64 - off / 64 * 64)
  ((upFrom off n).map fun j => if bad.any fun w => w / 8 = j / 64 then 0 else memGet p.cells j, bad)

/-- Read `n` source bytes at an address (R113, R134); a region that an eviction has taken away is read as its extent was saved
(R78, log 101). -/
def State.copyRead (s : State) (c : CtxId) (eng : Nat) (m : CopyCmd) (x : Int) (n : Nat) : Moved (List Byte × Bool) :=
  match m.meridian with
  | some p =>
    match p.bytes (x.toNat % 2 ^ 24) n with
    | (bs, bad) => .ok (bs, bad ≠ []) (s.logErrors (.copy eng) c.core (bad.map (meridianKey c.die p.slot 0 / 8 + ·)))
  | none =>
    (s.engineKey (m.who c) m.src.space x n .load).bind fun k s =>
    let line := fun k => match s.engineLines c.die c.core (.copy eng) k n with
      | (bs, bad, s) => Moved.ok (bs, bad) s
    if m.src.space ≠ 1 then line k
    else
      let off := x.toNat - m.region
      match s.findTask m.task, s.findEvicted m.task with
      | some t, _ => line (scratchKey t.die t.core ((s.hartAt t).task.region + off))
      | none, none => line k
      | none, some (_, v) =>
        match s.extentBytes c.die c.core (.copy eng) v off n with
        | some (bs, bad, s) => .ok (bs, bad) s
        | none => .hold s

/-- A fill that goes to a lost target: it is discarded and counted (R437). -/
def State.fillLost (s : State) (m : CopyCmd) (x : Int) : Bool :=
  m.kind = kCpyf && (match s.locate? 0 16 m.part m.dst.space x.toNat none with
    | some k => s.lost k
    | none => false)

/-- A store of an engine of a context goes on its way to its home (R115). -/
def State.engineStore (s : State) (c : CtxId) (k : Nat) (bs : List Byte) : State :=
  s.leaveQueue (.store 0 c.key (cellsAt k bs) false false)

/-- Write bytes at an address of a space as a command does (R115, R393). -/
def State.copyWrite (s : State) (c : CtxId) (m : CopyCmd) (space : Nat) (x : Int) (bs : List Byte) : Moved Unit :=
  if 4 ≤ space && space ≤ 6 && s.fillLost m x then
    .ok () { s with fabric := { s.fabric with losses := s.fabric.losses + 1 } }
  else
  (s.engineKey (m.who c) space x bs.length .store).bind fun k s =>
  if space = 1 then
    match s.writeRegion m.task (x.toNat - m.region) bs with
    | some s => .ok () s
    | none => .hold s
  else .ok () (s.engineStore c k bs)

/-- The coordinates of element `n` of a nest, dimension 0 fastest. -/
def coords (c : List Byte) (n : Nat) : Nat × Nat × Nat × Nat :=
  (n % cExt c 0, n / cExt c 0 % cExt c 1, n / (cExt c 0 * cExt c 1) % cExt c 2, n / (cExt c 0 * cExt c 1 * cExt c 2))

/-- The bound of dimension `d` admits a coordinate. -/
def inBound (c : List Byte) (d i : Nat) : Bool := cBnd c d = 0 || i < cBnd c d

/-- Element `n` of a command: whether it is in bounds, and its source and destination offsets less i0 × e (R283). -/
def CopyCmd.element (m : CopyCmd) (n : Nat) : Bool × Int × Int :=
  match coords m.card n with
  | (i0, i1, i2, i3) =>
    let j := if m.kind = kCpyg || m.kind = kCpys then m.idx.getD i1 0 else i1
    let s1 := if m.kind = kCpyg then j else i1
    let d1 := if m.kind = kCpys then j else i1
    (inBound m.card 0 i0 && inBound m.card 1 j && inBound m.card 2 i2 && inBound m.card 3 i3,
      cSstr m.card 1 * s1 + cSstr m.card 2 * i2 + cSstr m.card 3 * i3,
      cDstr m.card 1 * d1 + cDstr m.card 2 * i2 + cDstr m.card 3 * i3)

/-- FLAGS of a completion record (R289). -/
def fOob : Nat := 4
/-- MEMERR. -/
def fMemerr : Nat := 8
/-- XLATE. -/
def fXlate : Nat := 16
/-- WAITPOISON. -/
def fWaitpoison : Nat := 32
/-- KILLED. -/
def fKilled : Nat := 64
/-- CHANPOISON. -/
def fChanpoison : Nat := 128
/-- ERR. -/
def fErr : Nat := 2 ^ 13

/-- A command with flags added. -/
def CopyCmd.flag (m : CopyCmd) (f : Nat) : CopyCmd := { m with flags := m.flags ||| f }

/-- All-zero or not yet read elements aside, read element `n`; a byte gives both of its 4-bit values (R82, R283). -/
def CopyCmd.readElem (m : CopyCmd) (c : CtxId) (eng bits n : Nat) (s : State) : Moved CopyCmd :=
  let i0 := n % cExt m.card 0
  let x : Int := m.src.cursor + (m.element n).2.1 + (i0 * bits / 8 : Nat)
  (s.copyRead c eng m x (byteSize bits)).bind fun r s =>
    let v := leNat r.1
    let got := if bits = 4 then (m.got.insert (n - i0 % 2) (v % 16)).insert (n - i0 % 2 + 1) (v / 16) else m.got.insert n v
    .ok { m.flag (if r.2 then fMemerr else 0) with got := got } s

/-- The value of element `n` as it enters a packing sink or a channel: +0 when it is out of bounds (R284). -/
def CopyCmd.value (m : CopyCmd) (n : Nat) : Nat :=
  if m.kind = kCpyf then leNat ((List.range (2 ^ cEsz m.card)).map fun i => m.pattern.extractLsb' (8 * (i % 8)) 8)
  else if (m.element n).1 then m.got.getD n 0 else 0

/-- A quantised band of rows of K values: element bytes, block codes, band scale, flags (R94, R285). -/
def quantBand (t k : Nat) (vals : List Nat) : List Byte × List Byte × List Byte × Flags5 :=
  let f := fmtOf t
  let mags := vals.map fun v => magOf f (f.decode v)
  match maxMag (mags.map fun x => (x.1, x.2.1)) with
  | (am, ae) =>
    let band := (bf16.roundRat 3 false am 96 ae).1
    match bandScale (bf16.decode band) with
    | (sm, se, _) =>
      let blocks := pieces 8 (vals.length / 8) vals
      let codes := blocks.map fun b =>
        match maxMag (b.map fun v => match magOf f (f.decode v) with
          | (m, e, _) => (m, e)) with
        | (bm, be) => (blockCode (bf16.decode band) bm be).1
      let els := ((blocks.zip codes).map fun p => p.1.map fun v => quantElem f (e3m5 p.2 * sm) (se - 7) v).flatten
      (((pieces k (vals.length / Nat.max 1 k) (els.map (·.1))).map (packValues 4)).flatten, codes.map (BitVec.ofNat 8 ·),
        leBytes 2 band, els.foldl (fun acc r => acc ||| r.2) 0)

/-- How the values of a command become destination units, which are written one by one in no fixed order (R114, R284–R287):
single elements, or pairs of 4-bit ones; the bytes of FP4S bands; the bytes of panels; pieces of a channel's slots. -/
inductive Sink where
  | plain (cv : Option (Nat × Nat))
  | bands
  | panels (src w slot : Nat)
  | slots (cv : Option (Nat × Nat)) (size : Nat)

/-- The sink of a command; `ch` is the channel of a CPYB. -/
def CopyCmd.sink (m : CopyCmd) (ch : Option Channel) : Sink :=
  let cv := copyConv m.kind m.card ch
  let w := cDfmt m.card
  match ch with
  | some h => if wBp h.sinkFmt.toNat then .panels (wType h.srcFmt.toNat) h.sinkFmt.toNat h.slotBytes else .slots cv h.slotBytes
  | none =>
    if m.kind = kCpyc && wQ4 w then .bands
    else if m.kind = kCpyc && wBp w then .panels (cStype m.card) w (panelBytes (bpFormat (wType w)) (wPl w))
    else .plain cv

/-- Bytes of a unit written to a channel's slots: an element, or what of it a slot takes. -/
def unitSize (card : List Byte) (cv : Option (Nat × Nat)) (size : Nat) : Nat := Nat.max 1 (Nat.min (dstBits card cv / 8) size)

/-- Source elements per destination unit of a plain sink: two 4-bit values make a byte (R82). -/
def unitStep (cv : Option (Nat × Nat)) : Nat :=
  match cv with
  | some p => if typeBits (wType p.2) = 4 then 2 else 1
  | none => 1

/-- Source elements that make a panel: 32 column runs of Ks consecutive input values (R286). -/
def panelElems (w : Nat) : Nat := 32 * wfKs (bpFormat (wType w))

/-- Destination units of a command. -/
def CopyCmd.units (m : CopyCmd) (k : Sink) : Nat :=
  let total := cardTotal m.card
  match k with
  | .plain cv => total / unitStep cv
  | .bands => packedBytes m.card
  | .panels _ w slot => total / Nat.max 1 (panelElems w) * slot
  | .slots cv size => total * dstBits m.card cv / 8 / unitSize m.card cv size

/-- Units of one slot of a channel. -/
def CopyCmd.perSlot (m : CopyCmd) (k : Sink) : Nat :=
  match k with
  | .slots cv size => size / unitSize m.card cv size
  | .panels _ _ slot => slot
  | _ => 1

/-- The source elements that a unit takes: the first and how many. -/
def CopyCmd.needs (m : CopyCmd) (k : Sink) (u : Nat) : Nat × Nat :=
  let c := m.card
  match k with
  | .plain cv => (u * unitStep cv, unitStep cv)
  | .bands =>
    let n := 64 * cExt c 0
    let g := u / (n * 5 / 8 + 2)
    (g * n, Nat.min n (cardTotal c - g * n))
  | .panels _ w slot => (u / Nat.max 1 slot * panelElems w, panelElems w)
  | .slots cv size =>
    let b := unitSize c cv size
    if dstBits c cv < 8 then (2 * u, 2) else (u * b * 8 / dstBits c cv, 1)

/-- A value on its way to a destination (R281). -/
def sinkValue (cv : Option (Nat × Nat)) (v : Nat) : Nat × Flags5 :=
  match cv with
  | some p => convValue p.1 p.2 v
  | none => (v, 0)

/-- The flags of converted values. -/
def flagsOf (l : List (Nat × Flags5)) : Flags5 := l.foldl (fun acc r => acc ||| r.2) 0

/-- A unit made of its source values: its offset from the destination cursor or the channel's slot, its bytes, and the flags of the
conversion. -/
def CopyCmd.make (m : CopyCmd) (k : Sink) (u : Nat) (vals : List Nat) : Int × List Byte × Flags5 :=
  let c := m.card
  match k with
  | .plain cv =>
    let n := u * unitStep cv
    let rs := vals.map (sinkValue cv)
    ((m.element n).2.2 + (n % cExt c 0 * dstBits c cv / 8 : Nat), packValues (dstBits c cv) (rs.map (·.1)), flagsOf rs)
  | .bands =>
    let n := 64 * cExt c 0
    let all := cExt c 0 * cExt c 1
    let g := u / (n * 5 / 8 + 2)
    let r := u % (n * 5 / 8 + 2)
    let e := vals.length
    match quantBand (cStype c) (cExt c 0) vals with
    | (els, codes, band, fl) =>
      let at_ := if r < e / 2 then (g * n / 2 + r, els.getD r 0)
        else if r < e / 2 + e / 8 then (all / 2 + g * n / 8 + (r - e / 2), codes.getD (r - e / 2) 0)
        else (all / 2 + all / 8 + 2 * g + (r - e / 2 - e / 8), band.getD (r - e / 2 - e / 8) 0)
      ((at_.1 : Nat), [at_.2], fl)
  | .panels src w slot =>
    let rs := vals.map (convValue src w)
    let p := panelOf (bpFormat (wType w)) (wPl w) (pieces (wfKs (bpFormat (wType w))) 32 (rs.map (·.1))) [] []
    ((if m.kind = kCpyb then u % Nat.max 1 slot else u : Nat), [p.getD (u % Nat.max 1 slot) 0], flagsOf rs)
  | .slots cv size =>
    let b := unitSize c cv size
    let rs := vals.map (sinkValue cv)
    let bs := packValues (dstBits c cv) (rs.map (·.1))
    ((u * b % Nat.max 1 size : Nat), (bs.drop (u * b % Nat.max 1 bs.length)).take b, flagsOf rs)

/-- A unit of a command has been disposed of: `done` counts those before the first that has not, `extra` lists others. -/
def CopyCmd.dispose (m : CopyCmd) (u : Nat) : CopyCmd :=
  let extra := u :: m.extra
  let n := ((upFrom m.done (extra.length + 1)).find? fun i => !extra.contains i).getD m.done
  { m with done := n, extra := extra.filter (n < ·) }

/-- A unit may be written before those older than it: of two that share bytes the later one is applied later (R284). -/
def CopyCmd.mayWrite (m : CopyCmd) (k : Sink) (u : Nat) : Bool :=
  match k with
  | .plain cv =>
    let at_ := fun i => (m.make (.plain cv) i []).1
    let size := Nat.max 1 (dstBits m.card cv * unitStep cv / 8)
    (upFrom m.done (u - m.done)).all fun i =>
      m.extra.contains i || !(m.element (i * unitStep cv)).1 || size ≤ (at_ i - at_ u).natAbs
  | _ => true

/-- The unit that a command goes on with below a limit: a free one of those left, or the first (R114). -/
def CopyCmd.pick (m : CopyCmd) (k : Sink) (limit : Nat) (s : State) : Nat :=
  let u := m.done + (Config.freeWord s.steps).toNat % Nat.max 1 (limit - m.done)
  if m.extra.contains u || !m.mayWrite k u then m.done else u

/-- One access of a command: a source element of the unit it goes on with is read, or the unit is written at an address that `dest`
gives its offset; a unit out of bounds is skipped (R284, R290). -/
def copyStep (c : CtxId) (eng : Nat) (k : Sink) (limit : Nat) (space : Nat) (dest : Int) (m : CopyCmd) (s : State) :
    CopyCmd × Option (Cause × Int) × State :=
  let u := m.pick k limit s
  match m.needs k u with
  | (n, len) =>
    let skip := match k with
      | .plain _ => !(m.element n).1
      | _ => false
    let want := if m.kind = kCpyf then [] else (upFrom n len).filter fun i => (m.element i).1 && (m.got.find? i).isNone
    if skip then ((m.flag fOob).dispose u, none, s)
    else
      match s.turned want with
      | i :: _ =>
        match m.readElem c eng (match k with
            | .plain cv => srcBits m.card cv
            | .slots cv _ => srcBits m.card cv
            | .bands => typeBits (cStype m.card)
            | .panels src _ _ => typeBits src) i s with
        | .ok m s => (m, none, s)
        | .fault e x s => (m, some (e, x), s)
        | .hold s => (m, none, s)
      | [] =>
        match m.make k u ((upFrom n len).map m.value) with
        | (off, bs, fl) =>
          match s.copyWrite c m space (dest + off) bs with
          | .ok _ s => ({ (m.flag (fl.toNat * 2 ^ 8)).dispose u with bytes := m.bytes + bs.length }, none, s)
          | .fault e x s => (m, some (e, x), s)
          | .hold s => (m, none, s)

/-! ### Completion (R284, R289, R290) -/

/-- The completion record (R289). -/
def CopyCmd.record (m : CopyCmd) (finish_ : Nat) : List Byte :=
  leBytes 8 m.issue ++ leBytes 8 finish_ ++ leBytes 8 m.bytes ++ leBytes 4 (m.flags ||| 1) ++ leBytes 4 m.seq

/-- Replace the command of a sequence number in an engine context. -/
def State.putCopy (s : State) (c : CtxId) (eng : Nat) (m : CopyCmd) : State :=
  s.modCopy c eng fun x => { x with cmds := x.cmds.map fun y => if y.seq = m.seq then m else y }

/-- Apply the signal of a command: a release at the smallest scope of engine and counter (R130, R262, R284). -/
def State.engineSignal (s : State) (die : Nat) (sig : Option Signal) (err : Bool) : State :=
  match sig with
  | none => s
  | some g => (if g.ctr / 256 = die then s else s.releaseFrom die 2).signal g.ctr g.inc err

/-- Signal and remove the oldest commands of a context while their transfers are over: signals go in issue order
(R132, R278). -/
def State.settleCopies (s : State) (c : CtxId) (eng : Nat) : Nat → State
  | 0 => s
  | n + 1 =>
    match (s.copyCtx c eng).cmds with
    | m :: t =>
      if m.state = .ended then
        ((s.modCopy c eng fun x => { x with cmds := t }).engineSignal c.die m.signal (bitOf m.flags 13)).settleCopies c eng n
      else s
    | [] => s

/-- The key of an engine context in a channel's line of reservers. -/
def lineKey (c : CtxId) (eng : Nat) : Nat := 2 ^ 20 + engKey c eng

/-- An engine leaves the line of reservers of a command's channel, which serves those behind it (R269). -/
def State.leaveLine (s : State) (c : CtxId) (eng : Nat) (m : CopyCmd) : State :=
  match s.shared.channels.find? m.chan with
  | some ch =>
    if m.kind = kCpyb && ch.waiters.contains (lineKey c eng) then
      (s.setChannel m.chan { ch with waiters := ch.waiters.filter (· ≠ lineKey c eng) }).serveChannel m.chan
    else s
  | none => s

/-- A barrier in a task's region receives a command's bytes: a release when its die is not the engine's (R130, R265). -/
def State.deliverBarrier (s : State) (c t : CtxId) (off bytes : Nat) : State :=
  (if t.die = c.die then s else s.releaseFrom c.die 2).barrierDeliver (scratchKey t.die t.core ((s.hartAt t).task.region + off)) bytes

/-- A command's transfer is over: its record, its barrier delivery, and its signal when its turn comes (R284). The record of an
evicted task goes to its quarantine, and its barrier receives the bytes when the task is back: the command waits for that, as for
room in the quarantine (R78, R393, log 101). -/
def State.copyEnds (s : State) (c : CtxId) (eng : Nat) (m : CopyCmd) : State :=
  let s' := if cFlag m.card 11 then s.writeRegion m.task m.cardOff (m.record s.polestar) else some s
  match s' with
  | none => s
  | some t =>
    let held := match s.findTask m.task, s.findEvicted m.task with
      | none, some _ => cFlag m.card 10
      | _, _ => false
    if held then s
    else
      let t := match cFlag m.card 10, s.findTask m.task with
        | true, some h => t.deliverBarrier c h (field m.card 60 4 % 2 ^ 25) m.bytes
        | _, _ => t
      let t := (t.leaveLine c eng m).putCopy c eng { m with state := .ended, piece := none }
      let t := if m.kind = kCpyb then t.reapRevoked else t
      t.settleCopies c eng (t.copyCtx c eng).cmds.length

/-- What a step of a transfer leaves: its progress, and a fault posted (R290, R373). -/
def State.copyProgress (s : State) (c : CtxId) (eng : Nat) (m : CopyCmd) (f : Option (Cause × Int)) : State :=
  match f with
  | none => s.putCopy c eng m
  | some (cause, x) =>
    (s.postEngine c.die c.core ⟨cause, eng, false, c.slot, tv x, m.seq % 2 ^ 32, s.polestar, false⟩).putCopy c eng { m with state := .stalled }

/-- The stalled command of an engine-fault entry (R373). -/
def State.faultedCopy (s : State) (die core : Nat) (e : EngFault) : Option CopyCmd :=
  (s.copyCtx ⟨die, core, e.slot⟩ e.engine).cmds.find? fun m => m.state = .stalled && m.seq % 2 ^ 32 = e.num

/-- All units of a command have been disposed of, and no slot of a channel is held. -/
def CopyCmd.moved (m : CopyCmd) (k : Sink) : Bool := m.units k ≤ m.done && m.piece.isNone

/-- A CPYB goes on with the piece whose slot is reserved, or pushes the slot once the piece is written: a release at the descriptor's
scope (R130, R287). -/
def cpybStep (c : CtxId) (eng : Nat) (m : CopyCmd) (ch : Channel) (i first : Nat) (s : State) : State :=
  let k := m.sink (some ch)
  let limit := first + m.perSlot k
  if limit ≤ m.done then
    ((s.releaseFrom c.die ch.scope).putCopy c eng { m with piece := none }).fillSlot m.chan i
  else
    match copyStep c eng k limit 3 (((ch.baseFor m.part).getD 0 + i * ch.slotBytes) % 2 ^ 48 : Nat) m s with
    | (m, f, s) => s.copyProgress c eng m f

/-- The commands of a context that are under way. -/
def CopyCtx.running (x : CopyCtx) : List CopyCmd := x.cmds.filter fun m => m.state = .running

/-- Which of several commands under way goes on next is free (R278). -/
def State.pickCopy (s : State) (l : List CopyCmd) : Option CopyCmd :=
  match l with
  | [] => none
  | [m] => some m
  | l => l[(Config.freeWord s.steps).toNat / 2 ^ 56 % l.length]?

/-- The wait field of a command is met, or its counter poisoned (R133, R284). -/
def State.commandWait (s : State) (w : Option (Nat × Nat)) : WaitState :=
  match w with
  | none => .met
  | some (k, t) =>
    if ctrPoison (s.counter k) then .fate .engineError 0
    else if t ≤ ctrValue (s.counter k) then .met
    else .unmet

/-- COPY_START: the oldest waiting command of a context starts when its engine has accepted it and its wait field is met; a
poisoned counter ends it (R121, R278, R284). -/
def execCopyStart (die core slot eng : Nat) (s : State) : Res :=
  let c : CtxId := ⟨die, core, slot⟩
  match (s.copyCtx c eng).waiting with
  | [] => .next s
  | m :: _ =>
    if !m.taken || s.engineHeld die core eng then .next s
    else
      match s.commandWait m.wait with
      | .fate _ _ => .next (s.copyEnds c eng { m.flag (fErr + fWaitpoison) with issue := (Config.freeWord s.steps).toNat })
      | .met => .next (s.putCopy c eng { m with state := .running, issue := s.polestar })
      | .unmet => .next s

/-- COPY_COMPLETE: a command under way makes its next access, or pushes a slot; one with nothing left finishes (R284–R287,
R290, log 21). -/
def execCopyComplete (die core slot eng : Nat) (s : State) : Res :=
  let c : CtxId := ⟨die, core, slot⟩
  match s.pickCopy (s.copyCtx c eng).running with
  | none => .next s
  | some m =>
    if s.engineHeld die core eng then .next s
    else if m.kind = kCpyb then
      match s.shared.channels.find? m.chan with
      | none => .next (s.copyEnds c eng (m.flag (fErr + fChanpoison)))
      | some ch =>
        if m.moved (m.sink (some ch)) then .next (s.copyEnds c eng m)
        else if ch.poison then .next (s.copyEnds c eng (m.flag (fErr + fChanpoison)))
        else
          match m.piece with
          | none => .next s
          | some (i, first) => .next (cpybStep c eng m ch i first s)
    else
      let k := m.sink none
      if m.moved k then .next (s.copyEnds c eng m)
      else
        match copyStep c eng k (m.units k) m.dst.space m.dst.cursor m s with
        | (m, f, s) => .next (s.copyProgress c eng m f)

/-- CPYB_SLOT_RESERVE: a CPYB reserves the slot for its next piece, in its turn (R269, R287). -/
def execCpybSlotReserve (die core slot eng : Nat) (s : State) : Res :=
  let c : CtxId := ⟨die, core, slot⟩
  match (s.copyCtx c eng).running.find? fun m => m.kind = kCpyb && m.piece.isNone with
  | none => .next s
  | some m =>
    match s.shared.channels.find? m.chan with
    | none => .next s
    | some ch =>
      if ch.poison || m.moved (m.sink (some ch)) || s.engineHeld die core eng then .next s
      else if ch.mayReserve (lineKey c eng) then
        .next (((s.chReserve m.chan (lineKey c eng) ch).putCopy c eng { m with piece := some (ch.rsv, m.done) }).serveChannel m.chan)
      else if ch.waiters.contains (lineKey c eng) then .next s
      else .next (s.setChannel m.chan { ch with waiters := ch.waiters ++ [lineKey c eng] })

/-- The timed copies of an engine that may be released now: accepted, tick reached, wait met or poisoned (R291). -/
def State.timedDue (s : State) (die core eng : Nat) : List (CtxId × CopyCmd) :=
  ((List.range 4).map fun i => ((s.copyCtx ⟨die, core, i⟩ eng).cmds.filter fun m =>
    m.taken && m.state = .queued && m.kind = kCpyt && m.tick ≤ s.polestar && s.commandWait m.wait ≠ .unmet).map
      fun m => ((⟨die, core, i⟩ : CtxId), m)).flatten

/-- CPYT_RELEASE: the time buffer releases its first due command, by issue tick and acceptance (R291). -/
def execCpytRelease (die core eng : Nat) (s : State) : Res :=
  let first := (s.timedDue die core eng).foldl (fun best x =>
    match best with
    | none => some x
    | some b => if x.2.tick < b.2.tick || (x.2.tick = b.2.tick && x.2.accepted < b.2.accepted) then some x else best)
    (none : Option (CtxId × CopyCmd))
  match first with
  | none => .next s
  | some (c, m) =>
    if s.engineHeld die core eng then .next s
    else
    let m := { m.flag (if m.late then 2 else 0) with issue := s.polestar }
    match s.commandWait m.wait with
    | .fate _ _ => .next (s.copyEnds c eng (m.flag (fErr + fWaitpoison)))
    | _ => .next (s.putCopy c eng { m with state := .running })

/-- A timed copy whose tick passes while its wait field is unmet will be LATE (R291). -/
def CopyCmd.ageTimed (s : State) (now : Nat) (m : CopyCmd) : CopyCmd :=
  if m.taken && m.state = .queued && m.kind = kCpyt && s.polestar ≤ m.tick && m.tick ≤ now && s.commandWait m.wait = .unmet then
    { m with late := true }
  else m

/-- Ticks pass: the timed copies whose tick they reach with an unmet wait become LATE (R291). -/
def State.ageCopies (s : State) (now : Nat) : State :=
  { s with eng := { s.eng with copies := s.eng.copies.map fun (p : Nat × CopyCtx) =>
      (p.1, { p.2 with cmds := p.2.cmds.map (CopyCmd.ageTimed s now) }) } }

/-- Kill of a task: its commands in a context's engines that are not complete end with ERR and KILLED (R290). The region of an
evicted one is gone, and with it the record and the barrier (R393). -/
def State.killCopiesOf (s : State) (c : CtxId) (id_ : Nat × Nat) : State :=
  [0, 1].foldl (fun s eng =>
    (s.copyCtx c eng).cmds.foldl (fun s m =>
      if m.state = .ended || m.task ≠ id_ then s
      else
        let m := { m.flag (fErr + fKilled) with issue := if m.state = .queued then (Config.freeWord s.steps).toNat else m.issue }
        if (s.findTask id_).isSome then s.copyEnds c eng m
        else
          let t := (s.leaveLine c eng m).putCopy c eng { m with state := .ended, piece := none }
          t.settleCopies c eng (t.copyCtx c eng).cmds.length) s) s

/-- Kill of the task of a context (R290). -/
def State.killCopies (s : State) (c : CtxId) : State := s.killCopiesOf c (s.hartAt c).task.ident

end Sys2Proof.Machine
end

