-- ==== Sys2Proof/Machine/Tile.lean ====
section
/-! DEFINITION. Tile registers: major 0x13 (R68–R70, R222–R229). -/

namespace Sys2Proof.Machine

/-- The word of an FT instruction, for TVAL (R140, R149). -/
def ftWord (td ta vb sb fn : Nat) : Word := BitVec.ofNat 64 (encFT 0x13 td ta vb sb fn 0)

/-! ### Geometry (R68, R222) -/

/-- The fields of TSHAPE; a write ignores the reserved bits (R5, R68). -/
def shapeMask : Word := 0x37F7F

/-- A TSHAPE value is valid (R68). -/
def shapeValid (sh : Word) : Bool :=
  sh = 0 || (1 ≤ shapeRows sh && shapeRows sh ≤ 64 && 4 ≤ shapeBytes sh && shapeBytes sh ≤ 256 && shapeWidth sh ≠ 3)

/-- The shape register of a tile. -/
def State.shape (s : State) (t : TReg) : Word := s.hart.tile.shape.get t.toFin

/-- A row of a tile (R222). -/
def State.tileRow (s : State) (t : TReg) (r : Nat) : VBits := (s.hart.tile.rows.get t.toFin)[r]?.getD 0

/-- Change the tile registers. -/
def State.modTile (s : State) (f : TileRegs → TileRegs) : State := s.mod fun h => { h with tile := f h.tile }

/-- Write a shape register: once no older tile instruction is outstanding the tile reads zero and its dirty bit clears (R69). -/
def State.setShape (s : State) (t : TReg) (sh : Word) : State :=
  (if sh = 0 then s else s.settleTiles).modTile fun q =>
    { rows := q.rows.set t.toNat (Vector.replicate 64 0) t.isLt, shape := q.shape.set t.toNat sh t.isLt,
      dirty := q.dirty &&& ~~~(1#8 <<< t.toNat) }

/-- Write every row of a tile (R70, R222). -/
def State.setTile (s : State) (t : TReg) (f : Nat → VBits) : State := s.modTile fun q => q.write t f

/-- Write one row of a tile, as `setTile`. -/
def State.setTileRow (s : State) (t : TReg) (r : Nat) (x : VBits) : State :=
  s.setTile t fun i => if i = r then x else s.tileRow t i

/-- Element (r, c) of a tile (R222). -/
def State.tileElem (s : State) (t : TReg) (r c : Nat) : Nat := lane (s.tileRow t r) (8 * shapeElem (s.shape t)) c

/-! ### Checks (R224) -/

/-- A tile instruction: tasks only; every tile named configured, else TILE_UNCONFIGURED with the lowest such number;
then the shape and index checks (R224). -/
def tileOp (word : Word) (names : List TReg) (shapesOk : Bool) (s : State) (r : R Unit) : Res :=
  finish 4 s (taskOnly s word (
    match (List.range 8).find? fun n => names.any fun t => t.toNat = n && s.shape t = 0 with
    | some n => .trap .tileUnconfigured (BitVec.ofNat 64 n) s
    | none => if shapesOk then r else .trap .illegal word s))

/-! ### Configuration (R225) -/

/-- TCFG (R225). -/
def execTcfg (d : TReg) (b : SReg) (s : State) : Res :=
  let sh := s.rs b &&& shapeMask
  tileOp (ftWord d.toNat 0 0 b.toNat 0) [] (shapeValid sh) s (.ok () (s.setShape d sh))
/-- TZERO (R225). -/
def execTzero (d : TReg) (s : State) : Res :=
  tileOp (ftWord d.toNat 0 0 0 1) [d] true s (.ok () (s.setTile d fun _ => 0))
/-- TREL (R225). -/
def execTrel (d : TReg) (s : State) : Res :=
  tileOp (ftWord d.toNat 0 0 0 12) [d] true s (.ok () (s.setShape d 0))

/-! ### Memory forms (R226) -/

/-- The elements of rows as one list: row r, column c is r × 256 + c. -/
def tileElems (sh : Word) (rows : List Nat) : List Nat :=
  (rows.map fun r => upFrom (r * 256) (shapeCols sh)).flatten

/-- Load rows of a tile: their elements enter the load queue as one load, whose units are performed in no fixed order (R114,
R119, R226). -/
def tileLoad (word : Word) (d : TReg) (c : CReg) (rows : List Nat) (ok : Bool) (addr : Nat → Int) (s : State) : Res :=
  let sh := s.shape d
  let eb := shapeElem sh
  tileOp word [d] ok s (
    (checkElems (s.rc c) eb .load (fun i => addr (i / 256) + (i % 256 * eb : Nat)) (tileElems sh rows) s).bind fun es s =>
      .ok () (s.queueLoad (s.rc c).space eb (.tile d sh) (es.map fun e => (e.1, e.2.1))))

/-- Store rows of a tile: each element a store of its own, performed in no fixed order (R114, R226). -/
def tileStore (word : Word) (a : TReg) (c : CReg) (rows : List Nat) (ok : Bool) (addr : Nat → Int) (s : State) : Res :=
  let sh := s.shape a
  let eb := shapeElem sh
  let els := tileElems sh rows
  tileOp word [a] ok s (
    (checkElems (s.rc c) eb .store (fun i => addr (i / 256) + (i % 256 * eb : Nat)) els s).bind fun es s =>
      .ok () ((es.foldl (fun t e =>
        t.enqueueStore (cellsAt e.2.1 (leBytes eb (s.tileElem a (e.1 / 256) (e.1 % 256)))) false true) s
        ).storeEffect (s.rc c).space))

/-- TLDROW (R226). -/
def execTldrow (d : TReg) (c : CReg) (b : SReg) (s : State) : Res :=
  tileLoad (ftWord d.toNat 0 c.toNat b.toNat 2) d c [(s.rs b).toNat] ((s.rs b).toNat < shapeRows (s.shape d))
    (fun _ => (s.rc c).cursor) s
/-- TSTROW (R226). -/
def execTstrow (a : TReg) (c : CReg) (b : SReg) (s : State) : Res :=
  tileStore (ftWord 0 a.toNat c.toNat b.toNat 3) a c [(s.rs b).toNat] ((s.rs b).toNat < shapeRows (s.shape a))
    (fun _ => (s.rc c).cursor) s
/-- TLD (R226). -/
def execTld (d : TReg) (c : CReg) (b : SReg) (s : State) : Res :=
  tileLoad (ftWord d.toNat 0 c.toNat b.toNat 4) d c (List.range (shapeRows (s.shape d))) true
    (fun r => ((s.rc c).cursor : Int) + (r : Int) * (s.rs b).toInt) s
/-- TST (R226). -/
def execTst (a : TReg) (c : CReg) (b : SReg) (s : State) : Res :=
  tileStore (ftWord 0 a.toNat c.toNat b.toNat 5) a c (List.range (shapeRows (s.shape a))) true
    (fun r => ((s.rc c).cursor : Int) + (r : Int) * (s.rs b).toInt) s

/-! ### Vector moves and transposition (R227, R228) -/

/-- TROWV (R227). -/
def execTrowv (a : TReg) (v : VReg) (b : SReg) (s : State) : Res :=
  let r := (s.rs b).toNat
  tileOp (ftWord 0 a.toNat v.toNat b.toNat 6) [a] (r < shapeRows (s.shape a)) s (.ok () (s.wv v (s.tileRow a r)))
/-- TCOLV (R227). -/
def execTcolv (a : TReg) (v : VReg) (b : SReg) (s : State) : Res :=
  let sh := s.shape a
  let c := (s.rs b).toNat
  tileOp (ftWord 0 a.toNat v.toNat b.toNat 7) [a] (c < shapeCols sh) s
    (.ok () (s.wv v (vecOf (8 * shapeElem sh) ((List.range (shapeRows sh)).map fun i => s.tileElem a i c))))
/-- TVROW (R227). -/
def execTvrow (d : TReg) (v : VReg) (b : SReg) (s : State) : Res :=
  let r := (s.rs b).toNat
  tileOp (ftWord d.toNat 0 v.toNat b.toNat 8) [d] (r < shapeRows (s.shape d)) s (.ok () (s.setTileRow d r (s.rv v)))
/-- TVCOL (R227). -/
def execTvcol (d : TReg) (v : VReg) (b : SReg) (s : State) : Res :=
  let sh := s.shape d
  let w := 8 * shapeElem sh
  let c := (s.rs b).toNat
  tileOp (ftWord d.toNat 0 v.toNat b.toNat 9) [d] (c < shapeCols sh) s
    (.ok () (s.setTile d fun i =>
      vecOf w ((List.range (shapeCols sh)).map fun j => if j = c then lane (s.rv v) w i else s.tileElem d i j)))

/-- The shapes of a transposition agree (R228). -/
def transShapes (d a : Word) : Bool :=
  shapeWidth d = shapeWidth a && shapeRows d = shapeCols a && shapeCols d = shapeRows a

/-- TTRANS (R228). -/
def execTtrans (d a : TReg) (s : State) : Res :=
  let w := 8 * shapeElem (s.shape a)
  tileOp (ftWord d.toNat a.toNat 0 0 10) [d, a] (transShapes (s.shape d) (s.shape a)) s
    (.ok () (s.setTile d fun i => vecOf w ((List.range (shapeRows (s.shape a))).map fun j => s.tileElem a j i)))

/-! ### TMMA (R229) -/

/-- The shapes and types of TMMA agree (R229). -/
def mmaShapes (vt : Nat) (d a t : Word) : Bool :=
  ((vt = 1 || vt = 2) && shapeWidth a = 1 && shapeWidth t = 1 || vt = 10 && shapeWidth a = 2 && shapeWidth t = 2) &&
  shapeWidth d = 0 && shapeRows d = shapeRows a && shapeCols d = shapeRows t && shapeCols a = shapeCols t

/-- A row of operands: decoded values and, for an exact dot product, the finite ones as multiples of the format's
smallest subnormal. -/
def mmaRow (f : Fmt) (l : List Nat) : List FVal × List Int :=
  let vs := l.map f.decode
  (vs, vs.map fun v => match v with
    | .fin n m e => if n then -((m * 2 ^ (e - f.qmin).toNat : Nat) : Int) else ((m * 2 ^ (e - f.qmin).toNat : Nat) : Int)
    | _ => 0)

/-- The exact sum of products of two rows. -/
def dot (a b : List Int) : Int := (List.zipWith (· * ·) a b).foldl (· + ·) 0

/-- Add one product to what is known of a sum with special operands: NaN seen, NV, +∞ seen, −∞ seen (R92, R229). -/
def specialStep (st : Bool × Bool × Bool × Bool) (a b : FVal) : Bool × Bool × Bool × Bool :=
  match mulExact a b with
  | (.nan _, bad) => (true, st.2.1 || bad || a.snan ||| b.snan ≠ 0, st.2.2)
  | (.inf n, _) => (st.1, st.2.1, st.2.2.1 || !n, st.2.2.2 || n)
  | _ => st

/-- acc + Σ a·b by the IEEE rules for NaN and infinite operands (R92, R229). -/
def specialSum (acc : FVal) (as bs : List FVal) : Nat × Flags5 :=
  let st := (as.zip bs).foldl (fun st p => specialStep st p.1 p.2)
    (specialStep (false, false, false, false) acc (.fin false 1 0))
  let clash := st.2.2.1 && st.2.2.2
  if st.1 || clash then (fp32.nan, if st.2.1 || clash then fNV else 0) else (fp32.infinity st.2.2.2, 0)

/-- acc + s for a finite exact s = x × 2^e; a zero s is −0 only when every product is −0 (R97, R229). -/
def addDot (acc : FVal) (x : Int) (e : Int) (allNeg : Bool) : Nat × Flags5 :=
  fp32.addV 0 acc (.fin (if x = 0 then allNeg else x < 0) x.natAbs e)

/-- One element of TMMA in a float type (R229). -/
def mmaFloat (f : Fmt) (acc : Nat) (a b : List FVal × List Int) : Nat × Flags5 :=
  let fin := fun v : FVal => match v with
    | .fin .. => true
    | _ => false
  let v := fp32.decode acc
  if fin v && a.1.all fin && b.1.all fin then
    addDot v (dot a.2 b.2) (2 * f.qmin) ((a.1.zip b.1).all fun p => p.1.neg != p.2.neg)
  else specialSum v a.1 b.1

/-- The operand rows of a tile. -/
def State.tileRows (s : State) (t : TReg) : List (List Nat) :=
  let sh := s.shape t
  (List.range (shapeRows sh)).map fun i => (List.range (shapeCols sh)).map fun k => s.tileElem t i k

/-- The result rows of TMMA with their flags (R229). -/
def mmaRows (s : State) (d a t : TReg) : List (List (Nat × Flags5)) :=
  let accOf := fun i j => s.tileElem d i j
  if s.vt = 10 then
    let bs := (s.tileRows t).map fun r => r.map fun x => sgn x 8
    (s.tileRows a).zipIdx.map fun p =>
      let r := p.1.map fun x => sgn x 8
      bs.zipIdx.map fun q => (clampLane 32 (sgn (accOf p.2 q.2) 32 + dot r q.1), 0)
  else
    let f := fmtOf s.vt
    let bs := (s.tileRows t).map (mmaRow f)
    (s.tileRows a).zipIdx.map fun p =>
      let r := mmaRow f p.1
      bs.zipIdx.map fun q => mmaFloat f (accOf p.2 q.2) r q.1

/-- TMMA (R229): flags of column j go to slot j. -/
def execTmma (d a t : TReg) (s : State) : Res :=
  let ok := mmaShapes s.vt (s.shape d) (s.shape a) (s.shape t) && d ≠ a && d ≠ t
  let rs := if ok then mmaRows s d a t else []
  let fl := rs.foldl (fun acc r => acc ||| laneFlags 32 (r.map (·.2))) (0 : BitVec 320)
  tileOp (ftWord d.toNat a.toNat 0 t.toNat 11) [d, a, t] ok s
    (.ok () ((s.accrue false fl).setTile d fun i => vecOf 32 ((rs.getD i []).map (·.1))))

end Sys2Proof.Machine
end

