-- ==== Sys2Proof/Machine/Matrix.lean ====
section
/-! DEFINITION. The matrix array: leases, job cards, steps, epilogue, status and error log: major 0x12 and the array's
own steps (R96, R97, R230–R248). -/

namespace Sys2Proof.Machine

/-- The word of an FX instruction, for TVAL (R140, R149). -/
def fxWord (mj sd sa sb fn : Nat) : Word := BitVec.ofNat 64 (encFX mj sd sa sb fn 0 0)

/-! ### Arrays and leases (R238–R242) -/

/-- End the lease of a context (R238). -/
def State.endLease (s : State) (c : CtxId) : State :=
  match s.leaseOf c with
  | some _ => s.modArray c.die (c.core / 4) fun a => { a with lease := none }
  | none => s

/-- The request to grant: transit tasks first, then round robin from the core after the last grant of the class, oldest
first within a core (R239). -/
def Array_.next (a : Array_) : Option LeaseReq :=
  let cls := a.reqs.any (·.transit)
  let last := if cls then a.lastTransit else a.lastOrdinary
  (upFrom 1 4).findSome? fun i => a.reqs.find? fun r => r.transit = cls && r.core % 4 = (last + i) % 4

/-- MATRIX_LEASE_GRANT: a free array grants its next lease; the blocks are kept or set to zero, or restored with the
jobs of an evicted task (R238, R239, R241, R246). -/
def execMatrixLeaseGrant (die cl : Nat) (s : State) : Res :=
  let a := s.arrayAt die cl
  match a.lease, a.next with
  | none, some r =>
    let at_ : CtxId := ⟨die, r.core, r.slot⟩
    if !s.coreRuns at_ then .next s
    else
    let t := (s.hartAt at_).task
    let ctx := s.leaseCtx die r.core
    let kept := r.keep && ctx.owner = some t.ident
    let s := s.modArray die cl fun a =>
      { a with
        lease := some
          { core := r.core, slot := r.slot, task := t.ident, kept := kept
            toIssue := r.run - (match r.restore with
              | some c => (c.jobs.filter Job.pending).length
              | none => 0)
            toRun := r.run }
        reqs := a.reqs.filter fun q => q ≠ r
        lastTransit := if r.transit then r.core % 4 else a.lastTransit
        lastOrdinary := if r.transit then a.lastOrdinary else r.core % 4 }
    let s := s.modLease die r.core fun c =>
      match r.restore with
      | some b =>
        { c with acc := b.acc, owner := some t.ident, jobs := c.jobs ++ b.jobs, next := Nat.max c.next b.next }
      | none => { c with acc := if kept then c.acc else [], owner := some t.ident }
    match r.restore, t.wait with
    | none, some (.lease d) =>
      .next (s.complete at_ d (BitVec.ofNat 64 (r.run + r.core % 4 * 2 ^ 8 + (if kept then 2 ^ 16 else 0))))
    | _, _ => .next s
  | _, _ => .next s

/-- MLEASE (R241): the request waits in the array, and the grant completes it. -/
def execMlease (d a : SReg) (s : State) : Res :=
  let req := (s.rs a).toNat
  let n := req % 2 ^ 7
  let c := s.here
  finishWait s (taskOnly s (fxWord 0x12 d.toNat a.toNat 0 0) (
    if n = 0 || n > 64 || req / 2 ^ 9 ≠ 0 || bitOf req 7 || (s.leaseOf c).isSome || (s.leaseWaits c).isSome then
      .trap .leaseViolation (s.rs a) s
    else
      .ok (.lease d) (s.modArray c.die (c.core / 4) fun q =>
        { q with reqs := q.reqs ++ [⟨c.core, c.slot, n, bitOf req 8, s.hart.task.transit.isSome, none⟩] })))

/-- MFREE (R242): the task's jobs complete, then its lease ends; it leaves a re-request that still waits after a restore (log 103). -/
def execMfree (s : State) : Res :=
  finish 4 s (taskOnly s (fxWord 0x12 0 0 0 1)
    (if s.jobsOf s.here = [] then .ok () (s.endLease s.here) else .wait))

/-- MDRAIN (R245). -/
def execMdrain (s : State) : Res :=
  finish 4 s (taskOnly s (fxWord 0x12 0 0 0 4) (if s.jobsOf s.here = [] then .ok () s else .wait))

/-! ### Job cards (R234, R243) -/

/-- AFMT of a card. -/
def jAfmt (c : List Byte) : Nat := field c 0 1
/-- BFMT of a card. -/
def jBfmt (c : List Byte) : Nat := field c 1 1
/-- BPLANES of a card. -/
def jPlanes (c : List Byte) : Nat := field c 2 1
/-- BPL of a card. -/
def jPl (c : List Byte) : Nat := field c 3 1
/-- The B operand lies in the meridian. -/
def jMer (c : List Byte) : Bool := field c 4 1 = 1
/-- MODE bit `k`: ACC, OUT, BIAS, NOSTEP. -/
def jMode (c : List Byte) (k : Nat) : Bool := bitOf (field c 5 1) k
/-- COUNT of a level. -/
def jCount (c : List Byte) (l : Nat) : Nat := field c (48 + 16 * l) 2
/-- Stride SA (0), SB (1) or SC (2) of a level. -/
def jStride (c : List Byte) (which l : Nat) : Int := sfield c (52 + 16 * l + 4 * which) 4
/-- Bytes of an output element. -/
def jOut (c : List Byte) : Nat := Nat.max 1 (typeBits (field c 6 1) / 8)

/-- The pairing class of a format: both FP8 formats pair (R230). -/
def pairClass (f : Nat) : Nat := if f = 3 then 2 else f

/-- The fields of a card in byte order, each with its check (R230, R234); within WAIT and SIGNAL the offset is that of the part that is bad
(DESIGN CHOICE, log 131). -/
def jobFields (c : List Byte) : List (Nat × Bool) :=
  let af := jAfmt c
  let eb := jOut c
  let p := jPlanes c
  ([(0, af ≤ 5), (1, jBfmt c ≤ 5 && pairClass (jBfmt c) = pairClass af),
   (2, 1 ≤ p && p ≤ 16 && p ≤ jPl c && (!wfInt af || p = (if af = 1 then 4 else 8))),
   (3, 1 ≤ jPl c && jPl c ≤ 16), (4, field c 4 1 ≤ 1),
   (5, field c 5 1 < 16 && (!jMode c 2 || jMode c 1)),
   (6, (if wfInt af then [0, 1, 2, 8] else [0, 1, 2, 3, 4]).contains (field c 6 1)),
   (7, field c 7 1 ≤ 63), (8, 1 ≤ field c 8 1 && field c 7 1 + field c 8 1 ≤ 64), (9, field c 9 1 = 0),
   (10, field c 10 2 % eb = 0), (16, field c 16 4 % 64 = 0), (20, field c 20 4 % 64 = 0), (24, field c 24 4 % eb = 0),
   (33, field c 33 1 % 128 = 0), (41, field c 41 1 % 128 = 0), (42, !bitOf (field c 41 1) 7 || field c 42 6 ≠ 0)] : List (Nat × Bool)) ++
  ((List.range 5).map fun l =>
    [(48 + 16 * l, 1 ≤ jCount c l && (l ≠ 0 || !jMode c 3 || jCount c 0 = 1)), (50 + 16 * l, field c (50 + 16 * l) 2 = 0),
     (52 + 16 * l, field c (52 + 16 * l) 4 % 64 = 0), (56 + 16 * l, field c (56 + 16 * l) 4 % 64 = 0),
     (60 + 16 * l, field c (60 + 16 * l) 4 % eb = 0 && (l ≠ 0 || field c 60 4 = 0))]).flatten

/-- The lowest and highest offset that strides add over some levels (R243). -/
def nestSpan (c : List Byte) (which : Nat) (ls : List Nat) : Int × Int :=
  ls.foldl (fun acc l =>
    let x := jStride c which l * (jCount c l - 1 : Int)
    (acc.1 + min x 0, acc.2 + max x 0)) (0, 0)

/-- First and last byte of a nest of pieces of `n` bytes from a base. -/
def spanOf (base : Int) (sp : Int × Int) (n : Int) : List Int := [base + sp.1, base + sp.2 + n - 1]

/-- First and last byte of the B panels. -/
def panelSpan (c : List Byte) : List Int :=
  spanOf (field c 20 4) (nestSpan c 1 [0, 1, 2, 3, 4]) (panelBytes (jBfmt c) (jPl c))
/-- First and last byte of the biases. -/
def biasSpan (c : List Byte) : List Int :=
  if jMode c 2 then spanOf ((field c 20 4 : Int) + sfield c 28 4) (nestSpan c 1 [1, 2, 3, 4]) 64 else []
/-- First and last byte of the A units. -/
def unitSpan (c : List Byte) : List Int := spanOf (field c 16 4) (nestSpan c 0 [0, 1, 2, 3, 4]) (unitBytes (jAfmt c))
/-- First and last byte of the output rows. -/
def outSpan (c : List Byte) : List Int :=
  spanOf (field c 24 4) (nestSpan c 2 [1, 2, 3, 4]) (31 * field c 10 2 + 32 * jOut c)

/-- Check the points of a meridian operand: steps 1–4 of R105 at each (R243); a capability not in space 7 takes CAP_SPACE (DESIGN CHOICE,
log 131). -/
def checkPoints (w : Who) (c : Cap) (base : Int) : List Int → State → R Unit
  | [], s => .ok () s
  | p :: t, s =>
    match (if c.tag && c.space ≠ 7 then some Cause.capSpace else capChecks w c (base + p) 1 1 .load) with
    | some e => .trap e (tv (base + p)) s
    | none => checkPoints w c base t s

/-- The start of the slot that a capability's cursor names (R234). -/
def slotStart (c : Cap) : Nat := c.cursor / 2 ^ 24 * 2 ^ 24

/-- Step 5 of R243: the meridian operand, taken as it stands, or no capability. R243 names no byte for a cb other than 0 with BSRC = 0, and
R367 no more than the meridian address for TRANSIT_EXPIRED: the model reports byte 4, the start of the slot, and ACCESS_DENIED for slots 6
and 7 (DESIGN CHOICE, log 131). -/
def jobMeridian (word : Word) (card : List Byte) (cb : CReg) (s : State) : R (Option Snap) :=
  if !jMer card then if cb = 0 then .ok none s else .trap .illegal (fieldWord word 4) s
  else
    let c := s.rc cb
    let base := slotStart c
    (checkPoints s.who c base (panelSpan card ++ biasSpan card) s).bind fun _ s =>
      match s.place s.who 7 base 1 with
      | .home _ =>
        let slot := base / 2 ^ 24 % 8
        let m := s.mslot s.here.die slot
        if m.fmt ≠ jBfmt card then .trap .illegal (fieldWord word 1) s
        else if m.planes ≠ jPl card then .trap .illegal (fieldWord word 3) s
        else .ok (some (s.snap s.here.die slot)) s
      | .bad e => .trap e (BitVec.ofNat 64 base) s
      | .virt .. => .trap .accessDenied (BitVec.ofNat 64 base) s

/-- The least of a list of integers. -/
def leastOf : List Int → Option Int
  | [] => none
  | x :: t => some (t.foldl min x)

/-- Step 6 of R243: every unit, scratchpad panel, scratchpad bias and output row of the nest lies inside the region. -/
def jobRegion (card : List Byte) (s : State) : R Unit :=
  let pts := unitSpan card ++ (if jMer card then [] else panelSpan card ++ biasSpan card) ++ outSpan card
  match leastOf (pts.filter fun p => p < 0 || (s.regionLen : Int) ≤ p) with
  | some p => .trap .capBounds (tv ((s.hart.task.region : Int) + p)) s
  | none => .ok () s

/-- Keep at most the 64 latest jobs of a task besides those not complete (R244). -/
def pruneJobs (id_ : Nat × Nat) (l : List Job) : List Job :=
  let mine := l.filter fun j => j.task = id_
  let old := mine.take (mine.length - 64)
  l.filter fun j => !(old.contains j && !j.pending)

/-- MJOB (R121, R243): a restored task waits for its lease (R246, log 103). The job takes the next id of the context and enters the store queue, behind which the array accepts it. -/
def execMjob (d a : SReg) (cb : CReg) (s : State) : Res :=
  let word := fxWord 0x12 d.toNat a.toNat cb.toNat 2
  finish 4 s (taskOnly s word (
    match s.leaseOf s.here with
    | none => if (s.leaseWaits s.here).isSome then .wait else .trap .leaseViolation 0 s
    | some l =>
      if l.toIssue = 0 then .trap .leaseViolation 0 s
      else
        (s.readRecord (s.rs a).toNat 128 128).bind fun card s =>
        (checkFields word (jobFields card) s).bind fun _ s =>
        (jobMeridian word card cb s).bind fun snap s =>
        (jobRegion card s).bind fun _ s =>
          let t := s.hart.task
          let ctx := s.leaseCtx s.here.die s.here.core
          let job : Job :=
            { id := ctx.next, card := card, region := t.region, part := t.part, slot := s.here.slot, task := t.ident
              die := s.here.die, stay := t.stay, taken := false
              meridian := snap, state := 1, pass := 0, step := 0, bias := [], outs := [], flags := 0 }
          let s := s.modLease s.here.die s.here.core fun c =>
            { c with jobs := pruneJobs t.ident (c.jobs ++ [job]), next := (c.next + 1) % 2 ^ 16 }
          let s := s.modArray s.here.die (s.here.core / 4) fun q =>
            { q with lease := some { l with toIssue := l.toIssue - 1 } }
          .ok () ((s.enqueueAct 0 (.job job.id)).ws d (BitVec.ofNat 64 job.id))))

/-- MSTAT (R244). -/
def execMstat (d a : SReg) (s : State) : Res :=
  let id_ := (s.rs a).toNat % 2 ^ 16
  let js := s.allJobs s.here
  let w := match (js.drop (js.length - 64)).reverse.find? fun j => j.id = id_ with
    | some j => j.state + j.flags * 2 ^ 8 + j.id * 2 ^ 16 + j.pass % 2 ^ 32 * 2 ^ 32
    | none => 0
  finish 4 s (taskOnly s (fxWord 0x12 d.toNat a.toNat 0 3) (.ok () (s.ws d (BitVec.ofNat 64 w))))

/-- MERRRD (R248). -/
def execMerrrd (d a : SReg) (s : State) : Res :=
  let q := s.arrayAt s.here.die (s.here.core / 4)
  let sel := (s.rs a).toNat
  let w := match q.log[sel % 8]? with
    | some e => if e.1 = s.part then e.2 else 0
    | none => 0
  let t := if bitOf sel 8 then
      s.modArray s.here.die (s.here.core / 4) fun q => { q with log := q.log.filter fun e => e.1 ≠ s.part }
    else s
  finish 4 s (taskOnly s (fxWord 0x12 d.toNat a.toNat 0 5) (.ok () (t.ws d w)))

/-! ### Running a job (R96, R97, R235–R237, R246, R247) -/

/-- Flags of a job: NV 1, OF 2, SAT 4, OPERR 8 (R244 bits 8–11). -/
def jNV : Nat := 1
/-- Overflow. -/
def jOF : Nat := 2
/-- Saturation. -/
def jSAT : Nat := 4
/-- An operand read as zero. -/
def jOPERR : Nat := 8

/-- The indices of levels 1–4 of a pass, level 1 fastest (R235). -/
def passIndex (c : List Byte) (q : Nat) : List Nat :=
  [q % jCount c 1, q / jCount c 1 % jCount c 2, q / (jCount c 1 * jCount c 2) % jCount c 3,
   q / (jCount c 1 * jCount c 2 * jCount c 3) % jCount c 4]

/-- Passes of a job. -/
def passCount (c : List Byte) : Nat := jCount c 1 * jCount c 2 * jCount c 3 * jCount c 4

/-- An operand's offset: base plus strides by indices of levels 0–4 (R235). -/
def jobOffset (c : List Byte) (which base i0 : Nat) (q : Nat) : Int :=
  ((i0 :: passIndex c q).zipIdx.foldl (fun acc p => acc + jStride c which p.2 * (p.1 : Int)) (base : Int))

/-- One accumulator element after a step of a float pairing; a sum that is zero has the sign of its element products alone, also under a
zero scale (R97; DESIGN CHOICE, log 117). -/
def stepFloat (acc : BitVec 32) (a b : Strip) (band : Nat) (bandE : Int) : BitVec 32 × Nat :=
  if a.special || b.special then (0x7FC00000, jNV)
  else
    let x := dot a.ints b.ints * band
    let r := addDot (fp32.decode acc.toNat) x (bandE - 296) ((a.negs.zip b.negs).all fun p => p.1 != p.2)
    (BitVec.ofNat 32 r.1, if r.2.getLsbD 2 then jOF else 0)

/-- One accumulator element after a step of an integer pairing (R97). -/
def stepInt (acc : BitVec 32) (a b : Strip) : BitVec 32 × Nat :=
  let x := acc.toInt + dot a.ints b.ints
  (BitVec.ofNat 32 (clampLane 32 x), if x < -(2 ^ 31) || (2 ^ 31 : Int) ≤ x then jSAT else 0)

/-- The 1,024 words of a block. -/
def blockOf (c : LeaseCtx) (b : Nat) : List (BitVec 32) := c.acc.getD b (List.replicate 1024 0)

/-- One step: 32 × 32 elements, row i of A with column j of B (R96, R97). -/
def arrayStep (int : Bool) (acc : List (BitVec 32)) (a b : Operand) : List (BitVec 32) × Nat :=
  let rs := ((pieces 32 32 acc).zip a.strips).map fun p =>
    (p.1.zip b.strips).map fun q =>
      if int then stepInt q.1 p.2 q.2 else stepFloat q.1 p.2 q.2 (a.bandM * b.bandM) (a.bandE + b.bandE)
  let l := rs.flatten
  (l.map (·.1), l.foldl (fun acc x => acc ||| x.2) (if a.operr || b.operr then jOPERR else 0))

/-- One word of the array's error log (R247). -/
def arrayError (j : Job) (core opnd row i0 pos q : Nat) : Word :=
  BitVec.ofNat 64 (j.id + opnd * 2 ^ 16 + row % 32 * 2 ^ 18 + i0 % 2 ^ 16 * 2 ^ 23 + pos % 2 ^ 10 * 2 ^ 39 +
    core % 4 * 2 ^ 49 + q % 2 ^ 11 * 2 ^ 51 + 2 ^ 63)

/-- Write error-log entries; when the log is full the last entry gets OVF (R247). -/
def State.arrayLog (s : State) (die cl part : Nat) (es : List Word) : State :=
  es.foldl (fun s e => s.modArray die cl fun a =>
    if a.log.length < 8 then { a with log := a.log ++ [(part, e)] }
    else { a with log := a.log.zipIdx.map fun p => if p.2 = 7 then (p.1.1, p.1.2 ||| BitVec.ofNat 64 (2 ^ 62)) else p.1 }) s

/-- Bytes of a job's A or B source from an offset: the slot as it stood, or the scratchpad; with the uncorrectable words
among them and where these begin from the offset (R134, R247). -/
def State.jobBytes (s : State) (die core : Nat) (j : Job) (mer : Bool) (off : Int) (n : Nat) : List Byte × List (Nat × Int) :=
  match (if mer then j.meridian else none) with
  | some sn =>
    let k := off.toNat
    ((upFrom k n).map (memGet sn.cells), (touchedWords sn.bad k n).map fun w => (meridianKey die sn.slot 0 / 8 + w, (w * 8 : Int) - k))
  | none =>
    let k := scratchKey die core (j.region + off.toNat)
    (s.homeBytes k n, (s.badWords k n).map fun w => (w, (w * 8 : Int) - k))

/-- Positions in an A unit of its uncorrectable words (R247). -/
def unitErrors (j : Job) (core i0 q : Nat) (offs : List Nat) : List Word :=
  let w := typeBits (wfType (jAfmt j.card))
  offs.map fun o =>
    if o < 12288 then arrayError j core 0 (o / 384) i0 (o % 384 * 8 / w) q
    else if o < 15360 then arrayError j core 2 ((o - 12288) / 96) i0 ((o - 12288) % 96 * 8) q
    else arrayError j core 2 0 i0 0 q

/-- Section, column and position within the column of a byte of a panel. -/
def panelPlace (fmt o : Nat) : Nat × Nat × Nat :=
  let col := wfKs fmt / 8
  (o / (32 * col), o / col % 32, o % col)

/-- The array reads this byte of a panel: not the planes below the top p, nor the bytes after the band scale (R230). -/
def panelUsed (c : List Byte) (o : Nat) : Bool :=
  let s := (panelPlace (jBfmt c) o).1
  !(jPlanes c < s && s ≤ jPl c) && (jBfmt c ≠ 0 || o < (jPl c + 3) * 4 * wfKs 0 + 8)

/-- A panel with its uncorrectable words taken out: whole elements zero, exponents zero their block, scales zero
(R247). -/
def patchPanel (c : List Byte) (bad : List Nat) (bs : List Byte) : List Byte :=
  if bad = [] then bs
  else
    let fmt := jBfmt c
    let hits := bad.map (panelPlace fmt)
    bs.zipIdx.map fun p =>
      let at_ := panelPlace fmt p.2
      let elem := hits.any fun h => h.1 ≤ jPl c + (if wfInt fmt then 0 else 1) && h.2.1 = at_.2.1 && h.2.2 / 8 = at_.2.2 / 8
      if at_.1 ≤ jPl c then if elem then 0 else p.1
      else if at_.1 = jPl c + 1 && !wfInt fmt then if elem then 0x80 else p.1
      else if hits.any fun h => h.1 = at_.1 && h.2.1 = at_.2.1 && h.2.2 / 8 = at_.2.2 / 8 then 0 else p.1

/-- Error-log words of a panel's uncorrectable words (R247). -/
def panelErrors (j : Job) (core i0 q : Nat) (offs : List Nat) : List Word :=
  offs.map fun o =>
    let p := panelPlace (jBfmt j.card) o
    arrayError j core (if p.1 ≤ jPl j.card then 1 else 2) p.2.1 i0 (8 * p.2.2) q

/-- One step of a pass: read a unit and a panel, update the block; only words that the array reads are logged (R112, R230, R235, R236,
R247). -/
def State.jobStep (s : State) (die core : Nat) (j : Job) (q i0 : Nat) (acc : List (BitVec 32)) :
    State × List (BitVec 32) × Nat :=
  let c := j.card
  match s.jobBytes die core j false (jobOffset c 0 (field c 16 4) i0 q) (unitBytes (jAfmt c)),
    s.jobBytes die core j (jMer c) (jobOffset c 1 (field c 20 4) i0 q) (panelBytes (jBfmt c) (jPl c)) with
  | (ab, aw), (bb, bw) =>
    let aBad := aw.filter fun w => w.2 < 15368
    let bBad := bw.filter fun w => panelUsed c w.2.toNat
    let aOffs := aBad.map (·.2.toNat)
    let bOffs := bBad.map (·.2.toNat)
    let a := readUnit (jAfmt c) (zeroBad (aOffs.map (· / 8)) 0 ab)
    let b := readPanel (jBfmt c) (jPl c) (jPlanes c) (patchPanel c bOffs bb)
    match arrayStep (wfInt (jAfmt c)) acc a b with
    | (acc, fl) =>
      let errs := unitErrors j core i0 q aOffs ++ panelErrors j core i0 q bOffs
      let s := (s.logErrors .array core ((aBad ++ bBad).map (·.1))).arrayLog die (core / 4) j.part errs
      (s, acc, if errs = [] then fl else fl ||| jOPERR)

/-- One element of the epilogue: acc × OSCALE + bias, rounded once to the output type (R237). -/
def epilogueElem (int : Bool) (of_ : Nat) (acc : BitVec 32) (scale bias : FVal) : Nat × Nat :=
  let a := if int then FVal.fin (acc.toInt < 0) acc.toInt.natAbs 0 else fp32.decode acc.toNat
  match mulExact a scale with
  | (p, bad) =>
    let clash := match p, bias with
      | .inf m, .inf n => m != n
      | _, _ => false
    if p.isNan || bias.isNan || clash then
      (if of_ = 8 then 0 else (fmtOf of_).nan, if bad || clash || of_ = 8 then jNV else 0)
    else
      match p, bias with
      | .fin pn pm pe, .fin bn bm be =>
        match addExact pn pm pe bn bm be with
        | (x, e) =>
          let neg := if x = 0 then pn && bn && pm = 0 else x < 0
          if of_ = 8 then
            let r := cvtToInt 32 0 (.fin neg x.natAbs e)
            (r.1, if r.2.getLsbD 4 then jSAT else 0)
          else
            let r := (fmtOf of_).roundCvt (of_ = 3 || of_ = 4) 0 neg x.natAbs 1 e
            (r.1, if r.2.getLsbD 2 then jOF else 0)
      | _, _ =>
        let n := match p with
          | .inf n => n
          | _ => bias.neg
        if of_ = 8 then ((cvtToInt 32 0 (.inf n)).1, jNV)
        else
          let r := (fmtOf of_).cvtInf (of_ = 3 || of_ = 4) n
          (r.1, if r.2.getLsbD 2 then jOF else 0)

/-- The biases of a pass as bit patterns: one with an uncorrectable byte reads as zero, and the state has the errors logged
(R237, R247), with ROW and STEP 0 and POS the bias (DESIGN CHOICE, log 131). -/
def State.readBias (s : State) (die core : Nat) (j : Job) (q : Nat) : List Nat × Nat × State :=
  let c := j.card
  if !jMode c 2 then (List.replicate 32 0, 0, s)
  else
    match s.jobBytes die core j (jMer c) (jobOffset c 1 (field c 20 4) 0 q + sfield c 28 4) 64 with
    | (bb, bw) =>
      let hit := fun i : Nat => bw.any fun w => w.2 < 2 * i + 2 && (2 * i : Int) < w.2 + 8
      let errs := bw.map fun w => arrayError j core 3 0 0 (w.2.toNat / 2) q
      ((pieces 2 32 bb).zipIdx.map fun p => if hit p.2 then 0 else leNat p.1, if bw = [] then 0 else jOPERR,
        (s.logErrors .array core (bw.map (·.1))).arrayLog die (core / 4) j.part errs)

/-- Write element `e` of the epilogue of a pass (R237). -/
def State.writeOut (s : State) (die core : Nat) (j : Job) (q e : Nat) (acc : List (BitVec 32)) : State × Nat :=
  let c := j.card
  let eb := jOut c
  let y := epilogueElem (wfInt (jAfmt c)) (field c 6 1) (acc.getD e 0) (fp32.decode (field c 12 4)) (bf16.decode (j.bias.getD (e % 32) 0))
  let off : Int := jobOffset c 2 (field c 24 4) 0 q + (e / 32 * field c 10 2 + e % 32 * eb : Nat)
  (s.writeHomeBytes core (scratchKey die core (j.region + off.toNat)) (leBytes eb y.1), y.2)

/-- Change the first job of a context that is not complete. -/
def modFirst (f : Job → Job) : List Job → List Job
  | [] => []
  | j :: t => if j.pending then f j :: t else j :: modFirst f t

/-- The first job of a context that is not complete. -/
def LeaseCtx.head (c : LeaseCtx) : Option Job := c.jobs.find? Job.pending

/-- The counter of the die a job was issued on that a byte of its card numbers (R234, log 102). -/
def Job.counter (j : Job) (off : Nat) : Nat := j.die * 256 + field j.card off 1

/-- A job's signal (R236): the increment, and poison when it failed; a release at the scope of array and counter (R130). -/
def State.jobSignal (s : State) (die : Nat) (j : Job) (failed : Bool) : State :=
  if bitOf (field j.card 41 1) 7 then
    (if j.die = die then s else s.releaseFrom die 2).signal (j.counter 40) (field j.card 42 6) failed
  else s

/-- A job of a context ends; the last one of a run ends the lease (R236, R238). -/
def State.jobEnds (s : State) (die core : Nat) (failed : Bool) : State :=
  match (s.leaseCtx die core).head with
  | none => s
  | some j =>
    let s := (s.modLease die core fun c => { c with jobs := modFirst (fun j => { j with state := if failed then 5 else 4 }) c.jobs
      }).jobSignal die j failed
    s.modArray die (core / 4) fun a =>
      { a with lease := match a.lease with
          | some l => if l.core = core then if l.toRun ≤ 1 then none else some { l with toRun := l.toRun - 1 } else some l
          | none => none }

/-- MATRIX_JOB_START: the oldest job that is not complete starts when its wait is met; a poisoned counter fails it
(R236). -/
def execMatrixJobStart (die core : Nat) (s : State) : Res :=
  match (s.leaseCtx die core).head with
  | none => .next s
  | some j =>
    let set := fun st => s.modLease die core fun c => { c with jobs := modFirst (fun j => { j with state := st }) c.jobs }
    let k := s.counter (j.counter 32)
    if j.state ≥ 3 || !j.taken || (s.arrayAt die (core / 4)).lease.all fun l => l.core ≠ core then .next s
    else if !bitOf (field j.card 33 1) 7 then .next (set 3)
    else if ctrPoison k then .next (s.jobEnds die core true)
    else if field j.card 34 6 ≤ ctrValue k then .next (set 3)
    else .next (set 2)

/-- The next action of the job that runs on a core: a step of its pass, the reading of the biases, or the writing of an output element,
the elements in a free order (R114, R235–R237). -/
def State.jobAct (s : State) (die core : Nat) (j : Job) : State :=
  let c := j.card
  let q := j.pass
  let blk := field c 7 1 + q % field c 8 1
  let set := fun (t : State) (f : Job → Job) => t.modLease die core fun x => { x with jobs := modFirst f x.jobs }
  let next := fun j : Job => { j with pass := q + 1, step := 0, bias := [], outs := [] }
  let steps := if jMode c 3 then 0 else jCount c 0
  let old := blockOf (s.leaseCtx die core) blk
  if j.step < steps then
    match s.jobStep die core j q j.step (if j.step = 0 && !jMode c 0 then List.replicate 1024 0 else old) with
    | (s, acc, fl) =>
      set (s.modLease die core fun x => { x with acc := x.acc.insert blk acc }) fun j =>
        let j := { j with step := j.step + 1, flags := j.flags ||| fl }
        if steps ≤ j.step && !jMode c 1 then next j else j
  else if !jMode c 1 then set s next
  else if j.bias = [] then
    match s.readBias die core j q with
    | (b, fl, s) => set s fun j => { j with bias := b, flags := j.flags ||| fl }
  else
    let left := (List.range 1024).filter fun e => !j.outs.contains e
    match s.turned left with
    | [] => set s next
    | e :: _ =>
      match s.writeOut die core j q e old with
      | (s, fl) => set s fun j =>
          let j := { j with outs := e :: j.outs, flags := j.flags ||| fl }
          if left.length ≤ 1 then next j else j

/-- MATRIX_JOB_COMPLETE: the running job's next action; after its last pass it completes and signals (R235–R237, log 20). -/
def execMatrixJobComplete (die core : Nat) (s : State) : Res :=
  match (s.leaseCtx die core).head with
  | none => .next s
  | some j =>
    if j.state ≠ 3 then .next s
    else if passCount j.card ≤ j.pass then .next (s.jobEnds die core false)
    else .next (s.jobAct die core j)

/-- The running job of a core goes on to its next stopping point, the end of a pass (R246). -/
def State.toStop (s : State) (die core : Nat) : Nat → State
  | 0 => s
  | n + 1 =>
    match (s.leaseCtx die core).head with
    | none => s
    | some j => if j.state = 3 && (j.step ≠ 0 || j.bias ≠ []) then (s.jobAct die core j).toStop die core n else s

/-- Actions of a pass of a job, at most. -/
def Job.acts (j : Job) : Nat := jCount j.card 0 + 1026

/-- The job of a context's lease stops at the end of its pass (R246). -/
def State.stopJob (s : State) (c : CtxId) : State :=
  match s.leaseOf c, (s.leaseCtx c.die c.core).head with
  | some _, some j => s.toStop c.die c.core j.acts
  | _, _ => s

/-- A context's request leaves its array (R241). -/
def State.dropRequest (s : State) (c : CtxId) : State :=
  s.modArray c.die (c.core / 4) fun a => { a with reqs := a.reqs.filter fun r => r.core ≠ c.core || r.slot ≠ c.slot }

/-- Jobs that still wait for a restored lease fail, and the context's request leaves its array (R246). -/
def State.failWaitingJobs (s : State) (c : CtxId) : State :=
  match s.leaseWaits c with
  | some ⟨_, _, _, _, _, some x⟩ => ((x.jobs.filter Job.pending).foldl (fun (t : State) j => t.jobSignal c.die j true) s).dropRequest c
  | _ => s.dropRequest c

/-- A task goes, but the jobs that its array has accepted run on: its lease ends with the last of them (R362, R394, R396). -/
def State.leaveJobs (s : State) (c : CtxId) : State :=
  let s := s.failWaitingJobs c
  let n := (s.jobsOf c).length
  match s.leaseOf c with
  | none => s
  | some l => s.modArray c.die (c.core / 4) fun a => { a with lease := if n = 0 then none else some { l with toIssue := 0, toRun := n } }

/-- A kill: the running job stops at the end of its pass, every job of the task not complete is FAILED with its signal, the lease ends and
the blocks are zeroed; jobs that still wait for a restored lease fail with it (R246). -/
def State.killJobs (s : State) (c : CtxId) : State :=
  let s := s.failWaitingJobs c
  match s.leaseOf c with
  | none => s
  | some _ =>
    let s := s.stopJob c
    let s := (s.jobsOf c).foldl (fun (t : State) _ => t.jobEnds c.die c.core true) s
    (s.endLease c).modLease c.die c.core fun x => { x with acc := [] }

end Sys2Proof.Machine
end

