-- ==== Sys2Proof/Machine/Scalar.lean ====
section
/-! DEFINITION. Scalar arithmetic, control transfer and scalar memory access: majors 0x01–0x08 and 0x3F (R156–R168). -/

namespace Sys2Proof.Machine

/-- Write a scalar result and move on (R156). -/
def scalarResult (len : Nat) (d : SReg) (v : Word) (s : State) : Res := .next ((s.ws d v).advance len)

/-- Go to an address: a transfer of control that completes (R144, R164). -/
def State.goTo (s : State) (pc : Word) : State := s.mod fun h => h.goOn pc

/-- 1 when a condition holds, else 0. -/
def flagWord1 (b : Bool) : Word := if b then 1 else 0

/-- Leading zero bits of a number of `w` bits. -/
def clzNat (w x : Nat) : Nat := if x = 0 then w else w - 1 - Nat.log2 x

/-- Trailing zero bits of a number of `w` bits. -/
def ctzNat (w x : Nat) : Nat := ((List.range w).find? fun k => bitOf x k).getD w

/-- One bits among the low `w` bits. -/
def popNat (w x : Nat) : Nat := ((List.range w).filter fun k => bitOf x k).length

/-- The quotient of R158, for integers of 64 bits: rounded toward zero; all ones for a zero divisor. -/
def quotient (x y : Int) : Word := if y = 0 then BitVec.allOnes 64 else BitVec.ofInt 64 (x.tdiv y)

/-- The remainder of R158: the dividend for a zero divisor. -/
def remainder (x y : Int) : Word := if y = 0 then BitVec.ofInt 64 x else BitVec.ofInt 64 (x - x.tdiv y * y)

/-! ### Register–register operations (R157, R158) -/

/-- ADD (R157). -/
def execAdd (d a b : SReg) (s : State) : Res := scalarResult 4 d (s.rs a + s.rs b) s
/-- SUB (R157). -/
def execSub (d a b : SReg) (s : State) : Res := scalarResult 4 d (s.rs a - s.rs b) s
/-- AND (R157). -/
def execAnd (d a b : SReg) (s : State) : Res := scalarResult 4 d (s.rs a &&& s.rs b) s
/-- OR (R157). -/
def execOr (d a b : SReg) (s : State) : Res := scalarResult 4 d (s.rs a ||| s.rs b) s
/-- XOR (R157). -/
def execXor (d a b : SReg) (s : State) : Res := scalarResult 4 d (s.rs a ^^^ s.rs b) s
/-- ANDN (R157). -/
def execAndn (d a b : SReg) (s : State) : Res := scalarResult 4 d (s.rs a &&& ~~~s.rs b) s
/-- SLL (R157). -/
def execSll (d a b : SReg) (s : State) : Res := scalarResult 4 d (s.rs a <<< ((s.rs b).toNat % 64)) s
/-- SRL (R157). -/
def execSrl (d a b : SReg) (s : State) : Res := scalarResult 4 d (s.rs a >>> ((s.rs b).toNat % 64)) s
/-- SRA (R157). -/
def execSra (d a b : SReg) (s : State) : Res := scalarResult 4 d ((s.rs a).sshiftRight ((s.rs b).toNat % 64)) s
/-- ROR (R157). -/
def execRor (d a b : SReg) (s : State) : Res := scalarResult 4 d ((s.rs a).rotateRight ((s.rs b).toNat % 64)) s
/-- SLT (R157). -/
def execSlt (d a b : SReg) (s : State) : Res := scalarResult 4 d (flagWord1 ((s.rs a).slt (s.rs b))) s
/-- SLTU (R157). -/
def execSltu (d a b : SReg) (s : State) : Res := scalarResult 4 d (flagWord1 ((s.rs a).ult (s.rs b))) s
/-- MIN (R157). -/
def execMin (d a b : SReg) (s : State) : Res := scalarResult 4 d (if (s.rs b).slt (s.rs a) then s.rs b else s.rs a) s
/-- MAX (R157). -/
def execMax (d a b : SReg) (s : State) : Res := scalarResult 4 d (if (s.rs a).slt (s.rs b) then s.rs b else s.rs a) s
/-- MINU (R157). -/
def execMinu (d a b : SReg) (s : State) : Res := scalarResult 4 d (if (s.rs b).ult (s.rs a) then s.rs b else s.rs a) s
/-- MAXU (R157). -/
def execMaxu (d a b : SReg) (s : State) : Res := scalarResult 4 d (if (s.rs a).ult (s.rs b) then s.rs b else s.rs a) s
/-- MUL (R157). -/
def execMul (d a b : SReg) (s : State) : Res := scalarResult 4 d (s.rs a * s.rs b) s
/-- MULH (R157). -/
def execMulh (d a b : SReg) (s : State) : Res := scalarResult 4 d (BitVec.ofInt 64 ((s.rs a).toInt * (s.rs b).toInt / (2 ^ 64 : Nat))) s
/-- MULHU (R157). -/
def execMulhu (d a b : SReg) (s : State) : Res := scalarResult 4 d (BitVec.ofNat 64 ((s.rs a).toNat * (s.rs b).toNat / 2 ^ 64)) s
/-- DIV (R157, R158). -/
def execDiv (d a b : SReg) (s : State) : Res := scalarResult 4 d (quotient (s.rs a).toInt (s.rs b).toInt) s
/-- DIVU (R157, R158). -/
def execDivu (d a b : SReg) (s : State) : Res := scalarResult 4 d (quotient ((s.rs a).toNat : Int) ((s.rs b).toNat : Int)) s
/-- REM (R157, R158). -/
def execRem (d a b : SReg) (s : State) : Res := scalarResult 4 d (remainder (s.rs a).toInt (s.rs b).toInt) s
/-- REMU (R157, R158). -/
def execRemu (d a b : SReg) (s : State) : Res := scalarResult 4 d (remainder ((s.rs a).toNat : Int) ((s.rs b).toNat : Int)) s
/-- CLZ (R157). -/
def execClz (d a : SReg) (s : State) : Res :=
  scalarResult 4 d (BitVec.ofNat 64 (clzNat 64 (s.rs a).toNat)) s
/-- CTZ (R157). -/
def execCtz (d a : SReg) (s : State) : Res :=
  scalarResult 4 d (BitVec.ofNat 64 (ctzNat 64 (s.rs a).toNat)) s
/-- POPC (R157). -/
def execPopc (d a : SReg) (s : State) : Res :=
  scalarResult 4 d (BitVec.ofNat 64 (popNat 64 (s.rs a).toNat)) s

/-! ### Immediate and constant forms (R147, R159–R161) -/

/-- ADDI (R159). -/
def execAddi (d a : SReg) (imm : BitVec 12) (s : State) : Res := scalarResult 4 d (s.rs a + imm.signExtend 64) s
/-- ANDI (R159). -/
def execAndi (d a : SReg) (imm : BitVec 12) (s : State) : Res := scalarResult 4 d (s.rs a &&& imm.setWidth 64) s
/-- ORI (R159). -/
def execOri (d a : SReg) (imm : BitVec 12) (s : State) : Res := scalarResult 4 d (s.rs a ||| imm.setWidth 64) s
/-- XORI (R159). -/
def execXori (d a : SReg) (imm : BitVec 12) (s : State) : Res := scalarResult 4 d (s.rs a ^^^ imm.setWidth 64) s
/-- SLLI (R159). -/
def execSlli (d a : SReg) (imm : BitVec 6) (s : State) : Res := scalarResult 4 d (s.rs a <<< imm.toNat) s
/-- SRLI (R159). -/
def execSrli (d a : SReg) (imm : BitVec 6) (s : State) : Res := scalarResult 4 d (s.rs a >>> imm.toNat) s
/-- SRAI (R159). -/
def execSrai (d a : SReg) (imm : BitVec 6) (s : State) : Res := scalarResult 4 d ((s.rs a).sshiftRight imm.toNat) s
/-- SLTI (R159). -/
def execSlti (d a : SReg) (imm : BitVec 12) (s : State) : Res := scalarResult 4 d (flagWord1 ((s.rs a).slt (imm.signExtend 64))) s
/-- SLTIU (R159). -/
def execSltiu (d a : SReg) (imm : BitVec 12) (s : State) : Res := scalarResult 4 d (flagWord1 ((s.rs a).ult (imm.signExtend 64))) s
/-- LIH: the sign-extended immediate times 2^12 (R160). -/
def execLih (d : SReg) (imm : BitVec 21) (s : State) : Res := scalarResult 4 d (imm.signExtend 64 <<< 12) s
/-- ADDPC: the PC plus the sign-extended immediate times 4 (R160). -/
def execAddpc (d : SReg) (imm : BitVec 21) (s : State) : Res :=
  scalarResult 4 d (s.hart.pc + imm.signExtend 64 <<< 2) s
/-- LIW (R161). -/
def execLiw (d : SReg) (imm : BitVec 32) (s : State) : Res := scalarResult 8 d (imm.signExtend 64) s
/-- ADDIW (R161). -/
def execAddiw (d a : SReg) (imm : BitVec 32) (s : State) : Res := scalarResult 8 d (s.rs a + imm.signExtend 64) s

/-! ### Control transfer (R144, R162–R165) -/

/-- A branch: the next PC is the target, or PC + 4 (R144). -/
def branch (taken : Bool) (off : BitVec 13) (s : State) : Res :=
  .next (if taken then s.goTo (s.hart.pc + off.signExtend 64 <<< 2) else s.advance 4)

/-- BEQ (R144). -/
def execBeq (a b : SReg) (off : BitVec 13) (s : State) : Res := branch (s.rs a == s.rs b) off s
/-- BNE (R144). -/
def execBne (a b : SReg) (off : BitVec 13) (s : State) : Res := branch (s.rs a != s.rs b) off s
/-- BLT (R144). -/
def execBlt (a b : SReg) (off : BitVec 13) (s : State) : Res := branch ((s.rs a).slt (s.rs b)) off s
/-- BGE (R144). -/
def execBge (a b : SReg) (off : BitVec 13) (s : State) : Res := branch (!(s.rs a).slt (s.rs b)) off s
/-- BLTU (R144). -/
def execBltu (a b : SReg) (off : BitVec 13) (s : State) : Res := branch ((s.rs a).ult (s.rs b)) off s
/-- BGEU (R144). -/
def execBgeu (a b : SReg) (off : BitVec 13) (s : State) : Res := branch (!(s.rs a).ult (s.rs b)) off s
/-- JAL: link, then jump (R164). -/
def execJal (d : SReg) (off : BitVec 21) (s : State) : Res :=
  .next ((s.ws d (s.hart.pc + 4)).goTo (s.hart.pc + off.signExtend 64 <<< 2))

/-- JALR: the target is checked against c15 as a fetch, steps 1–5 of R105; then link and jump (R165). -/
def execJalr (d a : SReg) (imm : BitVec 12) (s : State) : Res :=
  let t : Int := ((s.rs a).toNat : Int) + imm.toInt
  match capChecks s.who (s.rc 15) t 4 4 .fetch with
  | some e => .next (s.takeTrap e (tv t) 4)
  | none => .next ((s.ws d (s.hart.pc + 4)).goTo (tv t))

/-! ### Scalar loads and stores (R166–R168) -/

/-- The address of a scalar access: cursor plus the sign-extended offset (R166). -/
def scalarAddr (c : Cap) (imm : BitVec 13) : Int := (c.cursor : Int) + imm.toInt

/-- A scalar load of `n` bytes, sign- or zero-extended, enters the load queue (R119, R166). -/
def scalarLoad (d : SReg) (c : CReg) (imm : BitVec 13) (n : Nat) (signed : Bool) (s : State) : Res :=
  finish 4 s (s.load (s.rc c) (scalarAddr (s.rc c) imm) n .load (.scalar d n signed))

/-- A scalar store of the low `n` bytes (R166). -/
def scalarStore (d : SReg) (c : CReg) (imm : BitVec 13) (n : Nat) (s : State) : Res :=
  finish 4 s (s.store (s.rc c) (scalarAddr (s.rc c) imm) n (s.rs d).toNat)

/-- LDB (R166). -/
def execLdb (d : SReg) (c : CReg) (imm : BitVec 13) (s : State) : Res := scalarLoad d c imm 1 true s
/-- LDH (R166). -/
def execLdh (d : SReg) (c : CReg) (imm : BitVec 13) (s : State) : Res := scalarLoad d c imm 2 true s
/-- LDW (R166). -/
def execLdw (d : SReg) (c : CReg) (imm : BitVec 13) (s : State) : Res := scalarLoad d c imm 4 true s
/-- LDD (R166). -/
def execLdd (d : SReg) (c : CReg) (imm : BitVec 13) (s : State) : Res := scalarLoad d c imm 8 true s
/-- LDBU (R166). -/
def execLdbu (d : SReg) (c : CReg) (imm : BitVec 13) (s : State) : Res := scalarLoad d c imm 1 false s
/-- LDHU (R166). -/
def execLdhu (d : SReg) (c : CReg) (imm : BitVec 13) (s : State) : Res := scalarLoad d c imm 2 false s
/-- LDWU (R166). -/
def execLdwu (d : SReg) (c : CReg) (imm : BitVec 13) (s : State) : Res := scalarLoad d c imm 4 false s
/-- STB (R166). -/
def execStb (d : SReg) (c : CReg) (imm : BitVec 13) (s : State) : Res := scalarStore d c imm 1 s
/-- STH (R166). -/
def execSth (d : SReg) (c : CReg) (imm : BitVec 13) (s : State) : Res := scalarStore d c imm 2 s
/-- STW (R166). -/
def execStw (d : SReg) (c : CReg) (imm : BitVec 13) (s : State) : Res := scalarStore d c imm 4 s
/-- STD (R166). -/
def execStd (d : SReg) (c : CReg) (imm : BitVec 13) (s : State) : Res := scalarStore d c imm 8 s

end Sys2Proof.Machine
end

