-- ==== Sys2Proof/Machine/StreamUnit.lean ====
section
/-! DEFINITION. Stream registers: binding, address and data queues, pops, format words, status and the engine's own
steps: major 0x11 (R71, R292–R297). -/

namespace Sys2Proof.Machine

/-- The engine a stream is bound on. -/
def Stream.eng (q : Stream) : Nat := cEng q.card

/-- The stream is bound under a bit-plane sink (R297). -/
def Stream.bp (q : Stream) : Bool := wBp (cDfmt q.card)

/-- Bits of a source value at the binding. -/
def streamBits (c : List Byte) : Nat := if wEn (cDfmt c) then typeBits (cStype c) else 8 * 2 ^ cEsz c

/-- Bytes of an element before conversion (R293). -/
def rawBytes (c : List Byte) : Nat := cExt c 0 * streamBits c / 8

/-- Bytes of an element of `n` raw bytes under format words: converted when both have EN (R280, R295). -/
def convLength (src sink n : Nat) : Nat :=
  if wEn src && wEn sink then n * 8 / typeBits (wType src) * typeBits (wType sink) / 8 else n

/-- The fields of a stream card in byte order (R293). -/
def streamFields (c : List Byte) (region : Nat) : List (Nat × Bool) :=
  let w := cDfmt c
  let cv := wEn w
  let bp := wBp w
  let f := bpFormat (wType w)
  let four := cv && (typeBits (cStype c) = 4 || typeBits (wType w) = 4)
  let src := cStype c + if cv then 2 ^ 15 else 0
  [(0, cNdim c = 1 && cEsz c ≤ 8 && (!cv || cEsz c = 0) && !cIdx64 c),
   (1, field c 1 1 % 16 = 0 && (if cv then typeOk (cStype c) else cStype c = 0)),
   (2, if cv then !wQ4 w && sinkOk w (cStype c) else w = 0),
   (4, 1 ≤ cExt c 0 && (!four || cExt c 0 % 2 = 0) &&
     (if bp then cExt c 0 = wfKs f else rawBytes c ≤ 256 && convLength src w (rawBytes c) ≤ 256)),
   (6, cExt c 1 = 1), (8, cExt c 2 = 1), (10, cExt c 3 = 1), (12, cBnd c 0 = 0), (16, cBnd c 2 = 0), (18, cBnd c 3 = 0),
   (24, field c 24 4 = 0), (28, field c 28 4 = 0),
   (32, if bp then field c 32 4 % 64 = 0 && field c 32 4 + field c 36 4 * panelBytes f (wPl w) ≤ region else field c 32 4 = 0),
   (36, if bp then 1 ≤ field c 36 4 && field c 36 4 ≤ 64 else field c 36 4 = 0), (40, field c 40 4 = 0),
   (44, field c 44 2 % 2 ^ 11 = 0), (45, field c 45 1 / 8 = 0), (46, field c 46 4 = 0), (50, field c 50 2 % 2 ^ 11 = 0),
   (51, field c 51 1 / 8 = 0), (52, field c 52 4 = 0), (56, field c 56 4 = 0), (60, field c 60 4 % 2 ^ 25 = 0), (63, field c 63 1 / 2 = 0)]

/-- A stream that drains: unissued addresses and every element are dropped (R296). -/
def Stream.drained (q : Stream) : Stream := { q with aq := [], dq := [], runs := [], popped := q.panels, faulted := false }

/-- The engine faults a stream has in its core's queue leave it when the stream is drained or freed. -/
def State.dropStreamFaults (s : State) (c : CtxId) (q : Nat) : State :=
  s.dropFaults c.die c.core fun e => e.stream && e.slot = c.slot && e.num = q

/-- A stream that drains before it becomes another: unissued addresses and elements are dropped at once, reads in flight are waited for
(R293, R296). -/
def drainStream (q : QReg) (z : Stream) (s : State) : R Wait :=
  .ok (.drain q z) ((s.dropStreamFaults s.here q.toNat).wq q (s.rq q).drained)

/-- QBIND (R293): a bound stream is drained first. -/
def execQbind (c : CReg) (q : QReg) (b : SReg) (s : State) : Res :=
  let word := tvalWord (.qbind c q b)
  finishWait s (taskOnly s word (
    (s.readCard (s.rs b).toNat false).bind fun (card, _) s =>
    (checkFields word (streamFields card s.regionLen) s).bind fun _ s =>
      let w := cDfmt card
      drainStream q
        { Stream.unbound with
          bound := true, cap := s.rc c, card := card, sink := BitVec.ofNat 16 w
          src := BitVec.ofNat 16 (cStype card + if wEn w then 2 ^ 15 else 0) } s))

/-- A stream instruction on a bound stream; STREAM_UNBOUND otherwise (R292). -/
def onStream {α : Type} (word : Word) (q : QReg) (s : State) (r : R α) : R α :=
  taskOnly s word (if (s.rq q).bound then r else .trap .streamUnbound (BitVec.ofNat 64 q.toNat) s)

/-- The address of an element (R294). -/
def Stream.elemAddr (q : Stream) (v : Word) : Int := q.cap.cursor + v.toInt * cSstr q.card 1

/-- An index is within a stream's bound (R294). -/
def Stream.inBounds (q : Stream) (v : Word) : Bool := cBnd q.card 1 = 0 || v.toNat < cBnd q.card 1

/-- QADDR (R294): the lowest and highest bytes are checked at the instruction. -/
def execQaddr (q : QReg) (b : SReg) (s : State) : Res :=
  let z := s.rq q
  let v := s.rs b
  let a := z.elemAddr v
  let n := byteSize (streamBits z.card)
  let last := a + (rawBytes z.card : Int) - 1
  finish 4 s (onStream (tvalWord (.qaddr q b)) q s (
    if 32 ≤ z.aq.length then .wait
    else
      match (if z.inBounds v then
          match s.checkSix s.who z.cap a 1 n .load with
          | some e => some (e, a)
          | none => (s.checkSix s.who z.cap last 1 1 .load).map fun e => (e, last)
        else none) with
      | some (e, x) => .trap e (tv x) s
      | none => .ok () (s.wq q { z with aq := z.aq ++ [v] })))

/-- The head element under the current format words: its bytes and flags (R295). -/
def Stream.convHead (q : Stream) (e : QElem) : List Byte × Flags5 :=
  if q.bp || !(wEn q.src.toNat && wEn q.sink.toNat) then (e.data, 0) else convBytes (wType q.src.toNat) q.sink.toNat e.data

/-- Bytes of an element as a pop delivers it. -/
def Stream.popBytes (q : Stream) : Nat := if q.bp then 8 else convLength q.src.toNat q.sink.toNat (rawBytes q.card)

/-- The word that QPOPS and QPEEK write: an integer target type is sign-extended (R295). -/
def Stream.word (q : Stream) (bs : List Byte) : Word :=
  if !q.bp && wEn q.src.toNat && wEn q.sink.toNat && isIntType (wType q.sink.toNat) then
    wordOfInt (sextInt (leNat bs) (8 * bs.length))
  else BitVec.ofNat 64 (leNat bs)

/-- A pop: it waits for the head element with its task READY, traps on a marked one, else goes on with the element's
bytes and the stream with the flags accrued (R294, R295). -/
def popStream (word : Word) (q : QReg) (small : Bool) (s : State) (f : List Byte → Stream → State → State) : Res :=
  let z := s.rq q
  match onStream word q s (if small && 8 < z.popBytes then .trap .illegal word s else .ok () s) with
  | .trap c v t => .next (t.takeTrap c v 4)
  | .wait => .next s
  | .ok _ s =>
    match z.dq with
    | [] => .next s
    | e :: _ =>
      if e.mark ≠ .none then .next (s.takeTrap e.mark e.addr 4)
      else
        match z.convHead e with
        | (bs, fl) => .next ((f bs { z with cvf := z.cvf ||| fl } s).advance 4)

/-- A stream without its head element. -/
def Stream.pop (q : Stream) : Stream := { q with dq := q.dq.tail, popped := if q.bp then q.popped + 1 else q.popped }

/-- QPOPS (R295). -/
def execQpops (d : SReg) (q : QReg) (s : State) : Res :=
  popStream (tvalWord (.qpops d q)) q true s fun bs z s => (s.wq q z.pop).ws d (z.word bs)

/-- QPOPV (R292, R295): `w` is bit 5 of the destination's number. -/
def execQpopv (v : BitVec 5) (q : QReg) (w : BitVec 1) (s : State) : Res :=
  popStream (tvalWord (.qpopv v q w)) q false s fun bs z s => (s.wq q z.pop).wv (w ++ v) (BitVec.ofNat 2048 (leNat bs))

/-- QPEEK (R295). -/
def execQpeek (d : SReg) (q : QReg) (s : State) : Res :=
  popStream (tvalWord (.qpeek d q)) q true s fun bs z s => (s.wq q z).ws d (z.word bs)

/-- The status word of a stream (R296). -/
def Stream.status (q : Stream) : Word :=
  BitVec.ofNat 64 (q.aq.length + q.inflight.length * 2 ^ 8 + q.dq.length * 2 ^ 16 + (if q.memErr then 2 ^ 24 else 0) +
    (if q.oob then 2 ^ 25 else 0) + (if (q.inflight ++ q.dq).any fun e => e.mark ≠ .none then 2 ^ 26 else 0) +
    q.cvf.toNat * 2 ^ 27 + (if q.bp then 2 ^ 32 else 0) + q.eng * 2 ^ 33)

/-- QSTAT (R296). -/
def execQstat (d : SReg) (q : QReg) (s : State) : Res :=
  finish 4 s (onStream (tvalWord (.qstat d q)) q s (.ok () (s.ws d (s.rq q).status)))

/-- QDRAIN (R296): it waits for reads in flight, then the stream is unbound. -/
def execQdrain (q : QReg) (s : State) : Res :=
  finishWait s (onStream (tvalWord (.qdrain q)) q s (drainStream q Stream.unbound s))

/-- A source word is well formed (R280, R295). -/
def sourceOk (w : Nat) : Bool := w / 16 % 2 ^ 11 = 0 && typeOk (wType w)

/-- The words that QFMT may write on a stream (R295). -/
def qfmtOk (q : Stream) (x : Nat) : Bool :=
  let src := x % 2 ^ 16
  let sink := x / 2 ^ 16 % 2 ^ 16
  !bitOf sink 8 && !bitOf sink 13 && !bitOf src 8 && !bitOf src 13 && !q.bp && sourceOk src && x / 2 ^ 32 = 0 &&
    (wEn src == wEn sink) && sinkOk sink (wType src) && convLength src sink (rawBytes q.card) ≤ 256

/-- QFMT (R295). -/
def execQfmt (q : QReg) (b : SReg) (s : State) : Res :=
  let x := s.rs b
  finish 4 s (onStream (tvalWord (.qfmt q b)) q s (
    if qfmtOk (s.rq q) x.toNat then
      .ok () (s.wq q { s.rq q with src := x.extractLsb' 0 16, sink := x.extractLsb' 16 16 })
    else .trap .illegal x s))

/-! ### The engine's steps (R294, R297) -/

/-- Change a stream of a context. -/
def State.modStream (s : State) (c : CtxId) (q : Fin 8) (f : Stream → Stream) : State :=
  s.modHart c fun h => { h with q := h.q.set q.val (f (h.q.get q)) q.isLt }

/-- An element of a stream that traps at its pop (R294). -/
def QElem.marked (n : Nat) (cause : Cause) (a : Int) : QElem := ⟨List.replicate n 0, cause, tv a, false, false⟩

/-- Read bytes at an address of a space in pieces as an engine does. -/
def State.engineRead (s : State) (w : Who) (agent : Reader) (space : Nat) : List (Nat × Nat) → Moved (List Byte × Bool)
  | [] => .ok ([], false) s
  | (x, n) :: t =>
    (s.engineKey w space (x : Int) n .load).bind fun k s =>
    match s.engineLines w.die w.core agent k n with
    | (bs, bad, s) => (s.engineRead w agent space t).bind fun r s => .ok (bs ++ r.1, bad || r.2) s

/-- Whether a failed re-check of a queued read marks its element or goes to the engine-fault queue (R294). -/
def State.streamRead (s : State) (c : CtxId) (q : Nat) (z : Stream) (v : Word) : Option QElem × State :=
  let h := s.hartAt c
  let n := rawBytes z.card
  let a := z.elemAddr v
  if !z.inBounds v then (some ⟨List.replicate n 0, .none, tv a, false, true⟩, s)
  else
    match s.place (whoTask c h.task) z.cap.space a.toNat n with
    | .bad .transitExpired => (some (QElem.marked n .transitExpired a), s)
    | _ =>
      match s.engineRead (whoTask c h.task) (.stream z.eng q) z.cap.space (lineRuns a.toNat n) with
      | .hold s => (none, s)
      | .ok (bs, bad) s => (some ⟨bs, .none, tv a, bad, false⟩, s)
      | .fault cause x s =>
        (none, (s.postEngine c.die c.core ⟨cause, z.eng, true, c.slot, tv x, q, s.polestar, false⟩).modHart c fun h =>
          { h with q := h.q.mapFinIdx fun i y _ => if i = q then { y with faulted := true } else y })

/-- Data-queue entries are free for one more read: reads in flight and arrived elements never exceed 64; under a bit-plane sink the runs
of the panel being built, with those in flight, fill no more than their part of the queue's storage (R294, R375, log 16). -/
def Stream.room (q : Stream) : Bool :=
  q.inflight.length + q.dq.length < 64 && (!q.bp || q.inflight.length + q.runs.length < 60)

/-- STREAM_READ_ISSUE: the engine issues the oldest queued address when a data-queue entry is free for it (R294). -/
def execStreamReadIssue (die core slot q : Nat) (s : State) : Res :=
  let c : CtxId := ⟨die, core, slot⟩
  if hq : q < 8 then
    let i : Fin 8 := ⟨q, hq⟩
    let z := (s.hartAt c).q.get i
    match z.aq with
    | [] => .next s
    | v :: rest =>
      if !z.bound || z.faulted || !z.room || s.engineHeld die core z.eng then .next s
      else
        match s.streamRead c q z v with
        | (none, s) => .next s
        | (some e, s) => .next (s.modStream c i fun z => { z with aq := rest, inflight := z.inflight ++ [e] })
  else .next s

/-- A panel from 32 column runs of raw bytes, with the flags of their conversion (R286, R297). -/
def runsPanel (c : List Byte) (runs : List (List Byte)) : List Byte × Flags5 :=
  let w := cDfmt c
  let ws := typeBits (cStype c)
  let cols := runs.map fun r => (unpackElems ws (r.length * 8 / ws) r).map (convValue (cStype c) w)
  (panelOf (bpFormat (wType w)) (wPl w) (cols.map fun l => l.map (·.1)) [] [],
    cols.foldl (fun acc l => l.foldl (fun acc x => acc ||| x.2) acc) 0)

/-- The oldest read in flight of a stream arrives: its element enters the data queue, under a bit-plane sink a column run (R294, R297). -/
def Stream.arrive (z : Stream) : Stream :=
  match z.inflight with
  | [] => z
  | e :: rest =>
    let z := { z with inflight := rest, memErr := z.memErr || e.memErr, oob := z.oob || e.oob }
    if !z.bp then { z with dq := z.dq ++ [e] }
    else
      { z with
        runs := z.runs ++ [e.data]
        dq := if e.mark ≠ .none then z.dq ++ [QElem.marked 8 e.mark e.addr.toInt] else z.dq }

/-- Under a bit-plane sink 32 column runs have arrived and their panel has a place in the ring (R297). -/
def Stream.panelDue (z : Stream) : Bool := z.bp && 32 ≤ z.runs.length && z.panels < z.popped + field z.card 36 4

/-- The panel of the first 32 column runs of a stream is built in the task's region, byte by byte in a free order (R114); with the last
byte its element enters the data queue (R286, R297). -/
def State.buildPanel (s : State) (c : CtxId) (i : Fin 8) : State :=
  let z := (s.hartAt c).q.get i
  match runsPanel z.card (z.runs.take 32) with
  | (bs, fl) =>
    let off := field z.card 32 4 + z.panels % Nat.max 1 (field z.card 36 4) * bs.length
    let left := (List.range bs.length).filter fun k => !z.laid.contains k
    match s.turned left with
    | k :: _ :: _ =>
      (s.writeHomeBytes c.core (scratchKey c.die c.core ((s.hartAt c).task.region + off + k)) ((bs.drop k).take 1)).modStream c i fun _ =>
        { z with laid := k :: z.laid }
    | last =>
      (last.foldl (fun (s : State) k =>
        s.writeHomeBytes c.core (scratchKey c.die c.core ((s.hartAt c).task.region + off + k)) ((bs.drop k).take 1)) s).modStream c i fun _ =>
        { z with
          runs := z.runs.drop 32, panels := z.panels + 1, cvf := z.cvf ||| fl, laid := []
          dq := z.dq ++ [⟨leBytes 8 off, .none, 0, false, false⟩] }

/-- STREAM_ELEMENT_ARRIVAL: the next byte of the panel that is due is written, or the oldest read in flight arrives; a QBIND or QDRAIN that waits for the
last one goes on (R293, R294, R296, R297). -/
def execStreamElementArrival (die core slot q : Nat) (s : State) : Res :=
  let c : CtxId := ⟨die, core, slot⟩
  if hq : q < 8 then
    let i : Fin 8 := ⟨q, hq⟩
    let s := if ((s.hartAt c).q.get i).panelDue then s.buildPanel c i else s.modStream c i Stream.arrive
    .next (if (s.waitersOf fun w => match w with
      | .drain j _ => j.toNat = q
      | _ => false).contains c then s.tryWait c else s)
  else .next s

/-- The reads of a stream that an eviction diverted arrive, in order (R78, R372). -/
def Stream.deliver (z : Stream) : Stream :=
  z.diverted.foldl (fun z _ => z.arrive) { z with diverted := [], inflight := z.diverted ++ z.inflight }

/-- The diverted reads of a context's streams arrive (R78, R372). -/
def State.deliverStreams (s : State) (c : CtxId) : State := s.modHart c fun h => { h with q := h.q.map Stream.deliver }

end Sys2Proof.Machine
end

