-- ==== Sys2Proof/Machine/Arcs.lean ====
section
/-! DEFINITION. Launch records, rings and arcs, and the tasks of a record that are still to be placed (R33, R36, R37, R42, R415). -/

namespace Sys2Proof.Machine

/-! ### Launch records (R33) -/

/-- CODE. -/
def rCode (r : List Byte) : Nat := field r 0 6
/-- CODELEN. -/
def rCodelen (r : List Byte) : Nat := field r 8 4
/-- ENTRY. -/
def rEntry (r : List Byte) : Nat := field r 12 4
/-- ARGP. -/
def rArgp (r : List Byte) : Nat := field r 16 6
/-- EXTX (0), EXTY (1), EXTZ (2). -/
def rExt (r : List Byte) (d : Nat) : Nat := field r (24 + 2 * d) 2
/-- PRIO. -/
def rPrio (r : List Byte) : Nat := field r 30 1 % 8
/-- KIND is 1: a gang member. -/
def rGanged (r : List Byte) : Bool := field r 31 1 = 1
/-- ARCFIRST. -/
def rArcFirst (r : List Byte) : Nat := field r 32 2
/-- ARCLEN. -/
def rArcLen (r : List Byte) : Nat := field r 34 2
/-- RING. -/
def rRing (r : List Byte) : Nat := field r 36 1
/-- GANG. -/
def rGang (r : List Byte) : Nat := field r 37 1
/-- FLAGS: 0 CHAIN, 1 HINTOK, 2 GATED. -/
def rFlag (r : List Byte) (k : Nat) : Bool := bitOf (field r 39 1) k
/-- TAGLIST. -/
def rTaglist (r : List Byte) : Nat := field r 40 6
/-- TAGCOUNT. -/
def rTagcount (r : List Byte) : Nat := field r 46 2
/-- CHANTAB. -/
def rChantab (r : List Byte) : Nat := field r 48 6
/-- CHANCOUNT. -/
def rChancount (r : List Byte) : Nat := field r 54 2
/-- DONE. -/
def rDone (r : List Byte) : Nat := field r 56 2
/-- SCRATCH. -/
def rScratch (r : List Byte) : Nat := field r 58 2
/-- Tasks of a record (R30). -/
def rTasks (r : List Byte) : Nat := rExt r 0 * rExt r 1 * rExt r 2

/-! ### Rings and arcs (R36, R37, R415) -/

/-- The number of positions of a ring (R415). -/
def Ring.size (r : Ring) : Nat := if r.config = 0 then 8 else if r.config = 3 then 8 * r.packages.length else 4

/-- The place of a package in a ring. -/
def Ring.place (r : Ring) (pkg : Nat) : Option Nat := r.packages.findIdx? (· = pkg)

/-- The position of a die of this package (R415). -/
def Ring.posOf (r : Ring) (self die : Nat) : Option Nat :=
  if r.config = 0 then some die
  else if r.config = 1 then if die < 4 then some die else none
  else if r.config = 2 then if 4 ≤ die then some (die - 4) else none
  else (r.place self).map fun p => 8 * p + die

/-- The die of this package at a position. -/
def Ring.dieAt (r : Ring) (self pos : Nat) : Option Nat := (List.range 8).find? fun d => r.posOf self d = some pos

/-- A ring by its id. -/
def State.ring? (s : State) (id_ : Nat) : Option Ring := s.rings.find? id_

/-- The die of this package at arc index `j` of an arc, if it is in this package. -/
def State.arcDie (s : State) (ring first j : Nat) : Option Nat :=
  match s.ring? ring with
  | some r => r.dieAt s.fabric.self ((first + j) % Nat.max 1 r.size)
  | none => none

/-- The arc index of a die of this package (R37). -/
def State.arcIndex (s : State) (ring first len die : Nat) : Option Nat :=
  match s.ring? ring with
  | some r =>
    match r.posOf s.fabric.self die with
    | some p =>
      let j := (p + r.size - first % Nat.max 1 r.size) % Nat.max 1 r.size
      if j < len then some j else none
    | none => none
  | none => none

/-- The dies of this package on an arc, in arc order. -/
def State.arcDies (s : State) (ring first len : Nat) : List Nat := (List.range len).filterMap (s.arcDie ring first)

/-- The other packages on the arc of a record (R257). -/
def State.arcOthers (s : State) (r : List Byte) : List Nat :=
  match s.ring? (rRing r) with
  | some g =>
    if g.config ≠ 3 then []
    else (((List.range (rArcLen r)).filterMap fun j => g.packages[(rArcFirst r + j) % Nat.max 1 g.size / 8]?).eraseDups).filter (· ≠ s.fabric.self)
  | none => []

/-- The launch id a task belongs to owns an arc that contains a die (R303, R306). -/
def State.ownsDie (s : State) (t : TaskInfo) (die : Nat) : Bool := (s.arcIndex t.ring t.arcFirst t.arcLen die).isSome

/-! ### Tasks still to place (R37, R42) -/

/-- Task numbers bound to arc index `j` that are not placed yet, lowest first: all of a tag-gated launch, of another the first, behind
which the others wait (R37, R42). -/
def Launch.unplaced (l : Launch) (j : Nat) : List Nat :=
  let n := Nat.max 1 (rArcLen l.record)
  let first := l.next + (j + n - l.next % n) % n
  let all := fun k : Nat => ((List.range k).map fun i => first + i * n).filter fun i => i < rTasks l.record && !l.skipped.contains i
  if rFlag l.record 2 then all (rTasks l.record / n + 1) else (all (l.skipped.length + 1)).take 1

/-- The tag words of a task of a gated record, as the check of its chain read them (R36, R42). -/
def Launch.tagWords (l : Launch) (index : Nat) : List Nat :=
  if rFlag l.record 2 then (l.tags.drop (rTagcount l.record * index)).take (rTagcount l.record) else []

end Sys2Proof.Machine
end

