-- ==== Sys2Proof/Machine/Tags.lean ====
section
/-! DEFINITION. Readiness tags: handles, generations, publication and retirement: major 0x15 (R313–R315, R389, R390). -/

namespace Sys2Proof.Machine

/-- A tag word as an operand: bits 63:32 are zero (R313). -/
def tagOperand (x : Word) (s : State) : R Nat :=
  if x.toNat / 2 ^ 32 ≠ 0 then .trap .illegal x s else .ok x.toNat s

/-- The dies on which a partition has cores: CORES of its descriptor (R408). -/
def State.partDies (s : State) (part : Nat) : List Nat :=
  (List.range 8).filter fun d => field (s.partOf part).desc (112 + 2 * d) 2 ≠ 0

/-- The dies of the package that hold an entry of a tag declared on a die at a scope: those of the scope instance in the
partition (R315). -/
def State.scopeDies (s : State) (part die scope : Nat) : List Nat :=
  if scope ≤ 1 then [die] else (s.partDies part).filter (· ≠ die) ++ [die]

/-- Readiness-table entries in use on a die (R313). -/
def State.tagEntries (s : State) (die : Nat) : Nat :=
  (s.shared.tags.filter fun p => p.2.state ≠ 0 && p.2.dies.contains die && !p.2.spilled.contains die).length

/-- Add to the spill statistic of a partition, bytes 224–231 of its descriptor (R313, R408). -/
def State.countSpills (s : State) (part n : Nat) : State :=
  if n = 0 then s else s.writeDesc part 224 8 (field (s.partOf part).desc 224 8 + n)

/-- The first 8 bytes of a spill record of a handle: tag word, state and scope (R390). -/
def TagRec.spillBytes (t : TagRec) (word : Nat) : List Byte :=
  leBytes 4 word ++ [BitVec.ofNat 8 (t.state + t.scope * 16)] ++ List.replicate 3 0

/-- Bytes 16–23 of a spill record: 0 without spilled waiters, else the address of their chain, which is free (R390, log 115). -/
def State.chainAddr (s : State) (t : TagRec) : List Byte :=
  if t.late = [] then List.replicate 8 0 else leBytes 8 (Config.freeWord s.steps).toNat

/-- The spill record of a tag word in a partition's overflow list from an address, at most `n` records on: its home (R390). -/
def State.spillHome (s : State) (part word : Nat) : Nat → Nat → Option Nat
  | 0, _ => none
  | n + 1, va =>
    if va = 0 then none
    else
      match s.locate? s.here.die 16 part 3 va none with
      | none => none
      | some k => if s.homeNat k 2 = word % 2 ^ 16 && s.homeNat (k + 4) 1 ≠ 0 then some k else s.spillHome part word n (s.homeNat (k + 8) 8)

/-- The first record of a partition's overflow list that is in no use, its handle FREE: its home (R390). -/
def State.spillFree (s : State) (part : Nat) : Nat → Nat → Option Nat
  | 0, _ => none
  | n + 1, va =>
    if va = 0 then none
    else
      match s.locate? s.here.die 16 part 3 va none with
      | none => none
      | some k => if s.homeNat (k + 4) 1 % 4 = 0 then some k else s.spillFree part n (s.homeNat (k + 8) 8)

/-- The records of a partition's overflow list in memory follow a handle that has spilled: its record, or a free one of the list,
takes the tag word, state, scope and waiter chain and keeps its place in the list; so does that of one with spilled waiters (R313, R389,
R390, log 115). -/
def State.writeSpill (s : State) (part word : Nat) : State :=
  let t := s.tagRec part word
  if t.spilled = [] && t.late = [] then s
  else
    let first := field (s.partOf part).desc 64 8
    match (s.spillHome part word 65536 first).orElse fun _ => s.spillFree part 65536 first with
    | some k => (s.writeHomeBytes s.here.core k (t.spillBytes word)).writeHomeBytes s.here.core (k + 16) (s.chainAddr t)
    | none => s

/-- The waiters on tags of a die: its blocked TAGWAITs, WAITING sequences and suspended tasks of kind tag, and each unpublished tag of
its gated tasks, with partition and tag word (R389). -/
def State.tagWaits (s : State) (die : Nat) : List (Nat × Nat × TagWaiter) :=
  (s.shared.tagWaiters.filterMap fun w =>
    match (s.hartAt (ctxOf w.2)).task.wait with
    | some (.tag part word) => if (ctxOf w.2).die = die then some (part, word, TagWaiter.slot w.2) else none
    | _ => none) ++
  (s.shared.seqs.filterMap fun p =>
    if p.1 / 1024 = die && p.2.state = 0 then p.2.input.map fun w => (p.2.part, w, TagWaiter.seq p.1) else none) ++
  (s.disp.conts.filterMap fun p =>
    if p.2.kind = 3 && p.2.home.1 = die && !p.2.complete && p.2.fate.isNone
    then some (p.2.hart.task.part, p.2.object.toNat, TagWaiter.cont p.1) else none) ++
  s.disp.launches.flatMap fun p =>
    match s.arcIndex (rRing p.2.record) (rArcFirst p.2.record) (rArcLen p.2.record) die with
    | none => []
    | some j =>
      let held := ((s.reservedFor p.1).filter fun c => c.die = die).map fun c => (s.hartAt c).task.taskId
      (held ++ p.2.unplaced j).flatMap fun i =>
        ((p.2.tagWords i).filter fun w => !s.published p.2.part w).map fun w => (p.2.part, w, TagWaiter.gated p.1 i)

/-- Wait-list nodes of a die in use (R389). -/
def State.tagNodes (s : State) (die : Nat) : Nat := ((s.tagWaits die).filter fun x => !s.isLate x.1 x.2.1 x.2.2).length

/-- A waiter of a die enters a handle's spill record, or is on it no longer (R389). -/
def State.setLate (s : State) (part word die : Nat) (w : TagWaiter) (on : Bool) : State :=
  let t := s.tagRec part word
  let l := t.late.filter fun x => x.2 ≠ (word, w)
  (s.setTag part word { t with late := if on then l ++ [(die, word, w)] else l }).writeSpill part word

/-- Waiters of a die join the lists of their tags in order, `n` nodes of the die in use before: each takes a node, or, with none free or
its handle spilled there, enters the handle's spill record (R313, R389). -/
def State.joinTags (s : State) (die n : Nat) : List (Nat × Nat × TagWaiter) → State
  | [] => s
  | (part, word, w) :: rest =>
    if s.published part word || s.staleWait part word then s.joinTags die n rest
    else if (s.tagRec part word).spilled.contains die || 32768 ≤ n then (s.setLate part word die w true).joinTags die n rest
    else (if s.isLate part word w then s.setLate part word die w false else s).joinTags die (n + 1) rest

/-- One waiter joins a tag's list on its die (R389). -/
def State.joinTag (s : State) (part word die : Nat) (w : TagWaiter) : State := s.joinTags die (s.tagNodes die) [(part, word, w)]

/-- The gated tasks of a launch join the lists of their tags on every die (R42, R389). -/
def State.joinGated (s : State) (launch : Nat) : State :=
  (List.range 8).foldl (fun s d =>
    let mine := (s.tagWaits d).filter fun x => match x.2.2 with
      | .gated l _ => l = launch
      | _ => false
    s.joinTags d (s.tagNodes d - mine.length) mine) s

/-- The tags of a gated task are published, as its die's dispatcher knows (R42, R389, R390). -/
def State.tagsOpen (s : State) (launch : Nat) (l : Launch) (index : Nat) : Bool :=
  (l.tagWords index).all fun w => s.published l.part w && !s.isLate l.part w (.gated launch index)

/-- A task of a record can no longer be placed: one of its tags is retired (R42). -/
def State.tagsGone (s : State) (launch : Nat) (l : Launch) (index : Nat) : Bool :=
  (l.tagWords index).any fun w => s.staleWait l.part w && !s.isLate l.part w (.gated launch index)

/-- The dies where a handle has a spill record, or spilled waiters (R390). -/
def TagRec.spillDies (t : TagRec) : List Nat :=
  (List.range 8).filter fun d => t.spilled.contains d || t.late.any fun x => x.1 = d

/-- Notices of a change to a handle that has spilled, or that has spilled waiters: to each die's firmware, with a scan request (R390). -/
def State.spillNotice (s : State) (part word : Nat) : State :=
  let dies := (s.tagRec part word).spillDies
  let s := dies.foldl (fun s d => (s.notify (.spill d part (word % 2 ^ 16))).wakeDie d) s
  if dies = [] then s else { s with disp := { s.disp with scanAsked := setInsert s.disp.scanAsked part } }

/-- Declare one handle on its dies: those whose table is full write it to the overflow list instead (R313, R315). -/
def State.declareTag (s : State) (part word scope : Nat) : State :=
  let dies := s.scopeDies part s.here.die scope
  let spilled := dies.filter fun d => 16384 ≤ s.tagEntries d
  let old := s.tagRec part word
  let moved := spilled.flatMap fun d => ((s.tagWaits d).filter fun x => x.1 = part && x.2.1 % 2 ^ 16 = word % 2 ^ 16).map fun x => (d, x.2)
  let late := old.late ++ moved.filter fun x => !old.late.contains x
  ((s.setTag part word { old with state := 1, gen := tagGen word, scope := scope, dies := dies, spilled := spilled, late := late }).writeSpill
    part word).countSpills part spilled.length

/-- TAGDECL (R315). -/
def execTagdecl (d a b : SReg) (sf : BitVec 3) (s : State) : Res :=
  let n := (s.rs b).toNat
  let w := (s.rs a).toNat
  let words := (List.range n).map fun i => w + i
  finish 4 s (taskOnly s (tvalWord (.tagdecl d a b sf)) (
    if n = 0 || 4096 < n || 65536 < w % 2 ^ 16 + n then .trap .illegal (s.rs b) s
    else (tagOperand (s.rs a) s).bind fun _ s =>
      match words.find? fun x => !(s.tagRec s.part x).nextGen (tagGen w) with
      | some x => .trap .tagStale (BitVec.ofNat 64 x) s
      | none =>
        let t := words.foldl (fun t x => t.declareTag s.part x sf.toNat) s
        .ok () (t.ws d (BitVec.ofNat 64
          (words.filter fun x => (t.tagRec s.part x).spilled.contains s.here.die).length))))

/-- TAGPUB: a release at the tag's scope, then the publication (R130, R315); ar also acquires (R260). -/
def execTagpub (a : SReg) (r : BitVec 2) (s : State) : Res :=
  finish 4 s (taskOnly s (tvalWord (.tagpub a r)) (
    (tagOperand (s.rs a) s).bind fun w s =>
      if s.stalePub s.part w then .trap .tagStale (s.rs a) s
      else
        let t := s.tagRec s.part w
        let s := ((s.acquireAr t.scope r).release t.scope).effect
        if t.state = 2 then .ok () s
        else .ok () ((((s.spillNotice s.part w).setTag s.part w { t with state := 2 }).writeSpill s.part w).wakeTag s.part w)))

/-- TAGWAIT (R315); ar also releases (R260). A blocked waiter joins the handle's wait list. -/
def execTagwait (a : SReg) (r : BitVec 2) (s : State) : Res :=
  finishWait s (taskOnly s (tvalWord (.tagwait a r)) ((tagOperand (s.rs a) s).bind fun w s =>
    let s := (s.releaseAr (s.tagRec s.part w).scope r).joinTag s.part w s.here.die (.slot s.here.key)
    .ok (.tag s.part w) { s with shared := { s.shared with
      tagWaiters := (s.shared.tagWaiters.filter fun x => x.2 ≠ s.here.key) ++ [(tagWaitKey s.part w, s.here.key)] } }))

/-- The state word of a handle on a die (R315). -/
def TagRec.word (t : TagRec) (die : Nat) : Word :=
  BitVec.ofNat 64 (t.state + (if t.spilled.contains die then 4 else 0) + t.scope * 2 ^ 4 +
    (if t.state = 0 then t.retired else t.gen) * 2 ^ 16)

/-- TAGQRY (R315). -/
def execTagqry (d a : SReg) (s : State) : Res :=
  finish 4 s (taskOnly s (tvalWord (.tagqry d a)) (
    (tagOperand (s.rs a) s).bind fun w s => .ok () (s.ws d ((s.tagRec s.part w).word s.here.die))))

/-- A generation is retired: blocked waiters take TAG_STALE and WAITING sequences stop (R311, R315). -/
def State.retireTag (s : State) (part word : Nat) : State :=
  let t := s.tagRec part word
  let s := s.spillNotice part word
  let s := (s.setTag part word { t with state := 0, retired := tagGen word }).writeSpill part word
  let s := s.setTag part word { t with state := 0, retired := tagGen word, dies := [], spilled := [] }
  (s.serveTag part word).modWaiting part word fun e => { e with state := 3 }

/-- TAGRET (R315). -/
def execTagret (a : SReg) (s : State) : Res :=
  finish 4 s (taskOnly s (tvalWord (.tagret a)) (
    (tagOperand (s.rs a) s).bind fun w s =>
      if s.stalePub s.part w then .trap .tagStale (s.rs a) s else .ok () (s.retireTag s.part w)))

/-- Firmware serves the spilled waiters of a handle whose tag is published or retired: TAGWAITs and suspended waits end, sequences
become READY or stop, gated tasks pass to placement or fail (R42, R311, R315, R390). -/
def State.serveSpilled (s : State) (part word : Nat) : State :=
  let t := s.tagRec part word
  let due := fun x : Nat × Nat × TagWaiter => s.published part x.2.1 || s.staleWait part x.2.1
  let words := (t.late.filter due).map (·.2.1)
  let s := (s.setTag part word { t with late := t.late.filter fun x => !due x }).writeSpill part word
  words.eraseDups.foldl (fun s w =>
    (s.serveTag part w).modWaiting part w fun e => if s.published part w then { e with state := 1, ready := s.polestar } else { e with state := 3 }) s

/-- SPILL_SCAN: firmware goes through a partition's whole list, and once more within 2^16 ticks (R390). -/
def execSpillScan (part : Nat) (s : State) : Res :=
  let words := (s.shared.tags.filter fun p => p.1 / 2 ^ 16 = part && p.2.late ≠ []).map fun p => p.1 % 2 ^ 16
  let s := words.foldl (fun s w => s.serveSpilled part w) s
  .next { s with disp := { s.disp with
    scanAsked := setErase s.disp.scanAsked part, nextSpill := s.disp.nextSpill.insert part (s.polestar + 2 ^ 16) } }

end Sys2Proof.Machine
end

