-- ==== Sys2Proof/Machine/Task.lean ====
section
/-! DEFINITION. Tasks: launch records, arcs, entry values, constellations, how a task ends, and the task instructions of
majors 0x0D and 0x0E (R30–R62, R76, R272–R277). -/

namespace Sys2Proof.Machine

/-! ### Entry values (R38, R44, R53, R76) -/

/-- c1: the task's scratchpad (R76). -/
def entryC1 (region len : Nat) : Cap := boundedCap 1 0x2F region (region + len) region true
/-- c2: the partition's resident space, its cursor where every printed run has it (R76, log 124). -/
def entryC2 : Cap := boundedCap 3 0x6F 0 (2 ^ 48) 0x8000000000 true
/-- c14: the stack, the last 4 KiB of the region, cursor past the top (R76). -/
def entryC14 (region len : Nat) : Cap := boundedCap 1 0x0F (region + len - 4096) (region + len) (region + len) true
/-- c15: the code object, cursor at ENTRY (R76). -/
def entryC15 (code len entry : Nat) : Cap := boundedCap 3 0x11 code (code + len) (code + entry) true
/-- c3 of a transit task: its meridian slot (R44, R103). -/
def slotCap (slot fill xbytes : Nat) : Cap :=
  let base := fill % 256 * 2 ^ 27 + slot * 2 ^ 24
  boundedCap 7 0x01 base (base + xbytes) base true

/-- The capabilities that placement gives every task again (R53, R76). -/
def TaskInfo.caps (t : TaskInfo) (old : Vector Cap 16) : Vector Cap 16 :=
  let n := t.scratch * 4096
  (((old.set 1 (entryC1 t.region n)).set 2 entryC2).set 14 (entryC14 t.region n)).set 15 (entryC15 t.code t.codeLen t.entry)

/-- A context at task entry (R38, R76): s8–s15 hold the eight words given. -/
def TaskInfo.entryHart (t : TaskInfo) (words : List Word) (c3 : Cap) : Hart :=
  { Hart.fresh with
    status := .ready
    pc := BitVec.ofNat 64 (t.code + t.entry)
    s := Vector.ofFn fun i : Fin 32 => if 8 ≤ i.val ∧ i.val < 16 then words.getD (i.val - 8) 0 else 0
    c := (t.caps (Vector.replicate 16 Cap.null)).set 3 c3
    task := t }

/-! ### Tasks of the package -/

/-- Change the description of every task that meets a condition, wherever it is. -/
def State.modTasks (s : State) (p : TaskInfo → Bool) (f : TaskInfo → TaskInfo) : State :=
  let g := fun h : Hart => if p h.task then { h with task := f h.task } else h
  { s with
    hart := g s.hart
    parked := s.parked.map fun x => (x.1, g x.2)
    disp := { s.disp with
      conts := s.disp.conts.map fun x => (x.1, { x.2 with hart := g x.2.hart })
      saved := s.disp.saved.map fun x => (x.1, { x.2 with hart := g x.2.hart }) } }

/-- A record has tasks bound to dies of this package still to place; those of other packages are theirs (log 47). -/
def State.pendingAny (s : State) (l : Launch) : Bool :=
  let r := l.record
  (List.range (rArcLen r)).any fun j => (s.arcDie (rRing r) (rArcFirst r) j).isSome && l.unplaced j ≠ []

/-- A task of a launch that is not a transit task has not ended, here or, by its report, in another package of the arc (R43, R257). -/
def State.unfinished (s : State) (launch : Nat) : Bool :=
  (match s.disp.launches.find? launch with
    | some l => s.pendingAny l || (s.arcOthers l.record).any fun p => !l.others.contains p
    | none => false) ||
  s.reservedFor launch ≠ [] || s.tasks.any fun t => t.launch = launch && t.transit.isNone

/-- A transit task of a launch has not ended, placed or not (R44, R302). -/
def State.transitsLeft (s : State) (launch : Nat) : Bool :=
  (s.tasks.any fun t => t.launch = launch && t.transit.isSome) || s.disp.transits.any fun t => t.launch = launch

/-- The launches of a chain. -/
def State.chainLaunches (s : State) (chain : Nat) : List (Nat × Launch) :=
  List.filter (fun p : Nat × Launch => p.2.chain = chain) s.disp.launches

/-- Every task of a chain that is bound to a tile space has ended. -/
def State.chainDone (s : State) (chain : Nat) : Bool := (s.chainLaunches chain).all fun p => !s.unfinished p.1

/-- Change a chain. -/
def State.modChain (s : State) (id_ : Nat) (f : Chain → Chain) : State :=
  match s.disp.chains.find? id_ with
  | some c => { s with disp := { s.disp with chains := s.disp.chains.insert id_ (f c) } }
  | none => s

/-- Remove a chain. -/
def State.dropChain (s : State) (id_ : Nat) : State :=
  { s with disp := { s.disp with chains := s.disp.chains.erase id_ } }

/-! ### Constellations (R46, R47, R274) -/

/-- The eight ids of a GROUPS word (R46). -/
def groupIds (g : Word) : List Nat := (List.range 8).map fun k => g.toNat / 2 ^ (8 * k) % 256

/-- The launch under which a gang of a chain is named: that of its first record (R46, R48). -/
def State.gangLead (s : State) (launch : Nat) : Nat :=
  match s.disp.launches.find? launch with
  | some l =>
    ((s.chainLaunches l.chain).filter fun p => rGanged p.2.record && rGang p.2.record = rGang l.record).foldl
      (fun m p => if p.2.index < m.1 then (p.2.index, p.1) else m) (l.index, launch) |>.2
  | none => launch

/-- The launch under which a task's constellation `id` is named: its own, for the gang constellation that of its gang's first record
(R46, R48). -/
def TaskInfo.constLaunch (t : TaskInfo) (id_ : Nat) : Nat := if id_ = 255 then t.lead else t.launch

/-- The members of a constellation now (R46). -/
def State.members (s : State) (launch id_ : Nat) : List (Nat × Nat) :=
  (s.tasks.filter fun t => (groupIds t.groups).contains id_ && t.constLaunch id_ = launch).map TaskInfo.ident

/-- Phases whose whole roster has arrived are over (R47). -/
def State.settlePhases (s : State) : State :=
  { s with shared := { s.shared with phases := s.shared.phases.filter fun p => !p.roster.all fun m => p.arrived.contains m } }

/-- A task counts as arrived in the open phase of a constellation, or of all of them (R47). -/
def State.leavePhases (s : State) (who : Nat × Nat) (p : Phase → Bool) : State :=
  ({ s with shared := { s.shared with
      phases := s.shared.phases.map fun q =>
        if p q && q.roster.contains who then { q with roster := q.roster.filter (· ≠ who) } else q } }).settlePhases

/-- The value of a constellation operand; TVAL is the operand (R274). -/
def groupOperand (x : Word) (s : State) : R Nat :=
  if x = 0 || 255 < x.toNat || (x.toNat = 255 && !s.hart.task.gang) then .trap .illegal x s else .ok x.toNat s

/-- GROUPS with slot `k` set to an id. -/
def setGroup (g : Word) (k id_ : Nat) : Word :=
  BitVec.ofNat 64 (g.toNat - g.toNat / 2 ^ (8 * k) % 256 * 2 ^ (8 * k) + id_ * 2 ^ (8 * k))

/-- GJOIN (R274). -/
def execGjoin (d a : SReg) (s : State) : Res :=
  finish 4 s (taskOnly s (tvalWord (.gjoin d a)) (
    (groupOperand (s.rs a) s).bind fun x s =>
      let ids := groupIds s.hart.task.groups
      if ids.contains x then .ok () (s.ws d 1)
      else
        match ids.findIdx? (· = 0) with
        | some k => .ok () ((s.modTask fun t => { t with groups := setGroup t.groups k x }).ws d 0)
        | none => .ok () (s.ws d 2)))

/-- GLEAVE (R274). -/
def execGleave (d a : SReg) (s : State) : Res :=
  finish 4 s (taskOnly s (tvalWord (.gleave d a)) (
    (groupOperand (s.rs a) s).bind fun x s =>
      match (groupIds s.hart.task.groups).findIdx? (· = x) with
      | some k =>
        let t := s.hart.task
        let lead := t.constLaunch x
        .ok () (((s.modTask fun t => { t with groups := setGroup t.groups k 0 }).leavePhases t.ident
          fun p => p.launch = lead && p.id = x).ws d 0)
      | none => .ok () (s.ws d 1)))

/-- GSYNC (R47, R274): the first attempt arrives, the later ones wait until the phase is over. -/
def execGsync (a : SReg) (sf : BitVec 3) (s : State) : Res :=
  match taskOnly s (tvalWord (.gsync a sf)) (groupOperand (s.rs a) s |>.bind fun _ s => .ok () s) with
  | .trap c v t => .next (t.takeTrap c v 4)
  | .wait => .next s.block
  | .ok _ s =>
    let x := (s.rs a).toNat
    let t := s.hart.task
    match t.gsync with
    | some (_, n) =>
      if s.shared.phases.any fun p => p.number = n then .next s.block
      else .next ((s.modTask fun t => { t with gsync := none }).advance 4)
    | none =>
      if !(groupIds t.groups).contains x then .next (s.takeTrap .illegal (s.rs a) 4)
      else
        let s := s.release sf.toNat
        let lead := t.constLaunch x
        match s.shared.phases.find? fun p => p.launch = lead && p.id = x with
        | some p =>
          if p.roster.contains t.ident then
            let s := { s with shared := { s.shared with phases := s.shared.phases.map fun q =>
              if q = p then { q with arrived := q.arrived ++ [t.ident] } else q } }
            .next ((s.modTask fun t => { t with gsync := some (x, p.number) }).settlePhases).block
          else .next s.block
        | none =>
          let n := s.disp.nextId
          let phase : Phase := ⟨lead, x, n, s.members lead x, [t.ident]⟩
          let s := { s with
            disp := { s.disp with nextId := n + 1 }
            shared := { s.shared with phases := s.shared.phases ++ [phase] } }
          .next ((s.modTask fun t => { t with gsync := some (x, n) }).settlePhases).block

/-! ### How a task ends (R43, R275, R302, R305) -/

/-- A load has a unit to read in a slot of its die. -/
def LoadRec.readsSlot (r : LoadRec) (die slot : Nat) : Bool :=
  r.waitsAt fun j => meridianKey die slot 0 ≤ j && j < meridianKey die slot 0 + Config.slotBytes

/-- A transit task is done with its slot: its own loads of the slot are performed, then OPEN falls by one (R22, R305). -/
def State.transitDone (s : State) (c : CtxId) : State :=
  match (s.hartAt c).task.transit with
  | some t =>
    if t.done then s
    else
      let s := s.performFor c fun r => r.readsSlot c.die t.slot
      let m := s.mslot c.die t.slot
      let s := if m.fill % 256 = t.fill % 256 && (m.state = 2 || m.state = 3) then
          s.modSlot c.die t.slot fun m => { m with opens := m.opens - 1 } else s
      s.modHart c fun h => { h with task := { h.task with transit := some { t with done := true } } }
  | none => s

/-- Bindings of a launch whose last task other than transit tasks has ended are removed on every die (R302). -/
def State.dropBindings (s : State) (launch : Nat) : State :=
  if s.unfinished launch then s
  else { s with shared := { s.shared with
    bindings := List.filter (fun p : Nat × Binding => p.2.launch ≠ launch) s.shared.bindings } }

/-- The lower of two failed tasks of a chain (R385). -/
def lowerFail (a : Option (Nat × Nat × Nat)) (b : Nat × Nat × Nat) : Option (Nat × Nat × Nat) :=
  match a with
  | none => some b
  | some x => if b.1 < x.1 || (b.1 = x.1 && b.2.1 < x.2.1) then some b else some x

/-- Count an ended task in its chain: by EXIT when `cause` is 0, else as failed; transit tasks have no place in the
tile space and count for DERRS alone (R385, log 22). -/
def State.countEnd (s : State) (t : TaskInfo) (cause : Nat) : State :=
  match s.disp.launches.find? t.launch with
  | none => s
  | some l =>
    s.modChain l.chain fun c =>
      let c := if t.derr then { c with derrs := Nat.min (c.derrs + 1) 65535 } else c
      if cause = 0 then { c with ended := c.ended + 1 }
      else { c with failed := c.failed + 1, lowFail := lowerFail c.lowFail (l.index, t.taskId, cause) }

/-- Channel descriptors that a gang of a chain has, freed when its last task ends (R414). -/
def State.reapGang (s : State) (t : TaskInfo) : State :=
  if !t.gang || s.tasks.any fun u => u.gang && u.lead = t.lead then s
  else { s with shared := { s.shared with
    channels := List.filter (fun p : Nat × Channel => p.2.gang ≠ some t.lead) s.shared.channels } }

/-- A chain's result is no longer wanted: nobody can await it any more (R273). -/
def State.dropAwaited (s : State) (spawned : List Nat) : State :=
  spawned.foldl (fun s id_ =>
    match s.disp.chains.find? id_ with
    | some c => if [ChainState.refused, .aborted, .complete].contains c.state then s.dropChain id_ else s
    | none => s) s

/-- The line key of a collective context in a channel (R269). -/
def collLine (key : Nat) : Nat := 2 ^ 21 + key

/-- The faults of a context's streams, and of copies that have ended, leave the engine-fault queue; one of a copy that goes on, its task
ended or evicted, stays (R290, R373, R393). -/
def State.dropDeadFaults (s : State) (c : CtxId) : State :=
  s.dropFaults c.die c.core fun e => e.slot = c.slot && (e.stream || (s.faultedCopy c.die c.core e).isNone)

/-- TVAL of a task's fault report: the failing core for a gang fault, that of the trap it ends at, else 0 (R367). -/
def Hart.endVal (h : Hart) (cause : Nat) : Word :=
  if cause = Cause.gangFault.code && h.task.gangPend.isSome then BitVec.ofNat 64 (h.task.gangPend.getD 0)
  else if h.status = .trapped && h.trap.cause.code = cause then h.trap.tval
  else 0

/-- The task of a context ends, by EXIT when `cause` is 0, else failed with it: what it holds is given up and its slot is free. What is
in its store queue goes on its way, and so does an accepted collective command; its copies and jobs are killed with it, or run on where a
core error took it (R43, R47, R275, R290, R302, R305, R348, R394). -/
def State.endTask (s : State) (c : CtxId) (cause : Nat) (kill : Bool) : State :=
  let s := s.transitDone c
  let h := s.hartAt c
  let t := h.task
  let s := if kill then ((s.drainStores c).killJobs c).killCopies c else (s.drainStores c).leaveJobs c
  let s := ((s.leaveLines c.key).leaveTags c.key).leavePhases t.ident fun _ => true
  let s := { s with shared := { s.shared with bindReqs := s.shared.bindReqs.filter fun q => q.ctx ≠ c } }
  let s := (s.modCore c.die c.core fun k => { k with traps := k.traps.filter (· ≠ c.slot) }).dropDeadFaults c
  let s := if cause = 0 then s
    else s.notify (.faultReport t.launch t.taskId cause (if h.status = .trapped then h.trap.tpc else h.pc) (h.endVal cause))
  let s := (s.countEnd t cause).setHart c Hart.fresh
  let s := { s with disp := { s.disp with replay := s.disp.replay.erase t.uid } }
  (((s.dropBindings t.launch).reapGang t).dropAwaited t.spawned).reapRevoked

/-- The task of a context ends, and its engine commands with it (R290). -/
def State.taskEnds (s : State) (c : CtxId) (cause : Nat) : State := s.endTask c cause true

/-! ### Launching (R272, R273) -/

/-- Submit a chain for a context (R272). -/
def State.submit (s : State) (addr : Nat) (spawn : Bool) : State :=
  let n := s.disp.nextChain
  let chain : Chain :=
    { part := s.part, addr := addr, recs := [], tags := [], first := 0, prio := none, source := .task s.here s.hart.task.launch spawn, state := .checking
      status := 0, reports := [], since := s.polestar, reserving := false, reserved := false, ended := 0, failed := 0, lowFail := none
      derrs := 0, rfaults := 0 }
  ({ s with disp := { s.disp with nextChain := n + 1, chains := s.disp.chains.insert n chain } }).modTask fun t =>
    { t with launching := some n }

/-- LAUNCH and SPAWN: the first attempt submits the chain after a release at pkg scope; the later ones wait for its
status (R34, R272). -/
def launchOp (word : Word) (d a : SReg) (spawn : Bool) (s : State) : Res :=
  match taskOnly s word (.ok () s) with
  | .trap c v t => .next (t.takeTrap c v 4)
  | .wait => .next s.block
  | .ok _ s =>
    match s.hart.task.launching with
    | none =>
      let x := s.rs a
      if x.toNat / 2 ^ 48 ≠ 0 then .next (s.takeTrap .illegal x 4)
      else
        match s.access s.who (s.rc 2) x.toNat 64 64 .load with
        | .trap c v t => .next (t.takeTrap c v 4)
        | .wait => .next s.block
        | .ok _ s => .next ((s.release 2).submit x.toNat spawn).block
    | some n =>
      let done := fun (s : State) (v : Nat) =>
        ((s.modTask fun t => { t with launching := none }).ws d (BitVec.ofNat 64 v)).advance 4
      match s.disp.chains.find? n with
      | none => .next (done s 6)
      | some c =>
        if c.state = .checking then .next s.block
        else if c.state = .refused || c.state = .aborted then .next (done (s.dropChain n) c.status)
        else
          .next (done (if spawn then s.modTask fun t => { t with spawned := t.spawned ++ [n] }
            else if c.state = .complete then s.dropChain n else s) (c.first * 2 ^ 32))

/-- LAUNCH (R272). -/
def execLaunch (d a : SReg) (r : BitVec 2) (s : State) : Res := launchOp (tvalWord (.launch d a r)) d a false s
/-- SPAWN (R272). -/
def execSpawn (d a : SReg) (r : BitVec 2) (s : State) : Res := launchOp (tvalWord (.spawn d a r)) d a true s

/-- Every child of a task has ended (R273). -/
def State.childrenDone (s : State) (t : TaskInfo) : Bool := t.spawned.all s.chainDone

/-- The result of AWAITCH: how many children ended by EXIT, and the cause of the lowest-numbered one that did not
(R273). -/
def State.childResult (s : State) (t : TaskInfo) : Nat :=
  let cs := t.spawned.filterMap fun n => s.disp.chains.find? n
  let cause := match cs.findSome? fun c => c.lowFail with
    | some f => f.2.2
    | none => 0
  (cs.map fun c => c.ended).sum % 2 ^ 32 + cause % 256 * 2 ^ 32

/-- AWAITCH (R273): it acquires every child's writes at pkg, those of a killed child among them. -/
def execAwaitch (d : SReg) (s : State) : Res :=
  finish 4 s (taskOnly s (tvalWord (.awaitch d)) (
    let t := s.hart.task
    if s.childrenDone t then
      let s := (List.range 8).foldl State.drainOutbound s
      .ok () (((s.dropAwaited t.spawned).modTask fun t => { t with spawned := [] }).ws d (BitVec.ofNat 64 (s.childResult t)))
    else .wait))

/-! ### EXIT, SUSPEND, NODE and the rest (R41, R51, R54, R258, R275–R277) -/

/-- EXIT (R275). Its lease ends in the first attempt that finds the task's jobs complete; reductions may still be on their way. -/
def execExit (r : BitVec 2) (s : State) : Res :=
  match taskOnly s (tvalWord (.exit r)) (.ok () s) with
  | .trap c v t => .next (t.takeTrap c v 4)
  | .wait => .next s.block
  | .ok _ s =>
    if s.jobsOf s.here ≠ [] then .next s.block
    else
      let s := s.endLease s.here
      if s.outCopies s.here ≠ 0 then .next s.block
      else
        let s := s.dropHeld s.hart.task.heldChans
        let s := (s.modTask fun t => { t with heldChans := [] }).drainStores s.here
        .next ((s.drainOutboundTo s.here.die Pending.isStore).taskEnds s.here 0)

/-- A live mask that SUSPEND accepts (R51, R276). -/
def maskOk (m : Word) : Bool := popNat 64 m.toNat ≤ 16 && !bitOf m.toNat 0 && !bitOf m.toNat 32

/-- The registers of a context that a live mask keeps; the rest as at entry (R51, R53). -/
def Hart.keepMask (h : Hart) (m : Word) : Hart :=
  { Hart.fresh with
    status := .ready
    pc := h.pc
    s := Vector.ofFn fun i : Fin 32 => if i.val ≠ 0 && bitOf m.toNat i.val then h.s.get i else 0
    c := Vector.ofFn fun i : Fin 16 => if i.val ≠ 0 && bitOf m.toNat (32 + i.val) then h.c.get i else Cap.null
    task := h.task }

/-- A wait of a SUSPEND that has issued, of any kind (R276). -/
def State.suspendState (s : State) (t : TaskInfo) (kind : Nat) (x thr : Word) : WaitState :=
  if kind = 4 then if s.childrenDone t then .met else .unmet
  else if kind = 5 then if s.launchLive t.part (x.toNat % 2 ^ 32) then .unmet else .met
  else s.objectState t.part kind x thr

/-- The wait of a SUSPEND at issue: its object is checked as that of the matching wait instruction (R276). -/
def State.waitState (s : State) (t : TaskInfo) (kind : Nat) (x thr : Word) : WaitState :=
  let chan := fun side : Side =>
    x.toNat / 2 ^ 12 ≠ 0 || (match s.shared.channels.find? x.toNat with
      | none => true
      | some c => !c.allows t.part side)
  if kind = 0 && (x.toNat / 2 ^ 11 ≠ 0 || !s.allocated t.part x.toNat) then .fate .accessDenied x
  else if (kind = 1 && chan .consumer) || (kind = 2 && chan .producer) then .fate .accessDenied x
  else if kind = 3 && x.toNat / 2 ^ 32 ≠ 0 then .fate .illegal x
  else s.suspendState t kind x thr

/-- Nothing of a context is outstanding (R51, R54, R255). -/
def State.quiet (s : State) (c : CtxId) : Bool :=
  s.outLoads c = 0 && s.outStores c = 0 && s.outCopies c = 0 && s.outTiles c = 0

/-- The location of a continuation record: the pool lies below the die's image region, record 0 highest (R51, log 5). -/
def State.contKey (s : State) (die n : Nat) : Nat := residentKey (die * 2 ^ 30 + (s.dieAt die).imageBase - 320 * (n + 1))

/-- The 16-byte entries of a continuation record, each with the tag of a capability (R51). -/
def Cont.entries (k : Cont) : List (List Byte × Bool) :=
  let l := (upFrom 1 47).filterMap fun i : Nat =>
    if !bitOf k.mask.toNat i then none
    else if i < 32 then some (leBytes 16 (k.hart.s[i]?.getD 0).toNat, false)
    else
      let c := k.hart.c[i - 32]?.getD Cap.null
      some (leBytes 16 c.bits.toNat, c.tag)
  l ++ List.replicate (16 - l.length) (leBytes 16 0, false)

/-- The fields of a continuation record before its entries, and its wait state: kind, object and threshold (R51, log 5). -/
def Cont.head (k : Cont) : List Byte :=
  leBytes 8 k.hart.pc.toNat ++ leBytes 8 k.mask.toNat ++ leBytes 8 k.hart.task.livex ++ leBytes 2 (k.home.2 + k.home.1 * 16) ++
    leBytes 6 (if k.hart.task.derr then 1 else 0)

/-- Write a continuation record into the pool of its home die (R51). -/
def State.writeCont (s : State) (k : Cont) : State :=
  let at_ := s.contKey k.home.1 k.record
  let s := s.writeHomeBytes k.home.2 at_ k.head
  let s := k.entries.zipIdx.foldl (fun (t : State) e => t.writeHome k.home.2 (cellsAt (at_ + 32 + 16 * e.2) e.1.1) e.1.2) s
  s.writeHomeBytes k.home.2 (at_ + 288) (leBytes 8 k.kind ++ leBytes 8 k.object.toNat ++ leBytes 8 k.threshold.toNat ++ leBytes 8 0)

/-- The place of a register among the entries of a continuation record: those of lower bits of its mask come first (R51). -/
def maskRank (m i : Nat) : Nat := ((List.range i).filter fun j => j ≠ 0 && j ≠ 32 && bitOf m j).length

/-- A suspended context as its record gives it: the PC, the registers that the mask names, LIVEX and DERR; `tags` are those of the sixteen
entries (R51, R53). -/
def Hart.ofRecord (h : Hart) (f : List Byte) (tags : List Bool) : Hart :=
  let m := field f 8 8
  let entry := fun i : Nat => field f (32 + 16 * maskRank m i) 16
  { Hart.fresh with
    status := .ready
    pc := BitVec.ofNat 64 (field f 0 8)
    s := Vector.ofFn fun i : Fin 32 => if i.val ≠ 0 && bitOf m i.val then BitVec.ofNat 64 (entry i.val) else 0
    c := Vector.ofFn fun i : Fin 16 =>
      if i.val ≠ 0 && bitOf m (32 + i.val) then ⟨BitVec.ofNat 128 (entry (32 + i.val)), tags.getD (maskRank m (32 + i.val)) false⟩ else Cap.null
    task := { h.task with livex := field f 16 8 % 2 ^ 11, derr := bitOf (field f 26 1) 0 } }

/-- A continuation as its home die's pool holds it; uncorrectable words of the record are logged (R53, R112, log 5). -/
def State.readCont (s : State) (k : Cont) : Hart × State :=
  let at_ := s.contKey k.home.1 k.record
  (k.hart.ofRecord (s.homeBytes at_ 320) ((List.range 16).map fun i => s.tags.contains (at_ / 16 + 2 + i)),
    s.logErrors .dispatcher k.home.2 (s.badWords at_ 320))

/-- The lowest free continuation record of a die's pool (R51, log 5). -/
def State.freeCont (s : State) (die : Nat) : Option Nat :=
  (List.range Config.contPool).find? fun n => !(s.disp.conts.any fun p => p.2.home.1 = die && p.2.record = n)

/-- The task of a context is suspended with a free record: the record is written, the slot is free (R51). A scratchpad extent of
LIVEX × 4 KiB stays reserved on the home core. -/
def State.suspendTask (s : State) (c : CtxId) (m : Word) (kind : Nat) (x thr : Word) (record : Nat) : State :=
  let h := (s.hartAt c).keepMask m
  let cont : Cont :=
    { hart := { h with pc := h.pc + 4, task := h.task.issued }, home := (c.die, c.core), kind := kind, object := x
      threshold := thr, complete := false, since := 0, fate := none, mask := m, record := record }
  let n := s.disp.nextId
  let s := (s.writeCont cont).setHart c Hart.fresh
  let s := if kind = 3 then s.joinTag h.task.part x.toNat c.die (.cont n) else s
  { s with disp := { s.disp with nextId := n + 1, conts := s.disp.conts.insert n (if s.lateCont n cont then cont else s.look cont) } }

/-- A context that waits to be suspended goes on when its task is quiet: its older accesses are performed at die scope, and it is
suspended, or stays in its slot on the wait for want of a record; one that stays goes on when the wait is over (R51, R276). -/
def State.trySuspend (s : State) (c : CtxId) : State :=
  match (s.hartAt c).task.wait with
  | some (.suspend m kind x thr _) =>
    if !s.quiet c then s
    else
      let s := s.drainCtx c
      match s.freeCont c.die with
      | some n => s.suspendTask c m kind x thr n
      | none => s.modHart c fun h => { h with task := { h.task with wait := some (.stay kind x thr) } }
  | some (.stay kind x thr) =>
    match s.suspendState (s.hartAt c).task kind x thr with
    | .met => s.complete c 0 0
    | .fate e v => s.trapAt c e v 4
    | .unmet => s
  | _ => s

/-- SUSPEND (R51, R57, R276): whether it suspends is settled at issue; ar makes it an acquire and no release (R260, log 111). -/
def execSuspend (k a b : BitVec 5) (sf : BitVec 3) (r : BitVec 2) (s : State) : Res :=
  let word := tvalWord (.suspend k a b sf r)
  let kind := k.toNat
  match taskOnly s word (
    if 5 < kind || (kind = 0 && b = 31) || (kind = 4 && b ≠ 0) then .trap .illegal word s
    else if !maskOk (s.rs a) then .trap .illegal (s.rs a) s
    else if (s.leaseOf s.here).isSome then .trap .leaseViolation 0 s
    else
      match s.waitState s.hart.task kind (s.rs b) (s.rs (b + 1)) with
      | .fate c v => .trap c v s
      | .met => .ok () s
      | .unmet => .wait) with
  | .ok _ t => .next (t.advance 4)
  | .trap c v t => .next (t.takeTrap c v 4)
  | .wait => .next ((s.blockOn (.suspend (s.rs a) kind (s.rs b) (s.rs (b + 1)) sf.toNat)).trySuspend s.here)

/-- YIELD: the slot's age starts again (R277). -/
def execYield (s : State) : Res := finish 4 s (taskOnly s (tvalWord .yield) (.ok () s))

/-- An early swap of a bank pair (R41). -/
def BankPair.hint (p : BankPair) (hintOk : Bool) : BankPair :=
  if p.older.isNone && p.shadow.isSome && hintOk then { p with older := p.active, active := p.shadow, shadow := none } else p

/-- HINTNEXT (R41): the bank pair of the task's record swaps early if the shadow record allows it. -/
def execHintnext (s : State) : Res :=
  finish 4 s (taskOnly s (tvalWord .hintnext) (
    let t := s.hart.task
    let ok := fun p : BankPair => match p.shadow with
      | some l =>
        match s.disp.launches.find? l with
        | some r => rFlag r.record 1
        | none => false
      | none => false
    if t.transit.isSome then .ok () s
    else
      .ok () (s.modMyCore fun k =>
        { k with banks := k.banks.map fun p => if p.active = some t.launch then p.hint (ok p) else p })))

/-- The four words of SELF (R277). -/
def State.selfWord (s : State) (sel : Nat) : Nat :=
  let t := s.hart.task
  if sel = 0 then s.here.core + s.here.die * 2 ^ 4 + s.here.slot * 2 ^ 7
  else if sel = 1 then
    match t.transit with
    | some x => x.batches + 2 ^ 16 + 2 ^ 32
    | none => t.extX + t.extY * 2 ^ 16 + t.extZ * 2 ^ 32
  else if sel = 2 then
    let pos := match s.ring? t.ring with
      | some r => (r.posOf s.fabric.self s.here.die).getD 0
      | none => 0
    t.arcFirst + t.arcLen * 2 ^ 16 + pos * 2 ^ 32 + t.ring * 2 ^ 48
  else
    (if t.transit.isSome then 1 else 0) + (if t.gang then 2 else 0) + (if t.gated then 4 else 0) +
      (if s.childrenDone t then 0 else 8)

/-- SELF (R277). -/
def execSelf (d l : BitVec 5) (s : State) : Res :=
  let word := tvalWord (.self d l)
  finish 4 s (taskOnly s word (
    if 3 < l.toNat then .trap .illegal word s else .ok () (s.ws d (BitVec.ofNat 64 (s.selfWord l.toNat)))))

/-- Save slots of a partition not in use (R391). -/
def State.freeSave (s : State) (part : Nat) : Option Nat :=
  let p := s.partOf part
  (List.range (field p.desc 56 4)).find? fun i => !p.saveUsed.contains i

/-- A NODE of this context takes a pre-emption if its slot is marked (R54, R61, R391). -/
def State.nodeTakes (s : State) (c : CtxId) : Bool :=
  let t := (s.hartAt c).task
  (s.coreAt c.die c.core).pmark.getLsbD c.slot && !t.gang &&
    (match t.transit with
      | some x => x.deadline < s.polestar
      | none => true) &&
    (s.leaseOf c).isNone && (s.leaseWaits c).isNone && (s.freeSave t.part).isSome

/-- NODE (R54, R258): a permitted pre-emption waits here for NODE_PREEMPTION; otherwise a NOP. -/
def execNode (s : State) : Res :=
  match taskOnly s (tvalWord .node) (.ok () s) with
  | .trap c v t => .next (t.takeTrap c v 4)
  | .wait => .next s.block
  | .ok _ s =>
    if s.nodeTakes s.here then .next (s.modTask fun t => { t with atNode := true }).block else .next (s.advance 4)

end Sys2Proof.Machine
end

