-- ==== Sys2Proof/Machine/System.lean ====
section
/-! DEFINITION. Control registers, the system instructions, context images and the firmware context: majors 0x3C, 0x3D
and 0x3E (R72, R73, R149, R175–R177, R359–R375). -/

namespace Sys2Proof.Machine

/-! ### Control registers (R72, R73, R175, R363) -/

/-- Arithmetic-clock cycles of a core since it left reset, less those its die has lost to stretching (R72, R447). -/
def State.cycles (s : State) (c : CtxId) : Nat := s.clock - (s.coreAt c.die c.core).cycle0 - (s.dieAt c.die).lag

/-- A user control register (R72), if the number is listed. -/
def State.userCtl (s : State) (n : Nat) : Option Word :=
  let h := s.hart
  let t := h.task
  if n = 0x000 then some (h.vec.vtype.setWidth 64)
  else if n = 0x001 then some (h.vec.vrm.setWidth 64)
  else if n = 0x002 then some ((vflgSum h.vec.vflg).setWidth 64)
  else if n = 0x003 then some (if t.derr then 1 else 0)
  else if 0x010 ≤ n && n ≤ 0x017 then some (s.shape (BitVec.ofNat 3 n))
  else if n = 0x018 then some (h.tile.dirty.setWidth 64)
  else if n = 0x020 then some (BitVec.ofNat 64 (t.taskId % 2 ^ 48))
  else if n = 0x021 then some (BitVec.ofNat 64 (t.tileX % 2 ^ 16))
  else if n = 0x022 then some (BitVec.ofNat 64 (t.tileY % 2 ^ 16))
  else if n = 0x023 then some (BitVec.ofNat 64 (t.tileZ % 2 ^ 16))
  else if n = 0x024 then some (BitVec.ofNat 64 (t.launch % 2 ^ 32))
  else if n = 0x025 then some t.groups
  else if n = 0x030 then some (BitVec.ofNat 64 s.polestar)
  else if n = 0x031 then some (BitVec.ofNat 64 (Nat.max (s.cycles s.here) s.hart.task.cyclesRead))
  else if n = 0x040 then some (s.outc s.here)
  else if n = 0x041 then some (BitVec.ofNat 64 t.livex)
  else none

/-- The head entry of a core's engine-fault queue as EFQ0 to EFQ3 show it (R373). -/
def efqWord (e : Option EngFault) (k : Nat) : Word :=
  match e with
  | none => 0
  | some e =>
    if k = 0 then BitVec.ofNat 64 (e.cause.code + e.engine % 2 * 2 ^ 8 + (if e.stream then 2 ^ 9 else 0) + e.slot * 2 ^ 10 + 2 ^ 63)
    else if k = 1 then e.addr
    else if k = 2 then BitVec.ofNat 64 (e.num % 2 ^ 32)
    else BitVec.ofNat 64 e.tick

/-- The state code of a slot in SLOTST (R363). -/
def SlotStatus.code : SlotStatus → Nat
  | .empty => 0
  | .ready => 1
  | .blocked => 2
  | .trapped => 3
  | .held => 4
  | .reserved => 0

/-- SLOTST of a core (R363). -/
def State.slotst (s : State) (die core : Nat) : Nat :=
  ((List.range 4).map fun k =>
    let h := s.hartAt ⟨die, core, k⟩
    (h.status.code + (if h.task.sideEffect then 8 else 0) + (if h.task.gangPend.isSome then 16 else 0)) * 2 ^ (8 * k)).sum

/-- TPEND of a core (R363). -/
def Core.tpend (k : Core) : Nat :=
  ((List.range 4).map fun i => if k.traps.contains i then 2 ^ i else 0).sum + (if k.seqTraps = [] then 0 else 2 ^ 8) +
    (if k.efq = [] then 0 else 2 ^ 9) + (if k.tactive then 2 ^ 16 else 0)

/-- A supervisor control register of the issuing context's core (R363), if the number is listed. -/
def State.fwCtl (s : State) (n : Nat) : Option Word :=
  let k := s.myCore
  if n = 0x800 then some k.tcause
  else if n = 0x801 then some k.tpc
  else if n = 0x802 then some k.tval
  else if n = 0x803 then some k.tvec
  else if n = 0x804 then some k.fwepc
  else if n = 0x805 then some k.fwshare
  else if n = 0x806 then some (BitVec.ofNat 64 k.tpend)
  else if n = 0x807 then some (if k.hxlat then 1 else 0)
  else if n = 0x810 then some (k.pmark.setWidth 64)
  else if n = 0x811 then some (BitVec.ofNat 64 (s.slotst s.here.die s.here.core))
  else if 0x820 ≤ n && n ≤ 0x823 then some (efqWord k.efq.head? (n - 0x820))
  else if n = 0x824 then some 0
  else if n = 0x830 then some 0
  else if n = 0x840 then some k.fwcause
  else if n = 0x841 then some k.fwpc
  else if n = 0x842 then some k.fwval
  else if n = 0x030 || n = 0x031 || n = 0x040 then s.userCtl n
  else none

/-- The check of a control-register number and its value (R73, R175, R359, R363). -/
def ctlValue (word : Word) (n : Nat) (s : State) : R Word :=
  if s.isFw then
    match s.fwCtl n with
    | some v => .ok v s
    | none => .trap .illegal word s
  else if 0x800 ≤ n then .trap .privileged word s
  else
    match s.userCtl n with
    | some v => .ok v s
    | none => .trap .illegal word s

/-- The writable control registers with the mask of their fields (R5, R72, R363). -/
def ctlMask (n : Nat) : Option Word :=
  if n = 0x000 then some 0xF
  else if n = 0x001 then some 0x7
  else if n = 0x003 then some 0x1
  else if 0x010 ≤ n && n ≤ 0x017 then some shapeMask
  else if n = 0x018 then some 0xFF
  else if n = 0x041 then some 0x7FF
  else if n = 0x803 || n = 0x804 then some 0xFFFFFFFFFFFF
  else if n = 0x805 then some 0x1FF
  else if n = 0x807 || n = 0x824 then some 0x1
  else if n = 0x810 then some 0xF
  else if n = 0x830 then some 0x103FF
  else none

/-- A value is valid for a control register (R68, R72, R363). -/
def State.ctlValid (s : State) (n : Nat) (v : Word) : Bool :=
  if n = 0x000 then typeOk v.toNat
  else if n = 0x001 then decide (v.toNat ≤ 4)
  else if 0x010 ≤ n && n ≤ 0x017 then shapeValid v
  else if n = 0x041 then decide (v.toNat ≤ s.hart.task.scratch)
  else if n = 0x803 then v.toNat % 64 = 0
  else if n = 0x805 then 2 ≤ v.toNat && v.toNat ≤ 256
  else true

/-- The tiles that are configured, one bit each. -/
def TileRegs.configured (q : TileRegs) : BitVec 8 :=
  BitVec.ofNat 8 (((List.range 8).map fun i => if (q.shape[i]?.getD 0) = 0 then 0 else 2 ^ i).sum)

/-! ### What firmware does through registers or otherwise (R54, R373, R374) -/

/-- Marks the slots of a core for pre-emption (R54, R363). -/
def State.writeMarks (s : State) (die core : Nat) (m : BitVec 4) : State := s.modCore die core fun k => { k with pmark := m }

/-- Dispose of the head entry of a core's engine-fault queue: resume its command, or end it with ERR and XLATE or mark
the stream's element (R290, R294, R373). -/
def State.disposeFault (s : State) (die core : Nat) (abort : Bool) : State :=
  match (s.coreAt die core).efq with
  | [] => s
  | e :: _ =>
    let s := s.popFault die core
    let c : CtxId := ⟨die, core, e.slot⟩
    if e.stream then
      if hq : e.num < 8 then
        s.modStream c ⟨e.num, hq⟩ fun z =>
          if !z.faulted then z
          else if !abort then { z with faulted := false }
          else
            match z.aq with
            | [] => { z with faulted := false }
            | v :: t => { z with faulted := false, aq := t, inflight := z.inflight ++ [QElem.marked (rawBytes z.card) .engineError (z.elemAddr v)] }
      else s
    else
      match s.faultedCopy die core e with
      | none => s
      | some m =>
        if !abort then s.putCopy c e.engine { m with state := .running }
        else
          let s := if m.kind = kCpyb && m.piece.isSome then s.poisonChannel m.chan else s
          s.copyEnds c e.engine (m.flag (fErr + fXlate))

/-- A sequence's table key (R308). -/
def seqKey (die seq : Nat) : Nat := die * 1024 + seq

/-- SEQCLR: a TRAPPED sequence becomes STOPPED, or WAITING with no input tag; any other is unchanged (R374). Its
codes are 0 WAITING, 3 STOPPED and 4 TRAPPED (R308). -/
def State.clearSeq (s : State) (die seq : Nat) (wait : Bool) : State :=
  match s.shared.seqs.find? (seqKey die seq) with
  | some e =>
    if e.state = 4 then
      let f : SeqEntry := if wait then { e with state := 0, input := none } else { e with state := 3 }
      { s with shared := { s.shared with seqs := s.shared.seqs.insert (seqKey die seq) f } }
    else s
  | none => s

/-- Write a control register with a valid value (R69, R70, R72, R363, R373, R374). -/
def State.writeCtl (s : State) (n : Nat) (v : Word) : State :=
  if n = 0x000 then s.mod fun h => { h with vec := { h.vec with vtype := v.setWidth 4 } }
  else if n = 0x001 then s.mod fun h => { h with vec := { h.vec with vrm := v.setWidth 3 } }
  else if n = 0x003 then s.modTask fun t => { t with derr := v.getLsbD 0 }
  else if 0x010 ≤ n && n ≤ 0x017 then s.setShape (BitVec.ofNat 3 n) v
  else if n = 0x018 then s.modTile fun q => { q with dirty := v.setWidth 8 &&& q.configured }
  else if n = 0x041 then s.modTask fun t => { t with livex := v.toNat }
  else if n = 0x803 then s.modMyCore fun k => { k with tvec := v }
  else if n = 0x804 then s.modMyCore fun k => { k with fwepc := v }
  else if n = 0x805 then s.modMyCore fun k => { k with fwshare := v }
  else if n = 0x807 then s.modMyCore fun k => { k with hxlat := v.getLsbD 0 }
  else if n = 0x810 then s.writeMarks s.here.die s.here.core (v.setWidth 4)
  else if n = 0x824 then s.disposeFault s.here.die s.here.core (v.getLsbD 0)
  else if n = 0x830 then s.clearSeq s.here.die (v.toNat % 2 ^ 10) (v.getLsbD 16)
  else s

/-- CTLWR, CTLSET and CTLCLR (R175): the refused value is TVAL (R367). -/
def ctlWrite (word : Word) (d : SReg) (n : Nat) (new : Word → Word) (s : State) : Res :=
  finish 4 s ((ctlValue word n s).bind fun old s =>
    match ctlMask n with
    | none => .trap .illegal word s
    | some m =>
      let v := new old &&& m
      if s.ctlValid n v then .ok () ((s.writeCtl n v).ws d old) else .trap .illegal v s)

/-- The word of a control-register instruction (R175). -/
def ctlWord (d a : SReg) (r : BitVec 12) (fn : Nat) : Word := BitVec.ofNat 64 (encFI 0x3C d.toNat a.toNat fn r.toNat)

/-- CTLRD (R175). A task that has been moved to another core reads no CYCLES below those it has read (R73, log 129). -/
def execCtlrd (d : SReg) (r : BitVec 12) (s : State) : Res :=
  finish 4 s ((ctlValue (ctlWord d 0 r 0) r.toNat s).bind fun v s =>
    .ok () ((if r.toNat = 0x031 then s.mod fun h => { h with task := { h.task with cyclesRead := v.toNat } } else s).ws d v))
/-- CTLWR (R175). -/
def execCtlwr (d a : SReg) (r : BitVec 12) (s : State) : Res := ctlWrite (ctlWord d a r 1) d r.toNat (fun _ => s.rs a) s
/-- CTLSET (R175). -/
def execCtlset (d a : SReg) (r : BitVec 12) (s : State) : Res := ctlWrite (ctlWord d a r 2) d r.toNat (fun old => old ||| s.rs a) s
/-- CTLCLR (R175). -/
def execCtlclr (d a : SReg) (r : BitVec 12) (s : State) : Res := ctlWrite (ctlWord d a r 3) d r.toNat (fun old => old &&& ~~~s.rs a) s

/-! ### Major 0x3E and words that are no instruction (R149, R176, R177) -/

/-- NOP (R176). -/
def execNop (s : State) : Res := .next (s.advance 4)
/-- TRAP (R176). -/
def execTrap (a : SReg) (s : State) : Res := .next (s.takeTrap .trapInstruction (s.rs a) 4)
/-- BRK (R176). -/
def execBrk (s : State) : Res := .next (s.takeTrap .breakpoint 0 4)
/-- IFENCE: older stores are performed, and words fetched ahead are discarded (R177). -/
def execIfence (s : State) : Res :=
  .next (((s.release 1).mod fun h => { h with ahead := [] }).advance 4)

/-! ### ERET, WFI, TLBINV, HALT (R371, R372) -/

/-- A system instruction of the firmware context (R150, R370). -/
def systemOp (word : Word) (s : State) (r : State → Res) : Res :=
  if s.isFw then r s else .next (s.takeTrap .privileged word 4)

/-- A slot is HELD: its task is stopped for firmware (R363). -/
def State.isHeld (s : State) (c : CtxId) : Bool := (s.hartAt c).status = .trapped || (s.hartAt c).status = .held

/-- A quarantine that QUARDR has still to deliver (R371, R372). -/
def Hart.undelivered (h : Hart) : Bool := h.quar ≠ [] || h.q.toList.any fun z => z.diverted ≠ []

/-- A HELD slot goes on: at its saved PC, or past the trapped instruction; a pending gang fault traps it again
(R366, R371). -/
def State.resumeSlot (s : State) (c : CtxId) (skip : Bool) : State :=
  let h := s.hartAt c
  let s := s.modCore c.die c.core fun k => { k with traps := k.traps.filter (· ≠ c.slot) }
  match h.task.gangPend with
  | some f => (s.setHart c { h with task := { h.task with gangPend := none } }).trapContext c .gangFault (BitVec.ofNat 64 f) 4
  | none =>
    s.setHart c
      { h with status := .ready, pc := if skip then h.pc + BitVec.ofNat 64 h.trap.ilen else h.pc, trap := ⟨.none, 0, 0, 0, 0⟩
               ahead := [] }

/-- ERET (R371): no word fetched before it is kept (R177). What it refuses is refused before anything changes (R8). -/
def execEret (a : SReg) (s : State) : Res :=
  systemOp (fxWord 0x3D 0 a.toNat 0 0) s fun s =>
    let x := (s.rs a).toNat
    let act := x % 4
    let stay := bitOf x 16
    let c : CtxId := ⟨s.here.die, s.here.core, x / 2 ^ 8 % 4⟩
    let k := s.myCore
    let ends := !stay && k.tactive
    let acts := (bitsOf k.tcause.toNat 11 10 = 0 || !ends) && act ≠ 2
    if x - x % 4 - x / 2 ^ 8 % 4 * 2 ^ 8 - x / 2 ^ 16 % 2 * 2 ^ 16 ≠ 0 || act = 3 || (acts && (!s.isHeld c || (s.hartAt c).undelivered)) ||
        (!stay && !k.tactive) then
      .next (s.takeTrap .illegal (s.rs a) 4)
    else
      let s := (s.release 1).mod fun h => { h with ahead := [] }
      let s := if acts then s.resumeSlot c (act = 1) else s
      .next (if stay then s.advance 4 else (s.advance 4).leaveHandler s.here.die s.here.core)

/-- WFI (R372): a deadline of 0 is none. -/
def execWfi (a : SReg) (s : State) : Res :=
  let word := fxWord 0x3D 0 a.toNat 0 1
  systemOp word s fun s =>
    if s.myCore.tactive then .next (s.takeTrap .illegal word 4)
    else .next ((s.modMyCore fun k => { k with wfi := some (s.rs a).toNat }).advance 4)

/-- A cached entry that a TLBINV removes: the leaf of a page or its block and the pointers on its path, a partition's entries, or all (R372,
R404, R405). -/
def XEntry.covered (e : XEntry) (kind part va : Nat) : Bool :=
  kind = 2 || (e.part = part && (kind = 1 ||
    e.path = va / (if e.level = 3 then 2 ^ 16 else if e.level = 2 then 2 ^ 27 else if e.level = 1 then 2 ^ 38 else 2 ^ 48)))

/-- The caches of a scope: the core's own, a die's, or the package's (R372). -/
def XEntry.inScope (e : XEntry) (c : CtxId) (scope : Nat) : Bool :=
  2 ≤ scope || (e.die = c.die && (scope = 1 || e.core = c.core))

/-- Every access that the contexts and engines of some dies have issued is performed at its home. -/
def State.drainDies (s : State) (dies : List Nat) : State :=
  let s := (s.contexts.filter fun c => dies.contains c.die).foldl State.drainCtx s
  (dies.foldl State.drainOutbound s).drainEgress

/-- TLBINV (R372, R405). -/
def execTlbinv (a b : SReg) (sf : BitVec 3) (s : State) : Res :=
  systemOp (BitVec.ofNat 64 (encFX 0x3D 0 a.toNat b.toNat 2 sf.toNat 0)) s fun s =>
    let sel := (s.rs b).toNat
    if sel % 4 = 3 then .next (s.takeTrap .illegal (s.rs b) 4)
    else
      let part := bitsOf sel 27 16
      let va := (s.rs a).toNat % 2 ^ 48
      let s := { s with disp := { s.disp with xcache := s.disp.xcache.filter fun e =>
        !(e.inScope s.here sf.toNat && e.covered (sel % 4) part va) } }
      .next ((s.drainDies (if 2 ≤ sf.toNat then List.range 8 else [s.here.die])).advance 4)

/-- HALT: a firmware fault with cause 0 and the reason (R372). -/
def execHalt (a : SReg) (s : State) : Res :=
  systemOp (fxWord 0x3D 0 a.toNat 0 6) s fun s =>
    .next (s.firmwareFault s.here.die s.here.core 0 s.hart.pc (s.rs a &&& 0xFF))

/-- An entry of the quarantine lies inside the task's region (R372). -/
def Hart.quarInside (h : Hart) (e : Nat × List Byte) : Bool := e.1 + e.2.length ≤ h.task.scratch * 4096

/-- The quarantine of a slot is delivered in arrival order: data of copies into its region, stream data into the data queues
(R372, R393). -/
def State.deliverQuar (s : State) (c : CtxId) : State :=
  let h := s.hartAt c
  let s := (h.quar.filter h.quarInside).foldl (fun s e =>
    s.writeHomeBytes c.core (scratchKey c.die c.core (h.task.region + e.1)) e.2) s
  (s.modHart c fun h => { h with quar := [] }).deliverStreams c

/-- QUARDR: the slot's quarantine is delivered (R372, R393). -/
def execQuardr (d a : SReg) (s : State) : Res :=
  systemOp (fxWord 0x3D d.toNat a.toNat 0 5) s fun s =>
    let x := (s.rs a).toNat
    let c : CtxId := ⟨s.here.die, s.here.core, x % 4⟩
    if 4 ≤ x || !s.isHeld c then .next (s.takeTrap .illegal (s.rs a) 4)
    else
      let s := s.performLoads c
      let h := s.hartAt c
      let inside := (h.quar.filter h.quarInside).length
      let n := inside + (h.q.toList.map fun z => z.diverted.length).sum
      .next (((s.deliverQuar c).ws d (BitVec.ofNat 64 (n % 2 ^ 32 + (h.quar.length - inside) % 2 ^ 32 * 2 ^ 32))).advance 4)

end Sys2Proof.Machine
end

