-- ==== Sys2Proof/Machine/Events.lean ====
section
/-! DEFINITION. Steps of a core and of the buffers before memory that no task instruction makes: words that are no
instruction, handler entry, firmware writes, waits that end, buffered accesses (R115, R116, R149, R362–R374). -/

namespace Sys2Proof.Machine

/-- ILLEGAL_INSTRUCTION: a word that is no instruction traps precisely (R149). -/
def execIllegalInstruction (word : Word) (long : Bool) (s : State) : Res :=
  .next (s.takeTrap .illegal word (if long then 8 else 4))

/-- TRAP_ENTRY: a firmware context outside its handler enters it for the next pending trap (R365). A context stopped by
a firmware fault enters none (R362). -/
def execTrapEntry (die core : Nat) (s : State) : Res :=
  let k := s.coreAt die core
  if k.tactive || k.failed then .next s else .next (s.enterHandler die core (s.hartAt (fwOf die core)).pc)

/-- PMARK_WRITE (R54, R363). -/
def execPmarkWrite (die core : Nat) (marks : BitVec 4) (s : State) : Res := .next (s.writeMarks die core marks)
/-- EFQ_RESUME (R373). -/
def execEfqResume (die core : Nat) (s : State) : Res := .next (s.disposeFault die core false)
/-- EFQ_ABORT (R373). -/
def execEfqAbort (die core : Nat) (s : State) : Res := .next (s.disposeFault die core true)
/-- SEQCLR with TO = 0 (R374). -/
def execSeqclrStop (die seq : Nat) (s : State) : Res := .next (s.clearSeq die (seq % 1024) false)
/-- SEQCLR with TO = 1 (R374). -/
def execSeqclrWait (die seq : Nat) (s : State) : Res := .next (s.clearSeq die (seq % 1024) true)

/-- WFI_DEADLINE: the polestar has reached the deadline of a WFI (R372). -/
def execWfiDeadline (die core : Nat) (s : State) : Res :=
  match (s.coreAt die core).wfi with
  | some d => if d ≠ 0 && d ≤ s.polestar then .next (s.wakeCore die core) else .next s
  | none => .next s

/-- FIRMWARE_CONTEXT_RESTART: the context runs again from `pc`, outside its handler, so that traps are delivered again
(R362, log 3). -/
def execFirmwareContextRestart (die core pc : Nat) (s : State) : Res :=
  let k := s.coreAt die core
  if !k.failed || k.retired then .next s
  else
    let s := s.modCore die core fun k => { k with failed := false, tactive := false, hxlat := false, wfi := none }
    .next (s.modHart (fwOf die core) fun h => { h with pc := BitVec.ofNat 64 pc, status := .ready, ahead := [], task := h.task.issued })

/-- REMOTE_LOAD_RETURN: a unit of the oldest load of a context is performed, or all that are left of it (R114, R116, R119, R168). -/
def execRemoteLoadReturn (die core : Nat) (u : LoadUnit) (s : State) : Res :=
  let c : CtxId := ⟨die, core, u.slot⟩
  match (s.hartAt c).loads with
  | r :: _ => .next (if u.elem < r.elems.length then s.performUnit c u.elem else s.performOldest c)
  | [] => .next s

/-- The accesses in a buffer, oldest first (R115, R119). -/
def State.buffer (s : State) : BufId → List Pending
  | .task d c k => (s.hartAt ⟨d, c, k⟩).stores
  | .outbound d => (s.dieAt d).outbound
  | .egress => s.egress

/-- An access of a buffer may go before those older than it (R114, R115, R117, R119, log 97). -/
def State.mayGo (s : State) (b : BufId) (older : List Pending) (p : Pending) : Bool :=
  match b with
  | .task d c k => s.mayLeave ⟨d, c, k⟩ older p
  | .outbound _ => mayLand older p
  | .egress => mayArrive older p

/-- An access of a buffer goes on to its home, or to the next buffer on its path; `rest` are the others (R115). -/
def State.advanceBuffer (s : State) (b : BufId) (p : Pending) (rest : List Pending) : State :=
  match b with
  | .task d c k => (s.modHart ⟨d, c, k⟩ fun h => { h with stores := rest }).leaveQueue p
  | .outbound d => (s.modDie d fun x => { x with outbound := rest }).leaveOutbound p
  | .egress => { s with egress := rest }.performAtHome p

/-- Entry `n` of a buffer goes on, if it is of a kind and may go. -/
def State.goFrom (s : State) (b : BufId) (n : Nat) (kind : Pending → Bool) : State :=
  let q := s.buffer b
  match q[n]? with
  | some p => if kind p && s.mayGo b (q.take n) p then s.advanceBuffer b p (q.take n ++ q.drop (n + 1)) else s
  | none => s

/-- STORE_PERFORM_AT_HOME: a store of a buffer, or an act of a store queue, leaves it (R115, R119, R121). -/
def execStorePerformAtHome (e : BufEntry) (s : State) : Res := .next (s.goFrom e.buf e.entry fun p => !p.isAtomic)

/-- ATOMIC_PERFORM_AT_HOME: an atomic of a buffer leaves it (R116, R250). -/
def execAtomicPerformAtHome (e : BufEntry) (s : State) : Res := .next (s.goFrom e.buf e.entry Pending.isAtomic)

end Sys2Proof.Machine
end

