-- ==== Sys2Proof/Machine/Transit.lean ====
section
/-! DEFINITION. The transit table, slots and holds, and the resident sequences: major 0x14 and SEQST of major 0x16
(R300–R312). -/

namespace Sys2Proof.Machine

/-! ### Operands (R300) -/

/-- A record at the offset in a register, its fields checked (R300). -/
def transitRecord (word : Word) (off n al : Nat) (fields : List Byte → List (Nat × Bool)) (s : State) : R (List Byte) :=
  (s.readRecord off n al).bind fun r s => (checkFields word (fields r) s).bind fun _ s => .ok r s

/-- The share of a die's sequence table that a partition has: first entry and count (R408). -/
def State.share (s : State) (part die : Nat) : Nat × Nat :=
  let w := field (s.partOf part).desc (192 + 4 * die) 4
  (w % 2 ^ 10, w / 2 ^ 16 % 2 ^ 11)

/-- A sequence id of the issuing die that the issuing task's partition has; else ACCESS_DENIED (R300). -/
def seqRef (id_ : Nat) (val : Word) (s : State) : R Nat :=
  match s.share s.part s.here.die with
  | (first, n) =>
    if first ≤ id_ && id_ < first + n then .ok (seqKey s.here.die id_) s else .trap .accessDenied val s

/-- An entry of the sequence table (R24, R308). -/
def State.seqAt (s : State) (k : Nat) : SeqEntry := s.shared.seqs.getD k SeqEntry.free

/-- Write an entry of the sequence table. -/
def State.setSeq (s : State) (k : Nat) (e : SeqEntry) : State :=
  { s with shared := { s.shared with seqs := s.shared.seqs.insert k e } }

/-- The lowest FREE entry of a partition's share of a die (R309, R318). -/
def State.freeSeq (s : State) (part die : Nat) : Option Nat :=
  match s.share part die with
  | (first, n) => (upFrom first n).find? fun i => i < 1024 && (s.seqAt (seqKey die i)).state = 7

/-- A signal of the issuing task: a release at the smallest scope that holds its core and the counter's die (R317). -/
def State.taskSignal (s : State) (g : Signal) : State :=
  (s.release (if g.ctr / 256 = s.here.die then 1 else 2)).signal g.ctr g.inc false

/-! ### The transit table (R301, R302) -/

/-- The key of a binding: die, image and tag. -/
def bindKey (die image tag : Nat) : Nat := die * 2 ^ 32 + image * 2 ^ 16 + tag

/-- The binding of a key on a die. -/
def State.binding (s : State) (die image tag : Nat) : Option Binding := s.shared.bindings.find? (bindKey die image tag)

/-- Entries of a die's transit table in use. -/
def State.bindCount (s : State) (die : Nat) : Nat :=
  (List.filter (fun p : Nat × Binding => p.1 / 2 ^ 32 = die) s.shared.bindings).length

/-- The fields of a binding record, each with its check (R301). -/
def bindFields (codeLen : Nat) (r : List Byte) : List (Nat × Bool) :=
  [(4, field r 4 4 % 4 = 0 && decide (field r 4 4 < codeLen)), (8, 1 ≤ field r 8 2 && field r 8 2 ≤ 1536),
    (10, field r 10 2 = 0), (40, decide (field r 40 1 < 4)), (41, field r 41 1 = 0), (42, decide (field r 42 2 ≤ 256)),
    (44, decide (field r 44 2 ≤ 4096)), (46, decide (field r 46 1 ≤ 16)), (47, field r 47 17 = 0)]

/-- A field with its default for zero. -/
def orDefault (x d : Nat) : Nat := if x = 0 then d else x

/-- The binding of a record (R25, R301). -/
def bindingOf (launch : Nat) (r : List Byte) : Binding where
  launch := launch
  entry := field r 4 4
  scratch := field r 8 2
  cost := field r 12 4
  user := (List.range 3).map fun i => BitVec.ofNat 64 (field r (16 + 8 * i) 8)
  bseq := orDefault (field r 42 2) 64
  brows := orDefault (field r 44 2) 512
  bcnt := orDefault (field r 46 1) 4

/-- The common answer of the dies to a TRBIND, and the change on all of them or none (R302). -/
def State.decideBind (s : State) (q : BindReq) : Nat × State :=
  let image := field q.record 0 2
  let tag := field q.record 2 2
  let held := fun d : Nat => s.binding d image tag
  let mine := fun d : Nat => (held d).any fun b => b.launch = q.launch
  let put := fun (s : State) (f : SMap Binding → Nat → SMap Binding) =>
    { s with shared := { s.shared with bindings := q.dies.foldl (fun m d => f m (bindKey d image tag)) s.shared.bindings } }
  if bitOf (field q.record 40 1) 1 then
    if q.dies.all mine then (4, put s fun m k => m.erase k) else (5, s)
  else if q.dies.any fun d => (held d).isSome && !mine d then (2, s)
  else if q.dies.any fun d => (held d).isNone && 4096 ≤ s.bindCount d then (3, s)
  else (if q.dies.any mine then 1 else 0, put s fun m k => m.insert k (bindingOf q.launch q.record))

/-- TRBIND (R301, R302): it waits for the decision of the arc's dies. -/
def execTrbind (d b : SReg) (s : State) : Res :=
  let word := tvalWord (.trbind d b)
  if !s.isFw && s.shared.bindReqs.any fun q => q.ctx = s.here then .next s.block
  else
    match taskOnly s word (transitRecord word (s.rs b).toNat 64 64 (bindFields s.hart.task.codeLen) s |>.bind fun r s =>
      let t := s.hart.task
      let dies := if bitOf (field r 40 1) 0 then [s.here.die] else s.arcDies t.ring t.arcFirst t.arcLen
      .ok () { s with shared := { s.shared with bindReqs := s.shared.bindReqs ++ [⟨s.here, d, r, t.launch, dies⟩] } }) with
    | .ok _ s => .next s.block
    | .trap c v t => .next (t.takeTrap c v 4)
    | .wait => .next s.block

/-- TRBIND_DECISION: the issuing die sends the outcome to every die of the arc, and the instruction completes (R302). -/
def execTrbindDecision (die core slot : Nat) (s : State) : Res :=
  let c : CtxId := ⟨die, core, slot⟩
  match s.shared.bindReqs.find? fun q => q.ctx = c with
  | none => .next s
  | some q =>
    if !s.coreRuns c then .next s
    else
      match s.decideBind q with
      | (st, s) =>
        let s := { s with shared := { s.shared with bindReqs := s.shared.bindReqs.filter fun r => r.ctx ≠ c } }
        .next (s.complete c q.dest (BitVec.ofNat 64 st))

/-! ### Slots (R303–R307) -/

/-- A slot that can be read: PRESENT or HELD (R20). -/
def MSlot.live (m : MSlot) : Bool := m.state = 2 || m.state = 3

/-- A slot is retained: PRESENT with no open transit task and no hold (R22). -/
def MSlot.retained (m : MSlot) : Bool := m.state = 2 && m.opens = 0 && m.holds = 0

/-- A meridian key: IMAGE in 15:0, TAG in 31:16, the rest zero (R303). -/
def meridianKeyOf (x : Word) (s : State) : R (Nat × Nat) :=
  if x.toNat / 2 ^ 32 ≠ 0 then .trap .illegal x s else .ok (x.toNat % 2 ^ 16, x.toNat / 2 ^ 16) s

/-- The slot of a die that holds a key for TRWAIT: the latest PRESENT time, the lowest number on a tie (R303). -/
def State.slotFor (s : State) (die image tag : Nat) : Option Nat :=
  (List.range 6).foldl (fun best i =>
    let m := s.mslot die i
    if m.live && m.image = image && m.tag = tag then
      match best with
      | some j => if (s.mslot die j).present < m.present then some i else some j
      | none => some i
    else best) none

/-- TRWAIT (R303); ar also releases (R260). -/
def execTrwait (cd : CReg) (a b : SReg) (r : BitVec 2) (s : State) : Res :=
  match taskOnly s (tvalWord (.trwait cd a b r)) (meridianKeyOf (s.rs a) s |>.bind fun _ s =>
    if s.ownsDie s.hart.task s.here.die then .ok () s else .trap .accessDenied (s.rs a) s) with
  | .trap c v t => .next (t.takeTrap c v 4)
  | .wait => .next s.block
  | .ok _ s =>
    let x := (s.rs a).toNat
    let dl := (s.rs b).toNat
    match s.slotFor s.here.die (x % 2 ^ 16) (x / 2 ^ 16) with
    | some i =>
      let m := s.mslot s.here.die i
      .next (((s.releaseAr 1 r).wc cd (slotCap i m.fill m.xbytes)).advance 4)
    | none =>
      if dl ≠ 0 && dl ≤ s.polestar then .next ((s.wc cd Cap.null).advance 4)
      else .next ((s.modTask fun t => { t with keyWait := some (cd, dl) }).block)

/-- The slot that a blocked TRWAIT waits for, once one holds its key (R303). -/
def State.keySlot (s : State) (c : CtxId) : Option Nat :=
  match (s.hartAt c).task.wait with
  | some (.again (.trwait _ a _ _)) =>
    let x := if a = 0 then 0 else ((s.hartAt c).s.get a.toFin).toNat
    s.slotFor c.die (x % 2 ^ 16) (x / 2 ^ 16)
  | _ => none

/-- TRWAIT_DEADLINE: the deadline of a blocked TRWAIT passes with no slot of its key; it completes with a null capability (R303). -/
def execTrwaitDeadline (die core slot : Nat) (s : State) : Res :=
  let c : CtxId := ⟨die, core, slot⟩
  match (s.hartAt c).task.keyWait with
  | some (cd, dl) =>
    if s.coreRuns c && (s.hartAt c).status = .blocked && dl ≠ 0 && dl ≤ s.polestar && (s.keySlot c).isNone then
      .next (s.modHart c fun h =>
        { (h.goOn (h.pc + 4)) with c := if cd = 0 then h.c else h.c.set cd.toNat Cap.null cd.isLt })
    else .next s
  | none => .next s

/-- A slot operand: other bits than `mask` are refused, and slots 6 and 7 denied (R304, R306). -/
def slotOperand (x : Word) (mask : Nat) (s : State) : R Nat :=
  if x.toNat &&& mask ≠ x.toNat then .trap .illegal x s
  else if 6 ≤ x.toNat % 8 then .trap .accessDenied x s
  else .ok (x.toNat % 8) s

/-- The slot word of TRINFO (R304). -/
def MSlot.info (m : MSlot) : Nat :=
  m.state + (if m.retained then 8 else 0) + m.fill % 256 * 2 ^ 8 + (if m.state = 0 then 0 else m.image * 2 ^ 16 + m.tag * 2 ^ 32) +
    Nat.min m.opens 16 * 2 ^ 48 + Nat.min m.holds 16 * 2 ^ 53

/-- TRINFO (R304). -/
def execTrinfo (d a : SReg) (s : State) : Res :=
  finish 4 s (taskOnly s (tvalWord (.trinfo d a)) ((slotOperand (s.rs a) 7 s).bind fun i s =>
    .ok () (s.ws d (BitVec.ofNat 64 (s.mslot s.here.die i).info))))

/-- Copies and jobs of a context that read a fill of a slot and are not complete (R305). -/
def State.slotReads (s : State) (c : CtxId) (slot fill : Nat) : Bool :=
  let of_ := fun m : Option Snap => m.any fun p => p.slot = slot && p.fill = fill
  ([0, 1].any fun e => (s.copyCtx c e).cmds.any fun m => m.state ≠ .ended && of_ m.meridian) ||
    (s.jobsOf c).any fun j => of_ j.meridian

/-- TRDONE (R305). -/
def execTrdone (s : State) : Res :=
  finish 4 s (taskOnly s (tvalWord .trdone) (
    match s.hart.task.transit with
    | none => .trap .illegal (tvalWord .trdone) s
    | some t => if !t.done && s.slotReads s.here t.slot t.fill then .wait else .ok () (s.transitDone s.here)))

/-- TRHOLD (R306). -/
def execTrhold (d a : SReg) (s : State) : Res :=
  finish 4 s (taskOnly s (tvalWord (.trhold d a)) (
    (slotOperand (s.rs a) 0x1FF07 s).bind fun i s =>
      if !s.ownsDie s.hart.task s.here.die then .trap .accessDenied (s.rs a) s
      else
        let x := (s.rs a).toNat
        let m := s.mslot s.here.die i
        let put := fun (h : Nat) =>
          (s.modSlot s.here.die i fun m => { m with holds := h, state := if h = 0 then 2 else 3 }).ws d 0
        if !m.live || m.fill % 256 ≠ x / 2 ^ 8 % 2 ^ 8 || m.deadline < s.polestar then .ok () (s.ws d 1)
        else if bitOf x 16 then if m.holds = 0 then .ok () (s.ws d 3) else .ok () (put (m.holds - 1))
        else if 16 ≤ m.holds then .ok () (s.ws d 2)
        else .ok () (put (m.holds + 1))))

/-- TRQRY (R307): the ephemeris of the die. -/
def execTrqry (d a : SReg) (s : State) : Res :=
  finish 4 s (taskOnly s (tvalWord (.trqry d a)) ((meridianKeyOf (s.rs a) s).bind fun _ s =>
    let k := (s.rs a).toNat
    let g := s.dieAt s.here.die
    .ok () (s.ws d (match g.ephemeris.find? k with
      | none => BitVec.allOnes 64
      | some t => BitVec.ofNat 64 (t % 2 ^ 63 + if g.missing.contains k then 2 ^ 63 else 0)))))

/-! ### Resident sequences (R309–R312) -/

/-- TRSKIP (R312). -/
def execTrskip (d a : SReg) (s : State) : Res :=
  finish 4 s (taskOnly s (tvalWord (.trskip d a)) ((seqRef ((s.rs a).toNat % 2 ^ 10) (s.rs a) s).bind fun k s =>
    let e := s.seqAt k
    let s := if e.state = 1 then s.setSeq k { e with state := 2 } else s
    .ok () (s.ws d (BitVec.ofNat 64 e.state))))

/-- TRNEXT (R311). -/
def execTrnext (d a b : SReg) (s : State) : Res :=
  let x := (s.rs a).toNat
  let w := (s.rs b).toNat
  let rows := bitsOf x 38 32
  let noin := bitOf x 39
  finish 4 s (taskOnly s (tvalWord (.trnext d a b)) (
    if x / 2 ^ 40 ≠ 0 || bitsOf x 15 10 ≠ 0 || rows = 0 || 64 < rows then .trap .illegal (s.rs a) s
    else if w / 2 ^ 32 ≠ 0 || (noin && w ≠ 0) then .trap .illegal (s.rs b) s
    else
      (seqRef (x % 2 ^ 10) (s.rs a) s).bind fun k s =>
        let e := s.seqAt k
        if e.state ≠ 0 then .ok () (s.ws d 1)
        else if !noin && s.staleWait s.part w then .trap .tagStale (s.rs b) s
        else
          let e := { e with nextTag := bitsOf x 31 16, rows := rows, input := if noin then none else some w }
          let e := if noin || s.published s.part w then { e with state := 1, ready := s.polestar } else e
          let s := if noin then s else s.joinTag s.part w s.here.die (.seq k)
          .ok () ((s.setSeq k e).ws d 0)))

/-- The words of SEQST READ (R310). -/
def State.seqWord (s : State) (part : Nat) (e : SeqEntry) (sel : Nat) : Word :=
  if sel = 0 then
    let pub := match e.input with
      | some w => s.published part w
      | none => false
    BitVec.ofNat 64 (e.state + (if pub then 8 else 0) + (if e.parked.isSome then 16 else 0) + e.rows % 128 * 2 ^ 5 +
      e.nextTag * 2 ^ 16 + e.image * 2 ^ 32)
  else if sel = 1 then BitVec.ofNat 64 (e.input.getD 0)
  else if sel = 2 then BitVec.ofNat 64 e.pos
  else if sel = 3 then BitVec.ofNat 64 e.ready
  else if sel ≤ 10 then BitVec.ofNat 64 (e.hist.getD (sel - 4) 0xFFFFFFFF)
  else e.last

/-- A fresh entry: what ALLOC sets; the rest of it stays (R309). -/
def SeqEntry.alloc (e : SeqEntry) (part image : Nat) : SeqEntry :=
  { e with
    state := 3, image := image, rows := 1, pos := 0, hist := [], input := none, parked := none, part := part
    watch := e.watch.map fun w => { w with armed := false } }

/-- SEQST (R309, R310). -/
def execSeqst (d a b : SReg) (s : State) : Res :=
  let x := (s.rs a).toNat
  let op := bitsOf x 19 16
  finish 4 s (taskOnly s (tvalWord (.seqst d a b)) (
    if x / 2 ^ 20 ≠ 0 || bitsOf x 15 10 ≠ 0 || 5 ≤ op then .trap .illegal (s.rs a) s
    else if op = 1 then
      match s.freeSeq s.part s.here.die with
      | none => .ok () (s.ws d (BitVec.allOnes 64))
      | some i =>
        let k := seqKey s.here.die i
        .ok () ((s.setSeq k ((s.seqAt k).alloc s.part ((s.rs b).toNat % 2 ^ 16))).ws d (BitVec.ofNat 64 i))
    else
      (seqRef (x % 2 ^ 10) (s.rs a) s).bind fun k s =>
        let e := s.seqAt k
        if op = 0 then
          if 11 < (s.rs b).toNat then .trap .accessDenied (s.rs b) s
          else .ok () (s.ws d (s.seqWord s.part e (s.rs b).toNat))
        else if op = 2 then
          if e.state = 3 then .ok () ((s.setSeq k { e with state := 0, input := none }).ws d 0) else .ok () (s.ws d 1)
        else if op = 3 then
          if e.state ≤ 2 then .ok () ((s.setSeq k { e with state := 3 }).ws d 0) else .ok () (s.ws d 1)
        else if e.state = 3 then
          let s := match e.parked with
            | some g => s.taskSignal g
            | none => s
          .ok () ((s.setSeq k { e with state := 7, parked := none }).ws d 0)
        else .ok () (s.ws d 1)))

end Sys2Proof.Machine
end

