-- ==== Sys2Proof/Machine/Generation.lean ====
section
/-! DEFINITION. Watchpoints, token commits, token output and collectives: major 0x16 (R316–R320). -/

namespace Sys2Proof.Machine

/-! ### Watchpoints (R316) -/

/-- No token: the wildcard of a pattern, and what HIST shows where there is none (R310, R316). -/
def noToken : Nat := 0xFFFFFFFF

/-- The slot selector of WPSET, WPCLR and WPRD (R316). -/
def watchSelect (x : Word) (s : State) : R (Nat × Nat) :=
  if x.toNat / 2 ^ 20 ≠ 0 || bitsOf x.toNat 15 10 ≠ 0 || 9 < bitsOf x.toNat 19 16 then .trap .illegal x s
  else .ok (x.toNat % 2 ^ 10, bitsOf x.toNat 19 16) s

/-- The fields of a watch record for a slot, each with its check (R316). -/
def watchFields (slot : Nat) (r : List Byte) : List (Nat × Bool) :=
  let len := field r 0 1
  let act := field r 1 1
  let ninj := field r 2 1
  let pat := fun i : Nat => field r (16 + 4 * i) 4
  let inj := fun i : Nat => field r (48 + 4 * i) 4
  let budget := decide (8 ≤ slot)
  let head : List (Nat × Bool) := [(0, if budget then len = 0 else 1 ≤ len && len ≤ 8),
    (1, if budget then act = 0 || act = 3 || act = 4 else decide (act ≤ 4)),
    (2, if !budget && act = 2 then 1 ≤ ninj && ninj ≤ 8 else ninj = 0),
    (3, if budget then field r 3 1 = 0 else decide (field r 3 1 < 2)),
    (4, act = 3 || field r 4 4 = 0),
    (8, if budget then field r 8 4 ≠ 0 else field r 8 4 = 0), (12, field r 12 4 = 0)]
  head ++ ((List.range 8).map fun i => (16 + 4 * i, (!budget && decide (i < len)) || decide (pat i = 0))) ++
  ((List.range 8).map fun i => (48 + 4 * i, if !budget && i < ninj then inj i != noToken else inj i == 0))

/-- The watch slot a record arms (R316). -/
def watchOf (r : List Byte) : Watch where
  armed := true
  len := field r 0 1
  action := field r 1 1
  ninj := field r 2 1
  once := bitOf (field r 3 1) 0
  note := field r 4 4
  remain := field r 8 4
  pat := (List.range 8).map fun i => field r (16 + 4 * i) 4
  inj := (List.range 8).map fun i => field r (48 + 4 * i) 4
  hits := 0

/-- An entry with a watch slot changed. -/
def SeqEntry.modWatch (e : SeqEntry) (i : Nat) (f : Watch → Watch) : SeqEntry :=
  { e with watch := e.watch.mapFinIdx fun j w _ => if j = i then f w else w }

/-- A watch slot of an entry. -/
def SeqEntry.slot (e : SeqEntry) (i : Nat) : Watch := e.watch[i]?.getD default

/-- WPSET (R316). -/
def execWpset (d a b : SReg) (s : State) : Res :=
  let word := tvalWord (.wpset d a b)
  finish 4 s (taskOnly s word ((watchSelect (s.rs a) s).bind fun q s =>
    (transitRecord word (s.rs b).toNat 80 16 (watchFields q.2) s).bind fun r s =>
    (seqRef q.1 (s.rs a) s).bind fun k s =>
      let e := s.seqAt k
      if e.state = 7 || e.state = 4 then .ok () (s.ws d 1)
      else .ok () ((s.setSeq k (e.modWatch q.2 fun _ => watchOf r)).ws d 0)))

/-- WPCLR (R316). -/
def execWpclr (d a : SReg) (s : State) : Res :=
  finish 4 s (taskOnly s (tvalWord (.wpclr d a)) ((watchSelect (s.rs a) s).bind fun q s =>
    (seqRef q.1 (s.rs a) s).bind fun k s =>
      let e := s.seqAt k
      if e.state = 7 || e.state = 4 then .ok () (s.ws d 1)
      else .ok () ((s.setSeq k (e.modWatch q.2 fun w => { w with armed := false })).ws d 0)))

/-- The words of WPRD (R316). -/
def Watch.word (w : Watch) (slot sel : Nat) : Nat :=
  if sel = 0 then
    w.len % 16 + w.action % 8 * 2 ^ 8 + w.ninj % 16 * 2 ^ 12 + (if w.once then 2 ^ 16 else 0) + (if w.armed then 2 ^ 24 else 0) +
      Nat.min w.hits (2 ^ 32 - 1) * 2 ^ 32
  else if sel ≤ 8 then w.pat.getD (sel - 1) 0
  else if sel ≤ 16 then w.inj.getD (sel - 9) 0
  else if 8 ≤ slot then w.remain else w.note

/-- WPRD (R316). -/
def execWprd (d a b : SReg) (s : State) : Res :=
  finish 4 s (taskOnly s (tvalWord (.wprd d a b)) ((watchSelect (s.rs a) s).bind fun q s =>
    (seqRef q.1 (s.rs a) s).bind fun k s =>
      if 17 < (s.rs b).toNat then .trap .accessDenied (s.rs b) s
      else .ok () (s.ws d (BitVec.ofNat 64 (((s.seqAt k).slot q.2).word q.2 (s.rs b).toNat)))))

/-! ### TKCOMMIT (R317, R318) -/

/-- The fields of a commit record, each with its check (R317). -/
def commitFields (r : List Byte) : List (Nat × Bool) :=
  let sen := bitOf (field r 3 1) 0
  [(0, decide (field r 0 2 < 1024)), (2, 1 ≤ field r 2 1 && field r 2 1 ≤ 64), (3, decide (field r 3 1 < 2)),
    (4, sen || field r 4 2 = 0), (6, field r 6 2 = 0), (8, !sen || field r 8 4 ≠ 0), (12, field r 12 4 = 0)]

/-- The tokens of a commit record, each with its check (R317). -/
def tokenFields (n : Nat) (r : List Byte) : List (Nat × Bool) :=
  (List.range n).map fun i => (16 + 4 * i, field r (16 + 4 * i) 4 ≠ noToken)

/-- A token enters an entry's history (R310, R317). -/
def SeqEntry.push (e : SeqEntry) (t : Nat) : SeqEntry := { e with pos := e.pos + 1, hist := (t :: e.hist).take 8 }

/-- A pattern slot hits: the last LEN tokens equal its pattern (R317). -/
def Watch.hit (w : Watch) (hist : List Nat) : Bool :=
  w.armed && w.len ≤ hist.length &&
    (List.range w.len).all fun i => w.pat.getD i 0 = noToken || w.pat.getD i 0 = hist.getD (w.len - 1 - i) noToken

/-- The status word of a commit as fields (R317). -/
structure CommitStatus where
  count : Nat
  ninj : Nat
  win : Nat
  act : Nat
  hits : Nat
  flags : Nat
  child : Nat
deriving DecidableEq, Repr

/-- The status word (R317). -/
def CommitStatus.word (c : CommitStatus) : Word :=
  BitVec.ofNat 64 (c.count + c.ninj * 2 ^ 7 + c.win * 2 ^ 11 + c.act * 2 ^ 15 + c.hits * 2 ^ 18 + c.flags + c.child * 2 ^ 31)

/-- One token: its history, the budgets, the slots that hit and their counts (R317). The hits come lowest first. -/
def SeqEntry.token (e : SeqEntry) (t : Nat) : SeqEntry × List Nat :=
  let e := e.push t
  let spent := [8, 9].filter fun b => (e.slot b).armed && (e.slot b).remain = 1
  let e := [8, 9].foldl (fun e b => e.modWatch b fun w =>
    if w.armed then { w with remain := w.remain - 1, armed := w.remain ≠ 1 } else w) e
  let hits := ((List.range 8).filter fun p => (e.slot p).hit e.hist) ++ spent
  (hits.foldl (fun e p => e.modWatch p fun w => { w with hits := w.hits + 1, armed := w.armed && !w.once }) e, hits)

/-- FORK: the lowest FREE entry becomes a STOPPED copy with the forking slot disarmed (R318). -/
def State.forkSeq (s : State) (e : SeqEntry) (w : Nat) : Option Nat × State :=
  match s.freeSeq s.part s.here.die with
  | none => (none, s)
  | some i =>
    let k := seqKey s.here.die i
    let old := s.seqAt k
    let c := { e with state := 3, ready := old.ready, last := old.last, parked := none }
    (some i, s.setSeq k (c.modWatch w fun x => { x with armed := false }))

/-- The winning slot acts (R318): the entry, its status and the rest of the package afterwards. -/
def commitAct (seq w : Nat) (e : SeqEntry) (st : CommitStatus) (s : State) : SeqEntry × CommitStatus × State :=
  let x := e.slot w
  if x.action = 0 then ({ e with state := 3 }, st, s)
  else if x.action = 4 then
    ({ e with state := 4 }, st, s.modMyCore fun k =>
      { k with seqTraps := k.seqTraps ++ [⟨s.here.slot, s.hart.pc, seq, s.here.die, e.pos % 2 ^ 48⟩] })
  else if x.action = 2 then ((x.inj.take x.ninj).foldl SeqEntry.push e, { st with ninj := x.ninj }, s)
  else if x.action = 1 then
    match s.forkSeq e w with
    | (some i, s) => (e, { st with child := i }, s)
    | (none, s) => (e, { st with flags := st.flags ||| 2 ^ 29 }, s)
  else (e, { st with flags := st.flags ||| 2 ^ 28 }, s.writeDesc s.part 96 8 x.note)

/-- Commit tokens until one is truncated (R317). -/
def commitLoop (seq : Nat) : List Nat → SeqEntry → CommitStatus → State → SeqEntry × CommitStatus × State
  | [], e, st, s => (e, st, s)
  | t :: rest, e, st, s =>
    match e.token t with
    | (e, hits) =>
      let st := { st with count := st.count + 1 }
      match hits with
      | [] => commitLoop seq rest e st s
      | w :: _ =>
        let st := { st with hits := hits.foldl (fun m p => m ||| 2 ^ p) st.hits, win := w, act := (e.slot w).action }
        match commitAct seq w e st s with
        | (e, st, s) => if st.act = 3 then commitLoop seq rest e st s else (e, st, s)

/-- The commit of a record's tokens into an entry, with the parked signal and the record's (R317). -/
def State.commit (s : State) (k seq : Nat) (tokens : List Nat) (sig : Option Signal) : Word × State :=
  let e := s.seqAt k
  let none_ : CommitStatus := ⟨0, 0, 15, 7, 0, 0, 0⟩
  match (if e.state ≤ 2 then commitLoop seq tokens e none_ s else (e, { none_ with flags := 2 ^ 30 }, s)) with
  | (e, st, s) =>
    let s := s.setSeq k { e with parked := none, last := st.word }
    let s := match e.parked with
      | some g => s.taskSignal g
      | none => s
    (st.word, match sig with
      | some g => s.taskSignal g
      | none => s)

/-- The counter a commit record signals (R262, R300 step 5). -/
def commitCounter (r : List Byte) (s : State) : R (Option Nat) :=
  if bitOf (field r 3 1) 0 then (s.ctrRef (BitVec.ofNat 64 (field r 4 2))).bind fun k s => .ok (some k) s else .ok none s

/-- TKCOMMIT (R317, R374): it stalls while its core's sequence-trap queue is full. -/
def execTkcommit (d b : SReg) (s : State) : Res :=
  let word := tvalWord (.tkcommit d b)
  let off := (s.rs b).toNat
  finish 4 s (taskOnly s word (
    if 16 ≤ s.myCore.seqTraps.length then .wait
    else
      (s.readRecord off 20 16).bind fun head s =>
      let n := field head 2 1
      (transitRecord word off (16 + 4 * n) 16 (fun r => commitFields r ++ tokenFields n r) s).bind fun r s =>
      (commitCounter r s).bind fun sig s =>
      (seqRef (field r 0 2) (BitVec.ofNat 64 (field r 0 2)) s).bind fun k s =>
        let tokens := (List.range n).map fun i => field r (16 + 4 * i) 4
        match s.commit k (field r 0 2) tokens (sig.map fun c => ⟨c, field r 8 4⟩) with
        | (st, s) => .ok () (s.effect.ws d st)))

/-! ### TKPUT (R320) -/

/-- Token records that have been issued and are not in the mailbox yet. -/
def State.tokensDue (s : State) : Nat :=
  ((s.contexts.flatMap fun c => (s.hartAt c).stores).filter fun p => match p with
    | .act _ _ _ (.token _) => true
    | _ => false).length

/-- TKPUT: its record goes to the mailbox behind the older accesses of the task, once these are performed at pkg (R137, R320). -/
def execTkput (a b : SReg) (s : State) : Res :=
  let tok := (s.rs b).toNat % 2 ^ 32
  finish 4 s (taskOnly s (tvalWord (.tkput a b)) (
    if (s.rs a).toNat / 2 ^ 10 ≠ 0 then .trap .illegal (s.rs a) s
    else if tok = noToken then .trap .illegal (BitVec.ofNat 64 tok) s
    else
      (seqRef (s.rs a).toNat (s.rs a) s).bind fun _ s =>
        if 4096 ≤ s.shared.mailbox.length + s.tokensDue then .wait
        else .ok () (s.enqueueAct 2 (.token ⟨s.part, (s.rs a).toNat + s.here.die * 2 ^ 10, tok, 0⟩)).effect))

/-! ### COLL (R319, R438) -/

/-- OP of a collective card. -/
def clOp (c : List Byte) : Nat := field c 0 1
/-- WEN, SEN and REPLY: bits 0 to 2 of FLAGS. -/
def clFlag (c : List Byte) (k : Nat) : Bool := bitOf (field c 1 1) k
/-- GROUP. -/
def clGroup (c : List Byte) : Nat := field c 2 2
/-- COUNT. -/
def clCount (c : List Byte) : Nat := field c 4 4
/-- Bytes of an element. -/
def clElem (c : List Byte) : Nat := if 6 ≤ clOp c then 8 else 4

/-- The fields of a collective card, each with its check (R279, R319). -/
def collFields (c : List Byte) : List (Nat × Bool) :=
  let reply := clFlag c 2
  [(0, decide (clOp c ≤ 7)), (1, field c 1 1 < 8 && (!reply || 6 ≤ clOp c)), (2, decide (clGroup c ≤ 4095)),
    (4, 1 ≤ clCount c && clCount c ≤ 16384 && (!reply || clCount c = 1)), (12, !reply || field c 12 4 = 0),
    (16, field c 16 2 < 4096 && (reply || field c 16 2 = 0)), (18, field c 18 2 < 1024 && (reply || field c 18 2 = 0)),
    (20, clFlag c 0 || field c 20 6 = 0), (21, field c 21 1 < 8), (26, clFlag c 1 || field c 26 6 = 0),
    (27, field c 27 1 < 8), (28, !clFlag c 1 || field c 28 4 ≠ 0), (32, field c 32 32 = 0)]

/-- An array of a card lies in the region and is aligned to its element (R319). -/
def collArray (off n al : Nat) (s : State) : R Unit :=
  if s.regionLen < off + n then .trap .capBounds (tv (s.regionAddr (Nat.max off s.regionLen))) s
  else if off % al ≠ 0 then .trap .misaligned (tv (s.regionAddr off)) s
  else .ok () s

/-- The references of a REPLY card: the channel as its producer, and the sequence (R300 step 5). -/
def collReply (c : List Byte) (s : State) : R Unit :=
  if !clFlag c 2 then .ok () s
  else
    let h : Word := BitVec.ofNat 64 (field c 16 2)
    if (s.chanOf h).isNone then .trap .accessDenied h s
    else (seqRef (field c 18 2) (BitVec.ofNat 64 (field c 18 2)) s).bind fun _ s => .ok () s

/-- COLL (R121, R319): the command enters the store queue, behind which the engine accepts it. -/
def execColl (b : SReg) (s : State) : Res :=
  let word := tvalWord (.coll b)
  finish 4 s (taskOnly s word (
    (transitRecord word (s.rs b).toNat 64 64 collFields s).bind fun c s =>
    (cardCounter (clFlag c 0) (field c 20 2) s).bind fun wait s =>
    (cardCounter (clFlag c 1) (field c 26 2) s).bind fun sig s =>
    (s.needAllocated (6144 + clGroup c) (BitVec.ofNat 64 (clGroup c))).bind fun _ s =>
    (collReply c s).bind fun _ s =>
    let n := clCount c * clElem c
    (collArray (field c 8 4) n (clElem c) s).bind fun _ s =>
    (if clFlag c 2 then .ok () s else collArray (field c 12 4) n (clElem c) s).bind fun _ s =>
      let t := s.hart.task
      let cmd : CollCmd :=
        { card := c, region := t.region, part := t.part, task := t.ident, stay := t.stay, taken := false
          wait := wait.map fun k => (k, field c 22 4)
          signal := sig.map fun k => ⟨k, field c 28 4⟩, contributed := false, result := none }
      .ok () ((s.setColls s.here.key (s.collsOf s.here.key ++ [cmd])).enqueueAct 0 .coll)))

/-! ### The collective engine (R136, R319, R438, R439) -/

/-- The order of FP32 patterns other than NaN: −0 below +0 (R205, R319). -/
def fpRank (x : Nat) : Int := if bitOf x 31 then -(x % 2 ^ 31 : Nat) - 1 else (x : Int)

/-- An FP32 pattern is a NaN. -/
def fpNan (x : Nat) : Bool := bitsOf x 30 23 = 255 && x % 2 ^ 23 ≠ 0

/-- One level of the tree of R95. -/
def treeLevel : List Nat → List Nat
  | a :: b :: t => (fp32.addV 0 (fp32.decode a) (fp32.decode b)).1 :: treeLevel t
  | l => l

/-- Levels of the tree of R95 until one value is left. -/
def treeSum : Nat → List Nat → Nat
  | 0, l => l.headD 0
  | k + 1, l => treeSum k (treeLevel l)

/-- The sum of R95 over ranks, padded with −0. -/
def collSum (l : List Nat) : Nat := treeSum 8 (l ++ List.replicate (256 - l.length) 0x80000000)

/-- The first of the non-NaN values in an order, or the canonical NaN (R205, R319). -/
def collBest (better : Int → Int → Bool) (l : List Nat) : Nat :=
  ((l.filter fun x => !fpNan x).foldl (fun best x =>
    match best with
    | none => some x
    | some y => if better (fpRank x) (fpRank y) then some x else best) (none : Option Nat)).getD 0x7FC00000

/-- The winning pair: value first, then the lowest global index (R319). -/
def collArg (better : Int → Int → Bool) (l : List Nat) : Nat :=
  let idx := fun x : Nat => x / 2 ^ 32
  let val := fun x : Nat => x % 2 ^ 32
  ((l.filter fun x => !fpNan (val x)).foldl (fun best x =>
    match best with
    | none => some x
    | some y =>
      if better (fpRank (val x)) (fpRank (val y)) || (val x = val y && idx x < idx y) then some x else best)
    (none : Option Nat)).getD (0x7FC00000 + (l.map idx).foldl Nat.min (2 ^ 32 - 1) * 2 ^ 32)

/-- One element of the result across the members in ascending rank (R319). -/
def collElem (op : Nat) (l : List Nat) : Nat :=
  if op = 0 then collSum l
  else if op = 1 then collBest (fun a b => decide (b < a)) l
  else if op = 2 then collBest (fun a b => decide (a < b)) l
  else if op = 3 then l.sum % 2 ^ 32
  else if op = 4 then l.foldl (fun a b => a &&& b) (2 ^ 32 - 1)
  else if op = 5 then l.foldl (fun a b => a ||| b) 0
  else if op = 6 then collArg (fun a b => decide (b < a)) l
  else collArg (fun a b => decide (a < b)) l

/-- The result of an operation from its members' contributions in rank order (R319). -/
def collResult (op count : Nat) (datas : List (List Byte)) : List Byte :=
  let w := if 6 ≤ op then 8 else 4
  (List.range count).flatMap fun k => leBytes w (collElem op (datas.map fun d => field d (w * k) w))

/-- The context that a member word of R438 names on this package. -/
def State.memberKey (s : State) (w : Nat) : Option Nat :=
  if w % 2 ^ 10 = s.fabric.self then
    some (CtxId.key ⟨bitsOf w 12 10, bitsOf w 16 13, bitsOf w 18 17⟩)
  else none

/-- Change the first command of a list that meets a condition. -/
def collFirst (p : CollCmd → Bool) (f : CollCmd → CollCmd) : List CollCmd → List CollCmd
  | [] => []
  | c :: t => if p c then f c :: t else c :: collFirst p f t

/-- The contribution of a command as its engine reads it, from the region of its task, where an evicted task's region was saved, or of a
task that has ended from where it lay (R136, R348, log 101); none while a saved extent does not hold it. -/
def State.contribution (s : State) (key : Nat) (c : CollCmd) : Option (List Byte × State) :=
  let n := clCount c.card * clElem c.card
  let read := fun (t : CtxId) (region : Nat) =>
    match s.engineLines t.die t.core .collective (scratchKey t.die t.core (region + field c.card 8 4)) n with
    | (bs, _, s) => (bs, s)
  match s.findTask c.task, s.findEvicted c.task with
  | some t, _ => some (read t (s.hartAt t).task.region)
  | none, none => some (read (ctxOf key) c.region)
  | none, some (_, v) =>
    let t := ctxOf key
    (s.extentBytes t.die t.core .collective v (field c.card 8 4) n).map fun r => (r.1, r.2.2)

/-- The packages of a group's members. -/
def Group.packages (g : Group) : List Nat := (g.members.map (· % 2 ^ 10)).eraseDups

/-- The root of a group: the member package with the lowest package index (R438). -/
def Group.root (g : Group) : Nat := g.packages.min?.getD 0

/-- A contribution or result goes to another package, in the COLL class (R432, R438). -/
def State.sendColl (s : State) (target : Nat) (bs : List Byte) : State :=
  if target = s.fabric.self then s
  else { s with fabric := s.fabric.enqueue (s.fabric.pathPort target 2) (s.flitsTo 2 target none [] bs) }

/-- Read the contribution of a command and send it to the root (R136). -/
def State.contribute (s : State) (key : Nat) (c : CollCmd) (rank : Nat) : State :=
  match s.contribution key c with
  | none => s
  | some (bs, s) =>
    let s := s.setColls key (collFirst (fun c => !c.contributed && c.result.isNone) (fun c => { c with contributed := true }) (s.collsOf key))
    let s := s.sendColl (s.shared.groups.getD (clGroup c.card) default).root bs
    { s with shared := { s.shared with groups := s.shared.groups.modify (clGroup c.card) default fun g =>
      { g with contributions := g.contributions ++ [⟨rank, clOp c.card, clCount c.card, bs⟩] } } }

/-- COLL_CONTRIBUTION: the next command of a context gives its contribution once its wait is met; a poisoned counter, a
slot that is no member or a dead group ends it with error (R132, R136, R438, R439). -/
def execCollContribution (die core slot : Nat) (s : State) : Res :=
  let key := CtxId.key ⟨die, core, slot⟩
  let l := s.collsOf key
  let next := fun c : CollCmd => !c.contributed && c.result.isNone
  match l.find? next with
  | none => .next s
  | some c =>
    let fail := s.setColls key (collFirst next (fun c => { c with result := some [] }) l)
    if !c.taken then .next s else
    let g := s.shared.groups.getD (clGroup c.card) default
    match g.members.findIdx? fun w => s.memberKey w = some key with
    | none => .next fail
    | some rank =>
      if g.dead then .next fail
      else
        match s.commandWait c.wait with
        | .fate .. => .next fail
        | .unmet => .next s
        | .met => .next (s.contribute key c rank)

/-- The first contribution of each rank of a group, if every member has one (R438). -/
def Group.complete (g : Group) : Option (List Contribution) :=
  let l := (List.range g.members.length).filterMap fun r => g.contributions.find? fun c => c.rank = r
  if g.members ≠ [] ∧ l.length = g.members.length then some l else none

/-- Remove the first contribution of every rank. -/
def dropFirsts (ranks : List Nat) (l : List Contribution) : List Contribution :=
  (l.foldl (fun (acc : List Nat × List Contribution) c =>
    if acc.1.contains c.rank then (acc.1.filter (· ≠ c.rank), acc.2) else (acc.1, acc.2 ++ [c])) (ranks, [])).2

/-- The dies of a group's members in this package, and whether it has others. -/
def State.groupDies (s : State) (g : Group) : List Nat × Bool :=
  (((g.members.filterMap s.memberKey).map fun k => (ctxOf k).die).eraseDups, g.members.any fun w => (s.memberKey w).isNone)

/-- What the members of a group have performed at die scope is performed at pkg, and at all for a group that spans packages: a release
of the collective engine, which is of the package (R114, R126, R130, R136). -/
def State.collRelease (s : State) (g : Group) : State :=
  match s.groupDies g with
  | (dies, far) => (fun t : State => if far then t.drainEgress else t) (dies.foldl State.drainOutbound s)

/-- A release at the smallest scope that holds a group (R136). -/
def State.groupRelease (s : State) (g : Group) : State :=
  match s.groupDies g with
  | ([_], false) => s
  | _ => s.collRelease g

/-- The signal of a collective command: a release at pkg (R130, R136). -/
def State.collSignal (s : State) (die : Nat) (c : CollCmd) (err : Bool) : State :=
  (if c.signal.isSome then s.collRelease (s.shared.groups.getD (clGroup c.card) default) else s).engineSignal die c.signal err

/-- The root forms the result of a group's next operation for every member of this package; members that disagree on
OP or COUNT get an error (R319, R438). -/
def State.formResult (s : State) (g : Nat) (cs : List Contribution) : State :=
  let grp := s.shared.groups.getD g default
  let res := match cs with
    | [] => []
    | c :: _ =>
      if cs.all fun d => d.op = c.op && d.count = c.count then collResult c.op c.count (cs.map (·.data)) else []
  let grp' := { grp with contributions := dropFirsts (List.range grp.members.length) grp.contributions }
  let s := ({ s with shared := { s.shared with groups := s.shared.groups.insert g grp' } }).groupRelease grp
  let s := if grp.root = s.fabric.self then grp.packages.foldl (fun s p => s.sendColl p res) s else s
  (grp.members.filterMap s.memberKey).foldl (fun s k =>
    s.setColls k (collFirst (fun c => clGroup c.card = g && c.contributed && c.result.isNone)
      (fun c => { c with result := some res }) (s.collsOf k))) s

/-- Push the pair of a REPLY: none while it waits for the slot, or for a page that migrates, at the head of the line of reservers; else
whether it failed (R287, R319, R402). -/
def State.reply (s : State) (key : Nat) (c : CollCmd) (bs : List Byte) : Option Bool × State :=
  let h := field c.card 16 2
  let at_ := ctxOf key
  match s.shared.channels.find? h with
  | none => (some true, s)
  | some ch =>
    let line := if ch.waiters.contains (collLine key) then ch else { ch with waiters := ch.waiters ++ [collLine key] }
    let out := { ch with waiters := ch.waiters.filter (· ≠ collLine key) }
    if ch.poison then (some true, s.setChannel h out)
    else if !ch.mayReserve (collLine key) then (none, s.setChannel h line)
    else
      let x := ((ch.baseFor c.part).getD 0 + ch.rsv * ch.slotBytes) % 2 ^ 48
      match s.translate at_.die 16 c.part 3 x (some .store) 0 with
      | .wait => (none, s.setChannel h line)
      | .trap _ _ s => (some true, (s.setChannel h out).poisonChannel h)
      | .ok k s =>
        let s := (s.engineStore at_ k (bs.take 8)).releaseFrom at_.die ch.scope
        (some false, (s.chReserve h (collLine key) ch).fillSlot h ch.rsv)

/-- Park the signal of a REPLY in its sequence, in the step of the push: at once if the entry is FREE, poisoned if one is
parked there already (R319, R344). -/
def State.park (s : State) (die : Nat) (c : CollCmd) : State :=
  match c.signal with
  | none => s
  | some g =>
    let k := seqKey die (field c.card 18 2)
    let e := s.seqAt k
    if e.state = 7 then s.collSignal die c false
    else if e.parked.isSome then s.collSignal die c true
    else s.setSeq k { e with parked := some g }

/-- Deliver the oldest command of a context, if it has its result: the result and its signal, in issue order (R132,
R136, R319). -/
def State.deliverColl (s : State) (key : Nat) : State :=
  let die := (ctxOf key).die
  match s.collsOf key with
  | [] => s
  | c :: t =>
    match (if c.taken then c.result else none) with
    | none => s
    | some [] => (s.setColls key t).collSignal die c true
    | some bs =>
      if clFlag c.card 2 then
        match s.reply key c bs with
        | (none, s) => s
        | (some true, s) => (s.setColls key t).collSignal die c true
        | (some false, s) => (s.park die c).setColls key t
      else
        match s.writeRegion c.task (field c.card 12 4) bs with
        | none => s
        | some s => (s.setColls key t).collSignal die c false

/-- COLL_DELIVERY: the root forms a group's next result once every member has contributed, and the members' engines
deliver what they have, each in its issue order (R136, R319, R438). -/
def execCollDelivery (group : Nat) (s : State) : Res :=
  let g := s.shared.groups.getD group default
  let s := match g.complete with
    | some cs => s.formResult group cs
    | none => s
  .next ((s.eng.colls.map (·.1)).foldl State.deliverColl s)

/-- Every command of a dead group ends with error (R439). -/
def State.failGroup (s : State) (group : Nat) : State :=
  let s := { s with shared := { s.shared with
    groups := s.shared.groups.modify group default fun g => { g with dead := true, contributions := [] } } }
  { s with eng := { s.eng with colls := s.eng.colls.map fun (p : Nat × List CollCmd) =>
      (p.1, p.2.map fun c => if clGroup c.card = group then { c with result := some [] } else c) } }


end Sys2Proof.Machine
end

