-- ==== Sys2Proof/Machine/Image.lean ====
section
/-! DEFINITION. Context images: CTXSV and CTXLD (R375). R375 gives no layout inside the STREAM, MATRIX and QUAR sections;
the model's is in log 16. -/

namespace Sys2Proof.Machine

/-! ### What an image holds -/

/-- The bytes of a vector register. -/
def vecBytes (x : VBits) : List Byte := leBytes 256 x.toNat

/-- The 512-byte header (R375). -/
def headerBytes (c : CtxId) (h : Hart) : List Byte :=
  let t := h.task
  let flags := (if t.sideEffect then 1 else 0) + (if t.derr then 2 else 0) + (if t.gsync.isSome then 4 else 0) +
    (if t.transit.isSome then 8 else 0) + (if t.gang then 16 else 0)
  padTo 512 (leBytes 8 h.pc.toNat ++
    leBytes 8 (if h.status = .trapped then (tcauseWord h.trap.cause c.slot 0).toNat else 0) ++
    leBytes 8 h.trap.tval.toNat ++ leBytes 1 h.trap.ilen ++ leBytes 3 flags ++ leBytes 4 t.launch ++ leBytes 8 t.taskId ++
    leBytes 2 t.tileX ++ leBytes 2 t.tileY ++ leBytes 4 t.tileZ ++ leBytes 8 t.groups.toNat ++ leBytes 1 h.vec.vtype.toNat ++
    leBytes 1 h.vec.vrm.toNat ++ leBytes 2 h.tile.dirty.toNat ++ leBytes 4 t.livex ++
    h.tile.shape.toList.flatMap fun w => leBytes 8 w.toNat)

/-- CORE (R375). -/
def corePieces (c : CtxId) (h : Hart) : List Piece :=
  cutPieces 0 (headerBytes c h) ++ cutPieces 0x200 ((List.range 32).flatMap fun i => leBytes 8 ((h.s[i]?.getD 0).toNat)) ++
    (List.range 16).map fun i =>
      let x := h.c[i]?.getD Cap.null
      ⟨0x300 + 16 * i, leBytes 16 x.bits.toNat, x.tag⟩

/-- VEC (R375): k0 as it reads, VFLG, the 64 vector names. -/
def vecPieces (q : VecRegs) : List Piece :=
  cutPieces 0x400 (((List.range 8).flatMap fun i =>
      leBytes 64 (if i = 0 then 2 ^ 512 - 1 else (q.k[i]?.getD 0).toNat)) ++
    padTo 512 (leBytes 40 q.vflg.toNat) ++ (List.range 64).flatMap fun i => vecBytes (q.v[i]?.getD 0))

/-- The data of a stream's elements as an image holds it: a marked one holds its cause and address, one beyond its bound no cause
(log 16). -/
def elemImage (e : QElem) : List Byte :=
  if e.mark ≠ .none then leBytes 8 e.mark.code ++ leBytes 8 e.addr.toNat else if e.oob then leBytes 16 0 else e.data

/-- The elements of a stream: those of its data queue, those diverted, then those in flight. -/
def Stream.elems (q : Stream) : List QElem := q.dq ++ q.diverted ++ q.inflight

/-- The 64 bytes of a stream's state: flags, conversion flags, formats, counts; its capability; the elements that are marked or beyond
their bound, the panels built and popped, the elements that were uncorrectable (R375, log 16). -/
def Stream.stateImage (q : Stream) : List Byte × List Byte × List Byte :=
  let flags := (if q.bound then 1 else 0) + (if q.faulted then 2 else 0) + (if q.memErr then 4 else 0) + (if q.oob then 8 else 0)
  let bits := fun (f : QElem → Bool) => (q.elems.zipIdx.map fun p => if f p.1 then 2 ^ p.2 else 0).sum
  (padTo 16 (leBytes 1 flags ++ leBytes 1 q.cvf.toNat ++ leBytes 2 q.src.toNat ++ leBytes 2 q.sink.toNat ++
    leBytes 1 q.aq.length ++ leBytes 1 q.dq.length ++ leBytes 1 q.runs.length ++ leBytes 1 q.inflight.length ++ leBytes 1 q.diverted.length),
   leBytes 16 q.cap.bits.toNat,
   leBytes 8 (bits fun e => e.mark ≠ .none || e.oob) ++ leBytes 8 q.panels ++ leBytes 8 q.popped ++ leBytes 8 (bits fun e => e.memErr))

/-- The 64 data elements of a stream: those of the data queue, those diverted and those in flight, 256 bytes each; under a bit-plane sink
the data queue takes 16 bytes an element, then the column runs and the others take 256 each (R375, R393, log 16). -/
def Stream.dataImage (q : Stream) : List Byte :=
  padTo 16384 (if q.bp then
      padTo 1024 (q.dq.flatMap fun e => padTo 16 (elemImage e)) ++ (q.runs.flatMap fun r => padTo 256 r) ++
        (q.diverted ++ q.inflight).flatMap fun e => padTo 256 (elemImage e)
    else q.elems.flatMap fun e => padTo 256 (elemImage e))

/-- One stream register: card, state with the capability in a granule of its own, 32 addresses, 64 data elements (R375, log 16). -/
def streamPiecesAt (off : Nat) (q : Stream) : List Piece :=
  match q.stateImage with
  | (a, cap, b) =>
    [⟨off, padTo 64 q.card, false⟩, ⟨off + 64, a, false⟩, ⟨off + 80, cap, q.cap.tag⟩, ⟨off + 96, b, false⟩] ++
      cutPieces (off + 128) (padTo 256 (q.aq.flatMap fun w => leBytes 8 w.toNat) ++ q.dataImage)

/-- STREAM (R375). -/
def streamPieces (h : Hart) : List Piece := h.q.toList.zipIdx.flatMap fun p => streamPiecesAt (0x4800 + 16768 * p.2) p.1

/-- TILE: the configured dirty tiles (R70, R375). -/
def tilePieces (q : TileRegs) : List Piece :=
  (List.range 8).flatMap fun n =>
    if q.dirty.getLsbD n && q.configured.getLsbD n then
      cutPieces (0x28000 + 0x4000 * n) ((q.rows[n]?.getD (Vector.replicate 64 0)).toList.flatMap vecBytes)
    else []

/-- One job in 256 bytes, as it stands at the end of a pass (R246, log 16). -/
def jobImage (j : Job) : List Byte :=
  padTo 256 (padTo 128 j.card ++ leBytes 4 j.id ++ leBytes 1 j.state ++ leBytes 3 j.die ++ leBytes 8 j.pass ++ leBytes 4 j.flags ++
    match j.meridian with
    | some m => leBytes 1 1 ++ leBytes 3 m.slot ++ leBytes 8 m.fill
    | none => [])

/-- What an eviction or an image saves of a context's lease: the remaining run, and the accumulators with the jobs whose status is known;
a run of 0 is no lease (R244, R246). -/
def State.savedLease (s : State) (c : CtxId) : Option (Nat × LeaseCtx) :=
  let ctx := s.leaseCtx c.die c.core
  let jobs := s.allJobs c
  match s.leaseOf c, s.leaseWaits c with
  | some l, _ => some (l.toRun, { ctx with jobs := jobs })
  | none, some ⟨_, _, run, _, _, some x⟩ => some (run, { x with jobs := jobs })
  | none, _ => if jobs = [] then none else some (0, { ctx with acc := [], jobs := jobs })

/-- MATRIX: the 64 accumulator blocks, then the jobs in 256 bytes each, the first ending with the remaining run, the number of jobs and
the next job number (R246, R375, log 16). -/
def matrixPieces (v : Option (Nat × LeaseCtx)) : List Piece :=
  match v with
  | none => cutPieces 0x48000 (leBytes 278528 0)
  | some (run, ctx) =>
    let all := padTo 16384 (ctx.jobs.flatMap jobImage)
    cutPieces 0x48000 (((List.range 64).flatMap fun b => (blockOf ctx b).flatMap fun w => leBytes 4 w.toNat) ++
      all.take 240 ++ leBytes 4 run ++ leBytes 4 ctx.jobs.length ++ leBytes 8 ctx.next ++ all.drop 256)

/-! ### The checks (R375) -/

/-- The offset and size of each section (R375). -/
def sections : List (Nat × Nat × Nat) :=
  [(8, 0, 1024), (9, 0x400, 17408), (10, 0x4800, 134144), (11, 0x28000, 131072), (12, 0x48000, 278528), (13, 0x8C000, 65536)]

/-- A capability covers the selected sections of an image at its cursor (R375). -/
def imageCap (c : Cap) (x : Nat) (store : Bool) : Bool :=
  c.tag && c.space = 3 && (if store then c.st else c.ld) && c.cursor % 64 = 0 &&
    sections.all fun p => !bitOf x p.1 || (c.base ≤ c.cursor + p.2.1 && c.cursor + p.2.1 + p.2.2 ≤ c.top)

/-- The homes of an image's pieces, each checked as an access of the firmware context (R105, R361). -/
def State.imageKeys (c : Cap) (k : Kind) : List (Nat × Nat) → State → R (List Nat)
  | [], s => .ok [] s
  | (off, n) :: t, s =>
    (s.access s.who c (c.cursor + off : Nat) n 16 k).bind fun key s =>
    (State.imageKeys c k t s).bind fun l s => .ok (key :: l) s

/-! ### CTXSV -/

/-- The pieces of the selected sections of a slot's image. -/
def State.imagePieces (s : State) (c : CtxId) (x : Nat) : List Piece :=
  let h := s.hartAt c
  (if bitOf x 8 then corePieces c h else []) ++ (if bitOf x 9 then vecPieces h.vec else []) ++
    (if bitOf x 10 then streamPieces h else []) ++ (if bitOf x 11 then tilePieces h.tile else []) ++
    (if bitOf x 12 then matrixPieces (s.savedLease c) else []) ++
    (if bitOf x 13 then quarPieces h.quar else [])

/-- The package keeps the segment snapshots of jobs that go into an image: their accesses are of the instant of the card's check (R134). -/
def State.keepSnaps (s : State) (jobs : List Job) : State :=
  let l := jobs.filter fun j => j.meridian.isSome
  { s with eng := { s.eng with
    imaged := (s.eng.imaged.filter fun k => !(l.any fun j => j.task = k.task && j.id = k.id)) ++ l } }

/-- CTXSV (R375). -/
def execCtxsv (d a : SReg) (cb : CReg) (s : State) : Res :=
  let word := fxWord 0x3D d.toNat a.toNat cb.toNat 3
  systemOp word s fun s =>
    let x := (s.rs a).toNat
    let c : CtxId := ⟨s.here.die, s.here.core, x % 4⟩
    let cap := s.rc cb
    if x / 2 ^ 14 ≠ 0 || bitsOf x 7 2 ≠ 0 then .next (s.takeTrap .illegal (s.rs a) 4)
    else if !imageCap cap x true then .next (s.takeTrap .illegal word 4)
    else if !s.isHeld c then .next ((s.ws d 1).advance 4)
    else
      let s := s.drainStores c
      let ps := s.imagePieces c x
      finish 4 s ((State.imageKeys cap .store (ps.map fun p => (p.off, p.bytes.length)) s).bind fun keys s =>
        let s := (keys.zip ps).foldl (fun s p => s.enqueueStore (cellsAt p.1 p.2.bytes) p.2.tag false) s
        .ok () ((if bitOf x 12 then s.keepSnaps (s.allJobs c) else s).ws d 0))

/-! ### CTXLD -/

/-- The bytes of an image at some offsets, 64 at a time, and the tags of their granules. -/
def State.imageRead (c : Cap) : List Nat → State → R (List (Nat × List Byte × List Bool))
  | [], s => .ok [] s
  | off :: t, s =>
    (s.access s.who c (c.cursor + off : Nat) 64 64 .load).bind fun key s =>
    let s := s.settleFor s.here s.hart.issued key 64
    match s.badBytes key 64 with
    | w :: _ => .trap .memUncorrectable (tv ((c.cursor + off : Nat) : Int)) (s.logError .task s.here.core w)
    | [] =>
      let here := (off, s.readBytes key 64, (List.range 4).map fun i => s.readTag (key + 16 * i))
      (State.imageRead c t s).bind fun l s => .ok (here :: l) s

/-- Offsets of the 64-byte pieces of a range. -/
def imageOffs (off n : Nat) : List Nat := (List.range (n / 64)).map fun i => off + 64 * i

/-- A vector of `n` values read by a function. -/
def vecFrom {α : Type} (n : Nat) (f : Nat → α) : Vector α n := Vector.ofFn fun i => f i.val

/-- A cause of its code (R367). -/
def causeOf (code : Nat) : Cause :=
  ([Cause.illegal, .privileged, .capTag, .capBounds, .capPerm, .capSpace, .misaligned, .translation, .accessDenied,
    .memUncorrectable, .tileUnconfigured, .transitExpired, .tagStale, .barrierOverrun, .barrierStall, .channelPoisoned,
    .engineError, .gangFault, .sequenceTrap, .leaseViolation, .trapInstruction, .breakpoint, .streamUnbound,
    .replayBlocked, .killed].find? fun c => c.code = code).getD .none

/-- A task that CTXLD puts into an empty slot: what its launch record gives (R33, log 16). -/
def State.taskOfLaunch (s : State) (launch : Nat) : TaskInfo :=
  match s.disp.launches.find? launch with
  | none => TaskInfo.none
  | some l =>
    { TaskInfo.none with
      part := l.part, chain := l.chain, lead := s.gangLead launch, scratch := rScratch l.record, extX := rExt l.record 0, extY := rExt l.record 1
      extZ := rExt l.record 2, arcFirst := rArcFirst l.record, arcLen := rArcLen l.record, ring := rRing l.record
      code := rCode l.record, codeLen := rCodelen l.record, entry := rEntry l.record, gated := rFlag l.record 2 }

/-- The tiles after a header gives their shapes: a tile whose shape changes reads zero (R69, R375). -/
def TileRegs.reshape (q : TileRegs) (f : List Byte) : TileRegs :=
  let sh := fun n : Nat => BitVec.ofNat 64 (field f (64 + 8 * n) 8) &&& shapeMask
  let good := fun n : Nat => if shapeValid (sh n) then sh n else 0
  let rows := vecFrom 8 fun n =>
    if q.shape[n]?.getD 0 = good n then q.rows[n]?.getD (Vector.replicate 64 0) else Vector.replicate 64 0
  let r : TileRegs := ⟨rows, vecFrom 8 good, 0⟩
  { r with dirty := BitVec.ofNat 8 (field f 58 1) &&& r.configured }

/-- CORE of an image into a slot; of a transit task that the slot does not know the batch is lost, and its slot counts as done with
(R375, log 16). -/
def State.loadCore (s : State) (c : CtxId) (f : List Byte) (tags : List Bool) : State :=
  let h := s.hartAt c
  let launch := field f 28 4
  let n := s.disp.nextId
  let base := if h.status = .empty then { s.taskOfLaunch launch with uid := n, stay := n } else h.task
  let s := if h.status = .empty then { s with disp := { s.disp with nextId := n + 1 } } else s
  let flags := field f 25 1
  let cause := causeOf (field f 8 8 % 256)
  let task : TaskInfo :=
    { base.issued with
      launch := launch, taskId := field f 32 8, tileX := field f 40 2, tileY := field f 42 2, tileZ := field f 44 2
      groups := BitVec.ofNat 64 (field f 48 8), livex := field f 60 2 % 2 ^ 11, sideEffect := bitOf flags 0
      derr := bitOf flags 1, gang := bitOf flags 4, gsync := if bitOf flags 2 then some (base.gsync.getD (0, 0)) else none
      transit := if bitOf flags 3 then some (base.transit.getD ⟨0, 0, 0, 0, 0, 0, true, []⟩) else none }
  s.setHart c
    { h with
      status := if cause = .none then .held else .trapped
      pc := BitVec.ofNat 64 (field f 0 8)
      trap := ⟨cause, BitVec.ofNat 64 (field f 0 8), BitVec.ofNat 64 (field f 16 8), field f 24 1, s.polestar⟩
      s := vecFrom 32 fun i => if i = 0 then 0 else BitVec.ofNat 64 (field f (0x200 + 8 * i) 8)
      c := vecFrom 16 fun i =>
        if i = 0 then Cap.null else ⟨BitVec.ofNat 128 (field f (0x300 + 16 * i) 16), tags.getD (0x30 + i) false⟩
      vec := { h.vec with vtype := BitVec.ofNat 4 (field f 56 1), vrm := BitVec.ofNat 3 (field f 57 1) }
      tile := h.tile.reshape f
      task := task }

/-- VEC of an image into a slot (R375). -/
def State.loadVec (s : State) (c : CtxId) (f : List Byte) : State :=
  s.modHart c fun h => { h with vec := { h.vec with
    k := vecFrom 8 fun i => if i = 0 then h.vec.k[0] else BitVec.ofNat 512 (field f (64 * i) 64)
    vflg := BitVec.ofNat 320 (field f 512 40)
    v := vecFrom 64 fun i => BitVec.ofNat 2048 (field f (1024 + 256 * i) 256) } }

/-- One stream register from its 16,768 bytes and the tags of its granules (R102, R375, log 16). -/
def Stream.load (f : List Byte) (tags : List Bool) : Stream :=
  let st := f.drop 64
  let flags := field st 0 1
  let r : Stream :=
    { Stream.unbound with
      bound := bitOf flags 0, faulted := bitOf flags 1, memErr := bitOf flags 2, oob := bitOf flags 3
      cap := ⟨BitVec.ofNat 128 (field st 16 16), tags.getD 5 false⟩, card := f.take 64, cvf := BitVec.ofNat 5 (field st 1 1)
      src := BitVec.ofNat 16 (field st 2 2), sink := BitVec.ofNat 16 (field st 4 2), panels := field st 40 8
      popped := field st 48 8
      aq := (List.range (field st 6 1)).map fun i => BitVec.ofNat 64 (field f (128 + 8 * i) 8) }
  let data := f.drop 384
  let n := rawBytes r.card
  let elem := fun (bs : List Byte) (i size : Nat) =>
    let e : QElem := if bitOf (field st 32 8) i then
        if field bs 0 8 = 0 then ⟨List.replicate size 0, .none, 0, false, true⟩
        else QElem.marked size (causeOf (field bs 0 8)) (field bs 8 8 : Nat)
      else ⟨bs.take size, .none, 0, false, false⟩
    { e with memErr := bitOf (field st 56 8) i }
  let dn := field st 7 1
  let runs := field st 8 1
  let out := field st 10 1
  let late := fun i => elem (data.drop (if r.bp then 1024 + 256 * (runs + i) else 256 * (dn + i))) (dn + i) n
  { r with
    dq := (List.range dn).map fun i => if r.bp then elem (data.drop (16 * i)) i 8 else elem (data.drop (256 * i)) i n
    runs := (List.range runs).map fun i => (data.drop (1024 + 256 * i)).take n
    diverted := (List.range out).map late
    inflight := (upFrom out (field st 9 1)).map late }

/-- STREAM of an image into a slot, with the tags of its granules (R375). -/
def State.loadStreams (s : State) (c : CtxId) (f : List Byte) (tags : List Bool) : State :=
  s.modHart c fun h => { h with q := vecFrom 8 fun i => Stream.load ((f.drop (16768 * i)).take 16768) ((tags.drop (1048 * i)).take 1048) }

/-- TILE of an image into a slot: configured dirty tiles from the image, clean ones zero (R55, R375). -/
def State.loadTiles (s : State) (c : CtxId) (f : List Byte) : State :=
  s.modHart c fun h => { h with tile := { h.tile with
    rows := vecFrom 8 fun n =>
      if h.tile.dirty.getLsbD n then vecFrom 64 fun r => BitVec.ofNat 2048 (field f (0x4000 * n + 256 * r) 256)
      else Vector.replicate 64 0 } }

/-- The jobs that the package knows, in lease contexts, in requests, saved with their tasks and written into images. -/
def State.knownJobs (s : State) : List Job :=
  (s.eng.leases.flatMap fun p : Nat × LeaseCtx => p.2.jobs) ++
  (s.eng.arrays.flatMap fun p : Nat × Array_ => p.2.reqs.flatMap fun r => (r.restore.map (·.jobs)).getD []) ++
  (s.disp.saved.flatMap fun p : Nat × Saved => (p.2.lease.map fun l => l.2.jobs).getD []) ++ s.eng.imaged

/-- One job from its 256 bytes: its meridian operand is the snapshot of the job it was saved from, if the package still has it, else the
slot as it stands at the load (R134, R246, log 16). -/
def State.jobOf (s : State) (c : CtxId) (f : List Byte) : Job :=
  let t := (s.hartAt c).task
  let j : Job :=
    { id := field f 128 4, card := f.take 128, region := t.region, part := t.part, slot := c.slot, die := field f 133 3 % 8
      task := t.ident, stay := t.stay, taken := true, meridian := none
      state := field f 132 1, pass := field f 136 8, step := 0, bias := [], outs := [], flags := field f 144 4 }
  let slot := field f 149 3 % 6
  if field f 148 1 ≠ 1 then j
  else
    match s.knownJobs.find? fun k => k.task.1 = t.launch && k.id = j.id && k.card = j.card &&
        k.meridian.any fun m => m.slot = slot && m.fill = field f 152 8 with
    | some k => { j with meridian := k.meridian }
    | none => { j with meridian := some (s.snap c.die slot) }

/-- A context's lease is asked for again with what an image or an eviction kept of it; jobs without a lease come to its core (R246). -/
def State.askAgain (s : State) (c : CtxId) (v : Nat × LeaseCtx) : State :=
  let t := (s.hartAt c).task
  let s := s.dropRequest c
  let x := { v.2 with jobs := v.2.jobs.map fun j => { j with slot := c.slot, region := t.region, task := t.ident, stay := t.stay } }
  if v.1 = 0 then
    s.modLease c.die c.core fun y =>
      { y with jobs := (y.jobs.filter fun j => j.task ≠ t.ident) ++ x.jobs, next := Nat.max y.next x.next }
  else s.modArray c.die (c.core / 4) fun q => { q with reqs := q.reqs ++ [⟨c.core, c.slot, v.1, false, t.transit.isSome, some x⟩] }

/-- MATRIX of an image: a lease held takes the run, accumulators and jobs; without one, a lease for the remaining run is asked for
(R246, log 16). -/
def State.loadMatrix (s : State) (c : CtxId) (f : List Byte) : State :=
  let acc : SMap (List (BitVec 32)) := (List.range 64).filterMap fun b =>
    let l := (List.range 1024).map fun i => BitVec.ofNat 32 (field f (4096 * b + 4 * i) 4)
    if l.all fun w => w = 0 then none else some (b, l)
  let tail := f.drop 262144
  let run := field tail 240 4
  let jobs := (List.range (Nat.min 64 (field tail 244 4))).map fun i =>
    s.jobOf c (if i = 0 then tail.take 240 else tail.drop (256 * i))
  let ident := (s.hartAt c).task.ident
  let next := field tail 248 8
  match s.leaseOf c with
  | none => s.askAgain c (run, ⟨acc, none, jobs, next⟩)
  | some _ =>
    let held := fun l : Lease => { l with toRun := run, toIssue := run - (jobs.filter Job.pending).length }
    let s := s.modArray c.die (c.core / 4) fun a => { a with lease := if run = 0 then none else a.lease.map held }
    s.modLease c.die c.core fun x =>
      { x with acc := acc, jobs := (x.jobs.filter fun j => j.task ≠ ident) ++ jobs, next := Nat.max x.next next }

/-- Entries of a QUAR section (log 16). -/
def quarEntries : Nat → List Byte → List (Nat × List Byte)
  | 0, _ => []
  | k + 1, f =>
    let n := field f 8 8
    if n = 0 then [] else (field f 0 8, (f.drop 16).take n) :: quarEntries k (f.drop (16 + n))

/-- The bytes of a range of a read image. -/
def imageBytes (l : List (Nat × List Byte × List Bool)) (off n : Nat) : List Byte :=
  (l.filter fun p => off ≤ p.1 && p.1 < off + n).flatMap fun p => p.2.1

/-- The tags of the granules of a range of a read image. -/
def imageTags (l : List (Nat × List Byte × List Bool)) (off n : Nat) : List Bool :=
  (l.filter fun p => off ≤ p.1 && p.1 < off + n).flatMap fun p => p.2.2

/-- The image offsets that CTXLD reads: of TILE, the tiles that are configured and dirty once CORE is loaded (R375). -/
def loadOffs (x : Nat) (dirty : BitVec 8) : List Nat :=
  sections.flatMap fun p =>
    if !bitOf x p.1 then []
    else if p.1 = 11 then (List.range 8).flatMap fun n => if dirty.getLsbD n then imageOffs (0x28000 + 0x4000 * n) 0x4000 else []
    else imageOffs p.2.1 p.2.2

/-- Load the sections read from an image (R375). -/
def State.loadImage (s : State) (c : CtxId) (x : Nat) (l : List (Nat × List Byte × List Bool)) : State :=
  let s := if bitOf x 8 then s.loadCore c (imageBytes l 0 1024) (imageTags l 0 1024) else s
  let s := if bitOf x 9 then s.loadVec c (imageBytes l 0x400 17408) else s
  let s := if bitOf x 10 then s.loadStreams c (imageBytes l 0x4800 134144) (imageTags l 0x4800 134144) else s
  let s := if bitOf x 11 then
      s.loadTiles c ((List.range 8).flatMap fun n => padTo 0x4000 (imageBytes l (0x28000 + 0x4000 * n) 0x4000))
    else s
  let s := if bitOf x 12 then s.loadMatrix c (imageBytes l 0x48000 278528) else s
  if bitOf x 13 then s.modHart c fun h => { h with quar := quarEntries 4096 (imageBytes l 0x8C000 65536) } else s

/-- CTXLD (R375): into a HELD slot, or with CORE into an empty one, which becomes HELD. -/
def execCtxld (d a : SReg) (cb : CReg) (s : State) : Res :=
  let word := fxWord 0x3D d.toNat a.toNat cb.toNat 4
  systemOp word s fun s =>
    let x := (s.rs a).toNat
    let c : CtxId := ⟨s.here.die, s.here.core, x % 4⟩
    let h := s.hartAt c
    let cap := s.rc cb
    if x / 2 ^ 14 ≠ 0 || bitsOf x 7 2 ≠ 0 then .next (s.takeTrap .illegal (s.rs a) 4)
    else if !imageCap cap x false then .next (s.takeTrap .illegal word 4)
    else if h.status = .empty && !bitOf x 8 then .next ((s.ws d 2).advance 4)
    else if h.status = .ready || h.status = .blocked || h.status = .reserved then .next ((s.ws d 1).advance 4)
    else
      finish 4 s ((State.imageRead cap (if bitOf x 8 then imageOffs 0 1024 else []) s).bind fun core s =>
        let dirty := if bitOf x 8 then (h.tile.reshape (imageBytes core 0 1024)).dirty else h.tile.dirty
        (State.imageRead cap (loadOffs x dirty) s).bind fun l s => .ok () (((s.drainStores c).loadImage c x l).ws d 0))

end Sys2Proof.Machine
end

