-- ==== Sys2Proof/Machine/Place.lean ====
section
/-! DEFINITION. The dispatchers' placement of tasks and their parameter banks (R33, R37–R45, R51–R54, R387, R391, R411). -/

namespace Sys2Proof.Machine

/-! ### Reading for a dispatcher -/

/-- Bytes that a dispatcher reads through a partition's tables: a whole run inside one page, none when it has no
translation or permission or holds uncorrectable data (R34). -/
def State.readPart (s : State) (die part va n : Nat) : Option (List Byte) :=
  match s.locate? die 16 part 3 va (some .load) with
  | some k => if s.badWords k n = [] then some ((upFrom k n).map (s.dieByte die)) else none
  | none => none

/-- The uncorrectable words that a dispatcher finds in a run of a partition enter the memory-error log (R112, log 48). -/
def State.noteRead (s : State) (die part va n : Nat) : State :=
  match s.locate? die 16 part 3 va (some .load) with
  | some k => s.logErrors .dispatcher 0 (s.badWords k n)
  | none => s

/-- Bytes that a dispatcher or another agent of the device writes through a partition's tables, if they have a
translation. -/
def State.writePart (s : State) (die part va : Nat) (bs : List Byte) : State :=
  match s.locate? die 16 part 3 va (some .store) with
  | some k => s.writeHomeBytes 0 k bs
  | none => s

/-! ### Cores and scratchpad (R33, R37) -/

/-- A core that a partition may place on: of its CORES mask, working, in service (R37, R362, R408, R445). -/
def State.coreOpen (s : State) (part die core : Nat) : Bool :=
  bitOf (field (s.partOf part).desc (112 + 2 * die) 2) core && !(s.coreAt die core).failed && !(s.coreAt die core).retired &&
    !s.plat.closed.contains (die, core)

/-- The lowest free slot of a core. -/
def State.openSlot (s : State) (die core : Nat) : Option Nat :=
  (List.range 4).find? fun k => (s.hartAt ⟨die, core, k⟩).status = .empty

/-- The scratchpad runs of a core in use: regions of resident tasks and extents of suspended ones (R33, R411). -/
def State.usedRuns (s : State) (die core : Nat) (except : Option Nat) : List (Nat × Nat) :=
  ((List.range 4).filterMap fun k =>
    let h := s.hartAt ⟨die, core, k⟩
    if h.status = .empty then none else some (h.task.region, h.task.scratch * 4096)) ++
  s.disp.conts.filterMap fun p =>
    if p.2.home = (die, core) && p.2.hart.task.livex ≠ 0 && some p.1 ≠ except then
      some (p.2.hart.task.region, p.2.hart.task.livex * 4096)
    else none

/-- The lowest offset at which a free run of `n` bytes begins among runs in use (R33). -/
def freeRun (used : List (Nat × Nat)) (n : Nat) : Option Nat :=
  ((0 :: used.map fun r => r.1 + r.2).filter fun o =>
    o + n ≤ Config.scratchBytes && used.all fun r => o + n ≤ r.1 || r.1 + r.2 ≤ o).foldl
      (fun best o => match best with
        | none => some o
        | some b => some (Nat.min b o)) none

/-- Where a task of `n` bytes of scratchpad fits on a core: the slot and the region. -/
def State.fits (s : State) (part die core n : Nat) (except : Option Nat) : Option (CtxId × Nat) :=
  if !s.coreOpen part die core then none
  else
    match s.openSlot die core, freeRun (s.usedRuns die core except) n with
    | some k, some o => some (⟨die, core, k⟩, o)
    | _, _ => none

/-- The lowest-numbered core of a die where a task fits. -/
def State.fitsDie (s : State) (part die n : Nat) (ok : Nat → Bool) : Option (CtxId × Nat) :=
  (List.range 16).findSome? fun core => if ok core then s.fits part die core n none else none

/-! ### Parameter banks (R39–R41) -/

/-- Tasks of a record on a core. -/
def State.onCore (s : State) (die core launch : Nat) : Bool :=
  (List.range 4).any fun k =>
    let h := s.hartAt ⟨die, core, k⟩
    h.status ≠ .empty && h.task.launch = launch && h.task.transit.isNone

/-- A running record by its launch id. -/
def State.launch? (s : State) (id_ : Nat) : Option Launch := s.disp.launches.find? id_

/-- A chain has been released and has not ended (R384). -/
def State.chainRuns (s : State) (id_ : Nat) : Bool :=
  match s.disp.chains.find? id_ with
  | some c => c.state = .running || c.state = .killing || c.state = .draining
  | none => false

/-- Unplaced tasks of a running record that are bound to a die (R37). -/
def State.pendingOn (s : State) (die launch : Nat) : List Nat :=
  match s.launch? launch with
  | some l =>
    if !s.chainRuns l.chain then [] else
    match s.arcIndex (rRing l.record) (rArcFirst l.record) (rArcLen l.record) die with
    | some j => l.unplaced j
    | none => []
  | none => []

/-- A launch has slots reserved on a die for tasks of a gang that are still to start. -/
def State.reservedOn (s : State) (die launch : Nat) : Bool := (s.reservedFor launch).any fun c => c.die = die

/-- A record has tasks bound to a die that have not ended (R40). -/
def State.liveOn (s : State) (die launch : Nat) : Bool :=
  s.pendingOn die launch ≠ [] || s.reservedOn die launch ||
    s.tasks.any fun t => t.launch = launch && t.transit.isNone &&
      s.arcIndex t.ring t.arcFirst t.arcLen die = some (t.taskId % Nat.max 1 t.arcLen)

/-- The launch id of another record of a chain by its index. -/
def State.recordOf (s : State) (chain index : Nat) : Option Nat :=
  (List.find? (fun p : Nat × Launch => p.2.chain = chain && p.2.index = index) s.disp.launches).map (·.1)

/-- The record after a launch in its chain, for the shadow bank. -/
def State.nextRecord (s : State) (launch : Nat) : Option Nat :=
  match s.launch? launch with
  | some l => s.recordOf l.chain (l.index + 1)
  | none => none

/-- A record of a chain has started, or has nothing to start here (R35). -/
def State.recordStarted (s : State) (launch : Nat) : Bool :=
  match s.launch? launch with
  | none => true
  | some l => (s.reservedFor launch = [] && (l.next ≠ 0 || l.skipped ≠ [])) || !s.pendingAny l && s.reservedFor launch = []

/-- A core may start a task of a record: the record is active in a pair, or a free pair may take it, a later one once the record before it
has started and none of its tasks is left on the die (R35, R37, R40). A gang's records stand outside the banks, since a gang starts whole
(R49, log 25). -/
def State.bankOk (s : State) (die core launch : Nat) (l : Launch) : Bool :=
  let banks := (s.coreAt die core).banks
  rGanged l.record || (banks.any fun p => p.active = some launch) ||
    (banks.length < 4 && !(banks.any fun p => p.chain = some l.chain) &&
      (l.index = 0 || (match s.recordOf l.chain (l.index - 1) with
        | some p => !s.liveOn die p && s.recordStarted p
        | none => true)))

/-- Loading a record into a free pair, with the chain's next record in the shadow bank (R39, R40). -/
def State.loadBank (s : State) (die core launch : Nat) (l : Launch) : State :=
  if rGanged l.record || ((s.coreAt die core).banks.any fun p => p.active = some launch) then s
  else s.modCore die core fun k => { k with banks := k.banks ++ [⟨some l.chain, some launch, s.nextRecord launch, none⟩] }

/-- A pair after the changes of R39 to R41 that are due: the older record's last task has ended and the next record
enters the shadow bank; the shadow swaps in; the pair becomes free. -/
def State.swapPair (s : State) (die core : Nat) (p : BankPair) : Option BankPair :=
  let next := fun a : Option Nat => match a with
    | some l => s.nextRecord l
    | none => none
  match p.older with
  | some o => if s.onCore die core o then some p else some { p with older := none, shadow := next p.active }
  | none =>
    match p.active with
    | none => none
    | some a =>
      if s.onCore die core a || s.pendingOn die a ≠ [] || s.reservedOn die a then some p
      else
        match p.shadow with
        | some n => some { p with active := some n, shadow := next (some n) }
        | none => none

/-- BANK_SWAP: a pair of a core changes as R39–R41 say. -/
def execBankSwap (die core pair : Nat) (s : State) : Res :=
  let banks := (s.coreAt die core).banks
  match banks[pair]? with
  | none => .next s
  | some p =>
    .next (s.modCore die core fun k =>
      { k with banks := banks.take pair ++ (s.swapPair die core p).toList ++ banks.drop (pair + 1) })

/-! ### Starting a task -/

/-- A task of a record as it starts in a slot (R30, R38, R76). -/
def Launch.task (l : Launch) (launch uid index region : Nat) : TaskInfo :=
  let r := l.record
  { TaskInfo.none with
    uid := uid, part := l.part, launch := launch, chain := l.chain, taskId := index, tileX := index % rExt r 0
    tileY := index / rExt r 0 % rExt r 1, tileZ := index / (rExt r 0 * rExt r 1), groups := if rGanged r then 255 else 0
    region := region, scratch := rScratch r, extX := rExt r 0, extY := rExt r 1, extZ := rExt r 2, arcFirst := rArcFirst r
    arcLen := rArcLen r, ring := rRing r, code := rCode r, codeLen := rCodelen r, entry := rEntry r, args := l.args
    gang := rGanged r, gated := rFlag r 2 }

/-- Take the next task number of the model. -/
def State.takeId (s : State) : Nat × State :=
  (s.disp.nextId, { s with disp := { s.disp with nextId := s.disp.nextId + 1 } })

/-- A task number of a record leaves the unplaced ones. -/
def Launch.take (l : Launch) (index : Nat) : Launch :=
  let skipped := l.skipped ++ [index]
  let next := (List.range (skipped.length + 1)).foldl (fun n _ => if skipped.contains n then n + 1 else n) l.next
  { l with next := next, skipped := skipped.filter fun i => next ≤ i }

/-- Start task `index` of a record in a slot, or reserve the slot for it (R36–R40, R49). -/
def State.startTask (s : State) (launch index : Nat) (c : CtxId) (region : Nat) (status : SlotStatus) : State :=
  match s.launch? launch with
  | none => s
  | some l =>
    match s.takeId with
    | (uid, s) =>
      let s := s.loadBank c.die c.core launch l
      let t := { l.task launch uid index region with stay := uid, lead := s.gangLead launch }
      let s := { s with disp := { s.disp with launches := s.disp.launches.insert launch (l.take index) } }
      s.setHart c { t.entryHart t.args Cap.null with status := status }

/-- How many tasks of a record are bound to this package and not placed (R37). -/
def State.leftHere (s : State) (l : Launch) : Nat :=
  let r := l.record
  let n := Nat.max 1 (rArcLen r)
  let upTo := fun x j : Nat => (x + n - 1 - j) / n
  (((List.range n).filter fun j => (s.arcDie (rRing r) (rArcFirst r) j).isSome).map fun j =>
    upTo (rTasks r) j - upTo (Nat.min l.next (rTasks r)) j - (l.skipped.filter fun i => i % n = j).length).sum

/-- The tasks of a launch that have not started never will: their reserved slots are free, and they count as failed (R42, R384, R385). -/
def State.failRest (s : State) (launch cause : Nat) : State :=
  match s.launch? launch with
  | none => s
  | some l =>
    let r := l.record
    let held := s.reservedFor launch
    let low := ((held.map fun c => (s.hartAt c).task.taskId) ++
      (List.range (rArcLen r)).flatMap fun j => if (s.arcDie (rRing r) (rArcFirst r) j).isSome then (l.unplaced j).take 1 else []).foldl Nat.min (rTasks r)
    let n := held.length + s.leftHere l
    let s := held.foldl (fun s c => s.setHart c Hart.fresh) s
    let s := { s with disp := { s.disp with
      launches := s.disp.launches.insert launch { l with next := Nat.max l.next (rTasks r), skipped := [] } } }
    if n = 0 then s
    else s.modChain l.chain fun c => { c with failed := c.failed + n, lowFail := lowerFail c.lowFail (l.index, low, cause) }

/-- A gated gang whose tag has been retired since the check is not started: its tasks count as failed (R42, R49, log 106). -/
def State.dropStaleGangs (s : State) (id_ : Nat) : State :=
  let ls := s.chainLaunches id_
  let gone := ls.filter fun p => rGanged p.2.record && (List.range (rTasks p.2.record)).any (s.tagsGone p.1 p.2)
  let all := ls.filter fun p => rGanged p.2.record && gone.any fun q => rGang q.2.record = rGang p.2.record
  let s := all.foldl (fun s p => s.failRest p.1 Cause.tagStale.code) s
  { s with shared := { s.shared with channels := List.filter (fun p : Nat × Channel =>
      !(p.2.gang.any fun g => all.any fun q => q.1 = g)) s.shared.channels } }

/-- The gangs of a running chain that may start: their slots are reserved, every record before theirs has started, and every tag that a
gated one waits for is published (R35, R36, R42, R49, log 104, log 106). -/
def State.gangsDue (s : State) (chain : Nat) : List (Nat × Launch) :=
  if !s.chainRuns chain then []
  else
    let ls := s.chainLaunches chain
    (ls.filter fun p => s.reservedFor p.1 ≠ []).filter fun p =>
      let mine := fun q : Nat × Launch => rGanged q.2.record && rGang q.2.record = rGang p.2.record
      ls.all fun q => if mine q then (List.range (rTasks q.2.record)).all (s.tagsOpen q.1 q.2) else p.2.index ≤ q.2.index || s.recordStarted q.1

/-- The gangs of a running chain that may start do: all tasks of a gang in one step; one with a retired tag never does (R36, R42, R49). -/
def State.startReserved (s : State) (chain : Nat) : State :=
  if !s.chainRuns chain then s
  else
    let s := s.dropStaleGangs chain
    ((s.gangsDue chain).flatMap fun p => s.reservedFor p.1).foldl (fun s c => s.modHart c fun h => { h with status := .ready }) s

/-- A running chain with a gang to start, or one that never will (R42, R49). -/
def State.gangTurn (s : State) : Option Nat :=
  (List.find? (fun p : Nat × Chain => s.chainRuns p.1 && (s.gangsDue p.1 ≠ [] ||
    (s.chainLaunches p.1).any fun q => rGanged q.2.record && s.reservedFor q.1 ≠ [] && (List.range (rTasks q.2.record)).any (s.tagsGone q.1 q.2)))
    s.disp.chains).map (·.1)

/-- Token-rows of a batch. -/
def batchRows (l : List (Nat × Nat)) : Nat := (l.map (·.2)).sum

/-- The member list of R45: sequence id, rows and row offset. -/
def memberBytes : Nat → List (Nat × Nat) → List Byte
  | _, [] => []
  | off, (id_, rows) :: t => leBytes 8 (id_ % 2 ^ 10 + rows % 2 ^ 16 * 2 ^ 16 + off % 2 ^ 16 * 2 ^ 32) ++ memberBytes (off + rows) t

/-- The offset in the region of the member list, which R44 leaves open: a free multiple of 8 at which it fits. -/
def State.memberOffset (s : State) (region n : Nat) : Nat :=
  (Config.freeWord s.steps).toNat % ((region - 8 * n) / 8 + 1) * 8

/-- The transit words s8–s15 (R44). -/
def transitWords (t : TransitInfo) (present index offset : Nat) (user : List Word) : List Word :=
  [BitVec.ofNat 64 (t.image + t.tag * 2 ^ 16 + t.slot * 2 ^ 32 + index * 2 ^ 36 + t.batches * 2 ^ 40),
    BitVec.ofNat 64 present, BitVec.ofNat 64 t.deadline,
    BitVec.ofNat 64 (t.members.length + batchRows t.members * 2 ^ 16), BitVec.ofNat 64 offset] ++ user

/-- The task of a transit as it starts in a region (R44). -/
def State.transitTask (s : State) (q : TransitTask) (uid region : Nat) : TaskInfo :=
  match s.launch? q.launch with
  | none => TaskInfo.none
  | some l =>
    let t := l.task q.launch uid q.index region
    { t with
      stay := uid, lead := q.launch, taskId := q.index, tileX := q.index, tileY := 0, tileZ := 0, groups := 0, gang := false, scratch := q.binding.scratch
      entry := q.binding.entry, transit := some q.info
      args := transitWords q.info q.present q.index (s.memberOffset (q.binding.scratch * 4096) q.info.members.length)
        q.binding.user }

/-- Start a transit task in a slot: its member list is in the scratchpad before it starts (R44, R45). -/
def State.startTransit (s : State) (q : TransitTask) (c : CtxId) (region : Nat) : State :=
  match s.takeId with
  | (uid, s) =>
    let t := s.transitTask q uid region
    let m := s.mslot c.die q.info.slot
    let off := (t.args.getD 4 0).toNat
    let s := s.writeHomeBytes c.core (scratchKey c.die c.core (region + off)) (memberBytes 0 q.info.members)
    let s := { s with disp := { s.disp with transits := s.disp.transits.filter fun x => x ≠ q } }
    s.setHart c (t.entryHart t.args (slotCap q.info.slot q.info.fill m.xbytes))

/-! ### Moving scratchpad extents (R392, R411) -/

/-- The loads that have still to read a run of scratchpad are performed before the run is moved or replaced (R411, log 7). -/
def State.settleRun (s : State) (die core region n : Nat) : State :=
  let k := scratchKey die core region
  s.performWhere fun j => k ≤ j && j < k + n

/-- The bytes, tags and uncorrectable words of the first `n` bytes of a region, by offset. -/
def State.takeExtent (s : State) (die core region n : Nat) : List Host.Cell × List Nat × List Nat :=
  let k := scratchKey die core region
  ((s.mem.filter fun c => k ≤ c.1 && c.1 < k + n).map fun c => (c.1 - k, c.2),
    (s.tags.filter fun g => k ≤ g * 16 && g * 16 < k + n).map fun g => (g * 16 - k) / 16,
    (s.bad.filter fun w => k ≤ w * 8 && w * 8 < k + n).map fun w => (w * 8 - k) / 8)

/-- Write an extent of `n` bytes at a region. -/
def State.putExtent (s : State) (die core region n : Nat) (cells : List Host.Cell) (tags bad : List Nat) : State :=
  let k := scratchKey die core region
  let inside := fun x : Nat => k ≤ x && x < k + n
  let mem := s.mem.filter fun c => !inside c.1
  { s with
    mem := memSetAll mem (cells.map fun c => (k + c.1, c.2))
    tags := tags.foldl (fun l g => setInsert l (k / 16 + g)) (s.tags.filter fun g => !inside (g * 16))
    bad := bad.foldl (fun l w => setInsert l (k / 8 + w)) (s.bad.filter fun w => !inside (w * 8)) }

/-! ### Resuming (R52–R55, R392) -/

/-- Move the first `n` bytes of a region to another. -/
def State.moveExtent (s : State) (die core region : Nat) (c : CtxId) (dest n : Nat) : State :=
  if n = 0 || (die = c.die && core = c.core && region = dest) then s
  else
    let s := (s.settleRun die core region n).settleRun c.die c.core dest n
    match s.takeExtent die core region n with
    | (cells, tags, bad) =>
      (s.logErrors .dispatcher core (bad.map (scratchKey die core region / 8 + ·))).putExtent c.die c.core dest n cells tags bad

/-- What a task stored before it left a die is in place before it goes on on another (R117, R126). -/
def State.followTask (s : State) (from_ to_ : Nat) : State := if from_ = to_ then s else s.drainOutbound from_

/-- Put a continuation back into a slot from its record (R52, R53): with a live extent its home core's region moves with it, and what lies
beyond LIVEX stays where it lay (R77, log 105); a wait that ended in a trap traps at its SUSPEND (R276). -/
def State.resumeCont (s : State) (id_ : Nat) (v : Cont) (c : CtxId) (region : Nat) : State :=
  match (s.followTask v.home.1 c.die).readCont v with
  | (r, s) =>
  let s := s.moveExtent v.home.1 v.home.2 v.hart.task.region c region (v.hart.task.livex * 4096)
  match s.takeId with
  | (stay, s) =>
  let t := { r.task with region := region, stay := stay }
  let h := { r with task := t, c := t.caps r.c, status := .ready }
  let s := { s with disp := { s.disp with conts := s.disp.conts.erase id_ } }
  match v.fate with
  | none => s.setHart c h
  | some (cause, x) => (s.setHart c { h with pc := h.pc - 4 }).trapContext c cause x 4

/-- A context as a NODE image gives it: the PC, s2–s7, GROUPS, DERR, the shapes and the dirty tiles; the rest as at entry (R55, R391). -/
def Hart.ofNode (h : Hart) (l : List (Nat × List Byte × List Bool)) : Hart :=
  let f := imageBytes l 0 1024
  let tile := h.tile.reshape f
  let rows := (List.range 8).map fun n => padTo 0x4000 (imageBytes l (0x28000 + 0x4000 * n) 0x4000)
  { h with
    pc := BitVec.ofNat 64 (field f 0 8)
    s := vecFrom 32 fun i => if 2 ≤ i ∧ i ≤ 7 then BitVec.ofNat 64 (field f (0x200 + 8 * i) 8) else 0
    tile :=
      { tile with rows := vecFrom 8 fun n =>
          if tile.dirty.getLsbD n then vecFrom 64 fun r => BitVec.ofNat 2048 (field (rows.getD n []) (256 * r) 256)
          else Vector.replicate 64 0 }
    task := { h.task with groups := BitVec.ofNat 64 (field f 48 8), derr := bitOf (field f 25 1) 1 } }

/-- A task saved at a NODE as its save slot holds it, read by the core that takes it; one that is replayed from entry has no image (R391). -/
def State.readNode (s : State) (v : Saved) (c : CtxId) : Hart × State :=
  match v.saveSlot with
  | none => (v.hart, s)
  | some i =>
    match s.savedLines c v.hart.task.part i (imageOffs 0 1024) with
    | (core, s) =>
      match s.savedLines c v.hart.task.part i (loadOffs (2 ^ 11) (v.hart.tile.reshape (imageBytes core 0 1024)).dirty) with
      | (tiles, s) => (v.hart.ofNode (core ++ tiles), s)

/-- Put a task saved at a NODE, or replayed, back into a slot from its image (R55, R391, R396). -/
def State.resumeSaved (s : State) (id_ : Nat) (v : Saved) (c : CtxId) (region : Nat) : State :=
  match (s.followTask v.left.die c.die).readNode v c with
  | (r, s) =>
  match s.takeId with
  | (stay, s) =>
  let t := { r.task with region := region, stay := stay }
  let h := { r with task := t, c := t.caps r.c, status := .ready }
  let s := { s with disp := { s.disp with
    saved := s.disp.saved.erase id_
    replay := if v.saveSlot.isSome then s.disp.replay.insert t.uid r else s.disp.replay } }
  let s := match v.saveSlot with
    | some i => { s with disp := { s.disp with
        parts := s.disp.parts.modify t.part default fun p => { p with saveUsed := p.saveUsed.filter (· ≠ i) } } }
    | none => s
  let s := match t.transit, v.replay with
    | some x, true => s.writeHomeBytes c.core (scratchKey c.die c.core (region + (t.args.getD 4 0).toNat)) (memberBytes 0 x.members)
    | _, _ => s
  s.setHart c h

/-! ### The order of placement (R387) -/

/-- What a dispatcher may place: a saved task, a continuation, or a task of a record. -/
inductive Candidate where
  | saved (id_ : Nat)
  | cont (id_ : Nat)
  | pending (launch index : Nat)
deriving DecidableEq, Repr

/-- The priority of a launch: its queue's, else its record's (R376, R387). -/
def State.prioOf (s : State) (launch : Nat) : Nat :=
  match s.launch? launch with
  | none => 0
  | some l =>
    match s.disp.chains.find? l.chain with
    | some c => c.prio.getD (rPrio l.record)
    | none => rPrio l.record

/-- The dies a saved task tries: its own, then its arc from there (R54). -/
def State.tryDies (s : State) (t : TaskInfo) (die : Nat) : List Nat :=
  match s.arcIndex t.ring t.arcFirst t.arcLen die with
  | some j => die :: ((List.range t.arcLen).filterMap fun k => s.arcDie t.ring t.arcFirst ((j + k) % Nat.max 1 t.arcLen)).filter (· ≠ die)
  | none => die :: (s.arcDies t.ring t.arcFirst t.arcLen).filter (· ≠ die)

/-- Where a saved task goes (R54). -/
def State.savedSpot (s : State) (v : Saved) : Option (CtxId × Nat) :=
  let t := v.hart.task
  (s.tryDies t v.left.die).findSome? fun d => s.fitsDie t.part d (t.scratch * 4096) fun _ => true

/-- Where a continuation goes: its home core with a live extent, else any core of its die (R52). -/
def State.contSpot (s : State) (id_ : Nat) (v : Cont) : Option (CtxId × Nat) :=
  let t := v.hart.task
  if !v.complete && v.fate.isNone then none
  else if t.livex ≠ 0 then s.fits t.part v.home.1 v.home.2 (t.scratch * 4096) (some id_)
  else s.fitsDie t.part v.home.1 (t.scratch * 4096) fun _ => true

/-- The priority of a chain's gangs: its queue's, else the highest of their records (R387, R388). -/
def Chain.gangPrio (c : Chain) : Nat := c.prio.getD (((c.recs.filter rGanged).map rPrio).foldl Nat.max 0)

/-- A chain in CHECKING whose gang has waited its time and has not all its slots yet (R388). -/
def Chain.holdsBack (c : Chain) : Bool := c.reserving && !c.reserved && c.state = .checking

/-- A gang of a chain has a die in its arc. -/
def State.gangCovers (s : State) (c : Chain) (die : Nat) : Bool :=
  c.recs.any fun r => rGanged r && (s.arcIndex (rRing r) (rArcFirst r) (rArcLen r) die).isSome

/-- A gang that has waited its time holds back tasks of its priority or less on the dies of its arc (R388). -/
def State.heldBack (s : State) (die prio : Nat) : Bool :=
  s.disp.chains.any fun p => p.2.holdsBack && prio ≤ p.2.gangPrio && s.gangCovers p.2 die

/-- Reserve slots for the tasks of a gang record that are bound to this package and have none, each on its die's lowest core that fits
(R37, R49). -/
def State.holdTasks (s : State) (launch : Nat) (r : List Byte) : State :=
  (List.range (rTasks r)).foldl (fun s i =>
    match s.launch? launch, s.arcDie (rRing r) (rArcFirst r) (i % Nat.max 1 (rArcLen r)) with
    | some l, some d =>
      if i < l.next || l.skipped.contains i then s
      else
        match s.fitsDie l.part d (rScratch r * 4096) fun _ => true with
        | some (c, o) => s.startTask launch i c o .reserved
        | none => s
    | _, _ => s) s

/-- Reserve slots for the gangs of a chain whose launches are numbered (R36, R49). -/
def State.holdGangs (s : State) (c : Chain) : State :=
  (c.recs.mapIdx fun i r => (i, r)).foldl (fun s x => if rGanged x.2 then s.holdTasks (c.first + x.1) x.2 else s) s

/-- Every task of the gangs of a chain that is bound to this package has its slot. -/
def State.gangsHeld (s : State) (id_ : Nat) : Bool :=
  (s.chainLaunches id_).all fun p => !rGanged p.2.record || !s.pendingAny p.2

/-- The slots reserved in the package. -/
def State.slotsReserved (s : State) : Nat := (s.contexts.filter fun c => (s.hartAt c).status = .reserved).length

/-- Slots that free go to the reservation of a gang that holds back the die, after transit tasks and before every other task (R387, R388). -/
def State.holdFor (s : State) (die : Nat) : Option State :=
  s.disp.chains.findSome? fun p =>
    if p.2.holdsBack && p.2.first ≠ 0 && s.gangCovers p.2 die then
      let t := s.holdGangs p.2
      if s.slotsReserved < t.slotsReserved then some t else none
    else none

/-- Where a task of a record goes on its die (R37): the lowest core that fits and whose banks may take it. -/
def State.pendingSpot (s : State) (die launch index : Nat) : Option (CtxId × Nat) :=
  match s.launch? launch with
  | none => none
  | some l =>
    if s.tagsOpen launch l index then
      s.fitsDie l.part die (rScratch l.record * 4096) fun core => s.bankOk die core launch l
    else none

/-- Insert by a key, after equal keys. -/
def insertBy {α : Type} (key : α → Nat) (a : α) : List α → List α
  | [] => [a]
  | b :: t => if key a < key b then a :: b :: t else b :: insertBy key a t

/-- Sort by a key, keeping the order of equal keys. -/
def sortBy {α : Type} (key : α → Nat) (l : List α) : List α := l.foldl (fun acc a => insertBy key a acc) []

/-- Tasks to restore or resume, in the order they became eligible (R387). -/
def State.returning (s : State) : List Candidate :=
  (sortBy (·.2.2) ((s.disp.saved.map fun p => (Candidate.saved p.1, p.2.hart.task.launch, p.2.since)) ++
    (s.disp.conts.filter fun p => p.2.complete || p.2.fate.isSome).map fun p => (Candidate.cont p.1, p.2.hart.task.launch, p.2.since))).map (·.1)

/-- The launch of a candidate. -/
def State.candLaunch (s : State) : Candidate → Nat
  | .saved i => ((s.disp.saved.find? i).map fun v => v.hart.task.launch).getD 0
  | .cont i => ((s.disp.conts.find? i).map fun v => v.hart.task.launch).getD 0
  | .pending l _ => l

/-- The candidates of a die in the order of R387, transit tasks aside. -/
def State.candidates (s : State) (die : Nat) : List Candidate :=
  let since := fun l : Launch => ((s.disp.chains.find? l.chain).map (·.since)).getD 0
  let fresh := (sortBy (fun p => since p.2) s.disp.launches).flatMap fun p => (s.pendingOn die p.1).map fun i => Candidate.pending p.1 i
  (List.range 8).reverse.flatMap fun prio =>
    if s.heldBack die prio then [] else (s.returning ++ fresh).filter fun c => s.prioOf (s.candLaunch c) = prio

/-- Where a candidate would go now. -/
def State.spot (s : State) (die : Nat) : Candidate → Option (CtxId × Nat)
  | .saved i =>
    match s.disp.saved.find? i with
    | some v => s.savedSpot v
    | none => none
  | .cont i =>
    match s.disp.conts.find? i with
    | some v => s.contSpot i v
    | none => none
  | .pending l i => s.pendingSpot die l i

/-- The first candidate that can be placed on a die, with its place (R387). -/
def State.firstSpot (s : State) (die : Nat) : Option (Candidate × CtxId × Nat) :=
  (s.candidates die).findSome? fun c =>
    match s.spot die c with
    | some (x, o) => if x.die = die then some (c, x, o) else none
    | none => none

/-- The first transit task of a die that fits, with its place (R27, R387). -/
def State.firstTransit (s : State) (die : Nat) : Option (TransitTask × CtxId × Nat) :=
  s.disp.transits.findSome? fun q =>
    if q.die ≠ die then none
    else
      match s.launch? q.launch with
      | none => none
      | some l => (s.fitsDie l.part die (q.binding.scratch * 4096) fun _ => true).map fun x => (q, x.1, x.2)

/-- The first task of a die that a retired tag keeps from ever being placed (R42). -/
def State.firstGone (s : State) (die : Nat) : Option (Nat × Nat) :=
  s.disp.launches.findSome? fun p => ((s.pendingOn die p.1).find? fun i => s.tagsGone p.1 p.2 i).map fun i => (p.1, i)

/-- Count a task of a record that is never placed as failed (R42, R385). -/
def State.failPending (s : State) (launch index cause : Nat) : State :=
  match s.launch? launch with
  | none => s
  | some l =>
    let s := { s with disp := { s.disp with launches := s.disp.launches.insert launch (l.take index) } }
    let s := s.modChain l.chain fun c =>
      { c with failed := c.failed + 1, lowFail := lowerFail c.lowFail (l.index, index, cause) }
    s.dropBindings launch

/-- The package's counter is set: a package of a fabric sets it from the master before its first task (R422). -/
def State.timeSet (s : State) : Bool := s.fabric.aligned || s.fabric.admitted = []

/-- TASK_PLACEMENT: the dispatcher of a die places the first task that R387 lets it place. A task evicted is put back by
EVICTION_RESTORE. -/
def execTaskPlacement (die : Nat) (s : State) : Res :=
  if !s.timeSet then .next s else
  match s.firstGone die, s.gangTurn with
  | some (l, i), _ => .next (s.failPending l i Cause.tagStale.code)
  | none, some chain => .next (s.startReserved chain)
  | none, none =>
    match s.firstTransit die, s.holdFor die with
    | some (q, c, o), _ => .next (s.startTransit q c o)
    | none, some t => .next t
    | none, none =>
      match s.firstSpot die with
      | some (.pending l i, c, o) => .next (s.startTask l i c o .ready)
      | some (.cont i, c, o) =>
        match s.disp.conts.find? i with
        | some v => .next (s.resumeCont i v c o)
        | none => .next s
      | some (.saved i, c, o) =>
        match s.disp.saved.find? i with
        | some v => if v.evicted then .next s else .next (s.resumeSaved i v c o)
        | none => .next s
      | none => .next s

/-! ### Suspended tasks and NODE (R52, R54, R55, R276, R391) -/

/-- SUSPEND_WAIT_COMPLETE: the wait of a suspended task is over, or is never to be (R52, R276). -/
def execSuspendWaitComplete (cont : Nat) (s : State) : Res :=
  match s.disp.conts.find? cont with
  | none => .next s
  | some v =>
    if v.complete || v.fate.isSome || s.lateCont cont v then .next s
    else
      let put := fun (f : Option (Cause × Word)) =>
        Host.Outcome.next ({ s with disp := { s.disp with
          conts := s.disp.conts.insert cont { v with complete := f.isNone, since := s.steps, fate := f } } }).reapRevoked
      match s.suspendState v.hart.task v.kind v.object v.threshold with
      | .unmet => .next s
      | .met => put none
      | .fate c x => put (some (c, x))

/-- What NODE saves of a context: the PC after it, s2–s7, shapes, dirty tiles; the rest as at entry (R55, R77). -/
def Hart.nodeImage (h : Hart) : Hart :=
  { Hart.fresh with
    status := .ready
    pc := h.pc + 4
    s := vecFrom 32 fun i => if 2 ≤ i ∧ i ≤ 7 then h.s[i]?.getD 0 else 0
    tile :=
      { h.tile with rows := vecFrom 8 fun n =>
          if h.tile.dirty.getLsbD n then h.tile.rows[n]?.getD (Vector.replicate 64 0) else Vector.replicate 64 0 }
    task := { h.task.issued with sideEffect := false } }

/-- Take a save slot of a partition. -/
def State.useSave (s : State) (part i : Nat) : State :=
  { s with disp := { s.disp with
    parts := s.disp.parts.modify part default fun p => { p with saveUsed := setInsert p.saveUsed i } } }

/-- Keep a saved task for placement. -/
def State.keepSaved (s : State) (v : Saved) : State :=
  match s.takeId with
  | (id_, s) => { s with disp := { s.disp with saved := s.disp.saved.insert id_ v } }

/-- NODE_PREEMPTION: a task that waits at its NODE with nothing outstanding is saved and its slot is free (R54, R55,
R391). -/
def execNodePreemption (die core slot : Nat) (s : State) : Res :=
  let c : CtxId := ⟨die, core, slot⟩
  let h := s.hartAt c
  match s.freeSave h.task.part with
  | some i =>
    if h.status = .blocked && h.task.atNode && s.nodeTakes c && s.quiet c && s.coreRuns c then
      let v := h.nodeImage
      let s := s.saveImage die h.task.part i (corePieces c v ++ tilePieces v.tile)
      let s := s.modCore die core fun k => { k with pmark := k.pmark &&& ~~~(1#4 <<< slot) }
      let s := (s.useSave h.task.part i).setHart c Hart.fresh
      .next (s.keepSaved ⟨v, c, false, false, some i, none, s.steps⟩)
    else .next s
  | none => .next s

/-! ### MOVECONT (R411) -/

/-- Move a suspended task's extent to another core: the record is rewritten with its new home, on another die in that die's pool (R411,
log 5). -/
def State.moveCont (s : State) (id_ : Nat) (v : Cont) (die core : Nat) : Option State :=
  let t := v.hart.task
  let n := t.livex * 4096
  match freeRun (s.usedRuns die core (some id_)) (t.scratch * 4096), (if die = v.home.1 then some v.record else s.freeCont die) with
  | some o, some r =>
    let s := (s.followTask v.home.1 die).moveExtent v.home.1 v.home.2 t.region ⟨die, core, 0⟩ o n
    let v := { v with home := (die, core), record := r, hart := { v.hart with task := { t with region := o } } }
    some { (s.writeCont v) with disp := { s.disp with conts := s.disp.conts.insert id_ v } }
  | _, _ => none

end Sys2Proof.Machine
end

