-- ==== Sys2Proof/Machine/Queue.lean ====
section
/-! DEFINITION. Hardware queues, the pre-start check, the start of a chain (R34–R36, R48, R49, R376–R383, R388). -/

namespace Sys2Proof.Machine

/-! ### Commands and queues -/

/-- A dispatcher command is complete: its counter is signalled by 1, or poisoned if the command failed (R379, R410). -/
def State.commandDone (s : State) (ctr : Nat) (ok : Bool) : State := s.signal (ctrKey ctr) (if ok then 1 else 0) (!ok)

/-- A dispatcher command that may fail: its counter is signalled or poisoned, and a failing one changes nothing else
(R410). -/
def command (ctr : Nat) (s : State) (r : Option State) : Res :=
  match r with
  | some t => .next (t.commandDone ctr true)
  | none => .next ((s.notify (.commandFailed ctr)).commandDone ctr false)

/-- The number of a hardware queue of a die. -/
def hwKey (die hwq : Nat) : Nat := die * 64 + hwq

/-- The number of a software queue of a partition. -/
def queueKey (part qid : Nat) : Nat := part * 4096 + qid

/-- A power of two between two numbers. -/
def powerIn (x lo hi : Nat) : Bool := lo ≤ x && x ≤ hi && x == 2 ^ Nat.log2 x

/-- A queue descriptor is well formed, for the queue it is mapped as (R376). -/
def queueOk (d : List Byte) (qid : Nat) : Bool :=
  field d 6 2 = 0 && field d 0 6 % 16 = 0 && powerIn (field d 8 4) 2 65536 && field d 16 1 < 8 && field d 17 3 = 0 &&
  field d 20 2 = qid && decide (qid < 4096) && field d 22 2 = 0 && field d 30 2 = 0 && field d 24 6 % 32 = 0 &&
  powerIn (field d 32 4) 2 65536 && field d 44 20 = 0

/-- The latch of a software queue. -/
def State.latch (s : State) (q : Nat) : Latch := s.disp.latches.getD q default

/-- Write a latch. -/
def State.setLatch (s : State) (q : Nat) (l : Latch) : State :=
  { s with disp := { s.disp with latches := s.disp.latches.insert q l } }

/-- Write a hardware queue. -/
def State.setHwq (s : State) (k : Nat) (w : HwQueue) : State :=
  { s with disp := { s.disp with hwqs := s.disp.hwqs.insert k w } }

/-- HEAD and SIZE of a software queue, if its descriptor is known: the dispatcher's, or the descriptor's while it is
unmapped (R378). -/
def State.headSize (s : State) (q : Nat) : Option (Nat × Nat) :=
  let l := s.latch q
  match l.hwq with
  | some h => (s.disp.hwqs.find? h).map fun w => (w.head, w.size)
  | none =>
    match l.desc with
    | none => none
    | some d => (s.readPart 0 (q / 4096) d 64).map fun r => (field r 12 4, field r 8 4)

/-- A mapped queue in IDLE with entries to fetch consumes PEND and goes to FETCH (R382). -/
def State.wakeHwq (s : State) (h : Nat) : State :=
  match s.disp.hwqs.find? h with
  | none => s
  | some w =>
    let q := queueKey w.part w.qid
    let l := s.latch q
    if w.state = .idle && l.pend then
      (s.setLatch q { l with pend := false }).setHwq h { w with state := if w.head = l.tail then .idle else .fetch }
    else s

/-- A package whose clocks are gated starts to wake (R378, R446). -/
def State.startWake (s : State) : State :=
  if 2 ≤ s.plat.ps && s.plat.wakeAt.isNone then { s with plat := { s.plat with wakeAt := some (s.polestar + 2 ^ 16) } } else s

/-- The partition whose wake window a host port shows at a slot (R408, R440, R442). -/
def State.windowOf (s : State) (port wslot : Nat) : Option Nat :=
  (List.find? (fun p : Nat × Partition =>
    p.1 ≠ 0 && p.2.active && !p.2.orphaned && field p.2.desc 2 1 = port && field p.2.desc 4 1 = wslot) s.disp.parts).map (·.1)

/-- DOORBELL: a host writes a wake register: 8 bytes at an offset of BAR2 of its port, where each partition that the port owns has 32 KiB at
its WSLOT (R378, R381, R440). A queue whose descriptor no dispatcher has seen has no HEAD to compare with, and its doorbell is accepted
(log 26). -/
def execDoorbell (port offset value : Nat) (s : State) : Res :=
  match (if s.portUp port && offset < 2 ^ 21 && offset % 8 = 0 then s.windowOf port (offset / 2 ^ 15) else none) with
  | none => .next s
  | some part =>
    let qid := offset % 2 ^ 15 / 8
    let tail := value % 2 ^ 32
    let q := queueKey part qid
    let ok := match s.headSize q with
      | some (head, size) => decide ((tail + 2 ^ 32 - head % 2 ^ 32) % 2 ^ 32 ≤ size)
      | none => true
    if !ok then .next (s.writeDesc part 232 8 (field (s.partOf part).desc 232 8 + 1))
    else
      let s := (s.setLatch q { s.latch q with tail := tail }).latchWake q
      if 2 ≤ s.plat.ps then .next s.startWake
      else
        match (s.latch q).hwq with
        | some h => .next (s.wakeHwq h)
        | none => .next s

/-- MAP (R379, R381): a refused descriptor leaves the hardware queue unmapped. -/
def execMap (die hwq part qid addr ctr : Nat) (s : State) : Res :=
  let q := queueKey part qid
  let h := hwKey die hwq
  let refused := 8 ≤ die || 64 ≤ hwq || (s.disp.hwqs.find? h).isSome || (s.latch q).hwq.isSome || addr % 64 ≠ 0 || 2 ^ 48 ≤ addr
  let s := if refused then s else s.noteRead die part addr 64
  command ctr s (
    if refused then none
    else
      match s.readPart die part addr 64 with
      | none => none
      | some d =>
        if !queueOk d qid then none
        else
          let l := s.latch q
          let head := field d 12 4
          let w : HwQueue :=
            { state := if head = l.tail then .idle else .fetch, part := part, qid := qid, desc := addr, ring := field d 0 6
              size := field d 8 4, prio := field d 16 1, cring := field d 24 6, csize := field d 32 4, head := head, thr := 0
              chain := none, unmapCtr := 0 }
          some ((s.setLatch q { l with pend := false, hold := false, noticed := false, desc := some addr, hwq := some h }).setHwq h w))

/-- Steps 3 and 4 of R380: HEAD goes back to the descriptor, the hardware queue is free, the command is complete, and a
latch still pending posts its wake notice. -/
def State.finishUnmap (s : State) (h : Nat) (w : HwQueue) (ctr : Nat) : State :=
  let q := queueKey w.part w.qid
  let s := (s.writePart (h / 64) w.part (w.desc + 12) (leBytes 4 w.head))
  let s := { s with disp := { s.disp with hwqs := s.disp.hwqs.erase h } }
  let l := s.latch q
  let s := s.setLatch q { l with hwq := none, noticed := l.pend }
  let s := if l.pend then (s.notify (.wake w.part w.qid)).wakeAll else s
  s.commandDone ctr true

/-- UNMAP (R380, R382): a chain in CHECK is finished first; an entry in FETCH or WAIT stays in the ring unconsumed. -/
def execUnmap (die hwq ctr : Nat) (s : State) : Res :=
  let h := hwKey die hwq
  match s.disp.hwqs.find? h with
  | none => command ctr s none
  | some w =>
    if w.state = .unmapping then command ctr s none
    else
      let q := queueKey w.part w.qid
      let s := s.setLatch q { s.latch q with hold := true, noticed := false }
      if w.state = .check then .next (s.setHwq h { w with state := .unmapping, unmapCtr := ctr })
      else .next (s.finishUnmap h w ctr)

/-- The head entry of a hardware queue is consumed: HEAD + 1, then the next entry, IDLE, or the end of an UNMAP
(R382). -/
def State.leaveCheck (s : State) (h : Nat) : State :=
  match s.disp.hwqs.find? h with
  | none => s
  | some w =>
    let w := { w with head := (w.head + 1) % 2 ^ 32, chain := none }
    if w.state = .unmapping then s.finishUnmap h w w.unmapCtr
    else
      let q := queueKey w.part w.qid
      let l := s.latch q
      if w.head = l.tail then s.setHwq h { w with state := .idle }
      else (s.setLatch q { l with pend := false }).setHwq h { w with state := .fetch }

/-! ### Completion entries (R385) -/

/-- The counts of a completion entry. -/
structure Completion where
  launch : Nat
  status : Nat
  cause : Nat
  derrs : Nat
  ended : Nat
  failed : Nat
  entry : Nat
  rfaults : Nat
deriving DecidableEq, Repr

/-- The 32 bytes of a completion entry (R385). -/
def Completion.bytes (c : Completion) (stamp : Nat) : List Byte :=
  leBytes 4 c.launch ++ leBytes 1 c.status ++ leBytes 1 c.cause ++ leBytes 2 c.derrs ++ leBytes 4 c.ended ++
    leBytes 4 c.failed ++ leBytes 4 c.entry ++ leBytes 4 c.rfaults ++ leBytes 8 stamp

/-- Post a completion entry of a queue; none while its ring is full. A queue that was destroyed posts nothing (R379,
R385). -/
def State.postCompletion (s : State) (die part qid : Nat) (c : Completion) : Option State :=
  if 4096 ≤ qid then some s
  else
    match (s.latch (queueKey part qid)).desc with
    | none => some s
    | some d =>
      match s.readPart die part d 64 with
      | none => some s
      | some r =>
        let tail := field r 36 4
        if (tail + 2 ^ 32 - field r 40 4) % 2 ^ 32 = field r 32 4 then none
        else
          let s := s.writePart die part (field r 24 6 + 32 * (tail % Nat.max 1 (field r 32 4))) (c.bytes s.polestar)
          some (s.writePart die part (d + 36) (leBytes 4 (tail + 1)))

/-! ### Fetching an entry (R377, R381–R383) -/

/-- The PRIO of a chain that waits for its first check: its queue's, or its first record's (R383). -/
def State.chainPrio (s : State) (die : Nat) (c : Chain) : Nat :=
  match c.prio with
  | some p => p
  | none =>
    match s.readPart die c.part c.addr 64 with
    | some r => rPrio r
    | none => 0

/-- A chain that a task submitted on a die and that no dispatcher has read yet. -/
def Chain.fresh (c : Chain) (die : Nat) : Bool :=
  c.state = .checking && c.recs = [] && c.status = 0 &&
    (match c.source with
      | .task ctx _ _ => ctx.die = die
      | .host .. => false)

/-- It is a hardware queue's turn in FETCH: no transit task can be placed, no device launch of its priority or more
waits, no queue of higher priority is in FETCH, and it comes first in the round of its priority (R383). -/
def State.fetchTurn (s : State) (die hwq : Nat) (w : HwQueue) : Bool :=
  let others := List.filter (fun p : Nat × HwQueue => p.1 / 64 = die && p.2.state = .fetch) s.disp.hwqs
  let last := s.disp.lastHwq.getD die 63
  let place := fun k : Nat => (k + 127 - last) % 64
  (s.firstTransit die).isNone &&
    !(s.disp.chains.any fun p => p.2.fresh die && w.prio ≤ s.chainPrio die p.2) &&
    others.all fun p => p.2.prio < w.prio || (p.2.prio = w.prio && place hwq ≤ place (p.1 % 64))

/-- A ring entry is well formed (R377). -/
def entryOk (e : List Byte) : Bool :=
  field e 6 2 = 0 && field e 8 2 < 2 ^ 11 && field e 10 1 < 2 && field e 11 1 = 0 && field e 0 6 % 64 = 0

/-- The entry at the head of a hardware queue cannot start: LAUNCH_INVALID is posted and the queue goes on (R377,
R382). -/
def State.badEntry (s : State) (h : Nat) (w : HwQueue) : State :=
  match s.postCompletion (h / 64) w.part w.qid ⟨0, 1, 0, 0, 0, 0, w.head, 0⟩ with
  | some t => t.leaveCheck h
  | none => s

/-- The chain of the entry at the head of a hardware queue enters CHECK (R382). -/
def State.enterCheck (s : State) (h : Nat) (w : HwQueue) (addr : Nat) : State :=
  let n := s.disp.nextChain
  let chain : Chain :=
    { part := w.part, addr := addr, recs := [], tags := [], first := 0, prio := some w.prio, source := .host (h / 64) h w.qid w.head
      state := .checking, status := 0, reports := [], since := s.polestar, reserving := false, reserved := false, ended := 0, failed := 0
      lowFail := none, derrs := 0, rfaults := 0 }
  { s with disp := { s.disp with
    nextChain := n + 1, chains := s.disp.chains.insert n chain
    hwqs := s.disp.hwqs.insert h { w with state := .check, chain := some n } } }

/-- The wait of an entry: none asked, its counter and threshold, or a reference or poison that makes it invalid (R377). -/
def State.entryWait (s : State) (part : Nat) (e : List Byte) : Option (Option (Nat × Nat)) :=
  if !bitOf (field e 10 1) 0 then some none
  else if !s.allocated part (field e 8 2) then none
  else
    let k := ctrKey (field e 8 2)
    if ctrPoison (s.counter k) then none
    else some (some (k, windowThreshold (ctrValue (s.counter k)) (field e 12 4)))

/-- Fetch the entry at the head of a hardware queue (R377, R382). -/
def State.fetchEntry (s : State) (h : Nat) (w : HwQueue) : State :=
  match s.readPart (h / 64) w.part (w.ring + 16 * (w.head % Nat.max 1 w.size)) 16 with
  | none => s.badEntry h w
  | some e =>
    if !entryOk e || (s.readPart (h / 64) w.part (field e 0 6) 64).isNone then s.badEntry h w
    else
      match s.entryWait w.part e with
      | none => s.badEntry h w
      | some none => s.enterCheck h w (field e 0 6)
      | some (some (k, thr)) =>
        if thr ≤ ctrValue (s.counter k) then s.enterCheck h w (field e 0 6)
        else s.setHwq h { w with state := .wait, thr := thr }

/-- QUEUE_ENTRY_FETCH: a hardware queue goes one step on (R382). -/
def execQueueEntryFetch (die hwq : Nat) (s : State) : Res :=
  let h := hwKey die hwq
  match s.disp.hwqs.find? h with
  | none => .next s
  | some w =>
    if w.state = .idle then .next (s.wakeHwq h)
    else if w.state = .fetch then
      if s.fetchTurn die hwq w then
        let s := { s with disp := { s.disp with lastHwq := s.disp.lastHwq.insert die hwq } }
        .next ((s.noteRead die w.part (w.ring + 16 * (w.head % Nat.max 1 w.size)) 16).fetchEntry h w)
      else .next s
    else if w.state = .wait then
      match s.readPart die w.part (w.ring + 16 * (w.head % Nat.max 1 w.size)) 16 with
      | none => .next (s.badEntry h w)
      | some e =>
        let k := ctrKey (field e 8 2)
        if ctrPoison (s.counter k) then .next (s.badEntry h w)
        else if w.thr ≤ ctrValue (s.counter k) then .next (s.enterCheck h w (field e 0 6))
        else .next s
    else .next s

/-! ### The pre-start check (R33–R36, R48) -/

/-- The fields of a launch record are in range and its reserved fields zero (R33). -/
def recordOk (r : List Byte) : Bool :=
  let gang := rGanged r
  field r 6 2 = 0 && rCode r % 64 = 0 && 64 ≤ rCodelen r && rCodelen r ≤ 0x1000000 && rCodelen r % 64 = 0 &&
  rEntry r % 4 = 0 && rEntry r < rCodelen r && field r 22 2 = 0 && rArgp r % 64 = 0 && 1 ≤ rExt r 0 && 1 ≤ rExt r 1 &&
  1 ≤ rExt r 2 && field r 30 1 < 8 && field r 31 1 < 2 && rArcFirst r < 2048 && 1 ≤ rArcLen r && rArcLen r ≤ 2048 &&
  (if gang then 1 ≤ rGang r && 2 ≤ field r 38 1 && field r 38 1 ≤ 8 else rGang r = 0 && field r 38 1 = 0) &&
  field r 39 1 < 8 && rTaglist r % 4 = 0 &&
  (if rFlag r 2 then 1 ≤ rTagcount r && rTagcount r ≤ 16 else rTaglist r = 0 && rTagcount r = 0) &&
  rChantab r % 8 = 0 && (if gang then decide (rChancount r ≤ 16) else rChantab r = 0 && rChancount r = 0) &&
  bitsOf (rDone r) 14 11 = 0 && 1 ≤ rScratch r && rScratch r ≤ 1536 && field r 60 4 = 0

/-- Read the records of a chain: up to 64, the last without CHAIN (R35). -/
def State.readChain (s : State) (die part : Nat) : Nat → Nat → Option (List (List Byte))
  | 0, _ => none
  | n + 1, addr =>
    match s.readPart die part addr 64 with
    | none => none
    | some r => if rFlag r 0 then (s.readChain die part n (addr + 64)).map (r :: ·) else some [r]

/-- Read entries of `w` bytes, each inside one page. -/
def State.readTable (s : State) (die part addr w n : Nat) : Option (List (List Byte)) :=
  (List.range n).mapM fun i => s.readPart die part (addr + w * i) w

/-- An entry of a channel table is well formed (R48). -/
def chanEntryOk (e : List Byte) : Bool :=
  field e 5 1 % 4 < 2 && bitsOf (field e 5 1) 3 2 = 0 && field e 5 1 / 16 ≤ 10 && 2 ≤ field e 6 2 && field e 6 2 ≤ 4096

/-- Channel-table entries pair: every name in one producer and one consumer entry that agree (R48). -/
def chansPair (es : List (List Byte)) : Bool :=
  es.all fun e =>
    let same := es.filter fun f => field f 0 4 = field e 0 4
    same.length = 2 && ([0, 1].all fun role => (same.filter fun f => field f 5 1 % 4 = role).length = 1) &&
      same.all fun f => field f 4 1 = field e 4 1 && field f 5 1 / 16 = field e 5 1 / 16 && field f 6 2 = field e 6 2

/-- The gangs of a chain: runs of consecutive gang records with one number, as (index, record). -/
def gangRuns : List (Nat × List Byte) → List (List (Nat × List Byte))
  | [] => []
  | x :: t =>
    if !rGanged x.2 then gangRuns t
    else
      match gangRuns t with
      | (y :: g) :: rest =>
        if y.1 = x.1 + 1 && rGang y.2 = rGang x.2 then (x :: y :: g) :: rest else [x] :: (y :: g) :: rest
      | l => [x] :: l

/-- The gangs of a list of records. -/
def gangsOf (recs : List (List Byte)) : List (List (Nat × List Byte)) := gangRuns (recs.mapIdx fun i r => (i, r))

/-- The channel table of a record. -/
def State.chanTable (s : State) (die part : Nat) (r : List Byte) : Option (List (List Byte)) :=
  s.readTable die part (rChantab r) 8 (rChancount r)

/-- The channel tables of a gang, each entry with the index of its record. -/
def State.gangTable (s : State) (die part : Nat) (g : List (Nat × List Byte)) : List (Nat × List Byte) :=
  g.flatMap fun x => ((s.chanTable die part x.2).getD []).map fun e => (x.1, e)

/-- LAUNCH_INVALID: a field, a gang, or something that cannot be read (R34, R48). -/
def State.chainInvalid (s : State) (die part : Nat) (recs : List (List Byte)) : Bool :=
  let gs := gangsOf recs
  recs.any (fun r => !recordOk r || (s.readPart die part (rArgp r) 64).isNone ||
    (rFlag r 2 && (s.readTable die part (rTaglist r) 4 (rTagcount r * rTasks r)).isNone) ||
    (match s.chanTable die part r with
      | none => true
      | some es => es.any fun e => !chanEntryOk e)) ||
  gs.any (fun g => g.any (fun x => field x.2 38 1 ≠ g.length) || !chansPair ((s.gangTable die part g).map (·.2))) ||
  ((gs.filterMap fun g => g.head?.map fun x => rGang x.2).eraseDups.length ≠ gs.length)

/-- ARC_REFUSED: not wholly inside an arc of the partition, or a bypassed die (R34, R408). -/
def State.arcRefused (s : State) (part : Nat) (r : List Byte) : Bool :=
  match s.ring? (rRing r) with
  | none => true
  | some g =>
    let n := g.size
    let d := (s.partOf part).desc
    let inside := (List.range 8).any fun i =>
      let o := 128 + 8 * i
      bitOf (field d (o + 6) 1) 0 && field d o 1 = rRing r &&
        (n ≤ field d (o + 4) 2 || (rArcFirst r + n - field d (o + 2) 2 % Nat.max 1 n) % Nat.max 1 n + rArcLen r ≤ field d (o + 4) 2)
    n ≤ rArcFirst r || n < rArcLen r || !inside ||
      (List.range (rArcLen r)).any fun j => g.bypassed.contains ((rArcFirst r + j) % Nat.max 1 n)

/-- TAG_REFUSED: a stale input tag (R34). -/
def State.tagRefused (s : State) (die part : Nat) (r : List Byte) : Bool :=
  rFlag r 2 && ((s.readTable die part (rTaglist r) 4 (rTagcount r * rTasks r)).getD []).any fun e => s.staleWait part (leNat e)

/-- The task slots and scratchpad of a die's cores with every slot free: tasks fitted in order on the lowest core that
holds them, each a number of bytes; none when one fits nowhere (R37, R49). -/
def fitEmpty (cores : List (Nat × Nat)) (n : Nat) : Option (List (Nat × Nat)) :=
  match cores with
  | [] => none
  | (slots, bytes) :: t =>
    if 1 ≤ slots && n ≤ bytes then some ((slots - 1, bytes - n) :: t) else (fitEmpty t n).map ((slots, bytes) :: ·)

/-- The tasks of a gang that are bound to a die, as bytes of scratchpad. -/
def State.gangDemand (s : State) (die : Nat) (g : List (Nat × List Byte)) : List Nat :=
  g.flatMap fun x =>
    match s.arcIndex (rRing x.2) (rArcFirst x.2) (rArcLen x.2) die with
    | none => []
    | some j => List.replicate ((rTasks x.2 + rArcLen x.2 - 1 - j) / Nat.max 1 (rArcLen x.2)) (rScratch x.2 * 4096)

/-- GANG_TOO_LARGE: the arc could not hold the gang even with every slot free (R34, R49). -/
def State.gangTooLarge (s : State) (part : Nat) (g : List (Nat × List Byte)) : Bool :=
  (List.range 8).any fun die =>
    let cores := ((List.range 16).filter fun k => s.coreOpen part die k).map fun _ => (4, Config.scratchBytes)
    let want := s.gangDemand die g
    want.length > 64 || ((want.foldl (fun acc n => acc.bind fun c => fitEmpty c n) (some cores)).isNone)

/-- The descriptor numbers of a die that no channel and no partition has (R48, R408). -/
def State.freeDescs (s : State) (die : Nat) : List Nat :=
  (List.range 512).filter fun d =>
    (s.shared.channels.find? (die * 512 + d)).isNone && !(s.disp.parts.any fun p => p.2.active && s.allocated p.1 (2048 + die * 512 + d))

/-- The consumer entries of a gang with the die on which each channel's descriptor goes (R48). -/
def State.gangChannels (s : State) (die part : Nat) (g : List (Nat × List Byte)) : List (Nat × List Byte) :=
  (s.gangTable die part g).filterMap fun x =>
    if field x.2 5 1 % 4 ≠ 1 then none
    else
      match g.find? fun y => y.1 = x.1 with
      | some y => (s.arcDie (rRing y.2) (rArcFirst y.2) 0).map fun d => (d, x.2)
      | none => none

/-- CHANNELS_EXHAUSTED (R34). -/
def State.channelsShort (s : State) (die part : Nat) (gs : List (List (Nat × List Byte))) : Bool :=
  (List.range 8).any fun d =>
    let want := (gs.flatMap (s.gangChannels die part)).filter fun x => x.1 = d
    want ≠ [] && (s.freeDescs d).length < want.length

/-- The status of a chain whose records can be read, in the order of R34. -/
def State.chainStatus (s : State) (die part : Nat) (recs : List (List Byte)) : Nat :=
  if s.chainInvalid die part recs then 1
  else if recs.any (s.arcRefused part) then 2
  else if recs.any (s.tagRefused die part) then 3
  else if (gangsOf recs).any (s.gangTooLarge part) then 4
  else if s.channelsShort die part (gangsOf recs) then 5
  else 0

/-- A chain has reached its end. -/
def Chain.over (c : Chain) : Bool := c.state = .refused || c.state = .aborted || c.state = .complete

/-- The die a chain was submitted on. -/
def Chain.die (c : Chain) : Nat :=
  match c.source with
  | .host d .. => d
  | .task ctx .. => ctx.die

/-- The dies of this package on the arcs of a chain (R36). -/
def State.chainDies (s : State) (c : Chain) : List Nat :=
  (c.recs.flatMap fun r => s.arcDies (rRing r) (rArcFirst r) (rArcLen r)).eraseDups

/-- A chain that was not started is settled: a host chain posts its status when its ring has room and its queue goes on;
a task's chain keeps the status for LAUNCH or SPAWN (R34, R384, R385). -/
def State.settleRefused (s : State) (id_ : Nat) (c : Chain) (final : ChainState) : State :=
  match c.source with
  | .task .. => s.modChain id_ fun c => { c with state := final, recs := [] }
  | .host die h qid entry =>
    match s.postCompletion die c.part qid ⟨0, c.status, 0, 0, 0, 0, entry, 0⟩ with
    | some t => (t.dropChain id_).leaveCheck h
    | none => s

/-- A device launch waits for its turn: behind transit tasks, hardware queues of higher priority, and device launches of the die with a
higher priority or submitted earlier (R383). -/
def State.launchTurn (s : State) (die id_ : Nat) (c : Chain) : Bool :=
  let prio := s.chainPrio die c
  !c.fresh die ||
    ((s.firstTransit die).isNone && !(s.disp.hwqs.any fun p => p.1 / 64 = die && p.2.state = .fetch && prio < p.2.prio) &&
      !(s.disp.chains.any fun p => p.2.fresh die && (prio < s.chainPrio die p.2 || (prio = s.chainPrio die p.2 && p.1 < id_))))

/-- The reading of a chain's records and tables finds uncorrectable words, which the memory-error log records (R34, R112). -/
def State.noteChain (s : State) (die part : Nat) : Nat → Nat → State
  | 0, _ => s
  | n + 1, addr =>
    match s.readPart die part addr 64 with
    | none => s.noteRead die part addr 64
    | some r =>
      let s := s.noteRead die part (rArgp r) 64
      let s := (List.range (if rFlag r 2 then rTagcount r * rTasks r else 0)).foldl (fun t i => t.noteRead die part (rTaglist r + 4 * i) 4) s
      let s := (List.range (rChancount r)).foldl (fun t i => t.noteRead die part (rChantab r + 8 * i) 8) s
      if rFlag r 0 then s.noteChain die part n (addr + 64) else s

/-- The tag words of a record (R42). -/
def State.readTags (s : State) (die part : Nat) (r : List Byte) : List Nat :=
  if rFlag r 2 then ((s.readTable die part (rTaglist r) 4 (rTagcount r * rTasks r)).getD []).map leNat else []

/-- A tag word of a task that is bound to a die is stale (R36, R314). -/
def State.dieTagsStale (s : State) (c : Chain) (die : Nat) : Bool :=
  (c.recs.zip c.tags).any fun x =>
    match s.arcIndex (rRing x.1) (rArcFirst x.1) (rArcLen x.1) die with
    | none => false
    | some j => x.2.zipIdx.any fun w => w.2 / Nat.max 1 (rTagcount x.1) % Nat.max 1 (rArcLen x.1) = j && s.staleWait c.part w.1

/-! ### Reservation and start (R36, R48, R49) -/

/-- The words of an argument block (R33). -/
def State.argWords (s : State) (die part argp : Nat) : List Word :=
  let b := (s.readPart die part argp 64).getD (List.replicate 64 0)
  (List.range 8).map fun k => BitVec.ofNat 64 (field b (8 * k) 8)

/-- The first of `n` consecutive launch ids of 32 bits, from a number on, that no live chain has (R30). -/
def State.freeIds (s : State) (n : Nat) : Nat → Nat → Nat
  | 0, b => b
  | k + 1, b =>
    if 2 ^ 32 < b + n then s.freeIds n k 1
    else
      match List.find? (fun p : Nat × Chain => p.2.first ≠ 0 && !p.2.over && b < p.2.first + p.2.recs.length && p.2.first < b + n)
          s.disp.chains with
      | some p => s.freeIds n k (p.2.first + p.2.recs.length)
      | none => b

/-- The records of a chain get consecutive launch ids (R30). Their argument blocks are read now (R33, log 107). -/
def State.numberLaunches (s : State) (id_ : Nat) (c : Chain) : State :=
  let first := s.freeIds c.recs.length (s.disp.chains.length + 3) s.disp.nextLaunch
  let add := fun (m : SMap Launch) (x : Nat × List Byte) =>
    m.insert (first + x.1)
      { chain := id_, index := x.1, record := x.2, part := c.part, next := 0, skipped := [], posted := 0
        args := s.argWords c.die c.part (rArgp x.2), tags := c.tags.getD x.1 [] }
  { s with disp := { s.disp with
    nextLaunch := first + c.recs.length
    launches := (c.recs.mapIdx fun i r => (i, r)).foldl add s.disp.launches
    chains := s.disp.chains.insert id_ { c with first := first } } }

/-- Allocate the descriptors of a gang's channels: handle and entry of each name, lowest free descriptor first (R48).
Base address and scope are the dispatcher's, which the manual does not state (log 24). -/
def State.allocChannels (s : State) (part lead : Nat) : List (Nat × List Byte) → State × List (Nat × Nat)
  | [] => (s, [])
  | (die, e) :: t =>
    match s.freeDescs die with
    | [] => s.allocChannels part lead t
    | d :: _ =>
      let ch : Channel :=
        { part := part, base := (Config.freeWord (s.steps + die * 512 + d)).toNat % 2 ^ 48, size := field e 5 1 / 16
          depth := field e 6 2, rsv := 0, take := 0, scope := (Config.freeWord (s.steps + d)).toNat % 5, rank := field e 4 1
          srcFmt := 0, sinkFmt := 0, poison := false, gang := some lead, grant := none, slots := [], waiters := [] }
      match (s.setChannel (die * 512 + d) ch).allocChannels part lead t with
      | (s, l) => (s, (field e 0 4, die * 512 + d) :: l)

/-- The handles that a record's tasks find at the start of their scratchpad (R48); a name with no descriptor here, whose consumer's task 0
lies on a die of another package, gets handle 0 (DESIGN CHOICE, log 47). -/
def handleBytes (names : List (Nat × Nat)) (table : List (List Byte)) : List Byte :=
  table.flatMap fun e =>
    match names.find? fun p => p.1 = field e 0 4 with
    | some p => leBytes 2 p.2
    | none => leBytes 2 0

/-- The channels of the gangs of a chain get their descriptors, and each member finds its handles at the start of its scratchpad (R48). -/
def State.bindGangs (s : State) (die part first : Nat) (gs : List (List (Nat × List Byte))) : State :=
  gs.foldl (fun s g =>
    match s.allocChannels part (first + ((g.head?.map (·.1)).getD 0)) (s.gangChannels die part g) with
    | (s, names) => g.foldl (fun s x =>
        let handles := handleBytes names ((s.chanTable die part x.2).getD [])
        (s.reservedFor (first + x.1)).foldl (fun s c =>
          s.writeHomeBytes c.core (scratchKey c.die c.core (s.hartAt c).task.region) handles) s) s) s

/-- Reserve for the gangs of a chain in CHECKING, if all of them fit now; one that holds back lower placements keeps the slots that it got
(R36, R49, R388). -/
def State.reserveGangs (s : State) (id_ : Nat) (c : Chain) : Option State :=
  let t := if c.first = 0 then s.numberLaunches id_ c else s
  let first := ((t.disp.chains.find? id_).map (·.first)).getD 0
  let t := t.holdGangs { c with first := first }
  if t.gangsHeld id_ then
    some ((t.bindGangs c.die c.part first (gangsOf c.recs)).modChain id_ fun c => { c with reserved := true, reserving := false })
  else if c.reserving then some t
  else none

/-- A gang may take slots now: no transit task waits for one, no gang that holds back the die goes first, and unless it holds back others
itself, no task of its priority or more can be placed (R387, R388, log 106). -/
def State.mayReserve (s : State) (id_ : Nat) (c : Chain) : Bool :=
  let first := fun p : Nat × Chain =>
    if c.reserving then c.gangPrio < p.2.gangPrio || (c.gangPrio = p.2.gangPrio && p.1 < id_) else c.gangPrio ≤ p.2.gangPrio
  (s.chainDies c).all fun d =>
    (s.firstTransit d).isNone && !(s.disp.chains.any fun p => p.1 ≠ id_ && p.2.holdsBack && s.gangCovers p.2 d && first p) &&
      (c.reserving || (match s.firstSpot d with
        | some (x, _, _) => decide (s.prioOf (s.candLaunch x) < c.gangPrio)
        | none => true))

/-- Undo the reservations of a chain: its slots, descriptors and launch ids are free again (R36, R384). -/
def State.undoReserve (s : State) (id_ : Nat) : State :=
  let ls := (s.chainLaunches id_).map (·.1)
  let s := (ls.flatMap s.reservedFor).foldl (fun s c => s.setHart c Hart.fresh) s
  let s := { s with
    disp := { s.disp with launches := List.filter (fun p : Nat × Launch => p.2.chain ≠ id_) s.disp.launches }
    shared := { s.shared with channels := List.filter (fun p : Nat × Channel => !(p.2.gang.any fun g => ls.contains g)) s.shared.channels } }
  s.modChain id_ fun c => { c with reserved := false, reserving := false, first := 0, reports := [] }

/-- A chain in CHECKING is refused with a status (R34, R36). -/
def State.refuseChain (s : State) (id_ : Nat) (c : Chain) (status : Nat) (final : ChainState) : State :=
  let s := (s.undoReserve id_).modChain id_ fun c => { c with status := status }
  s.settleRefused id_ { c with status := status } final

/-- PRESTART_REPORT: the dispatcher of the submitting die reads and checks the chain. Then every die of its arcs checks the generations of
its tasks' tags, and reports; the gangs of the chain get their reservations at once, when all of them fit (R34, R36, R49). -/
def execPrestartReport (chain die : Nat) (s : State) : Res :=
  match s.disp.chains.find? chain with
  | none => .next s
  | some c =>
    let report := fun s : State => s.modChain chain fun c => { c with reports := c.reports ++ [(die, 0)] }
    if c.state ≠ .checking then .next s
    else if c.status ≠ 0 then .next (s.settleRefused chain c .refused)
    else if c.recs = [] then
      if die ≠ c.die || !s.launchTurn die chain c then .next s
      else
        let recs := (s.readChain die c.part 64 c.addr).getD []
        let status := if recs = [] then 1 else s.chainStatus die c.part recs
        let c := { c with recs := recs, tags := recs.map (s.readTags die c.part), status := status, reports := [], since := s.polestar }
        let s := s.noteChain die c.part 64 c.addr
        let s := { s with disp := { s.disp with chains := s.disp.chains.insert chain c } }
        .next (if status = 0 then s else s.settleRefused chain c .refused)
    else if !(s.chainDies c).contains die || c.reports.any fun r => r.1 = die then .next s
    else if s.dieTagsStale c die then .next (s.refuseChain chain c 3 .refused)
    else if c.reserved || gangsOf c.recs = [] then .next (report s)
    else if s.channelsShort c.die c.part (gangsOf c.recs) then .next (s.refuseChain chain c 5 .refused)
    else if !s.mayReserve chain c then .next s
    else
      match s.reserveGangs chain c with
      | none => .next s
      | some t => .next (if (t.disp.chains.find? chain).any fun c => c.reserved then report t else t)

/-- START_RELEASE: every die has reported a pass, and the chain runs: its records start in chain order, a gang in one step (R35, R36, R49,
R384). -/
def execStartRelease (chain : Nat) (s : State) : Res :=
  match s.disp.chains.find? chain with
  | none => .next s
  | some c =>
    if c.state ≠ .checking || c.recs = [] || !s.timeSet then .next s
    else if c.status ≠ 0 then .next (s.settleRefused chain c .refused)
    else if !((s.chainDies c).all fun d => c.reports.any fun r => r.1 = d) then .next s
    else
      let t := if c.first = 0 then s.numberLaunches chain c else s
      let t := t.modChain chain fun c => { c with state := .running, since := s.steps, reserving := false }
      let t := (t.chainLaunches chain).foldl (fun t p => t.joinGated p.1) t
      let t := t.startReserved chain
      match c.source with
      | .host _ h _ _ => .next (t.leaveCheck h)
      | .task .. => .next t

/-- GANG_RESERVE_TIMEOUT: a gang that has waited 2^20 ticks for slots or scratchpad holds back lower placements
(R388). -/
def execGangReserveTimeout (chain : Nat) (s : State) : Res :=
  match s.disp.chains.find? chain with
  | none => .next s
  | some c =>
    if c.state = .checking && c.status = 0 && gangsOf c.recs ≠ [] && !c.reserved && !c.reserving && c.since + 2 ^ 20 ≤ s.polestar then
      .next (((if c.first = 0 then s.numberLaunches chain c else s)).modChain chain fun c => { c with reserving := true })
    else .next s

end Sys2Proof.Machine
end

