-- ==== Sys2Proof/Machine/Life.lean ====
section
/-! DEFINITION. How kernels and chains complete, and how they are killed and torn down (R43, R290, R379, R384–R386, R394,
R398). -/

namespace Sys2Proof.Machine

/-! ### Chains that nobody awaits -/

/-- A task's chain is still of use: its issuer waits for its status, or may await its tasks (R272, R273). -/
def State.chainWanted (s : State) (id_ : Nat) : Bool :=
  s.tasks.any fun t => t.launching = some id_ || t.spawned.contains id_

/-- Chains of tasks that are over and of no more use are gone. -/
def State.reapChains (s : State) : State :=
  { s with disp := { s.disp with chains := s.disp.chains.filter fun p =>
      match p.2.source with
      | .host .. => true
      | .task .. => !p.2.over || s.chainWanted p.1 } }

/-! ### Completion (R43, R384, R385, R398) -/

/-- A buffered reduction or VSCTADD element of a launch is not performed yet (R398). -/
def State.buffered (s : State) (launch : Nat) : Bool :=
  let of_ := fun p : Pending => match p with
    | .atomic _ _ _ _ _ _ _ _ _ _ l _ => l = launch
    | .store .. => false
    | .act .. => false
  ((s.contexts.flatMap fun c => (s.hartAt c).stores) ++ (s.dies.flatMap fun p => p.2.outbound) ++ s.egress).any of_

/-- A kernel may leave DRAINING (R43, R302, R398). -/
def State.drained (s : State) (launch : Nat) (l : Launch) : Bool :=
  !s.unfinished launch && !s.transitsLeft launch && !s.buffered launch &&
    l.posted ≤ ctrValue (s.counter (ctrKey (field (s.partOf l.part).desc 84 2)))

/-- An arc lies wholly in this package. -/
def State.arcHere (s : State) (r : List Byte) : Bool := (s.arcDies (rRing r) (rArcFirst r) (rArcLen r)).length = rArcLen r

/-- DONE of a record: a counter of the package that holds its arc's first die, signalled with a release at pkg scope, at scope all where
the arc spans packages; poisoned towards a LAUNCH issuer whose gang met a core error (R33, R43, R257, R394). -/
def State.signalDone (s : State) (c : Chain) (r : List Byte) : State :=
  let d := rDone r
  let s := (List.range 8).foldl State.drainOutbound s
  let s := if s.arcHere r then s else s.drainEgress
  let poison := rGanged r && c.faulted.contains (rGang r) &&
    (match c.source with
      | .task _ _ spawn => !spawn
      | .host .. => false)
  if bitOf d 15 && (s.arcDie (rRing r) (rArcFirst r) 0).isSome then s.signal (ctrKey d) 1 poison else s

/-- The completion entry of a chain (R385). -/
def Chain.completion (c : Chain) (entry : Nat) : Completion where
  launch := c.first
  status := c.status
  cause := match c.lowFail with
    | some f => f.2.2
    | none => 0
  derrs := c.derrs
  ended := c.ended
  failed := c.failed
  entry := entry
  rfaults := c.rfaults

/-- A kernel completes: its launch is over, and every store of its tasks is performed at pkg, at scope all for an arc that spans packages
(R43, R257). -/
def State.completeKernel (s : State) (launch : Nat) (l : Launch) : State :=
  let s := (List.range 8).foldl State.drainOutbound { s with disp := { s.disp with launches := s.disp.launches.erase launch } }
  if s.arcHere l.record then s else s.drainEgress

/-- Every task of every record of a chain has ended: it is DRAINING (R384). -/
def State.drainChain (s : State) (id_ : Nat) : State :=
  match s.disp.chains.find? id_ with
  | some c =>
    if (c.state = .running || c.state = .killing) && s.chainDone id_ && !((s.chainLaunches id_).any fun p => s.transitsLeft p.1) then
      s.modChain id_ fun c => { c with state := .draining }
    else s
  | none => s

/-- A DRAINING chain whose kernels have completed is COMPLETE, for a host chain once its completion ring has room: DONE of each record is
signalled, in chain order, and the entry posted (R384, R385, log 109). -/
def State.completeChain (s : State) (id_ : Nat) : State :=
  match s.disp.chains.find? id_ with
  | none => s
  | some c =>
    if c.state ≠ .draining || s.chainLaunches id_ ≠ [] then s
    else
      let done := fun s : State => c.recs.foldl (fun t r => t.signalDone c r) s
      match c.source with
      | .task .. => ((done s).modChain id_ fun c => { c with state := .complete }).reapChains
      | .host die _ qid entry =>
        match (done s).postCompletion die c.part qid (c.completion entry) with
        | none => s
        | some t => t.dropChain id_

/-- The chain of a launch id: of its record while that runs, then of a chain in DRAINING. -/
def State.chainOfLaunch (s : State) (launch : Nat) : Option Nat :=
  match s.launch? launch with
  | some l => some l.chain
  | none =>
    (List.find? (fun p : Nat × Chain => p.2.state = .draining && p.2.first ≤ launch && launch < p.2.first + p.2.recs.length)
      s.disp.chains).map (·.1)

/-- KERNEL_COMPLETE: a drained kernel completes; with the last one its chain does (R43, R384, R385, R398). -/
def execKernelComplete (launch : Nat) (s : State) : Res :=
  match s.chainOfLaunch launch with
  | none => .next s
  | some id_ =>
    let s := s.drainChain id_
    let s := match s.launch? launch with
      | some l => if s.chainRuns id_ && s.drained launch l then s.completeKernel launch l else s
      | none => s
    .next (s.completeChain id_)

/-- CHEAD_WRITE: the host consumes completion entries; refused chains that waited for room post theirs (R376, R385). -/
def execCheadWrite (part qid value : Nat) (s : State) : Res :=
  match (s.latch (queueKey part qid)).desc with
  | none => .next s
  | some d =>
    let s := s.writePart 0 part (d + 40) (leBytes 4 value)
    let waiting := fun c : Chain => c.state = .checking && c.status ≠ 0 && c.part = part &&
      (match c.source with
        | .host _ _ q _ => q = qid
        | .task .. => false)
    .next ((List.filter (fun p : Nat × Chain => waiting p.2) s.disp.chains).foldl (fun s p => s.settleRefused p.1 p.2 .refused) s)

/-! ### Kill and tear-down (R31, R290, R384, R386) -/

/-- An unplaced or saved transit task is done with its slot (R305). -/
def State.openDown (s : State) (die : Nat) (t : TransitInfo) : State :=
  let m := s.mslot die t.slot
  if !t.done && m.fill % 256 = t.fill % 256 && (m.state = 2 || m.state = 3) then
    s.modSlot die t.slot fun m => { m with opens := m.opens - 1 }
  else s

/-- A task without a slot ends with a cause (R31, R43, R47, R290): what it left behind on the core it was on ends too, but accepted
collective commands run on (R348). -/
def State.detachedEnds (s : State) (t : TaskInfo) (left : CtxId) (cause : Nat) (pc : Word) : State :=
  let s := match t.transit with
    | some x => s.openDown left.die x
    | none => s
  let s := s.killCopiesOf left t.ident
  let val := if cause = Cause.gangFault.code then BitVec.ofNat 64 (t.gangPend.getD 0) else 0
  let s := (s.leavePhases t.ident fun _ => true).notify (.faultReport t.launch t.taskId cause pc val)
  let s := s.countEnd t cause
  let s := { s with disp := { s.disp with replay := s.disp.replay.erase t.uid } }
  (((s.dropBindings t.launch).reapGang t).dropAwaited t.spawned).reapRevoked

/-- A save slot is free again. -/
def State.dropSave (s : State) (part : Nat) (slot : Option Nat) : State :=
  match slot with
  | some i => { s with disp := { s.disp with
      parts := s.disp.parts.modify part default fun p => { p with saveUsed := p.saveUsed.filter (· ≠ i) } } }
  | none => s

/-- The array that a task holds has no lease any more, whatever core the task was on (R238, R358). -/
def State.dropLeaseOf (s : State) (task : Nat × Nat) : State :=
  { s with eng := { s.eng with arrays := s.eng.arrays.map fun (p : Nat × Array_) =>
      if (p.2.lease.any fun l => l.task = task) then (p.1, { p.2 with lease := none }) else p } }

/-- A saved task is discarded and ends: its lease ends and its jobs fail (R246, R393). -/
def State.killSaved (s : State) (id_ : Nat) (v : Saved) (cause : Nat) : State :=
  let t := v.hart.task
  let jobs := match v.lease with
    | some l => l.2.jobs.filter Job.pending
    | none => []
  let s := jobs.foldl (fun s j => s.jobSignal v.left.die j true) s
  let s := ({ s with disp := { s.disp with saved := s.disp.saved.erase id_ } }).dropLeaseOf t.ident
  (s.dropSave t.part v.saveSlot).detachedEnds t v.left cause v.hart.pc

/-- A suspended task ends. -/
def State.killCont (s : State) (id_ : Nat) (v : Cont) (cause : Nat) : State :=
  ({ s with disp := { s.disp with conts := s.disp.conts.erase id_ } }).detachedEnds v.hart.task ⟨v.home.1, v.home.2, 0⟩ cause v.hart.pc

/-- The final cause of a task that a supervisor or a kill of its launch ends: GANG_FAULT for a member of a faulted gang; that of its trap
where it ends at it; else KILLED (R30, R273, R325, R367, R394). -/
def Hart.endCause (h : Hart) (atTrap : Bool) : Nat :=
  if h.task.gangPend.isSome then Cause.gangFault.code
  else if atTrap && h.status = .trapped then h.trap.cause.code
  else Cause.killed.code

/-- A transit task that is killed before it is placed counts as failed (R384, R385). -/
def State.countLost (s : State) (launch index : Nat) : State :=
  match s.launch? launch with
  | none => s
  | some l => s.modChain l.chain fun c =>
      { c with failed := c.failed + 1, lowFail := lowerFail c.lowFail (l.index, index, Cause.killed.code) }

/-- Every task of some launches ends (R384). -/
def State.killTasks (s : State) (ls : List Nat) : State :=
  let s := ls.foldl (fun s l => s.failRest l Cause.killed.code) s
  let gone := s.disp.transits.filter fun q => ls.contains q.launch
  let s := gone.foldl (fun s q => (s.openDown q.die q.info).countLost q.launch q.index)
    { s with disp := { s.disp with transits := s.disp.transits.filter fun q => !ls.contains q.launch } }
  let of_ := fun t : TaskInfo => ls.contains t.launch
  let s := (s.contexts.filter fun c => s.holds c && of_ (s.hartAt c).task).foldl (fun s c => s.taskEnds c ((s.hartAt c).endCause false)) s
  let s := (s.disp.conts.filter fun p => of_ p.2.hart.task).foldl (fun s p => s.killCont p.1 p.2 (p.2.hart.endCause false)) s
  let s := (s.disp.saved.filter fun p => of_ p.2.hart.task).foldl (fun s p => s.killSaved p.1 p.2 (p.2.hart.endCause false)) s
  ls.foldl State.dropBindings s

/-- A chain's context goes: in CHECKING it is ABORTED with CONTEXT_GONE, running it is killed with every chain that its
tasks launched (R384, R386). -/
def State.tearChain (s : State) : Nat → Nat → State
  | 0, _ => s
  | n + 1, id_ =>
    match s.disp.chains.find? id_ with
    | none => s
    | some c =>
      if c.state = .checking then
        s.refuseChain id_ c 6 .aborted
      else if c.over || c.state = .killing || c.state = .draining then s
      else
        let ls := (s.chainLaunches id_).map (·.1)
        let s := s.modChain id_ fun c => { c with state := .killing }
        let kids := s.disp.chains.filter fun p => match p.2.source with
          | .task _ l _ => ls.contains l
          | .host .. => false
        let s := kids.foldl (fun s p => s.tearChain n p.1) s
        s.killTasks ls

/-- A task that is ended while it waits in LAUNCH or SPAWN receives CONTEXT_GONE: its chain, if still in CHECKING, is aborted (R386). -/
def State.abortLaunch (s : State) (t : TaskInfo) : State :=
  match t.launching with
  | none => s
  | some n =>
    match s.disp.chains.find? n with
    | some c => if c.state = .checking then s.refuseChain n c 6 .aborted else s
    | none => s

/-- Tear a chain down with all that follows (R386). -/
def State.killChain (s : State) (id_ : Nat) : State := (s.tearChain (s.disp.chains.length + 1) id_).reapChains

/-- LAUNCH_KILL (R384). -/
def execLaunchKill (launch : Nat) (s : State) : Res :=
  match s.launch? launch with
  | some l => .next (s.killChain l.chain)
  | none => .next s

/-- TASK_KILL: a task that is TRAPPED, BLOCKED or held for firmware ends, killed, or at the trap that the supervisor does not return from;
so does one that is PENDING-RESUME with its home on a core (R30, R31, R411). -/
def execTaskKill (die core : Nat) (target : KillTarget) (s : State) : Res :=
  match target with
  | .slot slot atTrap =>
    let c : CtxId := ⟨die, core, slot⟩
    let h := s.hartAt c
    if slot < 4 && (h.status = .trapped || h.status = .blocked || h.status = .held) then
      .next ((s.abortLaunch h.task).taskEnds c (h.endCause atTrap)).reapChains
    else .next s
  | .record n =>
    match List.find? (fun p : Nat × Cont => p.2.home = (die, core) && p.2.record = n && (p.2.complete || p.2.fate.isSome)) s.disp.conts with
    | some (id_, v) => .next (s.killCont id_ v (v.hart.endCause false)).reapChains
    | none => .next s

/-- DESTROY: an unmapped queue is torn down: its chains are killed and post nothing, its latch is cleared (R379, R386). -/
def execDestroy (part qid ctr : Nat) (s : State) : Res :=
  let q := queueKey part qid
  command ctr s (
    if 4096 ≤ qid || (s.latch q).hwq.isSome then none
    else
      let mine := fun c : Chain => c.part = part &&
        (match c.source with
          | .host _ _ k _ => k = qid
          | .task .. => false)
      let left := match s.headSize q with
        | some (head, _) => ((s.latch q).tail + 2 ^ 32 - head) % 2 ^ 32
        | none => 0
      let ids := (List.filter (fun p : Nat × Chain => mine p.2) s.disp.chains).map (·.1)
      let mute := fun c : Chain => match c.source with
        | .host d h _ e => { c with source := ChainSource.host d h 4096 e }
        | .task .. => c
      let s := ids.foldl (fun s i => (s.modChain i mute).killChain i) s
      some (({ s with disp := { s.disp with latches := s.disp.latches.erase q } }).notify (.discarded part qid left)))

/-! ### Removing a partition (R386, R409) -/

/-- Every context of a partition is torn down, and its hardware queues are free (R386). -/
def State.tearPartition (s : State) (part : Nat) : State :=
  let ids := (List.filter (fun p : Nat × Chain => p.2.part = part) s.disp.chains).map (·.1)
  let s := ids.foldl State.killChain s
  let mine := fun q : Nat => q / 4096 = part
  { s with disp := { s.disp with
    hwqs := List.filter (fun p : Nat × HwQueue => p.2.part ≠ part) s.disp.hwqs
    latches := s.disp.latches.map fun p => if mine p.1 then (p.1, { p.2 with hwq := none, desc := none }) else p } }

end Sys2Proof.Machine
end

