-- ==== Sys2Proof/Machine/Evict.lean ====
section
/-! DEFINITION. Forced eviction and restore, core errors, the spare core, the barrier watchdog (R50, R78, R246, R266, R362,
R366, R391–R396, R445). -/

namespace Sys2Proof.Machine

/-! ### Forced eviction (R78, R246, R392, R393) -/

/-- The contexts that hold the tasks of a gang task's gang (R48). -/
def State.gangContexts (s : State) (t : TaskInfo) : List CtxId :=
  s.contexts.filter fun c => s.holds c && (s.hartAt c).task.gang && (s.hartAt c).task.lead = t.lead

/-- A TKCOMMIT that waits is under way: its commit is not stopped half done (R348). -/
def Wait.commits : Wait → Bool
  | .again (.tkcommit ..) => true
  | _ => false

/-- A task may be evicted: it waits in no LAUNCH, SPAWN or TKCOMMIT, and a transit task is past its slack deadline (R61, R261, R348). -/
def State.canEvict (s : State) (c : CtxId) : Bool :=
  let t := (s.hartAt c).task
  s.holds c && t.launching.isNone && !(t.wait.any Wait.commits) &&
    (match t.transit with
      | some x => x.deadline < s.polestar
      | none => true)

/-- How many save slots of a partition are free. -/
def State.freeSaves (s : State) (part : Nat) : Nat := field (s.partOf part).desc 56 4 - (s.partOf part).saveUsed.length

/-- The contexts evicted together with a context: a gang whole (R49, R392). -/
def State.evictGroup (s : State) (c : CtxId) : List CtxId :=
  let t := (s.hartAt c).task
  if t.gang then s.gangContexts t else [c]

/-- An eviction of a context can run now. -/
def State.evictable (s : State) (c : CtxId) : Bool :=
  let g := s.evictGroup c
  (g.all s.canEvict) && g.length ≤ s.freeSaves (s.hartAt c).task.part

/-- A stream as an eviction saves it: its reads in flight are diverted to the quarantine, a stalled read is issued again (R78, R392, R393). -/
def Stream.evicted (q : Stream) : Stream := { q with faulted := false, inflight := [], diverted := q.diverted ++ q.inflight }

/-- The loads of a context that an eviction discards: those at the end of what it has issued, with no younger instruction that has
changed state; the others are older (R78, R178, R221). -/
def Hart.undone (h : Hart) : List LoadRec :=
  (h.loads.reverse.zipIdx.takeWhile fun p => p.1.ord + p.2 + 1 = h.issued).map (·.1) |>.reverse

/-- A context stopped at the oldest instruction that has not completed: loads that have not returned are discarded and execute again, and
older ones are performed; a trap has been taken first, and keeps its TPC (R78, R178, R221). -/
def State.stopLoads (s : State) (c : CtxId) : State :=
  let h := s.hartAt c
  let gone := if h.status = .trapped then [] else h.undone
  let s := s.performFirst c (h.loads.length - gone.length)
  match gone with
  | [] => s
  | r :: _ => s.modHart c fun h => { h with loads := [], pc := r.pc, issued := r.ord, status := .ready, task := h.task.issued }

/-- The task of a context leaves its core's jobs and its array's requests; a lease stays held until the task is back (R241, R246,
R358). -/
def State.leaveArray (s : State) (c : CtxId) : State :=
  let ident := (s.hartAt c).task.ident
  (s.dropRequest c).modLease c.die c.core fun x => { x with jobs := x.jobs.filter fun j => j.task ≠ ident }

/-- The context leaves every line and table of waiters. -/
def State.leaveTables (s : State) (c : CtxId) : State :=
  let s := (s.leaveLines c.key).leaveTags c.key
  { s with shared := { s.shared with bindReqs := s.shared.bindReqs.filter fun q => q.ctx ≠ c } }

/-- The context leaves every line and table of waiters, and its stream faults leave the engine-fault queue. -/
def State.leaveWaits (s : State) (c : CtxId) : State :=
  let s := s.leaveTables c
  (s.modCore c.die c.core fun k => { k with traps := k.traps.filter (· ≠ c.slot) }).dropFaults c.die c.core fun e =>
    e.slot = c.slot && e.stream

/-- Evict one task: it stops, its image goes to a save slot, the slot and the region are free, the task is PRE-EMPTED (R392). -/
def State.evictOne (s : State) (c : CtxId) : State :=
  let s := (((s.stopLoads c).drainStores c).stopJob c)
  let h := s.hartAt c
  let t := h.task
  match s.freeSave t.part with
  | none => s
  | some i =>
    let n := t.livex * 4096
    let lease := s.savedLease c
    let saved : Hart := { h with q := h.q.map Stream.evicted, loads := [], stores := [], ahead := [], age := 0, task := t.issued }
    let s := (s.saveImage c.die t.part i (corePieces c saved ++ vecPieces saved.vec ++ streamPieces saved ++ tilePieces saved.tile ++
      (if lease.isSome then matrixPieces lease else []) ++ quarPieces saved.quar)).settleRun c.die c.core t.region n
    let s := s.saveExtent c t.part i t.region n
    let s := ((s.leaveArray c).leaveWaits c).setHart c Hart.fresh
    ((s.useSave t.part i).keepSaved ⟨saved, c, true, false, some i, lease, s.steps⟩).wakeCore c.die c.core

/-- FORCED_EVICTION: a task, or its whole gang, is saved and its slot freed (R392). -/
def execForcedEviction (die core slot : Nat) (s : State) : Res :=
  let c : CtxId := ⟨die, core, slot⟩
  if slot < 4 && s.evictable c then .next ((s.evictGroup c).foldl State.evictOne s) else .next s

/-- An evicted task's capabilities on a new core: c1 and c14 as at entry, the others as saved (R76, R77). -/
def TaskInfo.evictedCaps (t : TaskInfo) (old : Vector Cap 16) : Vector Cap 16 :=
  let n := t.scratch * 4096
  (old.set 1 (entryC1 t.region n)).set 14 (entryC14 t.region n)

/-- CTXLD of some sections of a save slot's image into a slot (R375, R392). -/
def State.loadSaved (s : State) (c : CtxId) (part slot x : Nat) : State :=
  match s.savedLines c part slot (if bitOf x 8 then imageOffs 0 1024 else []) with
  | (core, s) =>
    let dirty := if bitOf x 8 then ((s.hartAt c).tile.reshape (imageBytes core 0 1024)).dirty else (s.hartAt c).tile.dirty
    match s.savedLines c part slot (loadOffs x dirty) with
    | (l, s) => s.loadImage c x l

/-- The sections that an eviction has saved: MATRIX if the task held a lease or had jobs (R392). -/
def Saved.sections (v : Saved) : Nat := 0x2F00 + if v.lease.isSome then 2 ^ 12 else 0

/-- Restore an evicted task in a slot, for a new stay there: the extent, every saved section of its image, the quarantine, then ERET; the
lease that it held is asked for again (R78, R246, R358, R392, R393). -/
def State.restoreEvicted (s : State) (id_ : Nat) (v : Saved) (c : CtxId) (region : Nat) : State :=
  let s := (s.landAtomics v.left v.hart.task.stay).followTask v.left.die c.die
  match s.takeId with
  | (stay, s) =>
    let t : TaskInfo := { v.hart.task with region := region, stay := stay }
    let s := (s.settleRun c.die c.core region (t.scratch * 4096)).setHart c { v.hart with task := t, status := .held }
    let s := s.dropLeaseOf t.ident
    let s := match v.saveSlot with
      | some i => (s.loadExtent c t.part i region (t.livex * 4096)).loadSaved c t.part i v.sections
      | none => s
    let s := (s.modHart c fun h => { h with status := .held, c := h.task.evictedCaps h.c }).deliverQuar c
    let s := ({ s with disp := { s.disp with saved := s.disp.saved.erase id_ } }).dropSave t.part v.saveSlot
    (s.resumeSlot c false).wakeCore c.die c.core

/-- EVICTION_RESTORE: an evicted task is put back when it is the first that its dispatcher can place (R387, R392). -/
def execEvictionRestore (saved : Nat) (s : State) : Res :=
  match s.disp.saved.find? saved with
  | none => .next s
  | some v =>
    if !v.evicted then .next s
    else
      match s.savedSpot v with
      | none => .next s
      | some (c, o) =>
        match s.firstTransit c.die, s.firstSpot c.die with
        | none, some (.saved i, _, _) => if i = saved then .next (s.restoreEvicted saved v c o) else .next s
        | _, _ => .next s

/-! ### Core errors (R50, R362, R366, R394–R396) -/

/-- TVAL of a gang fault: the failing core (R367). -/
def gangVal (die core : Nat) : Nat := core + die * 16

/-- A member of a faulted gang stops: ended on the failing core, where its accepted commands run on; elsewhere a running one leaves what it
waits in and is trapped, with GANGPEND set (R366, R394). -/
def State.faultMember (s : State) (die core : Nat) (c : CtxId) : State :=
  let f := gangVal die core
  let s := s.modHart c fun h => { h with task := { h.task with gangPend := some f } }
  if c.die = die && c.core = core then (s.abortLaunch (s.hartAt c).task).endTask c Cause.gangFault.code false
  else if (s.hartAt c).status = .trapped || !s.coreRuns c then s
  else ((s.leaveTables c).dropRequest c).trapContext c .gangFault (BitVec.ofNat 64 f) 4

/-- A gang meets a core error: its channels are poisoned, every member stops, wherever it is (R394). -/
def State.gangFault (s : State) (die core : Nat) (t : TaskInfo) : State :=
  let lead := t.lead
  let f := gangVal die core
  let mine := fun u : TaskInfo => u.gang && u.lead = lead
  let members := s.gangContexts t
  let chans := (List.filter (fun p : Nat × Channel => p.2.gang = some lead) s.shared.channels).map (·.1)
  let s := match s.launch? lead with
    | some l => s.modChain l.chain fun c => { c with faulted := setInsert c.faulted (rGang l.record) }
    | none => s
  let s := chans.foldl State.poisonChannel s
  let s := { s with disp := { s.disp with
    conts := s.disp.conts.map fun p =>
      if mine p.2.hart.task then
        (p.1, { p.2 with complete := false, since := s.steps, fate := some (.gangFault, BitVec.ofNat 64 f) })
      else p
    saved := s.disp.saved.map fun p =>
      if mine p.2.hart.task then
        (p.1, { p.2 with hart := { p.2.hart with task := { p.2.hart.task with gangPend := some f } } })
      else p } }
  members.foldl (fun s c => s.faultMember die core c) s

/-- The description of a task at its replay point (R395, R396). -/
def TaskInfo.replayed (t : TaskInfo) : TaskInfo :=
  { t.issued with
    groups := 0, livex := 0, sideEffect := false, gangPend := Option.none, derr := false, gsync := Option.none, launching := Option.none
    heldChans := [] }

/-- The context of a task at its replay point: its NODE image, or entry (R38, R395, R396). -/
def State.replayHart (s : State) (c : CtxId) : Hart :=
  let t := (s.hartAt c).task
  match s.disp.replay.find? t.uid with
  | some h => h
  | none =>
    let t := t.replayed
    t.entryHart t.args (match t.transit with
      | some x => slotCap x.slot x.fill (s.mslot c.die x.slot).xbytes
      | none => Cap.null)

/-- A lost task may be replayed: no side effect, and a transit task's slot is still live with its fill before its
deadline (R396). -/
def State.mayReplay (s : State) (c : CtxId) : Bool :=
  let t := (s.hartAt c).task
  !t.sideEffect &&
    (match t.transit with
      | some x =>
        let m := s.mslot c.die x.slot
        m.live && m.fill % 256 = x.fill % 256 && s.polestar < x.deadline
      | none => true)

/-- A task's slot is empty and the task waits to be replayed; what it issued and was accepted is not recalled (R396). -/
def State.replayTask (s : State) (c : CtxId) : State :=
  let v := s.replayHart c
  let t := (s.hartAt c).task
  let s := (((s.drainStores c).abortLaunch t).leaveJobs c).leaveWaits c
  let s := (s.leavePhases t.ident fun _ => true).setHart c Hart.fresh
  s.keepSaved ⟨v, c, false, true, none, none, s.steps⟩

/-- What becomes of a task of a failed core that is in no gang: with an intact image it is evicted, or stays in its stopped slot until it
can be; else it is replayed or ended, its accepted commands running on (R61, R362, R396). Whether an image is intact is the error's: a free
value (log 11). -/
def State.loseTask (s : State) (c : CtxId) : State :=
  if !s.holds c then s
  else if (Config.freeWord s.steps).getLsbD c.slot then if s.evictable c then s.evictOne c else s
  else if s.mayReplay c then s.replayTask c
  else (s.abortLaunch (s.hartAt c).task).endTask c Cause.replayBlocked.code false

/-- Every group with a member on a core goes dead (R439). -/
def State.deadGroups (s : State) (die core : Nat) : State :=
  let mine := fun w : Nat => w % 2 ^ 10 = s.fabric.self && bitsOf w 12 10 = die && bitsOf w 16 13 = core
  ((List.filter (fun p : Nat × Group => p.2.members.any mine) s.shared.groups).map (·.1)).foldl State.failGroup s

/-- A core error meets a slot that is reserved for a gang: in CHECKING the reservations of the chain are undone, to be made again; the gang
of a running chain faults before it starts (R36, R49, R394). -/
def State.loseReserved (s : State) (c : CtxId) : State :=
  let t := (s.hartAt c).task
  if (s.hartAt c).status ≠ .reserved then s
  else if !s.chainRuns t.chain then s.undoReserve t.chain
  else
    let ls := (s.chainLaunches t.chain).filter fun p => rGanged p.2.record && s.gangLead p.1 = t.lead
    let s := ls.foldl (fun s p => s.failRest p.1 Cause.gangFault.code) s
    { s with shared := { s.shared with channels := List.filter (fun p : Nat × Channel => p.2.gang ≠ some t.lead) s.shared.channels } }

/-- CORE_ERROR: gangs on the core fault, its other tasks are saved, replayed or ended, its collective groups are dead, and
the core is reported failed (R362, R394, R396, R439). -/
def execCoreError (die core : Nat) (s : State) : Res :=
  if (s.coreAt die core).failed || (s.coreAt die core).retired then .next s
  else
    let slots := (List.range 4).map fun k => (⟨die, core, k⟩ : CtxId)
    let s := slots.foldl State.loseReserved s
    let s := slots.foldl (fun s c => if s.holds c && (s.hartAt c).task.gang then s.gangFault die core (s.hartAt c).task else s) s
    let s := (slots.foldl State.loseTask s).deadGroups die core
    .next ((s.modCore die core fun k => { k with failed := true }).notify (.coreFailed die core)).reapChains

/-- SPARE_SUBSTITUTION: a failed core whose slots are empty gives its number to the die's spare; a second failed core of
the die stays retired (R445). Its firmware context waits for a restart. -/
def execSpareSubstitution (die core : Nat) (s : State) : Res :=
  let k := s.coreAt die core
  if !k.failed || k.retired || !((List.range 4).all fun i => !s.holds ⟨die, core, i⟩) then .next s
  else if s.plat.spares.any fun p => p.1 = die then .next (s.modCore die core fun k => { k with retired := true })
  else
    let s := s.modCore die core fun k => { Core.reset with tvec := k.tvec, failed := true, cycle0 := s.clock - (s.dieAt die).lag }
    let s := s.setHart (fwOf die core) Hart.fresh
    .next { s with plat := { s.plat with spares := s.plat.spares ++ [(die, core)], closed := s.plat.closed ++ [(die, core)] } }

/-! ### The barrier watchdog (R58, R266) -/

/-- The barrier watchdog of a partition in ticks (R408). -/
def State.watchdog (s : State) (part : Nat) : Nat :=
  let w := field (s.partOf part).desc 88 4
  if w = 0 then 2 ^ 24 else w

/-- BARRIER_WATCHDOG: a BARWAIT blocked for the watchdog time on a phase that is still unmet takes BARRIER_STALL; the barrier is unchanged
(R266). -/
def execBarrierWatchdog (die core slot : Nat) (s : State) : Res :=
  let c : CtxId := ⟨die, core, slot⟩
  let h := s.hartAt c
  match h.task.wait, h.task.waiting with
  | some (.barrier k token x), some w =>
    if slot < 4 && h.status = .blocked && s.coreRuns c && (s.barrierAt k).phase = token && w + s.watchdog h.task.part ≤ s.polestar then
      .next (s.trapContext c .barrierStall x 4)
    else .next s
  | _, _ => .next s

end Sys2Proof.Machine
end

