-- ==== Sys2Proof/Machine/Partition.lean ====
section
/-! DEFINITION. Partitions, migration, and the dispatcher commands of R410 (R406, R408–R414). -/

namespace Sys2Proof.Machine

/-! ### Partition descriptors (R408, R409) -/

/-- A root pointer entry has no reserved bit and no reserved code (R401, R408). -/
def rootOk (e : Nat) : Bool := bitsOf e 63 48 = 0 && bitsOf e 11 10 = 0 && !bitOf e 7 && bitsOf e 9 8 ≠ 3

/-- The fields of a partition descriptor are in range and its reserved bits zero; its addresses have 48 bits (R400, R408). -/
def descOk (d : List Byte) : Bool :=
  let arc := fun i : Nat =>
    let o := 128 + 8 * i
    field d (o + 1) 1 = 0 && field d (o + 6) 1 < 2 && field d (o + 7) 1 = 0
  let share := fun i : Nat =>
    let w := field d (192 + 4 * i) 4
    bitsOf w 15 10 = 0 && bitsOf w 31 27 = 0 && w % 2 ^ 10 + bitsOf w 26 16 ≤ 1024
  field d 0 2 ≤ 4095 && ((List.range 4).all fun i => rootOk (field d (8 + 8 * i) 8)) &&
  ([40, 48, 64, 72, 104].all fun o => field d (o + 6) 2 = 0) && field d 2 1 < 2 && field d 3 1 < 2 && field d 4 1 < 64 && field d 5 3 = 0 &&
  field d 40 8 % 256 = 0 && field d 56 4 ≤ 4096 && field d 60 4 = 0 && powerIn (field d 80 4) 2 65536 &&
  field d 84 2 < 2 ^ 11 && field d 86 2 = 0 && (field d 88 4 = 0 || 2 ^ 10 ≤ field d 88 4) && field d 92 4 = 0 &&
  (List.range 8).all arc && (List.range 8).all share && field d 240 16 = 0

/-- An arc of a descriptor holds a position of a ring of `n` positions (R408). -/
def arcHolds (d : List Byte) (ring n pos : Nat) : Bool :=
  (List.range 8).any fun i =>
    let o := 128 + 8 * i
    bitOf (field d (o + 6) 1) 0 && field d o 1 = ring &&
      decide ((pos + n - field d (o + 2) 2 % Nat.max 1 n) % Nat.max 1 n < field d (o + 4) 2)

/-- A descriptor removes no die from the arc of a live launch (R411). -/
def State.keepsArcs (s : State) (part : Nat) (d : List Byte) : Bool :=
  (List.filter (fun p : Nat × Launch => p.2.part = part) s.disp.launches).all fun p =>
    let r := p.2.record
    match s.ring? (rRing r) with
    | none => true
    | some g => (List.range (rArcLen r)).all fun j =>
      let pos := (rArcFirst r + j) % Nat.max 1 g.size
      !arcHolds (s.partOf part).desc (rRing r) g.size pos || arcHolds d (rRing r) g.size pos

/-- Another partition placed in the partition table has a wake-window slot (R408). -/
def State.slotTaken (s : State) (part slot : Nat) : Bool :=
  s.tableHomes.any fun k => s.homeNat k 2 ≠ 0 && s.homeNat k 2 ≠ part && s.homeNat (k + 4) 1 = slot

/-- Stop the migrations of a partition: their leaves are as before, their commands fail (R410). -/
def State.stopMigrations (s : State) (part : Nat) : State :=
  let mine := s.disp.migrations.filter fun m => m.part = part
  let s := { s with disp := { s.disp with migrations := s.disp.migrations.filter fun m => m.part ≠ part } }
  mine.foldl (fun s m => (s.writeHomeNat 0 m.leaf 8 m.old).commandDone m.ctr false) s

/-- Poison the granted channels of a partition (R413). -/
def State.revokeAll (s : State) (part : Nat) : State :=
  let ids := (List.filter (fun p : Nat × Channel => p.2.granted.contains part) s.shared.channels).map (·.1)
  (ids.foldl State.poisonChannel s).reapRevoked

/-- The groups of a removed partition end: every command that waits in one ends with error (R348, R409, R439). -/
def State.endGroups (s : State) (part : Nat) : State :=
  let mine := (List.filter (fun p : Nat × Group => p.2.part = part) s.shared.groups).map (·.1)
  let s := mine.foldl State.failGroup s
  { s with shared := { s.shared with groups := List.filter (fun p : Nat × Group => p.2.part ≠ part) s.shared.groups } }

/-- Remove a partition: tear-down, migrations, grants; nothing of it is cached any more (R386, R409, R410, R413). -/
def State.removePartition (s : State) (part : Nat) : State :=
  let s := (((s.tearPartition part).stopMigrations part).revokeAll part).endGroups part
  { s with disp := { s.disp with parts := s.disp.parts.erase part } }

/-- What a dispatcher reads by physical address: its uncorrectable words enter the memory-error log (R112, log 48). -/
def State.noteHome (s : State) (k n : Nat) : State := s.logErrors .dispatcher 0 (s.badWords k n)

/-- The latches when a descriptor is loaded: the first one of a partition table clears those kept over a PS3 exit whose partition the
table does not hold (R446, log 70). -/
def State.placedLatches (s : State) : SMap Latch :=
  if s.disp.parts.any fun p => p.2.active then s.disp.latches
  else List.filter (fun p : Nat × Latch => !p.2.hold || (s.descHome (p.1 / 4096)).isSome) s.disp.latches

/-- The almanac view the firmware builds (R412). -/
def Fabric.almanac (f : Fabric) : List Byte :=
  let hops := fun i : Nat => bitsOf (f.routes.getD i (3 * 2 ^ 5)) 6 5
  let mask := fun p : Nat → Bool => ((List.range 993).map fun i => if p i then 2 ^ i else 0).sum
  leBytes 128 (mask fun i => decide (hops i < 3)) ++ leBytes 128 (mask fun i => decide (hops i = 1))

/-- The firmware writes a partition's almanac view where its descriptor says (R412, log 37). -/
def State.writeView (s : State) (part : Nat) : State :=
  match s.physical part 3 (field (s.partOf part).desc 40 8) with
  | some k => s.writeHomeBytes 0 k s.fabric.almanac
  | none => s

/-- PLOAD: every dispatcher re-reads a descriptor; one without ACTIVE removes the partition; one newly loaded gets the almanac view of the
topology as it is (R409, R410, R412). -/
def execPload (part ctr : Nat) (s : State) : Res :=
  match s.descHome part with
  | none => command ctr s none
  | some k =>
    let d := s.homeBytes k 256
    let s := s.noteHome k 256
    let full := 64 ≤ (s.disp.parts.filter fun p => p.1 ≠ 0 && p.1 ≠ part && p.2.active).length && part ≠ 0
    if !descOk d || (part ≠ 0 && s.slotTaken part (field d 4 1)) || s.badWords k 256 ≠ [] then command ctr s none
    else if !bitOf (field d 3 1) 0 then command ctr s (some (s.removePartition part))
    else if full || !s.keepsArcs part d then command ctr s none
    else
      let fresh := !(s.partOf part).active
      let s := { s with disp := { s.disp with
        latches := s.placedLatches
        parts := s.disp.parts.insert part { s.partOf part with desc := d, active := true } } }
      command ctr s (some (if fresh then s.writeView part else s))

/-! ### Migration (R406) -/

/-- One level of the dispatcher's walk: the home of an entry and the entry; an uncorrectable one is logged (R112, R400, R402). -/
def State.walkEntry (s : State) (e i align : Nat) : Option (Nat × Nat) × State :=
  if bitOf e 0 && pointerOk e align then
    let k := tableKey (bitsOf e 9 8) (bitsOf e 47 12 * 4096 + i * 8)
    (if s.badWords k 8 = [] then some (k, s.homeNat k 8) else none, s.noteHome k 8)
  else (none, s)

/-- The home of the leaf entry of a space-3 page and the entry, if the address is mapped by a page (R406). -/
def State.pageLeaf (s : State) (part va : Nat) : Option (Nat × Nat) × State :=
  match s.walkEntry (s.root part 3) (va / 2 ^ 38) (2 ^ 13) with
  | (none, s) => (none, s)
  | (some (_, a), s) =>
    match s.walkEntry a (va / 2 ^ 27 % 2 ^ 11) (2 ^ 14) with
    | (none, s) => (none, s)
    | (some (_, b), s) =>
      match (if bitOf b 1 then s.walkEntry b (va / 2 ^ 16 % 2 ^ 11) (2 ^ 14) else (none, s)) with
      | (some (k, e), s) => (if bitOf e 0 && leafOk e (2 ^ 16) then some (k, e) else none, s)
      | (none, s) => (none, s)

/-- MIGRATE: steps 1 and 2: the leaf migrates, and the page leaves every cache (R406). -/
def execMigrate (part va pa ctr : Nat) (s : State) : Res :=
  let fresh := pa % 2 ^ 16 = 0 && (s.physical part 3 pa).isSome && (s.physical part 3 (pa + 2 ^ 16 - 1)).isSome
  match s.pageLeaf part (va % 2 ^ 48) with
  | (none, s) => command ctr s none
  | (some (k, e), s) =>
    if bitOf e 6 || !fresh || !(s.partOf part).active || 2 ^ 48 ≤ va then command ctr s none
    else
      let s := s.writeHomeNat 0 k 8 (e + 64)
      .next { s with disp := { s.disp with
        xcache := s.disp.xcache.filter fun x => !(x.part = part && x.space = 3 && x.covered 0 part va)
        migrations := s.disp.migrations ++ [⟨part, va / 2 ^ 16 * 2 ^ 16, k, e, pa, ctr⟩] } }

/-- An access that waits in some queue or buffer is to a frame (R406). -/
def State.frameBusy (s : State) (k : Nat) : Bool :=
  let inside := fun j : Nat => k ≤ j && j < k + 2 ^ 16
  ((s.contexts.flatMap fun c => (s.hartAt c).stores) ++ s.dies.flatMap fun p => p.2.outbound).any (fun p => p.keys.any inside) ||
    s.contexts.any fun c => (s.hartAt c).loads.any fun r => r.waitsAt inside

/-- Copy a 64 KiB frame with its tags and uncorrectable words (R406). -/
def State.copyFrame (s : State) (src dst : Nat) : State :=
  let n := 2 ^ 16
  let inside := fun x : Nat => dst ≤ x && x < dst + n
  let from_ := fun x : Nat => src ≤ x && x < src + n
  { s with
    mem := memSetAll (s.mem.filter fun c => !inside c.1) ((s.mem.filter fun c => from_ c.1).map fun c => (c.1 - src + dst, c.2))
    tags := ((s.tags.filter fun g => from_ (g * 16)).map fun g => g - src / 16 + dst / 16).foldl setInsert
      (s.tags.filter fun g => !inside (g * 16))
    bad := ((s.bad.filter fun w => from_ (w * 8)).map fun w => w - src / 8 + dst / 8).foldl setInsert
      (s.bad.filter fun w => !inside (w * 8)) }

/-- A wait at a barrier in a frame that has moved goes on at its new place (R406). -/
def Wait.moved (old new : Nat) (w : Wait) : Wait :=
  match w with
  | .barrier k token addr => .barrier (if old ≤ k && k < old + 2 ^ 16 then k - old + new else k) token addr
  | w => w

/-- The contexts that wait at barriers of a frame wait at them in its new place (R406). -/
def State.moveWaits (s : State) (old new : Nat) : State :=
  let g := fun h : Hart => { h with task := { h.task with wait := h.task.wait.map (Wait.moved old new) } }
  { s with hart := g s.hart, parked := s.parked.map fun (p : Nat × Hart) => (p.1, g p.2) }

/-- MIGRATE_COMPLETE: steps 3 to 6, once no access translated through the old leaf is under way (R406). -/
def execMigrateComplete (part va : Nat) (s : State) : Res :=
  match s.disp.migrations.find? fun m => m.part = part && m.va = va / 2 ^ 16 * 2 ^ 16 with
  | none => .next s
  | some m =>
    let old := residentKey (bitsOf m.old 47 12 * 4096)
    if s.frameBusy old then .next s
    else
      let s := (s.copyFrame old (residentKey m.new)).moveWaits old (residentKey m.new)
      let s := s.writeHomeNat 0 m.leaf 8 (m.old - bitsOf m.old 47 12 * 4096 + m.new)
      let s := { s with disp := { s.disp with migrations := s.disp.migrations.filter fun x => x ≠ m } }
      .next (s.commandDone m.ctr true)

/-! ### Cores and continuations (R411) -/

/-- The contexts of a partition on the cores of a die that a mask does not hold, those reserved for a gang among them. -/
def State.removedTasks (s : State) (part die mask : Nat) : List CtxId :=
  s.contexts.filter fun c =>
    c.die = die && !bitOf mask c.core && c.slot < 4 && (s.hartAt c).status ≠ .empty && (s.hartAt c).task.part = part

/-- The chain of a slot reserved in CHECKING gives its reservations up, to make them on other cores; a gang released starts first
(R36, R411). -/
def State.leaveReserved (s : State) (c : CtxId) : State :=
  let t := (s.hartAt c).task
  if (s.hartAt c).status ≠ .reserved || s.chainRuns t.chain then s else s.undoReserve t.chain

/-- The suspended tasks with live extents homed there. -/
def State.removedConts (s : State) (part die mask : Nat) : List (Nat × Cont) :=
  List.filter (fun p : Nat × Cont => p.2.hart.task.part = part && p.2.home.1 = die && !bitOf mask p.2.home.2 &&
    p.2.hart.task.livex ≠ 0) s.disp.conts

/-- The live extent of a suspended task can be read: its home core has not failed (R411). -/
def State.extentReads (s : State) (v : Cont) : Bool :=
  v.hart.task.livex = 0 || !((s.coreAt v.home.1 v.home.2).failed || (s.coreAt v.home.1 v.home.2).retired)

/-- Move a suspended task's extent to the lowest core of its die where it fits, if it can be read (R411). -/
def State.moveAway (s : State) (id_ : Nat) (v : Cont) : State :=
  let t := v.hart.task
  if !s.extentReads v then s
  else
  match (List.range 16).findSome? fun core =>
      if s.coreOpen t.part v.home.1 core && core ≠ v.home.2 then s.moveCont id_ v v.home.1 core else none with
  | some u => u
  | none => s

/-- Go on with a CORESET: tasks on removed cores are evicted and continuations moved as far as they can be; the command
is complete when the cores hold nothing of the partition (R411). -/
def State.workCoreset (s : State) (q : Nat × Nat × Nat × Nat) : State :=
  match q with
  | (part, die, mask, ctr) =>
    let s := (s.removedTasks part die mask).foldl State.leaveReserved s
    let s := (s.removedTasks part die mask).foldl (fun s c =>
      if s.holds c && s.evictable c then (s.evictGroup c).foldl State.evictOne s else s) s
    let s := (s.removedConts part die mask).foldl (fun s p => s.moveAway p.1 p.2) s
    if s.removedTasks part die mask = [] && s.removedConts part die mask = [] then
      ({ s with disp := { s.disp with coresets := s.disp.coresets.filter (· ≠ q) } }).commandDone ctr true
    else s

/-- CORESET: the cores of a partition on a die change; a command under way goes on (R410, R411, R445). -/
def execCoreset (part die mask ctr : Nat) (s : State) : Res :=
  let q := (part, die, mask, ctr)
  if s.disp.coresets.contains q then .next (s.workCoreset q)
  else if !(s.partOf part).active || 8 ≤ die || 2 ^ 16 ≤ mask || ((List.range 16).any fun k => bitOf mask k && (s.coreAt die k).retired) then
    command ctr s none
  else
    let s := s.writeDesc part (112 + 2 * die) 2 mask
    let s := { s with
      plat := { s.plat with closed := s.plat.closed.filter fun p => !(p.1 = die && bitOf mask p.2) }
      disp := { s.disp with coresets := s.disp.coresets ++ [q] } }
    .next (s.workCoreset q)

/-- The suspended task whose record lies at a space-3 physical address (R51, R410, log 5). -/
def State.contAt (s : State) (pa : Nat) : Option (Nat × Cont) :=
  List.find? (fun p : Nat × Cont => s.contKey p.2.home.1 p.2.record = residentKey pa) s.disp.conts

/-- MOVECONT: the suspended task whose record lies at an address moves its live extent and its home to a core, named as a record names its
home; without room there the command waits (R51, R410, R411, log 5). -/
def execMovecont (part rec core ctr : Nat) (s : State) : Res :=
  let q := (part, rec, core, ctr)
  let s := { s with disp := { s.disp with moveconts := s.disp.moveconts.filter (· ≠ q) } }
  match s.contAt rec with
  | none => command ctr s none
  | some (id_, v) =>
    if v.hart.task.part ≠ part || 128 ≤ core || !s.extentReads v then command ctr s none
    else
      match s.moveCont id_ v (core / 16) (core % 16) with
      | some u => command ctr s (some u)
      | none => .next { s with disp := { s.disp with moveconts := s.disp.moveconts ++ [q] } }

/-! ### Channels (R413, R414) -/

/-- Where a channel descriptor's bit stands in a partition's allocation bitmaps. -/
def chanBit (handle : Nat) : Nat := 2048 + handle

/-- GRANT: a descriptor FREE in both bitmaps becomes one channel of two partitions. R413 gives it no size, depth, scope,
rank or formats: free values in their ranges (log 27). -/
def execGrant (handle prodPart prodBase consPart consBase ctr : Nat) (s : State) : Res :=
  let w := (Config.freeWord s.steps).toNat
  let third := s.disp.parts.any fun p => p.1 ≠ prodPart && p.1 ≠ consPart && p.2.active && s.allocated p.1 (chanBit handle)
  let ok := handle < 4096 && (s.partOf prodPart).active && (s.partOf consPart).active && prodPart ≠ consPart && !third &&
    (s.shared.channels.find? handle).isNone && !s.allocated prodPart (chanBit handle) && !s.allocated consPart (chanBit handle)
  let word := fun k : Nat => BitVec.ofNat 16 (w / 2 ^ k % 2 ^ 15 + (if bitOf w 63 then 2 ^ 15 else 0))
  command ctr s (
    if !ok then none
    else
      let c : Channel :=
        { part := prodPart, base := prodBase, size := w % 11, depth := w / 16 % 4095 + 2, rsv := 0, take := 0, scope := w / 2 ^ 16 % 5
          rank := w / 2 ^ 20 % 256, srcFmt := word 28, sinkFmt := word 44, poison := false, gang := none
          grant := some (prodPart, prodBase % 2 ^ 48, consPart, consBase % 2 ^ 48), slots := [], waiters := [] }
      some (((s.setChannel handle c).setAllocated prodPart (chanBit handle) true).setAllocated consPart (chanBit handle) true))

/-- REVOKE (R413). -/
def execRevoke (handle ctr : Nat) (s : State) : Res :=
  command ctr s (
    match s.shared.channels.find? handle with
    | none => none
    | some c => if c.grant.isNone then none else some (s.poisonChannel handle).reapRevoked)

/-- A channel record is in range, its reserved bits zero, its formats of one EN (R280, R414). -/
def chanRecordOk (r : List Byte) : Bool :=
  let src := field r 16 2
  let sink := field r 18 2
  field r 6 2 = 0 && field r 8 1 ≤ 10 && field r 0 6 % (64 * 2 ^ field r 8 1) = 0 && field r 9 1 ≤ 4 && field r 11 1 = 0 &&
  2 ≤ field r 12 2 && field r 12 2 ≤ 4096 && field r 14 2 = 0 && field r 20 12 = 0 && (wEn src == wEn sink) &&
  (if wEn src then sourceOk src else src = 0) && sinkOk sink (wType src)

/-- CHCREATE (R414). -/
def execChcreate (part die desc pa ctr : Nat) (s : State) : Res :=
  let h := die * 512 + desc
  match (if pa % 32 = 0 then s.physical part 3 pa else none) with
  | none => command ctr s none
  | some k =>
    let s := s.noteHome k 32
    command ctr s (
      let r := s.homeBytes k 32
      if 8 ≤ die || 512 ≤ desc || !(s.partOf part).active || !s.allocated part (chanBit h) || (s.shared.channels.find? h).isSome ||
          s.badWords k 32 ≠ [] || !chanRecordOk r then none
      else
        some (s.setChannel h
          { part := part, base := field r 0 6, size := field r 8 1, depth := field r 12 2, rsv := 0, take := 0
            scope := field r 9 1, rank := field r 10 1, srcFmt := BitVec.ofNat 16 (field r 16 2)
            sinkFmt := BitVec.ofNat 16 (field r 18 2), poison := false, gang := none, grant := none, slots := [], waiters := [] }))

/-- CHFREE (R414). -/
def execChfree (part die desc ctr : Nat) (s : State) : Res :=
  let h := die * 512 + desc
  command ctr s (
    match s.shared.channels.find? h with
    | none => none
    | some c =>
      if c.part ≠ part || c.grant.isSome || c.count 1 ≠ 0 || c.count 3 ≠ 0 then none
      else some { s with shared := { s.shared with channels := s.shared.channels.erase h } })

/-! ### The almanac view (R412) -/

/-- HOPS of a package in the routing table: 3 where it is unreachable (R430). -/
def State.hopsTo (s : State) (pkg : Nat) : Nat :=
  if pkg = s.fabric.self then 0
  else
    match s.fabric.routes.find? pkg with
    | some e => bitsOf e 6 5
    | none => 3

/-- An almanac view meets R412. -/
def State.viewOk (s : State) (v : List Byte) : Bool :=
  let mem := field v 0 128
  let adj := field v 128 128
  bitOf mem s.fabric.self && (adj &&& mem) = adj && (List.range 1024).all fun i => !bitOf mem i || s.hopsTo i < 3

/-- ALMSET: load a partition's almanac view (R410, R412). -/
def execAlmset (part ctr : Nat) (s : State) : Res :=
  match (if (s.partOf part).active then s.physical part 3 (field (s.partOf part).desc 40 8) else none) with
  | none => command ctr s none
  | some k =>
    let s := s.noteHome k 256
    command ctr s (
      let v := s.homeBytes k 256
      if s.badWords k 256 ≠ [] || !s.viewOk v then none
      else some { s with disp := { s.disp with parts := s.disp.parts.insert part { s.partOf part with view := v } } })

end Sys2Proof.Machine
end

