-- ==== Sys2Proof/Machine/Ring.lean ====
section
/-! DEFINITION. Rings: segments, their emission, transit and expansion, the ring commands, loss and repair (R12–R26,
R415–R427, R453, R454). -/

namespace Sys2Proof.Machine

/-! ### Positions, rates and the rotation (R15–R17, R415, R424, R425) -/

/-- The next position downstream that is not bypassed (R16, R424). -/
def Ring.next? (r : Ring) (pos : Nat) : Option Nat :=
  ((List.range r.size).map fun k => (pos + 1 + k) % Nat.max 1 r.size).find? fun p => !r.bypassed.contains p

/-- The positions strictly between two in ring direction. -/
def Ring.between (r : Ring) (a b : Nat) : List Nat :=
  (List.range ((b + r.size - a - 1) % Nat.max 1 r.size)).map fun k => (a + 1 + k) % Nat.max 1 r.size

/-- The next position upstream that is not bypassed (R16, R424). -/
def Ring.prev? (r : Ring) (pos : Nat) : Option Nat :=
  ((List.range r.size).map fun k => (pos + 2 * r.size - 1 - k) % Nat.max 1 r.size).find? fun p => !r.bypassed.contains p

/-- Links from one position to another in ring direction; a bypass is one link (R17, R424). -/
def Ring.hops (r : Ring) (a b : Nat) : Nat :=
  if a = b then 0 else ((r.between a b).filter fun p => !r.bypassed.contains p).length + 1

/-- The dies of this package on a ring. -/
def Ring.dies (r : Ring) (self : Nat) : List Nat := (List.range 8).filter fun d => (r.posOf self d).isSome

/-- Write a ring. -/
def State.setRing (s : State) (id_ : Nat) (r : Ring) : State := { s with rings := s.rings.insert id_ r }

/-- A segment that the rotation carries: its home copy is good or being restored (R426, R454). -/
def Home.turns (h : Home) : Bool := h.state = .good || h.state = .restoring

/-- Bytes of a segment on a link: header and payload (R17). -/
def Home.size (h : Home) : Nat := 64 + h.cbytes

/-- The entries of the rotation order that rotate. -/
def Ring.turning (r : Ring) : List Home := r.order.filter Home.turns

/-- The places of the packages of the ring that are bypassed whole (R424). -/
def Ring.bypassedPlaces (r : Ring) : List Nat :=
  if r.config ≠ 3 then [] else (List.range r.packages.length).filter fun p => (List.range 8).all fun d => r.bypassed.contains (8 * p + d)

/-- Lane-equivalents granted to the bypass of a package (R425). -/
def Ring.granted (r : Ring) (place : Nat) : Nat := (r.lanes.getD place (0, 0)).1

/-- B of R17 in sevenths of a byte per tick: 2.0 TB/s in a package, 832 GB/s between packages, (4 + a) × 52 GB/s over each
bypassed package (R425), at 1.75 GHz. -/
def Ring.rate (r : Ring) : Nat :=
  if r.config ≠ 3 then 8000 else (r.bypassedPlaces.map fun p => (4 + r.granted p) * 208).foldl Nat.min 3328

/-- Ticks that bytes take on the slowest link, rounded down to whole ticks (DESIGN CHOICE, log 110). -/
def Ring.passage (r : Ring) (n : Nat) : Nat := n * 7 / r.rate

/-- The sum of hops between neighbours of a list of entries. -/
def Ring.hopSum (r : Ring) (l : List Home) : Nat := ((l.zip (l.drop 1)).map fun p => r.hops p.1.home p.2.home).sum

/-- The rotation period in ticks (R17): S / B is rounded down (DESIGN CHOICE, log 110). -/
def Ring.cycle (r : Ring) : Nat :=
  let l := r.turning
  r.passage (l.map Home.size).sum + r.hopSum (l ++ l.take 1) * 160

/-- The upper bound of the slack limit: the whole ticks in six passages of the largest segment (R21, R352, log 110). -/
def Ring.slackBound (r : Ring) : Nat := r.passage (6 * (r.order.map Home.size).foldl Nat.max 0)

/-- The predicted first PRESENT tick of the `i`-th rotating entry at a position (R420): the division is rounded down (DESIGN CHOICE, log
110). -/
def Ring.predict (r : Ring) (i pos : Nat) : Nat :=
  let l := r.turning.take (i + 1)
  r.start + r.passage (l.map Home.size).sum + (r.hopSum l + r.hops ((l.getLast?.map (·.home)).getD 0) pos) * 160 + 64

/-- The entries whose passing lets entry `i` be emitted: the nearest one before it that rotates, and those lost after it
(R15, R426, R454). -/
def Ring.before (r : Ring) (i : Nat) : List Nat :=
  let n := r.order.length
  let back := (List.range n).map fun k => (i + 2 * n - 1 - k) % Nat.max 1 n
  let turns := fun j : Nat => (r.order[j]?.map Home.turns).getD false
  (back.takeWhile fun j => !turns j) ++ (back.find? turns).toList

/-- The key of a tag in the ephemeris and the MISSING marks (R303, R307). -/
def segKey (image tag : Nat) : Nat := image + tag * 2 ^ 16

/-- No gap is wider than one die, or one whole package (R424). -/
def Ring.spanned (r : Ring) : Bool :=
  let live := (List.range r.size).filter fun p => !r.bypassed.contains p
  !live.isEmpty && live.all fun p =>
    match r.next? p with
    | none => false
    | some q => (r.between p q).length ≤ 1 || (r.config = 3 && (r.between p q).length = 8 && (p + 1) % 8 = 0)

/-- A ring that turns is RUNNING when nothing is bypassed or MISSING, BROKEN with a gap that no bypass spans, else DEGRADED (R416). -/
def State.settleRing (s : State) (id_ : Nat) : State :=
  match s.ring? id_ with
  | none => s
  | some r =>
    if r.mode = .running || r.mode = .degraded then
      let clean := r.bypassed.isEmpty && r.order.all (fun h => h.state == .good) &&
        (r.dies s.fabric.self).all fun d => r.order.all fun h => !(s.dieAt d).missing.contains (segKey r.image h.tag)
      s.setRing id_ { r with mode := if !r.spanned then .broken else if clean then .running else .degraded }
    else s

/-- Mark tags MISSING on every die of a ring in this package (R426, R454). -/
def State.markMissing (s : State) (r : Ring) (tags : List Nat) : State :=
  (r.dies s.fabric.self).foldl (fun s d => s.modDie d fun x =>
    { x with missing := tags.foldl (fun l t => setInsert l (segKey r.image t)) x.missing }) s

/-- After a repair or rejoin the firmware rewrites PERIOD and every ephemeris entry; the entries are predictions within a
period, which bind nothing: free values (R420, log 29). -/
def State.rewriteRing (s : State) (id_ : Nat) : State :=
  match s.ring? id_ with
  | none => s
  | some r =>
    let p := r.cycle
    let s := s.setRing id_ { r with period := p }
    (r.dies s.fabric.self).foldl (fun s d => s.modDie d fun x =>
      { x with
        period := p
        ephemeris := r.turning.foldl (fun m h =>
          let k := segKey r.image h.tag
          m.insert k (s.polestar + 1 + (Config.freeWord (s.steps + 2 ^ 64 * (1 + d + 8 * k))).toNat % Nat.max 1 p)) x.ephemeris }) s

/-! ### Segments (R12, R13, R19, R453) -/

/-- DIGEST over header bytes 0–15 and 32–63 and the payload (R12). -/
def segmentDigest (bs : List Byte) : List Byte := (sha384 (bs.take 16 ++ bs.drop 32)).take 8

/-- Header and digest of a segment agree with R12, R13, R19 and R453. -/
def segmentOk (bs : List Byte) : Bool :=
  let cb := field bs 4 4
  let xb := field bs 8 4
  let fmt := field bs 12 1
  let dens := field bs 13 1
  let pl := field bs 14 1
  1 ≤ cb && cb ≤ 0x800000 && 1 ≤ xb && xb ≤ 0x1000000 && fmt ≤ 5 && [2, 4, 8, 16].contains dens && 1 ≤ pl && pl ≤ 16 &&
  (fmt ≠ 1 || pl = 4) && (fmt ≠ 4 || pl = 8) && field bs 15 1 = 0 && field bs 32 2 < 2 ^ 11 && field bs 34 30 = 0 &&
  bs.length = 64 + cb && cb % recordBytes fmt dens = 0 && xb = cb / recordBytes fmt dens * panelBytes fmt pl &&
  (bs.drop 24).take 8 == segmentDigest bs

/-! ### Claiming a slot (R20, R22, R23) -/

/-- The slot with the oldest PRESENT time, the lowest number on a tie. -/
def State.oldestSlot (s : State) (die : Nat) (l : List Nat) : Option Nat :=
  l.foldl (fun best i =>
    match best with
    | none => some i
    | some j => if (s.mslot die i).present < (s.mslot die j).present then some i else some j) none

/-- The slot that an arriving segment claims (R23). -/
def State.claimSlot (s : State) (die image tag : Nat) : Option Nat :=
  let six := List.range 6
  let kept := six.filter fun i => (s.mslot die i).retained
  match six.find? fun i => (s.mslot die i).state = 0 with
  | some i => some i
  | none =>
    match kept.find? fun i => (s.mslot die i).image = image && (s.mslot die i).tag = tag with
    | some i => some i
    | none =>
      match s.oldestSlot die kept with
      | some i => some i
      | none => s.oldestSlot die (six.filter fun i => (s.mslot die i).live && (s.mslot die i).deadline < s.polestar)

/-- A slot as the receiver claims it: the fill count rises at once (R20). -/
def MSlot.claimed (m : MSlot) (ring : Nat) (f : Flight) : MSlot :=
  { m with
    state := 1, fill := m.fill + 1, image := field f.bytes 0 2, tag := field f.bytes 2 2, opens := 0, holds := 0
    fmt := field f.bytes 12 1, planes := field f.bytes 14 1, xbytes := field f.bytes 8 4, ring := ring, entry := f.index
    incoming := if f.cut then [] else f.bytes }

/-- A header arrives at a die: it clears MISSING for its tag, unless it is of a copy found bad (R426, R454), and claims a
slot; with none the overrun is counted (R23). -/
def State.receive (s : State) (die ring : Nat) (f : Flight) : State :=
  let image := field f.bytes 0 2
  let tag := field f.bytes 2 2
  let s := if f.old then s else s.modDie die fun d => { d with missing := d.missing.filter (· ≠ segKey image tag) }
  match s.claimSlot die image tag with
  | some i => s.modSlot die i fun m => m.claimed ring f
  | none => s.modDie die fun d => { d with overrun := d.overrun + 1 }

/-! ### Emission and forwarding (R15, R16, R18) -/

/-- A segment leaves a position: the transmitter's last entry is noted, and the segment is on the link to the next live
position. One whose home is passed over leaves the ring, what a silent member sends is lost, as does one to another package, which comes back as an input
(R15, R18, R424, log 30). -/
def State.passOn (s : State) (ring pos : Nat) (f : Flight) : State :=
  match s.ring? ring with
  | none => s
  | some r =>
    let turns := (r.order[f.index]?.map Home.turns).getD false
    let s := if turns then s.setRing ring { r with sent := r.sent.insert pos f.index } else s
    match r.next? pos with
    | none => s
    | some q =>
      let skipped := (r.order[f.index]?.map fun h => (r.between pos q).contains h.home).getD false
      if skipped || (r.silent.find? pos).isSome || (r.dieAt s.fabric.self q).isNone then s
      else { s with flights := s.flights.insert ((s.flights.map (·.1)).foldl Nat.max 0 + 1) { f with dest := q } }

/-- Emit an entry from its home copy, stamping DEPART; its own transit on the home die takes place as it departs (R12,
R18, R113, R419). -/
def State.emit (s : State) (ring i : Nat) (h : Home) (die : Nat) : State :=
  let k := residentKey (die * 2 ^ 30 + (s.dieAt die).imageBase + h.off)
  let bad := s.badWords k h.size
  let raw := s.homeBytes k h.size
  let f : Flight := ⟨ring, i, raw.take 16 ++ leBytes 8 s.polestar ++ raw.drop 24, 0, !bad.isEmpty, false⟩
  let s := s.logErrors .receiver 0 bad
  ((s.receive die ring f).passOn ring h.home f).settleRing ring

/-- The entry of a ring that a die of this package may emit now (R15). -/
def State.nextEmission (s : State) (r : Ring) : Option (Nat × Home × Nat) :=
  (r.order.zipIdx).findSome? fun (p : Home × Nat) =>
    match r.dieAt s.fabric.self p.1.home with
    | none => none
    | some d =>
      let last := r.sent.find? p.1.home
      if p.1.state = .good && !r.bypassed.contains p.1.home && (r.silent.find? p.1.home).isNone && (last.map fun j => (r.before p.2).contains j).getD false then
        some (p.2, p.1, d)
      else none

/-- A ring turns and nothing stops its emissions (R416, R417). -/
def Ring.emits (r : Ring) : Bool := (r.mode = .running || r.mode = .degraded) && r.stopping.isEmpty

/-- SEGMENT_EMISSION (R15). -/
def execSegmentEmission (ring : Nat) (s : State) : Res :=
  match s.ring? ring with
  | none => .next s
  | some r =>
    if !r.emits || !r.started then .next s
    else
      match s.nextEmission r with
      | some (i, h, d) => .next (s.emit ring i h d)
      | none => .next s

/-- FIRST_EMISSION: at tick T_s entry 0 is emitted without a predecessor; while its home copy is being restored it waits (R419, R454). -/
def execFirstEmission (ring : Nat) (s : State) : Res :=
  match s.ring? ring with
  | none => .next s
  | some r =>
    if !r.emits || r.started || s.polestar < r.start then .next s
    else
      let t := s.setRing ring { r with started := true }
      match (r.order.zipIdx).find? fun (p : Home × Nat) => p.1.turns with
      | none => .next t
      | some (h, i) =>
        if h.state ≠ .good then .next s
        else
          match r.dieAt s.fabric.self h.home with
          | some d => .next (t.emit ring i h d)
          | none => .next t

/-- A flight is the next to arrive at a die: links keep order. -/
def State.arrives (s : State) (die seg : Nat) : Option (Flight × Ring) :=
  match s.flights.find? seg with
  | none => none
  | some f =>
    match s.ring? f.ring with
    | none => none
    | some r =>
      let first := s.flights.all fun (p : Nat × Flight) => !(p.2.ring = f.ring && p.2.dest = f.dest && p.1 < seg)
      if r.dieAt s.fabric.self f.dest = some die && first then some (f, r) else none

/-- The position of an entry's home. -/
def Ring.homeOf (r : Ring) (i : Nat) : Option Nat := r.order[i]?.map (·.home)

/-- A flight is over. -/
def State.dropFlight (s : State) (seg : Nat) : State := { s with flights := s.flights.erase seg }

/-- SEGMENT_ARRIVAL: a header reaches a die that is not the segment's home (R18, R23, R426). -/
def execSegmentArrival (die seg : Nat) (s : State) : Res :=
  match s.arrives die seg with
  | none => .next s
  | some (f, r) =>
    if r.homeOf f.index = some f.dest then .next s
    else .next ((((s.dropFlight seg).receive die f.ring f).passOn f.ring f.dest f).settleRing f.ring)

/-- Count a failed check and post the pair (R19). -/
def State.integrityError (s : State) (die image tag : Nat) : State :=
  (s.modDie die fun d => { d with integrity := d.integrity + 1 }).notify (.integrity die image tag)

/-- ORIGIN_RETURN_CHECK: a segment back at its home die is checked and discarded (R18, R19). -/
def execOriginReturnCheck (seg : Nat) (s : State) : Res :=
  match s.flights.find? seg with
  | none => .next s
  | some f =>
    match (List.range 8).findSome? fun d => (s.arrives d seg).map fun x => (d, x.2) with
    | none => .next s
    | some (d, r) =>
      if r.homeOf f.index ≠ some f.dest then .next s
      else
        let s := s.dropFlight seg
        if f.cut || !segmentOk f.bytes then .next (s.integrityError d (field f.bytes 0 2) (field f.bytes 2 2)) else .next s

/-! ### Expansion and transit launch (R19, R25, R26, R454) -/

/-- Add a sequence to the first open batch with room in time, else to a new one, else skip it (R25, log 31). -/
def placeBatch (b : Binding) (present limit : Nat) (l : List (List (Nat × Nat))) (e : Nat × Nat) : List (List (Nat × Nat)) :=
  let fits := fun x : List (Nat × Nat) =>
    x.length + 1 ≤ b.bseq && batchRows x + e.2 ≤ b.brows && present + b.cost * (batchRows x + e.2) ≤ limit
  match l.findIdx? fits with
  | some i => l.mapIdx fun j x => if j = i then x ++ [e] else x
  | none => if l.length < b.bcnt && fits [] then l ++ [[e]] else l

/-- The batches of a transit (R25). -/
def State.batches (s : State) (die image tag present limit : Nat) : List (List (Nat × Nat)) :=
  match s.binding die image tag with
  | none => []
  | some b =>
    let cand := (List.range 1024).filterMap fun i =>
      let e := s.seqAt (seqKey die i)
      if e.state = 1 && e.image = image && e.nextTag = tag then some (e.ready, i, e.rows) else none
    ((sortBy (·.1) cand).map (·.2)).foldl (placeBatch b present limit) []

/-- Transit tasks join their die's launch queue (R27). -/
def State.queueTransits (s : State) (l : List TransitTask) : State :=
  { s with disp := { s.disp with transits := s.disp.transits ++ l } }

/-- The tile scheduler's launch of the batches of a slot that became PRESENT (R25). -/
def State.launchBatches (s : State) (die slot : Nat) : State :=
  let m := s.mslot die slot
  let bs := if (s.dieAt die).missing.contains (segKey m.image m.tag) then [] else s.batches die m.image m.tag m.present m.deadline
  match s.binding die m.image m.tag with
  | none => s
  | some b =>
    let tasks : List TransitTask := bs.zipIdx.map fun p =>
      ⟨die, b.launch, ⟨m.image, m.tag, slot, m.fill, bs.length, m.deadline, false, p.1⟩, m.present, p.2, b⟩
    (bs.flatten).foldl (fun s e => s.setSeq (seqKey die e.1) { s.seqAt (seqKey die e.1) with state := 0, input := none })
      ((s.modSlot die slot fun m => { m with opens := bs.length }).queueTransits tasks)

/-- The entries of a key that a TRSKIP left out of this transit are READY again (R24, R25). -/
def State.endSkips (s : State) (die image tag : Nat) : State :=
  (List.range 1024).foldl (fun s i =>
    let e := s.seqAt (seqKey die i)
    if e.state = 2 && e.image = image && e.nextTag = tag then s.setSeq (seqKey die i) { e with state := 1, ready := s.polestar }
    else s) s

/-- What follows when a slot becomes PRESENT: the launch, but on a BROKEN ring, and the end of the skips (R24, R25, R416). -/
def State.selectTransits (s : State) (die slot : Nat) (broken : Bool) : State :=
  let m := s.mslot die slot
  (if broken then s else s.launchBatches die slot).endSkips die m.image m.tag

/-- The departing home copy of an entry failed its check: its tag is MISSING everywhere until it is restored (R454). -/
def State.homeFails (s : State) (ring : Nat) (r : Ring) (entry : Nat) : State :=
  let tag := (r.order[entry]?.map (·.tag)).getD 0
  let order := r.order.modify entry fun h => { h with state := .restoring }
  let mine := fun f : Flight => f.ring = ring && f.index = entry
  let s := { s with flights := s.flights.map fun (p : Nat × Flight) => if mine p.2 then (p.1, { p.2 with old := true }) else p }
  ((s.setRing ring { r with order := order }).markMissing r [tag]).settleRing ring

/-- A load of a meridian slot that passed its check before the slot was claimed is performed before the receiver writes (R135). -/
def State.settleSlot (s : State) (die slot : Nat) : State :=
  let k := meridianKey die slot 0
  s.performWhere fun j => k ≤ j && j < k + 2 ^ 24

/-- EXPANSION_CHECK: a segment received whole is checked; the slot becomes PRESENT and its transit is launched, or
RETIRING (R18–R20, R25, R420, R453, R454). -/
def execExpansionCheck (die slot : Nat) (s : State) : Res :=
  let m := s.mslot die slot
  if m.state ≠ 1 then .next s
  else if segmentOk m.incoming then
    match expandPayload m.fmt (field m.incoming 13 1) m.planes (m.incoming.drop 64) with
    | (bytes, bad) =>
      let d := s.dieAt die
      let s := (s.settleSlot die slot).writeHomeBytes 0 (meridianKey die slot 0) bytes
      let s := s.modSlot die slot fun m =>
        { m with state := 2, present := s.polestar, deadline := s.polestar + d.slack, incoming := [] }
      let s := s.modDie die fun d =>
        { d with
          malformed := d.malformed + bad
          ephemeris := d.ephemeris.insert (segKey m.image m.tag) (s.polestar + d.period) }
      match s.ring? m.ring with
      | some r => .next (s.selectTransits die slot (r.mode = .broken))
      | none => .next (s.selectTransits die slot false)
  else
    let s := s.modSlot die slot fun m => { m with state := 4, retireAt := s.polestar + 16, incoming := [] }
    let s := s.integrityError die m.image m.tag
    match s.ring? m.ring with
    | none => .next s
    | some r =>
      let home := r.order[m.entry]?.any fun h => h.state == .good && some h.home = r.posOf s.fabric.self die
      .next (if home && r.image = m.image then s.homeFails m.ring r m.entry else s)

/-- SLOT_RETIRE: a RETIRING slot becomes EMPTY after 16 ticks (R20). -/
def execSlotRetire (die slot : Nat) (s : State) : Res :=
  let m := s.mslot die slot
  if m.state = 4 && m.retireAt ≤ s.polestar then .next (s.modSlot die slot fun m => { m with state := 0 }) else .next s

/-- SLACK_EXPIRY: the slack of a HELD slot expires and its holds end (R20, R21). -/
def execSlackExpiry (die slot : Nat) (s : State) : Res :=
  let m := s.mslot die slot
  if m.state = 3 && m.deadline < s.polestar then .next (s.modSlot die slot fun m => { m with state := 2, holds := 0 })
  else .next s

/-! ### The canonical image (R418, R426, R454) -/

/-- The port of the host that owns the ring's partition, if it is up: the canonical image is read through it (R418, log 32). -/
def State.imagePort (s : State) (r : Ring) : Option Nat :=
  let p := s.partOf r.part
  let port := field p.desc 2 1
  if p.active && !p.orphaned && s.portUp port then some port else none

/-- A segment of the canonical image, if it passes its check and matches its entry (R418). -/
def State.readSegment (s : State) (r : Ring) (image tag cbytes addr : Nat) : Option (List Byte) :=
  match s.imagePort r with
  | none => none
  | some p =>
    let bs := s.homeBytes (hostKey p addr) (64 + cbytes)
    if s.badWords (hostKey p addr) (64 + cbytes) = [] && segmentOk bs && field bs 0 2 = image && field bs 2 2 = tag && field bs 4 4 = cbytes
    then some bs else none

/-- Write a home copy into a die's image region. -/
def State.writeSegment (s : State) (die off : Nat) (bs : List Byte) : State :=
  s.writeHomeBytes 0 (residentKey (die * 2 ^ 30 + (s.dieAt die).imageBase + off)) bs

/-- The first entry of a ring's order with a tag and a state. -/
def Ring.entryOf (r : Ring) (tag : Nat) (state : HomeState) : Option Nat := r.order.findIdx? fun h => h.tag = tag && h.state == state

/-- One entry of a ring's order with a change. -/
def Ring.modHome (r : Ring) (entry : Nat) (f : Home → Home) : Ring := { r with order := r.order.modify entry f }

/-- HOME_COPY_RESTORE: a bad home copy is read again from the canonical image, checked and rewritten in place; if that
fails too the segment is emitted no longer (R454). It waits for the owning host's port. -/
def execHomeCopyRestore (ring tag : Nat) (s : State) : Res :=
  match s.ring? ring with
  | none => .next s
  | some r =>
    match (r.entryOf tag .restoring).bind fun i => r.order[i]?.map fun h => (i, h) with
    | none => .next s
    | some (i, h) =>
      match r.dieAt s.fabric.self h.home, s.imagePort r with
      | some d, some _ =>
        match s.readSegment r r.image tag h.cbytes h.host with
        | some bs =>
          .next (((s.writeSegment d h.off bs).setRing ring (r.modHome i fun h => { h with state := .good })).notify
            (.restored r.image tag true))
        | none =>
          .next (((s.setRing ring (r.modHome i fun h => { h with state := .dropped })).notify (.restored r.image tag false)).notify
            (.missing ring tag))
      | _, _ => .next s

/-! ### Ring commands (R417–R421, R427) -/

/-- A host port (R440). -/
def State.portAt (s : State) (p : Nat) : HostPort := s.ports.getD p HostPort.reset

/-- Change a host port. -/
def State.modPort (s : State) (p : Nat) (f : HostPort → HostPort) : State := { s with ports := s.ports.insert p (f (s.portAt p)) }

/-- A mailbox reply: 16 bytes, the status first (R441); of a routing entry its 8 bytes stand in the last half (log 38). -/
def replyBytes (status data : Nat) : List Byte := leBytes 1 status ++ leBytes 7 0 ++ leBytes 8 data

/-- The reply over bytes 48–63 of a mailbox slot: 0 done, 1 failed, 2 invalid opcode or field (R441). -/
def State.replyAt (s : State) (port slot status data : Nat) : State :=
  s.modPort port fun p => { p with replies := p.replies.insert slot (replyBytes status data) }

/-- The next command is taken: commands are taken in slot order, 64 slots around (R441). -/
def State.takeCommand (s : State) (port : Nat) : State := s.modPort port fun p => { p with slot := (p.slot + 1) % 64 }

/-- The next command is taken and replied to at once (R441). -/
def State.replyTo (s : State) (port status data : Nat) : State :=
  (s.takeCommand port).replyAt port (s.portAt port).slot status data

/-- A host may act on a partition: its port is up and owns the partition (R441, R442). -/
def State.owns (s : State) (port part : Nat) : Bool :=
  s.portUp port && (s.partOf part).active && !(s.partOf part).orphaned && field (s.partOf part).desc 2 1 = port

/-- This package is a ring's first: it takes the ring's commands from a host and answers them (R417). -/
def State.isFirst (s : State) (r : Ring) : Bool := r.packages.head? = some s.fabric.self

/-- A ring command is complete: the ring's first package signals its counter and replies in its mailbox (R417, R441). -/
def State.ringDone (s : State) (r : Ring) (m : Mail) : State :=
  if s.isFirst r then (s.commandDone m.ctr true).replyTo m.port 0 0 else s

/-- An RSTOP is complete: it is signalled, and replied to in the slot it was taken from (R417, R441). -/
def State.ringStopped (s : State) (r : Ring) (m : Mail) (slot : Nat) : State :=
  if s.isFirst r then (s.commandDone m.ctr true).replyAt m.port slot 0 0 else s

/-- A ring command fails: its counter is poisoned, and nothing else changes (R417); the reply says failed, 1, or invalid, 2 (R441). -/
def State.ringFails (s : State) (m : Mail) (status : Nat) : State :=
  ((s.notify (.commandFailed m.ctr)).commandDone m.ctr false).replyTo m.port status 0

/-- A ring command on a ring as it would be, with the condition that its fields are valid and what it does, if it does not fail; the first
package also asks whether the host owns the partition named, and only it reports (R417, R441). -/
def ringCommand (r : Option Ring) (valid : Bool) (m : Mail) (s : State) (act : Option State) : Res :=
  let first := (r.map s.isFirst).getD true
  if !valid then .next (if first then s.ringFails m 2 else s)
  else if first && !s.owns m.port m.part then .next (s.ringFails m 1)
  else
    match act, r with
    | some t, some r => .next (t.ringDone r m)
    | _, _ => .next (if first then s.ringFails m 1 else s)

/-- The entries of a table that a pointer entry names, none if it is no pointer (R401). -/
def State.tableOf (s : State) (e align n : Nat) : List Nat :=
  if bitOf e 0 && pointerOk e align then
    (List.range n).map fun i => s.homeNat (tableKey (bitsOf e 9 8) (bitsOf e 47 12 * 4096 + 8 * i)) 8
  else []

/-- The frames that a partition's tables of a space map: address and size (R401). -/
def State.frames (s : State) (part space : Nat) : List (Nat × Nat) :=
  (s.tableOf (s.root part space) (2 ^ 13) 1024).flatMap fun a =>
    (s.tableOf a (2 ^ 14) 2048).flatMap fun b =>
      if bitOf b 0 && !bitOf b 1 then [(bitsOf b 47 12 * 4096, 2 ^ 27)]
      else (s.tableOf b (2 ^ 14) 2048).filterMap fun c => if bitOf c 0 then some (bitsOf c 47 12 * 4096, 2 ^ 16) else none

/-- Some mapped page lies in the top `region` bytes of a die's resident store (R417). -/
def State.mapsRegion (s : State) (dies : List Nat) (region : Nat) : Bool :=
  let hit := fun x : Nat × Nat =>
    x.1 / 2 ^ 33 = 0 && dies.contains (x.1 / 2 ^ 30) && Config.residentBytes < x.1 % 2 ^ 30 + x.2 + region
  let own := fun p : Nat => (s.frames p 4).filterMap fun x =>
    if x.1 / 2 ^ 33 = s.fabric.self then some (x.1 % 2 ^ 33, x.2) else none
  (0 :: s.disp.parts.map (·.1)).any fun p => (s.frames p 3).any hit || (own p).any hit

/-- The packages of a new ring fit its configuration (R16, R417). -/
def ringPackagesOk (self config : Nat) (packages : List Nat) : Bool :=
  if config = 3 then
    2 ≤ packages.length && packages.length ≤ 256 && packages.eraseDups.length = packages.length && packages.contains self
  else packages == [self]

/-- The continuation pool of a die moves with its image region: its records are written at their new places (R51, log 5). -/
def State.movePool (s : State) (die : Nat) : State :=
  (s.disp.conts.filter fun p => p.2.home.1 = die).foldl (fun s p => s.writeCont p.2) s

/-- The dies of this package on a ring have its image region, at the top of their resident stores (R11, R417, log 33). -/
def State.setRegion (s : State) (r : Ring) : State :=
  (r.dies s.fabric.self).foldl (fun s d =>
    (s.modDie d fun x => { x with imageBase := Config.residentBytes - r.region }).movePool d) s

/-- RFORM: the ring's descriptors are on every member, whose image regions are at the top of the resident stores (R417,
log 33). -/
def execRform (ring config : Nat) (packages : List Nat) (region : Nat) (mail : Mail) (s : State) : Res :=
  let r : Ring :=
    { config := config, packages := packages, region := region, mode := .formed, image := 0, manifest := 0, order := [], start := 0
      started := false, sent := [], slack := 0, period := 0, bypassed := [], stopping := [], part := mail.part }
  let dies := r.dies s.fabric.self
  let taken := s.rings.any fun (p : Nat × Ring) => (p.2.dies s.fabric.self).any dies.contains
  ringCommand (some r) (ring < 256 && config ≤ 3 && packages.all (· ≤ 992) && region % 2 ^ 16 = 0) mail s (
    if (s.ring? ring).isSome || !ringPackagesOk s.fabric.self config packages || taken || Config.residentBytes < region ||
        s.mapsRegion dies region then none
    else some ((s.setRegion r).setRing ring r))

/-- Where the home copies at a position end in its image region. -/
def homedBytes (order : List Home) (pos : Nat) : Nat :=
  ((order.filter fun h => h.home = pos && h.state != .lost).map fun h => h.off + h.size).foldl Nat.max 0

/-- Read the entries of a manifest with their segments: the order, and for each segment the home and the bytes to write;
none if an entry is malformed, a check fails or a region is too small (R417, R418). -/
def State.readManifest (s : State) (r : Ring) (image port : Nat) :
    List Nat → List Home → List (Home × List Byte) → Option (List Home × List (Home × List Byte))
  | [], order, segs => some (order, segs)
  | a :: t, order, segs =>
    let e := s.homeBytes (hostKey port a) 16
    let h : Home := ⟨field e 0 2, field e 2 2, field e 4 4, field e 8 8, homedBytes order (field e 2 2), .good⟩
    if s.badWords (hostKey port a) 16 ≠ [] || r.size ≤ h.home || h.cbytes = 0 || 0x800000 < h.cbytes || r.region < h.off + h.size then none
    else
      match s.readSegment r image h.tag h.cbytes h.host with
      | some bs => s.readManifest r image port t (order ++ [h]) (segs ++ [(h, bs)])
      | none => none

/-- RLOAD: the home copies of this package's dies are placed and verified; a LOADED ring takes a new image (R417, R418, R423, log 128). How
many entries the manifest holds is given nowhere: a free number from 1 to 4,096 (log 34). With the owning host's port down there is no data,
and no digest agrees (R437). -/
def execRload (ring image manifest : Nat) (mail : Mail) (s : State) : Res :=
  let n := (Config.freeWord s.steps).toNat % 4096 + 1
  let r? := (s.ring? ring).map fun r => { r with part := mail.part }
  ringCommand r? (ring < 256 && image < 2 ^ 16) mail s (
    match r? with
    | none => none
    | some r =>
      match s.imagePort r with
      | none => none
      | some p =>
        if r.mode ≠ .formed && r.mode ≠ .loaded then none
        else
          match s.readManifest r image p ((List.range n).map fun i => manifest + 16 * i) [] [] with
          | none => none
          | some (order, segs) =>
            let s := segs.foldl (fun s x =>
              match r.dieAt s.fabric.self x.1.home with
              | some d => s.writeSegment d x.1.off x.2
              | none => s) s
            some (s.setRing ring
              { r with mode := .loaded, image := image, manifest := manifest, order := order, started := false, sent := [] }))

/-- The ephemeris of a die at RSTART: each tag's entry is the predicted tick of its first arrival (R14, R420). -/
def Ring.firstEphemeris (r : Ring) (pos : Nat) (m : SMap Nat) : SMap Nat :=
  (r.turning.zipIdx).reverse.foldl (fun m p => m.insert (segKey r.image p.1.tag) (r.predict p.2 pos)) m

/-- RSTART: slack limit, PERIOD and ephemeris go to every member, and the first emission is set (R417, R419, R420). -/
def execRstart (ring tick slack : Nat) (mail : Mail) (s : State) : Res :=
  ringCommand (s.ring? ring) (ring < 256) mail s (
    match s.ring? ring with
    | none => none
    | some r =>
      if r.mode ≠ .loaded || tick < s.polestar + 2 ^ 20 || r.slackBound < slack then none
      else
        let q : Ring := { r with mode := .running, start := tick, started := false, sent := [], slack := slack, period := r.cycle }
        let s := (q.dies s.fabric.self).foldl (fun s d => s.modDie d fun x =>
          { x with slack := slack, period := q.period, ephemeris := q.firstEphemeris ((q.posOf s.fabric.self d).getD 0) x.ephemeris }) s
        some ((s.setRing ring q).settleRing ring))

/-- RSLACK (R417, R421). -/
def execRslack (ring slack : Nat) (mail : Mail) (s : State) : Res :=
  ringCommand (s.ring? ring) (ring < 256) mail s (
    match s.ring? ring with
    | none => none
    | some r =>
      if !(r.mode = .running || r.mode = .degraded) || r.slackBound < slack then none
      else
        some (((r.dies s.fabric.self).foldl (fun s d => s.modDie d fun x => { x with slack := slack }) s).setRing ring
          { r with slack := slack }))

/-- RSTOP: every home die stops emitting; the command completes by RSTOP_COMPLETE (R417). -/
def execRstop (ring : Nat) (mail : Mail) (s : State) : Res :=
  match s.ring? ring with
  | none => ringCommand none (ring < 256) mail s none
  | some r =>
    if r.mode = .formed || r.mode = .loaded || (s.isFirst r && !s.owns mail.port mail.part) then ringCommand (some r) true mail s none
    else
      .next ((if s.isFirst r then s.takeCommand mail.port else s).setRing ring
        { r with stopping := r.stopping ++ [(mail, (s.portAt mail.port).slot)], quiet := if r.stopping = [] then [] else r.quiet })

/-- Every segment of a ring has returned to its home die: this package has none in flight, and the other live ones have said the same since
the ring began to stop (R417). -/
def State.allHome (s : State) (ring : Nat) (r : Ring) : Bool :=
  !(s.flights.any fun (p : Nat × Flight) => p.2.ring = ring) &&
  r.packages.zipIdx.all fun p => p.1 = s.fabric.self || r.bypassedPlaces.contains p.2 || r.quiet.contains p.1

/-- RSTOP_COMPLETE: every segment in flight has returned home (R416, R417). -/
def execRstopComplete (ring : Nat) (s : State) : Res :=
  match s.ring? ring with
  | none => .next s
  | some r =>
    if r.stopping = [] || !s.allHome ring r then .next s
    else
      let q : Ring := { r with started := false, sent := [], stopping := [], quiet := [] }
      let q : Ring := if r.mode = .broken then { q with mode := .formed, order := [] } else { q with mode := .loaded }
      .next (r.stopping.foldl (fun s m => s.ringStopped r m.1 m.2) (s.setRing ring q))

/-- RJOIN: the bypass of a replacement package is reversed. Whether a package elsewhere holds the image id and an aligned
polestar is its own: free (R427, log 35). -/
def execRjoin (ring package : Nat) (mail : Mail) (s : State) : Res :=
  let f := s.fabric
  let ready := if package = f.self then f.aligned else f.present package && (Config.freeWord s.steps).getLsbD 0
  ringCommand (s.ring? ring) (ring < 256 && package ≤ 992) mail s (
    match s.ring? ring with
    | none => none
    | some r =>
      match r.place package with
      | none => none
      | some p =>
        let mine := (List.range 8).map fun d => 8 * p + d
        if r.mode ≠ .degraded || r.config ≠ 3 || !(mine.all r.bypassed.contains) || !ready then none
        else
          let order := r.order.map fun h => if h.state = .absent then { h with state := .lost } else h
          let s := s.setRing ring
            { r with
              bypassed := r.bypassed.filter fun x => !mine.contains x, order := order, lanes := r.lanes.erase p
              silent := r.silent.filter fun x => !mine.contains x.1 }
          some ((s.rewriteRing ring).settleRing ring))

/-- A replacement package takes the descriptor, rotation order and image id of a ring on which it is bypassed, once it is admitted and
aligned; an image id that is not its neighbours' is refused. Its dies start with no home segments (R427). -/
def State.takeDescriptor (s : State) (ring : Nat) (r : Ring) (image : Nat) : State :=
  let f := s.fabric
  let mine := ((r.place f.self).map fun p => (List.range 8).map fun d => 8 * p + d).getD []
  let taken := s.rings.any fun (p : Nat × Ring) => (p.2.dies f.self).any (r.dies f.self).contains
  let homed := r.order.any fun h => mine.contains h.home && h.turns
  if (s.ring? ring).isSome || 256 ≤ ring || r.mode ≠ .degraded || r.config ≠ 3 || !ringPackagesOk f.self 3 r.packages || taken || homed ||
      r.image ≠ image || !f.present f.self || !f.aligned || !(mine.all r.bypassed.contains) || Config.residentBytes < r.region ||
      s.mapsRegion (r.dies f.self) r.region then s
  else
    let s := (s.setRegion r).setRing ring { r with started := true, sent := [], stopping := [], quiet := [] }
    (r.dies f.self).foldl (fun s d => s.modDie d fun x => { x with slack := r.slack, period := r.period }) s

/-- Another package of a stopping ring has its segments home (R417). -/
def State.ringQuiet (s : State) (ring package : Nat) : State :=
  match s.ring? ring with
  | some r => if r.stopping = [] then s else s.setRing ring { r with quiet := setInsert r.quiet package }
  | none => s

/-! ### Loss and repair (R424–R426) -/

/-- The positions lost with the member at a position: the die, or of another package the die or all of it, which only the
ring's other members see (R424, log 36). -/
def State.lostPositions (s : State) (r : Ring) (pos : Nat) : List Nat :=
  if r.config = 3 && (r.dieAt s.fabric.self pos).isNone && (Config.freeWord s.steps).getLsbD 0 then
    (List.range 8).map fun d => pos / 8 * 8 + d
  else [pos]

/-- The sequences of a lost die are lost and reported (R426). -/
def State.loseSequences (s : State) (die : Nat) : State :=
  (List.range 1024).foldl (fun s i =>
    if (s.seqAt (seqKey die i)).state = 7 then s else (s.setSeq (seqKey die i) SeqEntry.free).notify (.seqLost die i)) s

/-- Segments on their way to a lost position are cut off and go to the next live one, or leave this package; one that the
position was sending may be cut off too: free (R424). -/
def State.redirect (s : State) (ring : Nat) (r : Ring) (lost : List Nat) : State :=
  let after := lost.getLast?.bind r.next?
  { s with flights := s.flights.filterMap fun (p : Nat × Flight) =>
      if p.2.ring ≠ ring then some p
      else if lost.contains p.2.dest then
        match r.next? p.2.dest with
        | some q => if (r.dieAt s.fabric.self q).isSome then some (p.1, { p.2 with dest := q, cut := true }) else none
        | none => none
      else if some p.2.dest = after && (Config.freeWord (s.steps + 2 ^ 64 * (1 + p.1))).getLsbD 0 then some (p.1, { p.2 with cut := true })
      else some p }

/-- The member at a position of a ring falls silent, or sends again (R424). -/
def State.ringSilent (s : State) (ring position : Nat) (silent : Bool) : State :=
  match s.ring? ring with
  | none => s
  | some r =>
    if r.size ≤ position then s
    else if !silent then s.setRing ring { r with silent := r.silent.erase position }
    else if (r.silent.find? position).isSome then s
    else s.setRing ring { r with silent := r.silent.insert position s.polestar }

/-- The link out of a position has carried nothing for 17,500 ticks (R424). -/
def State.silentLong (s : State) (r : Ring) (position : Nat) : Bool :=
  match r.silent.find? position with
  | some t => decide (t + 17500 ≤ s.polestar)
  | none => false

/-- RING_LINK_DEAD: the member upstream of a link silent for 17,500 ticks is lost: it is bypassed, its home segments are MISSING, and a gap
too wide breaks the ring (R416, R424, R426). -/
def execRingLinkDead (ring position : Nat) (s : State) : Res :=
  match s.ring? ring with
  | none => .next s
  | some r =>
    if !(r.mode = .running || r.mode = .degraded) || r.size ≤ position || r.bypassed.contains position || !s.silentLong r position then
      .next s
    else
      let lost := s.lostPositions r position
      let gone := r.order.filter fun h => lost.contains h.home && h.turns
      let order := r.order.map fun h => if lost.contains h.home && h.turns then { h with state := .lost } else h
      let q : Ring := { r with bypassed := lost.foldl setInsert r.bypassed, order := order }
      let q : Ring := { q with mode := if q.spanned then .degraded else .broken }
      let s := ((s.setRing ring q).markMissing q (gone.map (·.tag))).redirect ring q lost
      let s := match r.dieAt s.fabric.self position with
        | some d => s.loseSequences d
        | none => s
      .next (s.rewriteRing ring)

/-- The first position upstream of a lost home whose image region has room (R426). -/
def Ring.roomFor (r : Ring) (h : Home) : Option Nat :=
  ((List.range r.size).map fun k => (h.home + 2 * r.size - 1 - k) % Nat.max 1 r.size).find? fun p =>
    !r.bypassed.contains p && homedBytes r.order p + h.size ≤ r.region

/-- The package that reloads a lost segment: the nearest live one upstream of the loss (R426). -/
def State.reloader (s : State) (r : Ring) (h : Home) : Option Nat :=
  if r.config ≠ 3 then some s.fabric.self else (r.prev? h.home).bind fun q => r.packages[q / 8]?

/-- A lost segment gets its new home, in its old place of the order, with the bytes read of it, or, with none, stays MISSING: its copy fails
its check, or no region can take it; that is reported (R426). -/
def State.placeLost (s : State) (ring : Nat) (r : Ring) (i : Nat) (h : Home) (segment : Option (List Byte)) : State :=
  let fail := fun x : HomeState => (s.setRing ring (r.modHome i fun h => { h with state := x })).notify (.missing ring h.tag)
  match r.roomFor h, segment with
  | none, _ => fail .absent
  | some _, none => fail .dropped
  | some p, some bs =>
    let off := homedBytes r.order p
    let s := match r.dieAt s.fabric.self p with
      | some d => s.writeSegment d off bs
      | none => s
    ((s.setRing ring (r.modHome i fun h => { h with home := p, off := off, state := .good })).rewriteRing ring).settleRing ring

/-- MISSING_SEGMENT_RELOAD: this package, the nearest live one upstream of the loss, reloads a lost segment from the canonical image; it
waits for the owning host's port (R426). -/
def execMissingSegmentReload (ring tag : Nat) (s : State) : Res :=
  match s.ring? ring with
  | none => .next s
  | some r =>
    match (r.entryOf tag .lost).bind fun i => r.order[i]?.map fun h => (i, h) with
    | none => .next s
    | some (i, h) =>
      if s.reloader r h ≠ some s.fabric.self || (s.imagePort r).isNone then .next s
      else .next (s.placeLost ring r i h (s.readSegment r r.image tag h.cbytes h.host))

/-- Another package, the nearest live one upstream of the loss, has reloaded a lost segment, or cannot (R426). -/
def State.peerReload (s : State) (ring tag : Nat) (segment : Option (List Byte)) : State :=
  match s.ring? ring with
  | none => s
  | some r =>
    match (r.entryOf tag .lost).bind fun i => r.order[i]?.map fun h => (i, h) with
    | none => s
    | some (i, h) =>
      if s.reloader r h = some s.fabric.self then s
      else s.placeLost ring r i h (segment.filter fun bs => segmentOk bs && field bs 0 2 = r.image && field bs 2 2 = tag)

/-- A departing home copy of another package of the ring has failed its check: the tag is MISSING here too (R454). -/
def State.homeCopyBad (s : State) (ring entry : Nat) : State :=
  match s.ring? ring with
  | none => s
  | some r =>
    if r.order[entry]?.any fun h => h.state == .good && (r.dieAt s.fabric.self h.home).isNone then s.homeFails ring r entry else s

/-- Another package of the ring has rewritten its home copy, or the canonical image fails too: then the segment is emitted no longer
(R454). -/
def State.homeCopyBack (s : State) (ring entry : Nat) (ok : Bool) : State :=
  match s.ring? ring with
  | none => s
  | some r =>
    if r.order[entry]?.any fun h => h.state == .restoring && (r.dieAt s.fabric.self h.home).isNone then
      s.setRing ring (r.modHome entry fun h => { h with state := if ok then .good else .dropped })
    else s

/-- BYPASS_LANE_REQUEST: every 2^24 ticks the firmware takes the lanes the fabric grants to the bypass of a package, and rewrites PERIOD;
the first that has fewer than 12 and may be asked for (R425). -/
def execBypassLaneRequest (ring granted : Nat) (s : State) : Res :=
  match s.ring? ring with
  | none => .next s
  | some r =>
    match r.bypassedPlaces.find? fun p => r.granted p < 12 && (r.lanes.getD p (0, 0)).2 ≤ s.polestar with
    | none => .next s
    | some p =>
      let q : Ring := { r with lanes := r.lanes.insert p (Nat.min granted 12, s.polestar + 2 ^ 24) }
      .next (if q.granted p = r.granted p then s.setRing ring q else (s.setRing ring q).rewriteRing ring)

end Sys2Proof.Machine
end

