-- ==== Sys2Proof/Machine/Fabric.lean ====
section
/-! DEFINITION. The Aivis fabric: ids and ports, routing, time, liveness and eclipse, requests, collective groups
(R399, R403, R422, R428–R439). -/

namespace Sys2Proof.Machine

/-! ### Ids (R399, R428, R429) -/

/-- The id triple of a package index (R399). -/
def pkgId (i : Nat) : Nat × Nat × Nat :=
  if i < 961 then (1, i / 31, i % 31) else if i < 992 then (0, 1, i - 961) else (0, 0, 1)

/-- The product of two ids over GF(31) (R428). -/
def pkgDot (a b : Nat) : Nat :=
  match pkgId a, pkgId b with
  | (x, y, z), (u, v, w) => (x * u + y * v + z * w) % 31

/-- Two packages are adjacent (R428). -/
def adjacent (a b : Nat) : Bool := a ≠ b && pkgDot a b = 0

/-- The inverse of a number over GF(31), 0 of 0. -/
def inv31 (x : Nat) : Nat := ((List.range 31).find? fun y => x * y % 31 = 1).getD 0

/-- The package index of a nonzero triple over GF(31), normalised (R399, R428). -/
def pkgIndex (x y z : Nat) : Nat :=
  if x % 31 ≠ 0 then y * inv31 (x % 31) % 31 * 31 + z * inv31 (x % 31) % 31
  else if y % 31 ≠ 0 then 961 + z * inv31 (y % 31) % 31
  else 992

/-- The minimal intermediate of two packages: their cross product (R429). -/
def between (a b : Nat) : Nat :=
  match pkgId a, pkgId b with
  | (x, y, z), (u, v, w) => pkgIndex (y * w + (31 - z) * v) (z * u + (31 - x) * w) (x * v + (31 - y) * u)

/-- The adjacent packages of a package in ascending index: port p goes to the p-th (R428). -/
def peersOf (a : Nat) : List Nat := (List.range 993).filter (adjacent a)

/-! ### Routing (R430, R431) -/

/-- The live port to a peer. -/
def Fabric.portTo (f : Fabric) (peer : Nat) : Option Nat :=
  (List.find? (fun p : Nat × Port => p.2.live && p.2.peer = peer) f.ports).map (·.1)

/-- A port is there and in use. -/
def Fabric.isLive (f : Fabric) (port : Nat) : Bool :=
  match f.ports.find? port with
  | some p => p.live
  | none => false

/-- A link between two packages is reported dead (R435). -/
def Fabric.linkDead (f : Fabric) (a b : Nat) : Bool := f.deadLinks.contains (a, b) || f.deadLinks.contains (b, a)

/-- The NMV and NM fields of an entry whose minimal port is `min`: the drawn ports that are live and other (R430). -/
def Fabric.nonMinimal (f : Fabric) (min : Nat) : Nat :=
  ((f.draws.take 4).zipIdx.map fun p =>
    if f.isLive p.1 && p.1 ≠ min then p.1 % 32 * 2 ^ (8 + 5 * p.2) + 2 ^ (28 + p.2) else 0).sum

/-- An entry of the routing table (R430). -/
def Fabric.route (f : Fabric) (t : Nat) : Nat :=
  let entry := fun hops min mid : Nat => min % 32 + hops * 2 ^ 5 + f.nonMinimal min + mid * 2 ^ 32
  if t = f.self then 0
  else if !f.present t then 3 * 2 ^ 5
  else
    match f.portTo t with
    | some p => entry 1 p 0
    | none =>
      let c := between f.self t
      if c = f.self || c = t || !f.present c || f.linkDead c t then 3 * 2 ^ 5
      else
        match f.portTo c with
        | some p => entry 2 p c
        | none => 3 * 2 ^ 5

/-- The firmware rewrites the routing table and the partitions' almanac views (R412, R430, R435, log 37). -/
def State.rebuildRoutes (s : State) : State :=
  let f := s.fabric
  let s := { s with fabric := { f with routes := (List.range 993).map fun i => (i, f.route i) } }
  (List.filter (fun p : Nat × Partition => p.2.active) s.disp.parts).foldl (fun s p => s.writeView p.1) s

/-- A link or an intermediate of a request's path is lost: its first port, or what its neighbour there goes on by (R429, R430, R436). -/
def Fabric.pathLost (f : Fabric) (q : Request) : Bool :=
  let via := fun a b : Nat => !f.present a || f.linkDead a b
  !f.isLive q.port ||
    match f.ports.find? q.port with
    | none => true
    | some p =>
      if p.peer = q.target then false
      else if adjacent p.peer q.target then via p.peer q.target
      else via p.peer (between p.peer q.target) || via (between p.peer q.target) q.target

/-- A request whose path is lost is sent again whole, by the minimal path of the table (R436). -/
def Fabric.sendAgain (f : Fabric) (q : Request) : Fabric :=
  let e := f.routes.getD q.target 0
  if bitsOf e 6 5 = 3 || !f.pathLost q then f
  else
    Fabric.enqueue
      { f with
        ports := f.ports.map fun p => (p.1, { p.2 with queue := p.2.queue.filter fun x => x.num ≠ some q.num })
        unacked := f.unacked.map fun r => if r.num = q.num then { r with port := bitsOf e 4 0, resent := r.resent + 1 } else r }
      (bitsOf e 4 0) q.flits

/-- Requests not acknowledged whose path is lost take another, in their order (R436). -/
def State.resend (s : State) : State := { s with fabric := s.fabric.unacked.foldl Fabric.sendAgain s.fabric }

/-! ### Flits and time (R422, R432, R435) -/

/-- Change a port. -/
def Fabric.modFabricPort (f : Fabric) (port : Nat) (g : Port → Port) : Fabric :=
  { f with ports := f.ports.map fun p => if p.1 = port then (p.1, g p.2) else p }

/-- A management flit joins a port's queue (R432). -/
def State.sendFlit (s : State) (port : Nat) (bs : List Byte) : State :=
  { s with fabric := s.fabric.enqueue port [⟨3, 0, ((s.fabric.ports.find? port).map (·.peer)).getD 0, none, true, [], bs⟩] }

/-- A flit of a port may leave: the next link has a buffer for its class and hop number, and a header of this package's own request has
or finds a free slot at its target; a package in PS2 or PS3 sends nothing (R433, R446). -/
def State.mayLeavePort (s : State) (p : Port) (x : Flit) : Bool :=
  p.live && s.plat.ps < 2 && 0 < p.credits.getD (x.cls * 3 + x.hop) 0 &&
  (x.cls ≠ 0 || !x.head || match s.fabric.unacked.find? fun q => some q.num = x.num with
    | some q => q.slot || 0 < s.fabric.slots.getD q.target 0
    | none => true)

/-- A header of this package's own request takes its slot at the target (R433). -/
def Fabric.takeSlot (f : Fabric) (x : Flit) : Fabric :=
  match f.unacked.find? fun q => x.head && some q.num = x.num && !q.slot with
  | none => f
  | some q =>
    { f with
      slots := f.slots.insert q.target (f.slots.getD q.target 0 - 1)
      unacked := f.unacked.map fun r => if r.num = q.num then { r with slot := true } else r }

/-- The first flit of a class queued at a port leaves, if it may: it takes a credit, and its slot (R433). -/
def State.portSends (s : State) (port cls : Nat) : State :=
  match s.fabric.ports.find? port with
  | none => s
  | some p =>
    match p.queue.find? fun x => x.cls = cls with
    | none => s
    | some x =>
      if !s.mayLeavePort p x then s
      else
        let f := (s.fabric.takeSlot x).modFabricPort port fun p =>
          { p with queue := p.queue.erase x, sent := s.polestar, credits := p.credits.modify (cls * 3 + x.hop) (· - 1) }
        { s with fabric := { f with flits := f.flits ++ [(port, x.bytes)] } }

/-- A credit of a class and hop number comes back; a link has 64 (R433). -/
def State.creditReturn (s : State) (port cls hop : Nat) : State :=
  if 4 ≤ cls || 3 ≤ hop then s
  else { s with fabric := s.fabric.modFabricPort port fun p => { p with credits := p.credits.modify (cls * 3 + hop) fun n => Nat.min 64 (n + 1) } }

/-- The ports in use. -/
def Fabric.livePorts (f : Fabric) : List Nat := (List.filter (fun p : Nat × Port => p.2.live) f.ports).map (·.1)

/-- A port received something. -/
def State.hear (s : State) (port : Nat) : State :=
  { s with fabric := { s.fabric with
      ports := s.fabric.ports.map fun p => if p.1 = port then (p.1, { p.2 with heard := s.polestar }) else p } }

/-- Bytes that no rule gives. -/
def State.freeBytes (s : State) (n : Nat) : List Byte := (List.range n).map (Config.freeByte s.steps)

/-- TIME_FLIT_SEND: every 2^16 ticks a time flit on each live port; a package in PS2 or PS3 sends nothing (R422, R446). It is a flit of 64
bytes, its tick first and the others free (R432, log 127). -/
def execTimeFlitSend (s : State) : Res :=
  if s.polestar < s.fabric.timeSent + 2 ^ 16 || 2 ≤ s.plat.ps then .next s
  else
    let s := s.fabric.livePorts.foldl (fun s p => s.sendFlit p (leBytes 8 s.polestar ++ s.freeBytes 56)) s
    .next { s with fabric := { s.fabric with timeSent := s.polestar } }

/-- The time master: the lowest package index admitted (R422). -/
def Fabric.master (f : Fabric) : Nat := ((f.admitted.filter fun p => !f.eclipsed.contains p).min?).getD f.self

/-- The port this package takes its time from: the master's, else the lowest adjacent package's that is adjacent to the
master (R422). -/
def Fabric.timePort (f : Fabric) : Option Nat :=
  if f.master = f.self then none
  else
    match f.portTo f.master with
    | some p => some p
    | none =>
      match ((List.filter (fun p : Nat × Port => p.2.live && adjacent p.2.peer f.master) f.ports).map (·.2.peer)).min? with
      | some peer => f.portTo peer
      | none => none

/-- The package boots: it has numbered no launch. -/
def State.booting (s : State) : Bool := s.disp.nextLaunch = 1

/-- The package's counter is aligned with the master's time: before its first task it is set in one step; one that has run a task is
slewed, so that the counter never goes back (R73, R422, log 112). -/
def State.setTime (s : State) (time : Nat) : State :=
  if s.booting then
    { s with
      polestar := time
      fabric := { s.fabric with
        offset := 0, aligned := true, timeSent := Nat.min s.fabric.timeSent time, redrawn := Nat.min s.fabric.redrawn time
        ports := s.fabric.ports.map fun p => (p.1, { p.2 with heard := Nat.min p.2.heard time, sent := Nat.min p.2.sent time }) } }
  else { s with fabric := { s.fabric with offset := (time : Int) - s.polestar, aligned := true } }

/-- TIME_FLIT_RECEIVE: the offset from the master is estimated anew, and corrected by slewing; a booting package sets its
counter in one step. `time` is the master's time as the sender knows it, `delay` half the round trip (R422). -/
def execTimeFlitReceive (port time delay : Nat) (s : State) : Res :=
  if !s.fabric.isLive port then .next s
  else
    let s := s.hear port
    if s.fabric.timePort ≠ some port then .next s
    else if s.fabric.aligned then
      .next { s with fabric := { s.fabric with offset := ((time + delay : Nat) : Int) - (s.polestar : Int) } }
    else .next (s.setTime (time + delay))

/-- HEARTBEAT: a port with nothing to send for 1,024 ticks sends a heartbeat flit, whose content no rule gives (R435, R446). -/
def execHeartbeat (port : Nat) (s : State) : Res :=
  match s.fabric.ports.find? port with
  | some p =>
    if p.live && p.queue = [] && p.sent + 1024 ≤ s.polestar && s.plat.ps < 2 then .next (s.sendFlit port (s.freeBytes 64)) else .next s
  | none => .next s

/-! ### Eclipse (R435, R437, R439) -/

/-- The 64 bytes of an eclipse notice (R435). -/
def noticeBytes (silent reporter port kind stamp nseq : Nat) : List Byte :=
  leBytes 2 silent ++ leBytes 2 reporter ++ leBytes 1 port ++ leBytes 1 kind ++ leBytes 2 0 ++ leBytes 8 stamp ++ leBytes 8 nseq ++
    leBytes 40 0

/-- Every group with a member on a package goes dead (R439). -/
def State.eclipseGroups (s : State) (pkg : Nat) : State :=
  ((List.filter (fun p : Nat × Group => p.2.members.any fun w => w % 2 ^ 10 = pkg) s.shared.groups).map (·.1)).foldl
    State.failGroup s

/-- The result of a load is precise: a scalar or a capability (R437). -/
def LoadRec.precise (r : LoadRec) : Bool :=
  match r.dest with
  | .scalar .. | .cap .. => true
  | .vector .. | .tile .. => false

/-- A target is about to be lost. A scalar load or CLDC that still waits for it holds its instruction, and takes ACCESS_DENIED when that
executes again; one that younger instructions have gone past had its value before (R437). -/
def State.settleLost (s : State) (f : Nat → Bool) : State :=
  let waits := fun l : List LoadRec => l.any fun r => r.precise && r.waitsAt f
  let s := (s.contexts.filter fun c => (s.hartAt c).status = .ready && waits (s.hartAt c).undone).foldl State.stopLoads s
  (s.contexts.filter fun c => waits (s.hartAt c).loads).foldl State.performLoads s

/-- The requests to a lost package are over: stores are discarded and counted, reductions posted to the fault queue (R437). -/
def State.loseRequests (s : State) (pkg : Nat) : State :=
  let gone := s.fabric.unacked.filter fun q => q.target = pkg
  let f := s.fabric
  let s := { s with fabric := { f with
    unacked := f.unacked.filter fun q => q.target ≠ pkg
    ports := f.ports.map fun p => (p.1, { p.2 with queue := p.2.queue.filter fun x => !(gone.any fun q => x.num = some q.num) })
    losses := f.losses + (gone.filter fun q => q.what = .store).length } }
  gone.foldl (fun s q => match q.what with
    | .reduce (.atomic _ ctx _ _ op wide vector v space part launch addr) =>
      s.postFault (ctxOf ctx) op wide vector v space part launch addr Cause.accessDenied.code
    | _ => s) s

/-- A package is eclipsed: requests to it are over, its groups are dead (R435, R437, R439). -/
def State.eclipse (s : State) (pkg : Nat) : State :=
  let s := (s.settleLost fun k => keyRegion k = 4 && keyPkg k = pkg).loseRequests pkg
  ({ s with fabric := { s.fabric with eclipsed := setInsert s.fabric.eclipsed pkg } }).eclipseGroups pkg

/-- Every link from the admitted neighbours of a package to it is reported dead (R435). -/
def Fabric.silent (f : Fabric) (pkg : Nat) : Bool :=
  (f.admitted.filter fun p => adjacent p pkg && !f.eclipsed.contains p).all fun p => f.linkDead p pkg

/-- A loss is entered: the link, and the package if nothing reaches it any more; tables and paths follow (R435, R436). -/
def State.enterLoss (s : State) (silent reporter kind : Nat) : State :=
  let s := { s with fabric := { s.fabric with deadLinks := s.fabric.deadLinks ++ [(silent, reporter)] } }
  let s := if silent ≠ s.fabric.self && (kind = 1 || s.fabric.silent silent) then s.eclipse silent else s
  s.rebuildRoutes.resend

/-- This package is the first to declare a loss: it floods a notice, and enters the loss (R435). -/
def State.declareLoss (s : State) (port silent kind : Nat) : State :=
  let f := s.fabric
  let bs := noticeBytes silent f.self port kind s.polestar f.nseq
  let s := f.livePorts.foldl (fun s q => s.sendFlit q bs) s
  let s := { s with fabric := { s.fabric with nseq := f.nseq + 1, seen := f.seen ++ [(f.self, f.nseq)] } }
  s.enterLoss silent f.self kind

/-- FABRIC_LINK_DEAD: a port silent for 17,500 ticks stops being used, with what it has queued, and the loss is flooded by the package that
first declares it (R435). -/
def execFabricLinkDead (port : Nat) (s : State) : Res :=
  match s.fabric.ports.find? port with
  | none => .next s
  | some p =>
    if !p.live || s.polestar < p.heard + 17500 then .next s
    else
      let s := { s with fabric := s.fabric.modFabricPort port fun p => { p with live := false, queue := [] } }
      let f := s.fabric
      if f.deadLinks.contains (f.self, p.peer) then .next (s.enterLoss p.peer f.self 0)
      else
        .next (s.declareLoss port p.peer
          (if ({ f with deadLinks := f.deadLinks ++ [(p.peer, f.self)] } : Fabric).silent p.peer then 1 else 0))

/-- The link of a port reports its package frozen: the package is eclipsed (R435). -/
def State.peerFrozen (s : State) (port : Nat) : State :=
  match s.fabric.ports.find? port with
  | some p => if p.live && s.fabric.present p.peer then (s.hear port).declareLoss port p.peer 1 else s
  | none => s

/-- A flit of other packages goes on by the minimal path, one hop number up; one on a dead link is discarded (R429, R431, R433, R435). -/
def State.routeOn (s : State) (port : Nat) (x : Flit) : State :=
  if !s.fabric.isLive port then s
  else
    let s := s.hear port
    let e := s.fabric.routes.getD x.target (3 * 2 ^ 5)
    if x.target = s.fabric.self || bitsOf e 6 5 = 3 then s
    else { s with fabric := s.fabric.enqueue (bitsOf e 4 0) [{ x with hop := Nat.min 2 (x.hop + 1), num := none }] }

/-- ECLIPSE_NOTICE: a notice not seen before goes on to every other live port, and the tables are rebuilt; what arrives on
a dead link is discarded (R435). -/
def execEclipseNotice (port silent reporter rport kind stamp nseq : Nat) (s : State) : Res :=
  if !s.fabric.isLive port then .next s
  else
    let s := s.hear port
    if s.fabric.seen.contains (reporter, nseq) then .next s
    else
      let bs := noticeBytes silent reporter rport kind stamp nseq
      let s := (s.fabric.livePorts.filter (· ≠ port)).foldl (fun s q => s.sendFlit q bs) s
      let s := { s with fabric := { s.fabric with seen := s.fabric.seen ++ [(reporter, nseq)] } }
      .next (s.enterLoss silent reporter kind)

/-- ROUTE_REDRAW: every 2^24 ticks the firmware draws four neighbours anew (R430). -/
def execRouteRedraw (draws : List Nat) (s : State) : Res :=
  if s.polestar < s.fabric.redrawn + 2 ^ 24 then .next s
  else
    let f := s.fabric
    let f : Fabric := { f with draws := (draws.take 4).map (· % 32), redrawn := s.polestar }
    .next { s with fabric := { f with routes := (List.range 993).map fun i => (i, f.route i) } }

/-- Slots granted at each other member (R433). -/
def reqGrants (self : Nat) (members : List Nat) : SMap Nat :=
  (members.filter (· ≠ self)).map fun m => (m, 8192 / Nat.max 1 (members.length - 1))

/-- Slots free at each other member after an admission: its grant but for those in use; a package that comes back has all (R433). -/
def Fabric.regrant (f : Fabric) (admitted : List Nat) : SMap Nat :=
  let old := reqGrants f.self f.admitted
  (reqGrants f.self admitted).map fun g =>
    (g.1, if f.eclipsed.contains g.1 || (old.find? g.1).isNone then g.2 else g.2 - (old.getD g.1 0 - f.slots.getD g.1 0))

/-- A slot at another package is free again (R433). -/
def State.slotReturn (s : State) (target : Nat) : State :=
  { s with fabric := { s.fabric with slots := s.fabric.slots.map fun g =>
      if g.1 = target then (g.1, Nat.min ((reqGrants s.fabric.self s.fabric.admitted).getD target 0) (g.2 + 1)) else g } }

/-- FABRIC_ADMISSION: this package or another is admitted, or a dead link is retrained: admission list, links, tables and
slot grants follow; while this package boots its counter is set from a new master, `master` being that one's time (R422, R427, R430, R433,
R435). -/
def execFabricAdmission (package port master : Nat) (s : State) : Res :=
  if 993 ≤ package then .next s
  else
    let f := s.fabric
    let linked := package ≠ f.self && (peersOf f.self)[port]? = some package
    let admitted := setInsert f.admitted package
    let w := (Config.freeWord s.steps).toNat
    let g : Fabric :=
      { f with
        admitted := admitted
        eclipsed := f.eclipsed.filter (· ≠ package)
        deadLinks := f.deadLinks.filter fun l => !(l = (package, f.self) || l = (f.self, package) || (!linked && (l.1 = package || l.2 = package)))
        ports := if linked then f.ports.insert port { peer := package, live := true, heard := s.polestar, sent := s.polestar } else f.ports
        slots := f.regrant admitted
        draws := if f.draws = [] then [w % 32, w / 32 % 32, w / 2 ^ 10 % 32, w / 2 ^ 15 % 32] else f.draws }
    let kept := f.aligned && (!s.booting || f.master = g.master)
    let s := { s with fabric := { g with aligned := kept || g.master = f.self } }
    let s := if package = f.self && !s.fabric.aligned then s.setTime master else s
    .next s.rebuildRoutes.resend

/-- LINK_LEVEL_REPLAY: a flit with a bad CRC is sent again; it costs only latency (R432). -/
def execLinkLevelReplay (port : Nat) (s : State) : Res :=
  if s.fabric.isLive port then .next { s with fabric := { s.fabric with replays := s.fabric.replays + 1 } } else .next s

/-! ### Requests (R403, R432–R434, R436) -/

/-- A remote atomic at its home; a returning one that meets an uncorrectable word writes nothing (R250, R252). -/
def State.remoteAtomic (s : State) (k op : Nat) (wide : Bool) (v v2 : Word) (returns : Bool) : State :=
  let n := if wide then 8 else 4
  match s.badWords k n with
  | w :: _ => if returns then s.logError .home 0 w else s.atomicHome 0 k op wide false (v.toNat % 2 ^ (8 * n))
  | [] =>
    if op = 9 then if s.homeNat k n = v.toNat % 2 ^ (8 * n) then s.writeHomeNat 0 k n (v2.toNat % 2 ^ (8 * n)) else s
    else s.atomicHome 0 k op wide false (v.toNat % 2 ^ (8 * n))

/-- The bytes that a request accesses. -/
def reqBytes (op : FabricOp) : Nat :=
  match op with
  | .load n => n
  | .store bs _ => bs.length
  | .atomic _ w _ _ _ => if w then 8 else 4

/-- A request of another package is into the image region, and so refused (R403). -/
def State.refuses (s : State) (loc : Nat) (op : FabricOp) : Bool := (s.dieAt (loc / 2 ^ 30 % 8)).imageBase < loc % 2 ^ 30 + reqBytes op

/-- The bits of a capability that some derivation can give: an exponent code that is not reserved, and bits 71:64 zero (R99, R102). -/
def derivable (bits : Nat) : Nat := bits / 2 ^ 122 % 34 * 2 ^ 122 + bits / 2 ^ 72 % 2 ^ 50 * 2 ^ 72 + bits % 2 ^ 64

/-- Store the bytes of a request with the tags of the granules it touches: a tag comes only with a whole granule whose bits some
derivation can give (R102, R107, R432). -/
def State.storeTagged (s : State) (k : Nat) (bs : List Byte) (tags : List Bool) : State :=
  let cells := cellsAt k bs
  ((cells.map fun c => c.1 / 16).eraseDups.zipIdx).foldl (fun s g =>
    let mine := cells.filter fun c => c.1 / 16 = g.1
    let bits := leNat (mine.map (·.2))
    s.writeHome 0 mine (tags.getD g.2 false && mine.length = 16 && derivable bits = bits)) s

/-- The tags of the granules that a run of locations touches (R107, R432). -/
def State.tagsOf (s : State) (k n : Nat) : List Bool :=
  (((upFrom k n).map (· / 16)).eraseDups).map fun g => s.tags.contains g && !s.bad.contains (g * 2)

/-- Perform a request of another package at a space-3 address of this one; an access into the image region is refused and
counted (R403, R434). -/
def State.performRequest (s : State) (loc : Nat) (op : FabricOp) : State :=
  let k := residentKey loc
  if s.refuses loc op then { s with fabric := { s.fabric with refusals := s.fabric.refusals + 1 } }
  else
    match op with
    | .load n => s.logErrors .home 0 (s.badWords k n)
    | .store bs tags => s.storeTagged k bs tags
    | .atomic op w v v2 r => s.remoteAtomic k op w v v2 r

/-- The data that answers a request: a load's bytes or a returning atomic's old value, zeros of what is refused or uncorrectable
(R113, R403, R432). -/
def State.answer (s : State) (loc : Nat) (op : FabricOp) : List Byte :=
  let n := reqBytes op
  let read := if s.refuses loc op || s.badWords (residentKey loc) n ≠ [] then List.replicate n 0 else s.homeBytes (residentKey loc) n
  match op with
  | .load _ => read
  | .store .. => []
  | .atomic _ _ _ _ returns => if returns then read else []

/-- A load's answer carries the tags of its granules; what is refused has none (R107, R432). -/
def State.answerTags (s : State) (loc : Nat) (op : FabricOp) : List Bool :=
  match op with
  | .load n => if s.refuses loc op then [] else s.tagsOf (residentKey loc) n
  | .store .. => []
  | .atomic .. => []

/-- A response to a package that can be reached: its acknowledgement with the data and their tags (R432, R436, log 118). -/
def State.respond (s : State) (source : Nat) (bs : List Byte) (tags : List Bool) : State :=
  let hops := bitsOf (s.fabric.routes.getD source (3 * 2 ^ 5)) 6 5
  if hops = 0 || 2 < hops then s
  else { s with fabric := s.fabric.enqueue (s.fabric.pathPort source 1) (s.flitsTo 1 source none tags bs) }

/-- FABRIC_REQUEST: a request is performed at its home, once, and acknowledged each time it comes; one on a dead link is discarded
(R434–R436). -/
def execFabricRequest (source seqno loc : Nat) (req : FabricReq) (s : State) : Res :=
  if !s.fabric.isLive req.port then .next s
  else
    let s := s.hear req.port
    match s.fabric.performed.find? fun x => x.1 = source && x.2.1 = seqno with
    | some x => .next (s.respond source x.2.2.1 x.2.2.2)
    | none =>
      let bs := s.answer (loc % 2 ^ 33) req.op
      let tags := s.answerTags (loc % 2 ^ 33) req.op
      let s := s.performRequest (loc % 2 ^ 33) req.op
      .next (State.respond { s with fabric := { s.fabric with performed := s.fabric.performed ++ [(source, seqno, bs, tags)] } } source bs tags)

/-- FABRIC_RESPONSE: a request is acknowledged; an acknowledgement on a dead link is discarded (R432, R435, R436). -/
def execFabricResponse (ack : FabricAck) (s : State) : Res :=
  if !s.fabric.isLive ack.port then .next s
  else
    let s := s.hear ack.port
    .next { s with fabric := { s.fabric with unacked := s.fabric.unacked.filter fun q => q.num ≠ ack.request } }

end Sys2Proof.Machine
end

