-- ==== Sys2Proof/Machine/HostLink.lean ====
section
/-! DEFINITION. The host ports: mailbox commands, ownership, token streams, links (R438, R440–R443). -/

namespace Sys2Proof.Machine

/-! ### The management mailbox (R440, R441) -/

/-- The opcodes of the management mailbox (R441). -/
def mailboxOpcode (op : Nat) : Bool := (1 ≤ op && op ≤ 6) || [0x10, 0x11, 0x20, 0x21, 0x30].contains op

/-- The outcome of a mailbox command: invalid, failed, or done with the state after it. -/
def mailbox (port : Nat) (valid : Bool) (s : State) (r : Option State) : Res :=
  if !valid then .next (s.replyTo port 2 0)
  else
    match r with
    | some t => .next (t.replyTo port 0 0)
    | none => .next (s.replyTo port 1 0)

/-! ### Collective groups (R438) -/

/-- A collective command of a group is pending, here or, its contribution waiting at the root, in another package. -/
def State.groupBusy (s : State) (group : Nat) : Bool :=
  (s.shared.groups.getD group default).contributions ≠ [] || s.eng.colls.any fun (p : Nat × List CollCmd) => p.2.any fun c => clGroup c.card = group

/-- A member word of a group (R438). -/
def memberOk (w : Nat) : Bool := w < 2 ^ 19 && w % 2 ^ 10 ≤ 992

/-- GROUPSET: define a group (R438, log 15). -/
def execGroupset (port part group : Nat) (members : List Nat) (s : State) : Res :=
  let valid := group < 4096 && 2 ≤ members.length && members.length ≤ 256 && members.all memberOk
  mailbox port valid s (
    let other := match s.shared.groups.find? group with
      | some g => g.part ≠ part
      | none => false
    let dead := (s.shared.groups.getD group default).dead
    if !s.owns port part || other || dead || s.groupBusy group || !(members.all fun w => s.isMember part (w % 2 ^ 10)) then none
    else
      some (({ s with shared := { s.shared with groups := s.shared.groups.insert group ⟨part, members, false, []⟩ } }).setAllocated
        part (6144 + group) true))

/-- GROUPCLR: free a group (R438, R439). -/
def execGroupclr (port part group : Nat) (s : State) : Res :=
  mailbox port (group < 4096) s (
    match s.shared.groups.find? group with
    | none => none
    | some g =>
      if !s.owns port part || g.part ≠ part || s.groupBusy group then none
      else
        some (({ s with shared := { s.shared with groups := s.shared.groups.erase group } }).setAllocated part (6144 + group) false))

/-! ### Ownership (R442) -/

/-- A partition moves to a host: OWNER, its wake window and its token stream (R408, R442). -/
def State.giveTo (s : State) (port part : Nat) : State :=
  let s := s.writeDesc part 2 1 port
  { s with
    disp := { s.disp with parts := s.disp.parts.modify part default fun p => { p with orphaned := false } }
    streams := s.streams.map fun (p : Nat × TokStream) => if p.1 = part then (p.1, { p.2 with port := port }) else p }

/-- OWNERSET: partitions that are orphaned or already the host's move to it (R442). -/
def execOwnerset (port : Nat) (parts : List Nat) (s : State) : Res :=
  let takes := fun p : Nat => (s.partOf p).active && ((s.partOf p).orphaned || field (s.partOf p).desc 2 1 = port)
  mailbox port (port < 2) s (
    if !s.portUp port || !(parts.all takes) then none else some (parts.foldl (fun s p => s.giveTo port p) s))

/-! ### Token streams (R320, R442, R443) -/

/-- The token stream of a partition. -/
def State.stream (s : State) (part : Nat) : TokStream := s.streams.getD part default

/-- Write a token stream. -/
def State.setStream (s : State) (part : Nat) (t : TokStream) : State := { s with streams := s.streams.insert part t }

/-- TSRING: give a partition a host ring; its frame numbers go on (R443). -/
def execTsring (port part base count tailAddr : Nat) (s : State) : Res :=
  let valid := base % 4096 = 0 && base < 2 ^ 48 && powerIn count 2 4096 && tailAddr % 8 = 0 && tailAddr < 2 ^ 48
  mailbox port valid s (
    if !s.owns port part then none
    else
      let t := s.stream part
      some (s.setStream part { t with port := port, base := base, count := count, tailAddr := tailAddr, head := t.fseq }))

/-- Take a partition's records out of the mailbox into its holding list of 65,536; more are dropped and counted (R442). -/
def State.holdTokens (s : State) (part : Nat) : State :=
  let t := s.stream part
  let mine := s.shared.mailbox.filter fun r => r.part = part
  let room := 65536 - t.holding.length
  ({ s with shared := { s.shared with mailbox := s.shared.mailbox.filter fun r => r.part ≠ part } }).setStream part
    { t with holding := t.holding ++ mine.take room, lost := t.lost + (mine.length - room) }

/-- The record of R320. -/
def TokRec.bytes (r : TokRec) : List Byte := leBytes 2 r.src ++ leBytes 2 0 ++ leBytes 4 r.token ++ leBytes 8 r.stamp

/-- A frame with its CRC field as given (R443). -/
def frameBytes (part fseq lost crc : Nat) (l : List TokRec) : List Byte :=
  leBytes 4 0x4C544B31 ++ leBytes 2 part ++ leBytes 1 1 ++ leBytes 1 l.length ++ leBytes 8 fseq ++
    leBytes 8 ((l.head?.map (·.stamp)).getD 0) ++ leBytes 4 lost ++ leBytes 4 crc ++ l.flatMap TokRec.bytes

/-- Write a frame to its slot of the host ring, then the tail word, then signal the partition's vector (R443). -/
def State.postFrame (s : State) (part : Nat) (t : TokStream) (l : List TokRec) : State :=
  let crc := (crc32c (frameBytes part t.fseq t.lost 0 l)).toNat
  let s := s.writeHomeBytes 0 (hostKey t.port (t.base + t.fseq % Nat.max 1 t.count * 4096)) (frameBytes part t.fseq t.lost crc l)
  let s := s.writeHomeNat 0 (hostKey t.port t.tailAddr) 8 (t.fseq + 1)
  (s.setStream part { t with fseq := t.fseq + 1, holding := t.holding.drop l.length, lost := 0 }).notify (.interrupt part)

/-- A partition's records waiting to be framed, in mailbox order. -/
def State.waitingTokens (s : State) (part : Nat) : List TokRec :=
  (s.stream part).holding ++ s.shared.mailbox.filter fun r => r.part = part

/-- A frame closes now: it is full, or its first record has waited 16,384 ticks (R443). -/
def State.frameDue (s : State) (part : Nat) : Bool :=
  let l := s.waitingTokens part
  254 ≤ l.length || (match l with
    | r :: _ => r.stamp + 16384 ≤ s.polestar
    | [] => false)

/-- TOKEN_FRAME_CLOSE: a frame is written to the host ring; while the ring is full, or the partition orphaned, records wait
in the holding list. A partition without a ring keeps its records in the mailbox (R442, R443, log 39). -/
def execTokenFrameClose (part : Nat) (s : State) : Res :=
  let t := s.stream part
  if (s.partOf part).orphaned then .next (s.holdTokens part)
  else if t.count = 0 || !s.frameDue part then .next s
  else
    let s := s.holdTokens part
    let t := s.stream part
    if !s.portUp t.port || t.head + t.count ≤ t.fseq then .next s
    else .next (s.postFrame part t (t.holding.take 254))

/-- TS_HEAD_WRITE: the host frees the frame slots before `head` (R443). A value outside the frames posted frees nothing. -/
def execTsHeadWrite (part head : Nat) (s : State) : Res :=
  let t := s.stream part
  if t.head ≤ head && head ≤ t.fseq then .next (s.setStream part { t with head := head }) else .next s

/-! ### Routing entries and links (R430, R440, R442) -/

/-- READ_ROUTING_ENTRY (R430, R441). -/
def execReadRoutingEntry (port index : Nat) (s : State) : Res :=
  if 993 ≤ index then .next (s.replyTo port 2 0)
  else if !s.portUp port then .next (s.replyTo port 1 0)
  else .next (s.replyTo port 0 (s.fabric.routes.getD index (3 * 2 ^ 5)))

/-- PCIE_LINK_DOWN: the port's partitions become orphaned, their records wait, the other host is told (R442). -/
def execPcieLinkDown (port : Nat) (s : State) : Res :=
  if 2 ≤ port then .next s
  else
    let s := (s.settleLost fun k => keyRegion k = 5 + port).modPort port fun p => { p with up := false }
    let mine := (List.filter (fun p : Nat × Partition => p.2.active && field p.2.desc 2 1 = port) s.disp.parts).map (·.1)
    let s := mine.foldl (fun s p =>
      { s with disp := { s.disp with parts := s.disp.parts.modify p default fun q => { q with orphaned := true } } }) s
    .next ((mine.foldl State.holdTokens s).notify (.portLost port))

/-- PCIE_LINK_UP: the link has trained; its host can issue OWNERSET and mailbox commands (R440, R442). -/
def execPcieLinkUp (port : Nat) (s : State) : Res :=
  if 2 ≤ port then .next s else .next (s.modPort port fun p => { p with up := true })

end Sys2Proof.Machine
end

