-- ==== Sys2Proof/Machine/Power.lean ====
section
/-! DEFINITION. Scrubbing, power, freeze, boot and attestation (R1, R444, R446–R452). -/

namespace Sys2Proof.Machine

/-- PATROL_SCRUB: the sweep reads a word; an uncorrectable one is logged, under core 0 (R112, R444, log 48). -/
def execPatrolScrub (word : Nat) (s : State) : Res :=
  if !s.bad.contains word then .next s
  else
    .next (({ s with plat := { s.plat with
      scrubbed := SMap.insert (s.plat.scrubbed.filter fun (p : Nat × Nat) => s.bad.contains p.1) word s.polestar } }).logError .scrub 0 word)

/-! ### Power (R446, R447) -/

/-- The state the hosts ask for: the lower-numbered request (R446). -/
def State.powerTarget (s : State) : Nat := Nat.min (s.portAt 0).power (s.portAt 1).power

/-- The frequency in 25 MHz steps: the higher request of the hosts that ask for PS1, full speed in PS0 (R446). -/
def State.powerFreq (s : State) : Nat :=
  let ask := fun p : Nat => if (s.portAt p).power = 1 then (s.portAt p).freq else 0
  if s.powerTarget = 1 then Nat.max (ask 0) (ask 1) else 70

/-- POWER_REQUEST: a host writes its power register; PS0 and PS1 are entered at once, from PS2 and PS3 by waking (R446).
A PS1 request outside 500 MHz to 1.75 GHz is no request. -/
def execPowerRequest (port state freq : Nat) (s : State) : Res :=
  if 2 ≤ port || 4 ≤ state || (state = 1 && !(20 ≤ freq && freq ≤ 70)) then .next s
  else
    let s := s.modPort port fun p => { p with power := state, freq := if state = 1 then freq else p.freq }
    if 2 ≤ s.powerTarget then .next s
    else if 2 ≤ s.plat.ps then .next s.startWake
    else .next { s with plat := { s.plat with ps := s.powerTarget, freq := s.powerFreq } }

/-- No engine has work (R446). -/
def State.enginesIdle (s : State) : Bool :=
  (s.eng.copies.all fun (p : Nat × CopyCtx) => p.2.cmds.isEmpty) && (s.eng.colls.all fun (p : Nat × List CollCmd) => p.2.isEmpty) &&
  (s.eng.leases.all fun (p : Nat × LeaseCtx) => p.2.jobs.all fun j => !j.pending) &&
  s.contexts.all fun c => (s.hartAt c).q.toList.all fun z => z.inflight.isEmpty

/-- POWER_STATE_ENTRY: PS2 or PS3 is entered once no task slot is READY and every engine is idle; PS3 loses SRAM (R446). -/
def execPowerStateEntry (s : State) : Res :=
  let ready := s.contexts.any fun c => c.slot < 4 && (s.hartAt c).status = .ready
  if s.powerTarget < 2 || 2 ≤ s.plat.ps || ready || !s.enginesIdle then .next s
  else .next { s with plat := { s.plat with ps := s.powerTarget, wakeAt := none, sramLost := s.powerTarget == 3 } }

/-- A firmware context as the Yilpin firmware starts it: its registers and PC are the firmware's, free values; a tagged capability is one
that can be derived (R102, R359, log 3). -/
def startedHart (seed : Nat) : Hart :=
  let w := fun k : Nat => Config.freeWord (2 ^ 64 * (seed + 1) + k)
  { Hart.fresh with
    status := .ready
    pc := BitVec.ofNat 64 ((w 0).toNat % 2 ^ 46 * 4)
    s := Vector.ofFn fun i => if i.val = 0 then 0 else w (1 + i.val)
    c := Vector.ofFn fun i =>
      if i.val = 0 then Cap.null
      else
        let bits := (w (40 + 2 * i.val)).toNat + (w (41 + 2 * i.val)).toNat * 2 ^ 64
        let tag := (w 80).getLsbD i.val
        ⟨BitVec.ofNat 128 (if tag then derivable bits else bits), tag⟩ }

/-- The code of silicon revision B0 and the firmware release line 2 (R1; the code of B0 is a DESIGN CHOICE, log 113). -/
def revision : Nat × Nat := (0xB0, 2)

/-- The package as bring-up leaves it (R1, R363, R408, R446, R452): revision and release line are reported to each host; every SRAM word written with zeros, firmware contexts started,
the partition table placed, memory of hosts and other packages, time, ports and what the service cores were told kept; a fenced or
retired core stays so, its number with the spare, closed until CORESET (R445). -/
def State.bringUp (s : State) (latches : SMap Latch) (status : Nat) : State :=
  let outside := fun k : Nat => 4 ≤ keyRegion k && keyRegion k ≤ 6
  let cores := (List.range 8).flatMap fun d => (List.range 16).map fun k => (d, k)
  { State.reset with
    mem := s.mem.filter fun c => outside c.1
    tags := s.tags.filter fun g => outside (g * 16)
    bad := s.bad.filter fun w => outside (w * 8)
    polestar := s.polestar, clock := s.clock, steps := s.steps
    parked := cores.foldl (fun m x => m.insert (fwOf x.1 x.2).key (startedHart (s.steps * 256 + coreKey x.1 x.2))) []
    cores := cores.foldl (fun m x => m.insert (coreKey x.1 x.2)
      { Core.reset with
        tvec := BitVec.ofNat 64 ((Config.freeWord (2 ^ 64 * (s.steps * 256 + coreKey x.1 x.2 + 1) + 90)).toNat % 2 ^ 42 * 64)
        retired := (s.coreAt x.1 x.2).retired, cycle0 := s.clock }) []
    disp := { State.reset.disp with latches := latches }
    fabric := { Fabric.reset with self := (Config.freeWord (s.steps + 2 ^ 63)).toNat % 993 }
    ports := s.ports.map fun (p : Nat × HostPort) => (p.1, { p.2 with bootStatus := status, replies := [], slot := 0 })
    plat := { Platform.reset with
      spares := s.plat.spares, closed := s.plat.closed, booted := true, imageKey := s.plat.imageKey, imageBody := s.plat.imageBody, imageSig := s.plat.imageSig, config := s.plat.config
      partTable := (Config.freeWord s.steps).toNat % 2 ^ 30 / 256 * 256 }
    notices := s.notices ++ [Notice.identity 0 revision.1 revision.2, .identity 1 revision.1 revision.2], agenda := s.agenda }

/-- The latches over a PS3 exit: TAIL and PEND are kept, HOLD is set, nothing is mapped (R446). -/
def State.keptLatches (s : State) : SMap Latch :=
  s.disp.latches.map fun (p : Nat × Latch) => (p.1, { p.2 with hold := true, desc := none, hwq := none })

/-- POWER_STATE_EXIT: PS2 ends 2^16 ticks after its wake, with the latches consumed; PS3 ends with bring-up from its second
step, which reports boot status 0x03 (R378, R446). -/
def execPowerStateExit (s : State) : Res :=
  match s.plat.wakeAt with
  | none => .next s
  | some t =>
    if s.plat.ps < 2 || s.polestar < t then .next s
    else if s.plat.ps = 3 then .next (s.bringUp s.keptLatches 3)
    else
      let s := { s with plat := { s.plat with ps := 0, freq := 70, wakeAt := none } }
      .next ((s.disp.hwqs.map (·.1)).foldl State.wakeHwq s)

/-- DROOP_STRETCH: a die's arithmetic clock is stretched while a sag lasts for `ticks`; it falls behind the others by a free
number of cycles, and the polestar goes on (R447). -/
def execDroopStretch (die ticks : Nat) (s : State) : Res :=
  let s := s.ageCopies (s.polestar + ticks)
  let s := { s with polestar := s.polestar + ticks, clock := s.clock + ticks }
  .next (s.modDie die fun d => { d with stretch := d.stretch + 1, lag := d.lag + (Config.freeWord s.steps).toNat % (ticks + 1) })

/-! ### Freeze (R448) -/

/-- FREEZE: every clock stops (R448). -/
def execFreeze (s : State) : Res := .next { s with plat := { s.plat with frozen := true, readout := 0 } }

/-- FREEZE_READOUT: the service cores read out scan state, then the dies' register files, then their SRAM, to a host buffer
whose layout the manual leaves open (R448, log 40). -/
def execFreezeReadout (s : State) : Res :=
  if !s.plat.frozen || 3 ≤ s.plat.readout then .next s
  else
    let part := s.plat.readout + 1
    .next (({ s with plat := { s.plat with readout := part } }).notify (.readout 0 part))

/-! ### Boot and attestation (R1, R449–R452) -/

/-- The boot ROM accepts the firmware image (R449). -/
def Platform.secure (p : Platform) : Bool :=
  digestWord (sha384 p.imageKey) = Config.fusedKeyHash && Config.ecdsaVerify p.imageKey (digestWord (sha384 p.imageBody)) p.imageSig

/-- RESET: secure boot, then bring-up; a failed check halts the I/O die with boot status 0x02 (R449, R452). -/
def execReset (s : State) : Res :=
  if s.plat.secure then .next (s.bringUp [] 0)
  else
    .next { s with
      plat := { s.plat with halted := true, booted := false, frozen := false }
      ports := [0, 1].foldl (fun m p => m.insert p { s.portAt p with bootStatus := 2 }) s.ports }

/-- Bytes 0–239 of an attestation report: measurements of the firmware and of the boot configuration, the nonce, revision B0
and release line 2 (R1, R451). The boot configuration's measurement and the nonce are little-endian, like every quantity of several bytes
(R4). -/
def State.reportBody (s : State) (nonce : BitVec 384) : List Byte :=
  sha384 s.plat.imageBody ++ leBytes 48 s.plat.config.toNat ++ leBytes 48 nonce.toNat ++ leBytes 1 revision.1 ++ leBytes 1 revision.2 ++ List.replicate 94 0

/-- The signature's numbers r and s, each little-endian (R4, R451): r is the high half of the value (log 113). -/
def signatureBytes (x : BitVec 768) : List Byte := leBytes 48 (x.toNat / 2 ^ 384) ++ leBytes 48 (x.toNat % 2 ^ 384)

/-- ATTESTATION_REPORT (R450, R451). -/
def execAttestationReport (port : Nat) (nonce : BitVec 384) (s : State) : Res :=
  let body := s.reportBody nonce
  .next (s.notify (.attestation port (body ++ signatureBytes (Config.ecdsaSign (digestWord (sha384 body))))))

end Sys2Proof.Machine
end

