-- ==== Sys2Proof/Machine/Dispatch.lean ====
section
/-! DEFINITION. One arm for each instruction and device step: a direct call of its meaning. -/

namespace Sys2Proof.Machine

def exec (i : Instr) (s : State) : Host.Outcome State Fault Refusal :=
  match i with
  | .add d a b => Sys2Proof.Machine.execAdd d a b s
  | .sub d a b => Sys2Proof.Machine.execSub d a b s
  | .and d a b => Sys2Proof.Machine.execAnd d a b s
  | .or d a b => Sys2Proof.Machine.execOr d a b s
  | .xor d a b => Sys2Proof.Machine.execXor d a b s
  | .andn d a b => Sys2Proof.Machine.execAndn d a b s
  | .sll d a b => Sys2Proof.Machine.execSll d a b s
  | .srl d a b => Sys2Proof.Machine.execSrl d a b s
  | .sra d a b => Sys2Proof.Machine.execSra d a b s
  | .ror d a b => Sys2Proof.Machine.execRor d a b s
  | .slt d a b => Sys2Proof.Machine.execSlt d a b s
  | .sltu d a b => Sys2Proof.Machine.execSltu d a b s
  | .min d a b => Sys2Proof.Machine.execMin d a b s
  | .max d a b => Sys2Proof.Machine.execMax d a b s
  | .minu d a b => Sys2Proof.Machine.execMinu d a b s
  | .maxu d a b => Sys2Proof.Machine.execMaxu d a b s
  | .mul d a b => Sys2Proof.Machine.execMul d a b s
  | .mulh d a b => Sys2Proof.Machine.execMulh d a b s
  | .mulhu d a b => Sys2Proof.Machine.execMulhu d a b s
  | .div d a b => Sys2Proof.Machine.execDiv d a b s
  | .divu d a b => Sys2Proof.Machine.execDivu d a b s
  | .rem d a b => Sys2Proof.Machine.execRem d a b s
  | .remu d a b => Sys2Proof.Machine.execRemu d a b s
  | .clz d a => Sys2Proof.Machine.execClz d a s
  | .ctz d a => Sys2Proof.Machine.execCtz d a s
  | .popc d a => Sys2Proof.Machine.execPopc d a s
  | .addi d a imm => Sys2Proof.Machine.execAddi d a imm s
  | .andi d a imm => Sys2Proof.Machine.execAndi d a imm s
  | .ori d a imm => Sys2Proof.Machine.execOri d a imm s
  | .xori d a imm => Sys2Proof.Machine.execXori d a imm s
  | .slli d a imm => Sys2Proof.Machine.execSlli d a imm s
  | .srli d a imm => Sys2Proof.Machine.execSrli d a imm s
  | .srai d a imm => Sys2Proof.Machine.execSrai d a imm s
  | .slti d a imm => Sys2Proof.Machine.execSlti d a imm s
  | .sltiu d a imm => Sys2Proof.Machine.execSltiu d a imm s
  | .lih d imm => Sys2Proof.Machine.execLih d imm s
  | .addpc d imm => Sys2Proof.Machine.execAddpc d imm s
  | .liw d imm => Sys2Proof.Machine.execLiw d imm s
  | .addiw d a imm => Sys2Proof.Machine.execAddiw d a imm s
  | .beq a b off => Sys2Proof.Machine.execBeq a b off s
  | .bne a b off => Sys2Proof.Machine.execBne a b off s
  | .blt a b off => Sys2Proof.Machine.execBlt a b off s
  | .bge a b off => Sys2Proof.Machine.execBge a b off s
  | .bltu a b off => Sys2Proof.Machine.execBltu a b off s
  | .bgeu a b off => Sys2Proof.Machine.execBgeu a b off s
  | .jal d off => Sys2Proof.Machine.execJal d off s
  | .jalr d a imm => Sys2Proof.Machine.execJalr d a imm s
  | .ldb d c imm => Sys2Proof.Machine.execLdb d c imm s
  | .ldh d c imm => Sys2Proof.Machine.execLdh d c imm s
  | .ldw d c imm => Sys2Proof.Machine.execLdw d c imm s
  | .ldd d c imm => Sys2Proof.Machine.execLdd d c imm s
  | .ldbu d c imm => Sys2Proof.Machine.execLdbu d c imm s
  | .ldhu d c imm => Sys2Proof.Machine.execLdhu d c imm s
  | .ldwu d c imm => Sys2Proof.Machine.execLdwu d c imm s
  | .stb d c imm => Sys2Proof.Machine.execStb d c imm s
  | .sth d c imm => Sys2Proof.Machine.execSth d c imm s
  | .stw d c imm => Sys2Proof.Machine.execStw d c imm s
  | .std d c imm => Sys2Proof.Machine.execStd d c imm s
  | .cmov d a => Sys2Proof.Machine.execCmov d a s
  | .cinc d a b => Sys2Proof.Machine.execCinc d a b s
  | .cinci d a imm => Sys2Proof.Machine.execCinci d a imm s
  | .csetb d a b e => Sys2Proof.Machine.execCsetb d a b e s
  | .candp d a p => Sys2Proof.Machine.execCandp d a p s
  | .cgetb a b => Sys2Proof.Machine.execCgetb a b s
  | .cgetl a b => Sys2Proof.Machine.execCgetl a b s
  | .cgetc a b => Sys2Proof.Machine.execCgetc a b s
  | .cgetp a b => Sys2Proof.Machine.execCgetp a b s
  | .cgett a b => Sys2Proof.Machine.execCgett a b s
  | .cldc d a imm => Sys2Proof.Machine.execCldc d a imm s
  | .cstc d a imm => Sys2Proof.Machine.execCstc d a imm s
  | .waitc l sf c t => Sys2Proof.Machine.execWaitc l sf c t s
  | .amoadd d c b sf r w => Sys2Proof.Machine.execAmoadd d c b sf r w s
  | .amoand d c b sf r w => Sys2Proof.Machine.execAmoand d c b sf r w s
  | .amoor d c b sf r w => Sys2Proof.Machine.execAmoor d c b sf r w s
  | .amoxor d c b sf r w => Sys2Proof.Machine.execAmoxor d c b sf r w s
  | .amomin d c b sf r w => Sys2Proof.Machine.execAmomin d c b sf r w s
  | .amomax d c b sf r w => Sys2Proof.Machine.execAmomax d c b sf r w s
  | .amominu d c b sf r w => Sys2Proof.Machine.execAmominu d c b sf r w s
  | .amomaxu d c b sf r w => Sys2Proof.Machine.execAmomaxu d c b sf r w s
  | .amoswp d c b sf r w => Sys2Proof.Machine.execAmoswp d c b sf r w s
  | .amocas d c b sf r w => Sys2Proof.Machine.execAmocas d c b sf r w s
  | .amofadd d c b sf r => Sys2Proof.Machine.execAmofadd d c b sf r s
  | .amofmin d c b sf r => Sys2Proof.Machine.execAmofmin d c b sf r s
  | .amofmax d c b sf r => Sys2Proof.Machine.execAmofmax d c b sf r s
  | .amobfadd2 d c b sf r => Sys2Proof.Machine.execAmobfadd2 d c b sf r s
  | .redadd c b sf r w => Sys2Proof.Machine.execRedadd c b sf r w s
  | .redand c b sf r w => Sys2Proof.Machine.execRedand c b sf r w s
  | .redor c b sf r w => Sys2Proof.Machine.execRedor c b sf r w s
  | .redxor c b sf r w => Sys2Proof.Machine.execRedxor c b sf r w s
  | .redmin c b sf r w => Sys2Proof.Machine.execRedmin c b sf r w s
  | .redmax c b sf r w => Sys2Proof.Machine.execRedmax c b sf r w s
  | .redminu c b sf r w => Sys2Proof.Machine.execRedminu c b sf r w s
  | .redmaxu c b sf r w => Sys2Proof.Machine.execRedmaxu c b sf r w s
  | .redfadd c b sf r => Sys2Proof.Machine.execRedfadd c b sf r s
  | .redfmin c b sf r => Sys2Proof.Machine.execRedfmin c b sf r s
  | .redfmax c b sf r => Sys2Proof.Machine.execRedfmax c b sf r s
  | .redbfadd2 c b sf r => Sys2Proof.Machine.execRedbfadd2 c b sf r s
  | .syncq => Sys2Proof.Machine.execSyncq s
  | .fence sf r => Sys2Proof.Machine.execFence sf r s
  | .waitvis a r => Sys2Proof.Machine.execWaitvis a r s
  | .node => Sys2Proof.Machine.execNode s
  | .ctrsig a b sf r => Sys2Proof.Machine.execCtrsig a b sf r s
  | .ctrwait d a b sf r => Sys2Proof.Machine.execCtrwait d a b sf r s
  | .ctrrd d a => Sys2Proof.Machine.execCtrrd d a s
  | .barinit c b => Sys2Proof.Machine.execBarinit c b s
  | .bararv d c sf r => Sys2Proof.Machine.execBararv d c sf r s
  | .barxb d c b sf r => Sys2Proof.Machine.execBarxb d c b sf r s
  | .barwait c b sf r => Sys2Proof.Machine.execBarwait c b sf r s
  | .bartest d c b sf r => Sys2Proof.Machine.execBartest d c b sf r s
  | .chrsv d a => Sys2Proof.Machine.execChrsv d a s
  | .chpush a b r => Sys2Proof.Machine.execChpush a b r s
  | .chawait d a r => Sys2Proof.Machine.execChawait d a r s
  | .chrel a b => Sys2Proof.Machine.execChrel a b s
  | .chstat d a b => Sys2Proof.Machine.execChstat d a b s
  | .launch d a r => Sys2Proof.Machine.execLaunch d a r s
  | .spawn d a r => Sys2Proof.Machine.execSpawn d a r s
  | .awaitch d => Sys2Proof.Machine.execAwaitch d s
  | .gjoin d a => Sys2Proof.Machine.execGjoin d a s
  | .gleave d a => Sys2Proof.Machine.execGleave d a s
  | .gsync a sf => Sys2Proof.Machine.execGsync a sf s
  | .exit r => Sys2Proof.Machine.execExit r s
  | .suspend k a b sf r => Sys2Proof.Machine.execSuspend k a b sf r s
  | .yield => Sys2Proof.Machine.execYield s
  | .hintnext => Sys2Proof.Machine.execHintnext s
  | .self d l => Sys2Proof.Machine.execSelf d l s
  | .cpy d a b => Sys2Proof.Machine.execCpy d a b s
  | .cpyt d a b => Sys2Proof.Machine.execCpyt d a b s
  | .cpyg d a b => Sys2Proof.Machine.execCpyg d a b s
  | .cpys d a b => Sys2Proof.Machine.execCpys d a b s
  | .cpyc d a b => Sys2Proof.Machine.execCpyc d a b s
  | .cpyf d a b => Sys2Proof.Machine.execCpyf d a b s
  | .cpyb d a b => Sys2Proof.Machine.execCpyb d a b s
  | .qbind c q b => Sys2Proof.Machine.execQbind c q b s
  | .qaddr q b => Sys2Proof.Machine.execQaddr q b s
  | .qpops d q => Sys2Proof.Machine.execQpops d q s
  | .qpopv v q w => Sys2Proof.Machine.execQpopv v q w s
  | .qpeek d q => Sys2Proof.Machine.execQpeek d q s
  | .qstat d q => Sys2Proof.Machine.execQstat d q s
  | .qdrain q => Sys2Proof.Machine.execQdrain q s
  | .qfmt q b => Sys2Proof.Machine.execQfmt q b s
  | .mlease d a => Sys2Proof.Machine.execMlease d a s
  | .mfree => Sys2Proof.Machine.execMfree s
  | .mjob d a c => Sys2Proof.Machine.execMjob d a c s
  | .mstat d a => Sys2Proof.Machine.execMstat d a s
  | .mdrain => Sys2Proof.Machine.execMdrain s
  | .merrrd d a => Sys2Proof.Machine.execMerrrd d a s
  | .tcfg d b => Sys2Proof.Machine.execTcfg d b s
  | .tzero d => Sys2Proof.Machine.execTzero d s
  | .tldrow d c b => Sys2Proof.Machine.execTldrow d c b s
  | .tstrow a c b => Sys2Proof.Machine.execTstrow a c b s
  | .tld d c b => Sys2Proof.Machine.execTld d c b s
  | .tst a c b => Sys2Proof.Machine.execTst a c b s
  | .trowv a v b => Sys2Proof.Machine.execTrowv a v b s
  | .tcolv a v b => Sys2Proof.Machine.execTcolv a v b s
  | .tvrow d v b => Sys2Proof.Machine.execTvrow d v b s
  | .tvcol d v b => Sys2Proof.Machine.execTvcol d v b s
  | .ttrans d a => Sys2Proof.Machine.execTtrans d a s
  | .tmma d a t => Sys2Proof.Machine.execTmma d a t s
  | .trel d => Sys2Proof.Machine.execTrel d s
  | .trbind d b => Sys2Proof.Machine.execTrbind d b s
  | .trwait c a b r => Sys2Proof.Machine.execTrwait c a b r s
  | .trinfo d a => Sys2Proof.Machine.execTrinfo d a s
  | .trdone => Sys2Proof.Machine.execTrdone s
  | .trhold d a => Sys2Proof.Machine.execTrhold d a s
  | .trskip d a => Sys2Proof.Machine.execTrskip d a s
  | .trnext d a b => Sys2Proof.Machine.execTrnext d a b s
  | .trqry d a => Sys2Proof.Machine.execTrqry d a s
  | .tagdecl d a b sf => Sys2Proof.Machine.execTagdecl d a b sf s
  | .tagpub a r => Sys2Proof.Machine.execTagpub a r s
  | .tagwait a r => Sys2Proof.Machine.execTagwait a r s
  | .tagqry d a => Sys2Proof.Machine.execTagqry d a s
  | .tagret a => Sys2Proof.Machine.execTagret a s
  | .coll b => Sys2Proof.Machine.execColl b s
  | .tkcommit d b => Sys2Proof.Machine.execTkcommit d b s
  | .tkput a b => Sys2Proof.Machine.execTkput a b s
  | .wpset d a b => Sys2Proof.Machine.execWpset d a b s
  | .wpclr d a => Sys2Proof.Machine.execWpclr d a s
  | .wprd d a b => Sys2Proof.Machine.execWprd d a b s
  | .seqst d a b => Sys2Proof.Machine.execSeqst d a b s
  | .vfadd d a b k n => Sys2Proof.Machine.execVfadd d a b k n s
  | .vfsub d a b k n => Sys2Proof.Machine.execVfsub d a b k n s
  | .vfmul d a b k n => Sys2Proof.Machine.execVfmul d a b k n s
  | .vfma d a b k n => Sys2Proof.Machine.execVfma d a b k n s
  | .vfms d a b k n => Sys2Proof.Machine.execVfms d a b k n s
  | .vfnma d a b k n => Sys2Proof.Machine.execVfnma d a b k n s
  | .vfnms d a b k n => Sys2Proof.Machine.execVfnms d a b k n s
  | .vfmin d a b k n => Sys2Proof.Machine.execVfmin d a b k n s
  | .vfmax d a b k n => Sys2Proof.Machine.execVfmax d a b k n s
  | .vfminm d a b k n => Sys2Proof.Machine.execVfminm d a b k n s
  | .vfmaxm d a b k n => Sys2Proof.Machine.execVfmaxm d a b k n s
  | .vfabs d a k => Sys2Proof.Machine.execVfabs d a k s
  | .vfneg d a k => Sys2Proof.Machine.execVfneg d a k s
  | .vfsgnj d a b k => Sys2Proof.Machine.execVfsgnj d a b k s
  | .vfdiv d a b k n => Sys2Proof.Machine.execVfdiv d a b k n s
  | .vfsqrt d a k n => Sys2Proof.Machine.execVfsqrt d a k n s
  | .vfrcp d a k n => Sys2Proof.Machine.execVfrcp d a k n s
  | .vfrsq d a k n => Sys2Proof.Machine.execVfrsq d a k n s
  | .vfexp2 d a k n => Sys2Proof.Machine.execVfexp2 d a k n s
  | .vflog2 d a k n => Sys2Proof.Machine.execVflog2 d a k n s
  | .vftanh d a k n => Sys2Proof.Machine.execVftanh d a k n s
  | .vfceq d a b k n => Sys2Proof.Machine.execVfceq d a b k n s
  | .vfcne d a b k n => Sys2Proof.Machine.execVfcne d a b k n s
  | .vfclt d a b k n => Sys2Proof.Machine.execVfclt d a b k n s
  | .vfcle d a b k n => Sys2Proof.Machine.execVfcle d a b k n s
  | .vfcun d a b k n => Sys2Proof.Machine.execVfcun d a b k n s
  | .vceq d a b k => Sys2Proof.Machine.execVceq d a b k s
  | .vcne d a b k => Sys2Proof.Machine.execVcne d a b k s
  | .vclt d a b k => Sys2Proof.Machine.execVclt d a b k s
  | .vcle d a b k => Sys2Proof.Machine.execVcle d a b k s
  | .vcltu d a b k => Sys2Proof.Machine.execVcltu d a b k s
  | .vcleu d a b k => Sys2Proof.Machine.execVcleu d a b k s
  | .vadd d a b k => Sys2Proof.Machine.execVadd d a b k s
  | .vsub d a b k => Sys2Proof.Machine.execVsub d a b k s
  | .vadds d a b k => Sys2Proof.Machine.execVadds d a b k s
  | .vsubs d a b k => Sys2Proof.Machine.execVsubs d a b k s
  | .vmul d a b k => Sys2Proof.Machine.execVmul d a b k s
  | .vmulh d a b k => Sys2Proof.Machine.execVmulh d a b k s
  | .vmulhu d a b k => Sys2Proof.Machine.execVmulhu d a b k s
  | .vmin d a b k => Sys2Proof.Machine.execVmin d a b k s
  | .vmax d a b k => Sys2Proof.Machine.execVmax d a b k s
  | .vminu d a b k => Sys2Proof.Machine.execVminu d a b k s
  | .vmaxu d a b k => Sys2Proof.Machine.execVmaxu d a b k s
  | .vabs d a k => Sys2Proof.Machine.execVabs d a k s
  | .vand d a b k => Sys2Proof.Machine.execVand d a b k s
  | .vor d a b k => Sys2Proof.Machine.execVor d a b k s
  | .vxor d a b k => Sys2Proof.Machine.execVxor d a b k s
  | .vandn d a b k => Sys2Proof.Machine.execVandn d a b k s
  | .vnot d a k => Sys2Proof.Machine.execVnot d a k s
  | .vsll d a b k => Sys2Proof.Machine.execVsll d a b k s
  | .vsrl d a b k => Sys2Proof.Machine.execVsrl d a b k s
  | .vsra d a b k => Sys2Proof.Machine.execVsra d a b k s
  | .vpopc d a k => Sys2Proof.Machine.execVpopc d a k s
  | .vclz d a k => Sys2Proof.Machine.execVclz d a k s
  | .vcvt d a t r k n => Sys2Proof.Machine.execVcvt d a t r k n s
  | .vcvtsat d a t r k n => Sys2Proof.Machine.execVcvtsat d a t r k n s
  | .vqfp4 d a k n => Sys2Proof.Machine.execVqfp4 d a k n s
  | .vdqfp4 d a t r k n => Sys2Proof.Machine.execVdqfp4 d a t r k n s
  | .vqfp8 d a t r k n => Sys2Proof.Machine.execVqfp8 d a t r k n s
  | .vblksc d a k n => Sys2Proof.Machine.execVblksc d a k n s
  | .vbndsc d a k n => Sys2Proof.Machine.execVbndsc d a k n s
  | .vperm d a b k => Sys2Proof.Machine.execVperm d a b k s
  | .vslideup d a b k => Sys2Proof.Machine.execVslideup d a b k s
  | .vslidedn d a b k => Sys2Proof.Machine.execVslidedn d a b k s
  | .vziplo d a b k => Sys2Proof.Machine.execVziplo d a b k s
  | .vziphi d a b k => Sys2Proof.Machine.execVziphi d a b k s
  | .vrev d a k => Sys2Proof.Machine.execVrev d a k s
  | .vcompr d a k => Sys2Proof.Machine.execVcompr d a k s
  | .vexpnd d a k => Sys2Proof.Machine.execVexpnd d a k s
  | .vsel d a b k => Sys2Proof.Machine.execVsel d a b k s
  | .vrsum d a k n => Sys2Proof.Machine.execVrsum d a k n s
  | .vrmax d a k n => Sys2Proof.Machine.execVrmax d a k n s
  | .vrmin d a k n => Sys2Proof.Machine.execVrmin d a k n s
  | .vrmaxi d a k n => Sys2Proof.Machine.execVrmaxi d a k n s
  | .vrmini d a k n => Sys2Proof.Machine.execVrmini d a k n s
  | .vscans d a k n => Sys2Proof.Machine.execVscans d a k n s
  | .vrand d a k => Sys2Proof.Machine.execVrand d a k s
  | .vror d a k => Sys2Proof.Machine.execVror d a k s
  | .vtopk d a b k n => Sys2Proof.Machine.execVtopk d a b k n s
  | .vspc d a n k => Sys2Proof.Machine.execVspc d a n k s
  | .vspx d a n k f => Sys2Proof.Machine.execVspx d a n k f s
  | .vbpt d a => Sys2Proof.Machine.execVbpt d a s
  | .vbpu d a => Sys2Proof.Machine.execVbpu d a s
  | .vld d c b k => Sys2Proof.Machine.execVld d c b k s
  | .vst d c b k => Sys2Proof.Machine.execVst d c b k s
  | .vlds d sf c b k => Sys2Proof.Machine.execVlds d sf c b k s
  | .vsts d sf c b k => Sys2Proof.Machine.execVsts d sf c b k s
  | .vgth d a c b k => Sys2Proof.Machine.execVgth d a c b k s
  | .vsct d a c b k => Sys2Proof.Machine.execVsct d a c b k s
  | .vsctadd d a c b k => Sys2Proof.Machine.execVsctadd d a c b k s
  | .vldb d c b k => Sys2Proof.Machine.execVldb d c b k s
  | .kand d a b => Sys2Proof.Machine.execKand d a b s
  | .kor d a b => Sys2Proof.Machine.execKor d a b s
  | .kxor d a b => Sys2Proof.Machine.execKxor d a b s
  | .knot d a => Sys2Proof.Machine.execKnot d a s
  | .kpop d a => Sys2Proof.Machine.execKpop d a s
  | .kfirst d a => Sys2Proof.Machine.execKfirst d a s
  | .kset d a => Sys2Proof.Machine.execKset d a s
  | .kmov d a => Sys2Proof.Machine.execKmov d a s
  | .vsett sf m t => Sys2Proof.Machine.execVsett sf m t s
  | .vmvs d a b => Sys2Proof.Machine.execVmvs d a b s
  | .vmve d a k => Sys2Proof.Machine.execVmve d a k s
  | .vins d a b => Sys2Proof.Machine.execVins d a b s
  | .vid d k => Sys2Proof.Machine.execVid d k s
  | .vrng d a k => Sys2Proof.Machine.execVrng d a k s
  | .vgumb d a b k n => Sys2Proof.Machine.execVgumb d a b k n s
  | .vflgrd d => Sys2Proof.Machine.execVflgrd d s
  | .vflgclr => Sys2Proof.Machine.execVflgclr s
  | .vmov d a k => Sys2Proof.Machine.execVmov d a k s
  | .ctlrd d r => Sys2Proof.Machine.execCtlrd d r s
  | .ctlwr d a r => Sys2Proof.Machine.execCtlwr d a r s
  | .ctlset d a r => Sys2Proof.Machine.execCtlset d a r s
  | .ctlclr d a r => Sys2Proof.Machine.execCtlclr d a r s
  | .eret a => Sys2Proof.Machine.execEret a s
  | .wfi a => Sys2Proof.Machine.execWfi a s
  | .tlbinv a b sf => Sys2Proof.Machine.execTlbinv a b sf s
  | .ctxsv d a c => Sys2Proof.Machine.execCtxsv d a c s
  | .ctxld d a c => Sys2Proof.Machine.execCtxld d a c s
  | .quardr d a => Sys2Proof.Machine.execQuardr d a s
  | .halt a => Sys2Proof.Machine.execHalt a s
  | .nop => Sys2Proof.Machine.execNop s
  | .trap a => Sys2Proof.Machine.execTrap a s
  | .brk => Sys2Proof.Machine.execBrk s
  | .ifence => Sys2Proof.Machine.execIfence s
  | .illegalInstruction word long => Sys2Proof.Machine.execIllegalInstruction word long s
  | .trapEntry die core => Sys2Proof.Machine.execTrapEntry die core s
  | .pmarkWrite die core marks => Sys2Proof.Machine.execPmarkWrite die core marks s
  | .efqResume die core => Sys2Proof.Machine.execEfqResume die core s
  | .efqAbort die core => Sys2Proof.Machine.execEfqAbort die core s
  | .seqclrStop die seq => Sys2Proof.Machine.execSeqclrStop die seq s
  | .seqclrWait die seq => Sys2Proof.Machine.execSeqclrWait die seq s
  | .segmentEmission ring => Sys2Proof.Machine.execSegmentEmission ring s
  | .firstEmission ring => Sys2Proof.Machine.execFirstEmission ring s
  | .segmentArrival die seg => Sys2Proof.Machine.execSegmentArrival die seg s
  | .expansionCheck die slot => Sys2Proof.Machine.execExpansionCheck die slot s
  | .originReturnCheck seg => Sys2Proof.Machine.execOriginReturnCheck seg s
  | .homeCopyRestore ring tag => Sys2Proof.Machine.execHomeCopyRestore ring tag s
  | .slotRetire die slot => Sys2Proof.Machine.execSlotRetire die slot s
  | .slackExpiry die slot => Sys2Proof.Machine.execSlackExpiry die slot s
  | .taskPlacement die => Sys2Proof.Machine.execTaskPlacement die s
  | .bankSwap die core pair => Sys2Proof.Machine.execBankSwap die core pair s
  | .queueEntryFetch die hwq => Sys2Proof.Machine.execQueueEntryFetch die hwq s
  | .prestartReport chain die => Sys2Proof.Machine.execPrestartReport chain die s
  | .startRelease chain => Sys2Proof.Machine.execStartRelease chain s
  | .kernelComplete launch => Sys2Proof.Machine.execKernelComplete launch s
  | .launchKill launch => Sys2Proof.Machine.execLaunchKill launch s
  | .nodePreemption die core slot => Sys2Proof.Machine.execNodePreemption die core slot s
  | .suspendWaitComplete cont => Sys2Proof.Machine.execSuspendWaitComplete cont s
  | .forcedEviction die core slot => Sys2Proof.Machine.execForcedEviction die core slot s
  | .evictionRestore saved => Sys2Proof.Machine.execEvictionRestore saved s
  | .gangReserveTimeout chain => Sys2Proof.Machine.execGangReserveTimeout chain s
  | .coreError die core => Sys2Proof.Machine.execCoreError die core s
  | .spareSubstitution die core => Sys2Proof.Machine.execSpareSubstitution die core s
  | .barrierWatchdog die core slot => Sys2Proof.Machine.execBarrierWatchdog die core slot s
  | .copyStart die core slot eng => Sys2Proof.Machine.execCopyStart die core slot eng s
  | .copyComplete die core slot eng => Sys2Proof.Machine.execCopyComplete die core slot eng s
  | .cpytRelease die core eng => Sys2Proof.Machine.execCpytRelease die core eng s
  | .cpybSlotReserve die core slot eng => Sys2Proof.Machine.execCpybSlotReserve die core slot eng s
  | .streamReadIssue die core slot q => Sys2Proof.Machine.execStreamReadIssue die core slot q s
  | .streamElementArrival die core slot q => Sys2Proof.Machine.execStreamElementArrival die core slot q s
  | .matrixLeaseGrant die cluster => Sys2Proof.Machine.execMatrixLeaseGrant die cluster s
  | .matrixJobStart die core => Sys2Proof.Machine.execMatrixJobStart die core s
  | .matrixJobComplete die core => Sys2Proof.Machine.execMatrixJobComplete die core s
  | .storePerformAtHome at_ => Sys2Proof.Machine.execStorePerformAtHome at_ s
  | .remoteLoadReturn die core unit => Sys2Proof.Machine.execRemoteLoadReturn die core unit s
  | .atomicPerformAtHome at_ => Sys2Proof.Machine.execAtomicPerformAtHome at_ s
  | .trbindDecision die core slot => Sys2Proof.Machine.execTrbindDecision die core slot s
  | .collContribution die core slot => Sys2Proof.Machine.execCollContribution die core slot s
  | .collDelivery group => Sys2Proof.Machine.execCollDelivery group s
  | .spillScan part => Sys2Proof.Machine.execSpillScan part s
  | .tokenFrameClose part => Sys2Proof.Machine.execTokenFrameClose part s
  | .tsHeadWrite part head => Sys2Proof.Machine.execTsHeadWrite part head s
  | .doorbell port offset value => Sys2Proof.Machine.execDoorbell port offset value s
  | .map die hwq part qid addr ctr => Sys2Proof.Machine.execMap die hwq part qid addr ctr s
  | .unmap die hwq ctr => Sys2Proof.Machine.execUnmap die hwq ctr s
  | .destroy part qid ctr => Sys2Proof.Machine.execDestroy part qid ctr s
  | .pload part ctr => Sys2Proof.Machine.execPload part ctr s
  | .migrate part va pa ctr => Sys2Proof.Machine.execMigrate part va pa ctr s
  | .migrateComplete part va => Sys2Proof.Machine.execMigrateComplete part va s
  | .coreset part die mask ctr => Sys2Proof.Machine.execCoreset part die mask ctr s
  | .movecont part rec core ctr => Sys2Proof.Machine.execMovecont part rec core ctr s
  | .grant handle prodPart prodBase consPart consBase ctr => Sys2Proof.Machine.execGrant handle prodPart prodBase consPart consBase ctr s
  | .revoke handle ctr => Sys2Proof.Machine.execRevoke handle ctr s
  | .almset part ctr => Sys2Proof.Machine.execAlmset part ctr s
  | .chcreate part die desc pa ctr => Sys2Proof.Machine.execChcreate part die desc pa ctr s
  | .chfree part die desc ctr => Sys2Proof.Machine.execChfree part die desc ctr s
  | .rform ring config packages region mail => Sys2Proof.Machine.execRform ring config packages region mail s
  | .rload ring image manifest mail => Sys2Proof.Machine.execRload ring image manifest mail s
  | .rstart ring tick slack mail => Sys2Proof.Machine.execRstart ring tick slack mail s
  | .rslack ring slack mail => Sys2Proof.Machine.execRslack ring slack mail s
  | .rstop ring mail => Sys2Proof.Machine.execRstop ring mail s
  | .rstopComplete ring => Sys2Proof.Machine.execRstopComplete ring s
  | .rjoin ring package mail => Sys2Proof.Machine.execRjoin ring package mail s
  | .ringLinkDead ring position => Sys2Proof.Machine.execRingLinkDead ring position s
  | .missingSegmentReload ring tag => Sys2Proof.Machine.execMissingSegmentReload ring tag s
  | .bypassLaneRequest ring granted => Sys2Proof.Machine.execBypassLaneRequest ring granted s
  | .timeFlitSend => Sys2Proof.Machine.execTimeFlitSend s
  | .timeFlitReceive port time delay => Sys2Proof.Machine.execTimeFlitReceive port time delay s
  | .heartbeat port => Sys2Proof.Machine.execHeartbeat port s
  | .fabricLinkDead port => Sys2Proof.Machine.execFabricLinkDead port s
  | .eclipseNotice port silent reporter rport kind stamp nseq => Sys2Proof.Machine.execEclipseNotice port silent reporter rport kind stamp nseq s
  | .routeRedraw draws => Sys2Proof.Machine.execRouteRedraw draws s
  | .fabricRequest source seqno loc req => Sys2Proof.Machine.execFabricRequest source seqno loc req s
  | .fabricResponse ack => Sys2Proof.Machine.execFabricResponse ack s
  | .groupset port part group members => Sys2Proof.Machine.execGroupset port part group members s
  | .groupclr port part group => Sys2Proof.Machine.execGroupclr port part group s
  | .ownerset port parts => Sys2Proof.Machine.execOwnerset port parts s
  | .tsring port part base count tailAddr => Sys2Proof.Machine.execTsring port part base count tailAddr s
  | .readRoutingEntry port index => Sys2Proof.Machine.execReadRoutingEntry port index s
  | .pcieLinkDown port => Sys2Proof.Machine.execPcieLinkDown port s
  | .patrolScrub word => Sys2Proof.Machine.execPatrolScrub word s
  | .powerRequest port state freq => Sys2Proof.Machine.execPowerRequest port state freq s
  | .powerStateEntry => Sys2Proof.Machine.execPowerStateEntry s
  | .powerStateExit => Sys2Proof.Machine.execPowerStateExit s
  | .droopStretch die ticks => Sys2Proof.Machine.execDroopStretch die ticks s
  | .freeze => Sys2Proof.Machine.execFreeze s
  | .freezeReadout => Sys2Proof.Machine.execFreezeReadout s
  | .reset => Sys2Proof.Machine.execReset s
  | .attestationReport port nonce => Sys2Proof.Machine.execAttestationReport port nonce s
  | .taskKill die core target => Sys2Proof.Machine.execTaskKill die core target s
  | .trwaitDeadline die core slot => Sys2Proof.Machine.execTrwaitDeadline die core slot s
  | .wfiDeadline die core => Sys2Proof.Machine.execWfiDeadline die core s
  | .fabricAdmission package port master => Sys2Proof.Machine.execFabricAdmission package port master s
  | .pcieLinkUp port => Sys2Proof.Machine.execPcieLinkUp port s
  | .cheadWrite part qid value => Sys2Proof.Machine.execCheadWrite part qid value s
  | .firmwareContextRestart die core pc => Sys2Proof.Machine.execFirmwareContextRestart die core pc s
  | .linkLevelReplay port => Sys2Proof.Machine.execLinkLevelReplay port s

end Sys2Proof.Machine
end

