-- ==== Sys2Proof/Machine/Inputs.lean ====
section
/-! DEFINITION. What the outside and chance do besides the steps of the table (R16, R112, R115, R137, R177, R404, R438, R443,
R444), and the passing of time with its effects. -/

namespace Sys2Proof.Machine

/-- A word of code that the fetch unit of a context reads ahead, if the context may fetch it (R177). -/
def State.readAhead (s : State) (c : CtxId) (addr : Nat) : State :=
  let here := s.here
  let t := s.switchTo c
  match t.access t.who (t.rc 15) (addr : Int) 4 4 .fetch with
  | .ok key t =>
    if t.badWords key 4 ≠ [] then s
    else
      let w := BitVec.ofNat 32 (leNat ((upFrom key 4).map (t.dieByte c.die)))
      (t.mod fun h => { h with ahead := h.ahead ++ [(addr, w)] }).switchTo here
  | _ => s

/-- The table entry at an index path as memory holds it now (R400–R402). -/
def State.entryNow (s : State) (part space level path : Nat) : Option Nat :=
  let va := path * (if level = 1 then 2 ^ 38 else if level = 2 then 2 ^ 27 else 2 ^ 16)
  let next := fun e align i : Nat =>
    if bitOf e 0 && pointerOk e align && tableOk e then
      let k := tableKey (bitsOf e 9 8) (bitsOf e 47 12 * 4096 + i * 8)
      if s.badWords k 8 = [] then some (s.homeNat k 8) else none
    else none
  if level = 0 then (if path = 0 then some (s.root part space) else none)
  else
    match next (s.root part space) (2 ^ 13) (va / 2 ^ 38) with
    | none => none
    | some a =>
      if level = 1 then some a
      else
        match next a (2 ^ 14) (va / 2 ^ 27 % 2 ^ 11) with
        | none => none
        | some b => if level = 2 then some b else if bitOf b 1 then next b (2 ^ 14) (va / 2 ^ 16 % 2 ^ 11) else none

/-- A cached leaf, for a page or a block; the other entries are pointers (R404). -/
def XEntry.leaf (e : XEntry) : Bool := e.level = 3 || (e.level = 2 && !bitOf e.entry 1)

/-- Only valid leaves and pointers are cached, as memory holds them, by a core's first level or by the die's second level and
walkers; a walk that parks caches nothing (R404). -/
def State.mayCache (s : State) (e : XEntry) : Bool :=
  3 ≤ e.space && e.space ≤ 6 && e.level ≤ 3 && e.die < Config.dies && e.core ≤ 16 && bitOf e.entry 0 &&
  (if e.leaf then leafOk e.entry (if e.level = 3 then 2 ^ 16 else 2 ^ 27) && !bitOf e.entry 6
    else e.core = 16 && pointerOk e.entry (if e.level = 0 then 2 ^ 13 else 2 ^ 14)) &&
  s.entryNow e.part e.space e.level e.path = some e.entry

/-- Two entries of one cache compete for a way: leaves by the set of their page or block, 32 sets in a core's first level and
1,024 in the die's second, and pointers of a die all alike (R9, R404). -/
def XEntry.rival (e f : XEntry) : Bool :=
  let sets := if e.core = 16 then 1024 else 32
  e.die = f.die && e.core = f.core && e.leaf = f.leaf && (!e.leaf || e.path % sets = f.path % sets)

/-- The translation caches with one more entry: it takes the place of one of its own tag, and in a full set of 8 ways, or among
256 pointers, of the entry that came first (R9, R404, log 9). -/
def cacheEntry (l : List XEntry) (e : XEntry) : List XEntry :=
  let same := fun f : XEntry => e.rival f && f.part = e.part && f.space = e.space && f.level = e.level && f.path = e.path
  let l := l.filter fun f => !same f
  let full := (if e.leaf then 8 else 256) ≤ (l.filter e.rival).length
  (if full then l.eraseIdx (l.findIdx e.rival) else l) ++ [e]

/-- A location of the package's own SRAM (R112). -/
def inSram (k : Nat) : Bool := keyRegion k = 1 || keyRegion k = 3 || keyRegion k = 7

/-- The entry of a rotation order that carries a tag, the first from a place on (R14, R15). -/
def Ring.entryAfter (r : Ring) (from_ tag : Nat) : Nat :=
  let n := r.order.length
  (((List.range n).map fun k => (from_ + k) % n).find? fun i => (r.order[i]?.map fun h => h.tag) = some tag).getD n

/-- A segment from another package enters the ring's link to a position of this one (R16). -/
def State.enterSegment (s : State) (ring position : Nat) (bs : List Byte) : State :=
  match s.ring? ring with
  | none => s
  | some r =>
    if (r.dieAt s.fabric.self position).isNone then s
    else
      let i := r.entryAfter (((r.prev? position).bind r.sent.find?).map (· + 1) |>.getD 0) (field bs 2 2)
      let s := match r.prev? position with
        | some p => s.setRing ring { r with sent := r.sent.insert p i }
        | none => s
      { s with flights := s.flights.insert ((s.flights.map (·.1)).foldl Nat.max 0 + 1) ⟨ring, i, bs, position, false, false⟩ }

/-- A service core takes the first record out of the mailbox, if its partition has a ring or is orphaned (R442, R443). -/
def State.drainMailbox (s : State) : State :=
  match s.shared.mailbox with
  | [] => s
  | r :: rest =>
    let t := s.stream r.part
    if t.count = 0 && !(s.partOf r.part).orphaned then s
    else
      let s := { s with shared := { s.shared with mailbox := rest } }
      if t.holding.length < 65536 then s.setStream r.part { t with holding := t.holding ++ [r] }
      else s.setStream r.part { t with lost := t.lost + 1 }

/-- A core of another package has taken a core error: the groups with a member on it are dead (R394, R439). -/
def State.remoteCoreError (s : State) (package die core : Nat) : State :=
  let hit := fun w : Nat => w % 2 ^ 10 = package && bitsOf w 12 10 = die && bitsOf w 16 13 = core
  if package = s.fabric.self then s
  else ((List.filter (fun p : Nat × Group => p.2.members.any hit) s.shared.groups).map (·.1)).foldl State.failGroup s

/-- A member of another package contributes to an operation of a live group (R438). -/
def State.remoteContribution (s : State) (group : Nat) (c : Contribution) : State :=
  match s.shared.groups.find? group with
  | none => s
  | some g =>
    match g.members[c.rank]? with
    | some w =>
      if g.dead || (s.memberKey w).isSome then s
      else { s with shared := { s.shared with
        groups := s.shared.groups.insert group { g with contributions := g.contributions ++ [c] } } }
    | none => s

/-- A package of a launch's arc has reported its part complete: every store of its tasks is performed at scope all (R43, R257). -/
def State.partComplete (s : State) (launch package : Nat) : State :=
  match s.disp.launches.find? launch with
  | none => s
  | some l =>
    if (s.arcOthers l.record).contains package then
      { s with disp := { s.disp with launches := s.disp.launches.insert launch { l with others := setInsert l.others package } } }
    else s

/-- An uncorrectable error in a table entry poisons it: counters, tags and channels fail as poisoned, stale or poisoned, a
sequence entry is TRAPPED (R444). -/
def State.loseEntry (s : State) (table key : Nat) : State :=
  if table = 0 then s.signal key 0 true
  else if table = 1 then
    match s.shared.tags.find? key with
    | some t => if t.state = 0 then s else s.retireTag (key / 2 ^ 16) (key % 2 ^ 16 + t.gen * 2 ^ 16)
    | none => s
  else if table = 2 then if (s.shared.channels.find? key).isSome then s.poisonChannel key else s
  else if (s.seqAt key).state = 7 then s
  else s.setSeq key { s.seqAt key with state := 4 }

/-- An input other than an instruction. -/
def State.input (s : State) (i : Input) : State :=
  match i with
  | .run _ => s
  | .issue _ => s
  | .fetchAhead c addr => s.readAhead c addr
  | .fillCache e => if s.mayCache e then { s with disp := { s.disp with xcache := cacheEntry s.disp.xcache e } } else s
  | .upset word =>
    if inSram (word * 8) then
      let s := s.performWhere fun k => k / 8 = word
      { s with bad := setInsert s.bad word }
    else s
  | .corrected die => s.modDie die fun d => { d with corrected := d.corrected + 1 }
  | .clearErrors die => s.modDie die fun d => { d with errs := [], errOverflow := 0 }
  | .ringFlits ring position bs => s.enterSegment ring position bs
  | .remoteWrite loc bs => if keyRegion loc = 4 then s.writeHomeBytes 0 loc bs else s
  | .hostWrite port addr bs => if port < 2 && s.portUp port then s.writeHomeBytes 0 (hostKey port addr) bs else s
  | .drainMailbox => s.drainMailbox
  | .collRemote group c => s.remoteContribution group c
  | .ringQuiet ring package => s.ringQuiet ring package
  | .ringSilent ring position silent => s.ringSilent ring position silent
  | .peerReload ring tag segment => s.peerReload ring tag segment
  | .homeCopyBad ring entry => s.homeCopyBad ring entry
  | .homeCopyBack ring entry ok => s.homeCopyBack ring entry ok
  | .ringDescriptor ring r image => s.takeDescriptor ring r image
  | .badCommand port opcode => if s.portUp port && !mailboxOpcode opcode then s.replyTo port 2 0 else s
  | .portSends port cls => s.portSends port cls
  | .creditReturn port cls hop => s.creditReturn port cls hop
  | .slotReturn target => s.slotReturn target
  | .transitFlit port x => s.routeOn port x
  | .peerHeartbeat port => if s.fabric.isLive port then s.hear port else s
  | .peerFrozen port => s.peerFrozen port
  | .remoteCoreError package die core => s.remoteCoreError package die core
  | .partComplete launch package => s.partComplete launch package
  | .entryError table key => s.loseEntry table key

/-- Time passes; a timed copy whose tick passes while its wait is unmet is late (R291). -/
def State.elapse (s : State) : State := (s.ageCopies s.tick.polestar).tick

/-- Time passes after a next state. -/
def elapsed (r : Res) : Res :=
  match r with
  | .next s => .next s.elapse
  | .fault f => .fault f
  | .refused f => .refused f

/-- What follows an issue of a context at `pc`: an instruction of a READY context that blocks keeps what it is, the context is the
youngest of its core, instruction groups are counted, time passes (R31, R59, R360, R362). A trap ends no group. -/
def State.issued (s : State) (c : CtxId) (pc : Word) (len : Nat) (vector : Bool) (i : Instr) : State :=
  let h := s.hartAt c
  let waits := h.status = .blocked && h.pc = pc
  let s := if waits && h.task.wait.isNone then s.modHart c fun h => { h with task := { h.task with wait := some (.again i) } } else s
  if h.status = .trapped then s.elapse
  else ((s.ageOthers c).countGroup c pc (if h.status = .ready then h.pc else pc + BitVec.ofNat 64 len) (vector && !waits)).elapse

/-- A next state after an issue. -/
def afterIssue (c : CtxId) (pc : Word) (len : Nat) (vector : Bool) (i : Instr) (r : Res) : Res :=
  match r with
  | .next t => .next (t.issued c pc len vector i)
  | .fault f => .fault f
  | .refused f => .refused f

/-- The clocks run, and the package is up (R446, R448, R449, R452). -/
def State.running (s : State) : Bool := s.plat.booted && !s.plat.halted && !s.plat.frozen && s.plat.ps < 2

/-- A core's firmware context has a trap to enter, which it does before anything of its core issues (R60, R365). -/
def State.entryDue (s : State) (die core : Nat) : Bool :=
  let k := s.coreAt die core
  !k.tactive && !k.failed && !k.retired && s.trapPending die core

/-- A READY slot that may be stalled at issue: it has accesses outstanding that its next instruction may have to wait for (R119). -/
def State.mayStall (s : State) (c : CtxId) : Bool := (s.hartAt c).loads ≠ [] || (s.hartAt c).stores ≠ []

/-- A context may issue next on its core: the firmware context in its turn, or when no slot is able; outside that turn the oldest slot, or
a younger one while each older one may be stalled and has been passed over less than 64 times (R59, R60, R360, R365, log 114). -/
def State.mayIssue (s : State) (c : CtxId) : Bool :=
  let due := s.fwFirst c.die c.core
  let age := fun x : CtxId => (s.hartAt x).age
  s.running && s.canIssue c && !s.entryDue c.die c.core &&
  if c.slot = 4 then due || s.fwIdle c.die c.core
  else !due && (s.ableSlots c.die c.core).all fun x => age x ≤ age c || (age x < 64 && s.mayStall x)

/-- A core whose firmware context has a trap to enter (R365). -/
def State.trapDue (s : State) : Option (Nat × Nat) :=
  if !s.running then none
  else
    (s.cores.map (·.1)).findSome? fun k =>
      if s.entryDue (k / 32) (k % 32) then some (k / 32, k % 32) else none

end Sys2Proof.Machine
end

