-- ==== Sys2Proof/Machine/Schedule.lean ====
section
/-! DEFINITION. Which steps the package takes by itself, and in what turn (log 2). A step listed here that is not due changes
nothing when it is taken. -/

namespace Sys2Proof.Machine

/-- The steps that perform the accesses of a buffer: a free choice among the entries, one that may not go changing nothing (R114, R115,
R119). -/
noncomputable def State.bufferSteps (s : State) (b : BufId) : List Instr :=
  let n := (s.buffer b).length
  if n = 0 then []
  else
    let e := (Config.freeWord s.steps).toNat % n
    [.storePerformAtHome ⟨b, 0⟩, .storePerformAtHome ⟨b, e⟩, .atomicPerformAtHome ⟨b, 0⟩, .atomicPerformAtHome ⟨b, e⟩]

/-- The steps of one context: its buffers, loads, engines, waits. -/
noncomputable def State.ctxSteps (s : State) (c : CtxId) : List Instr :=
  let h := s.hartAt c
  s.bufferSteps (.task c.die c.core c.slot) ++
  (match h.loads with
    | [] => []
    | r :: _ => [.remoteLoadReturn c.die c.core ⟨c.slot, (Config.freeWord s.steps).toNat % (r.elems.length + 1)⟩]) ++
  (if h.task.keyWait.isSome then [.trwaitDeadline c.die c.core c.slot] else []) ++
  (if (match h.task.wait with
    | some (.barrier ..) => true
    | _ => false) then [.barrierWatchdog c.die c.core c.slot] else []) ++
  (if s.holds c && !s.coreRuns c then [.forcedEviction c.die c.core c.slot] else []) ++
  (if h.task.atNode then [.nodePreemption c.die c.core c.slot] else []) ++
  (if s.shared.bindReqs.any fun q => q.ctx = c then [.trbindDecision c.die c.core c.slot] else []) ++
  (List.range 8).flatMap fun q =>
    let z := h.q[q]?.getD Stream.unbound
    (if z.aq = [] then [] else [.streamReadIssue c.die c.core c.slot q]) ++
    (if z.inflight = [] && !z.panelDue then [] else [.streamElementArrival c.die c.core c.slot q])

/-- The steps of the engines (R278–R291, R319). -/
noncomputable def State.engineSteps (s : State) : List Instr :=
  (s.eng.copies.flatMap fun (p : Nat × CopyCtx) =>
    let c := ctxOf (p.1 / 2)
    if p.2.cmds = [] then []
    else
      [.copyStart c.die c.core c.slot (p.1 % 2), .copyComplete c.die c.core c.slot (p.1 % 2), .cpybSlotReserve c.die c.core c.slot (p.1 % 2),
        .cpytRelease c.die c.core (p.1 % 2)]) ++
  (s.eng.colls.flatMap fun (p : Nat × List CollCmd) =>
    let c := ctxOf p.1
    p.2.flatMap fun m => [.collContribution c.die c.core c.slot, .collDelivery (clGroup m.card)]) ++
  (s.eng.arrays.flatMap fun (p : Nat × Array_) => if p.2.reqs = [] then [] else [.matrixLeaseGrant (p.1 / 4) (p.1 % 4)]) ++
  s.eng.leases.flatMap fun (p : Nat × LeaseCtx) =>
    if p.2.jobs = [] then [] else [.matrixJobStart (p.1 / 32) (p.1 % 32), .matrixJobComplete (p.1 / 32) (p.1 % 32)]

/-- The partitions whose spilled waiters firmware goes through: those with a scan request, and those with spilled waiters whose last scan
is 2^16 ticks ago (R390). -/
def State.spillScans (s : State) : List Nat :=
  s.disp.scanAsked ++ ((s.shared.tags.filter fun p => p.2.late ≠ []).map fun p => p.1 / 2 ^ 16).eraseDups.filter fun p =>
    (s.disp.nextSpill.find? p).getD 0 ≤ s.polestar && !s.disp.scanAsked.contains p

/-- The steps of the dispatchers (R34–R55, R376–R398, R406, R411). -/
noncomputable def State.dispatcherSteps (s : State) : List Instr :=
  (List.range 8).map Instr.taskPlacement ++
  (s.cores.flatMap fun (p : Nat × Core) => (List.range p.2.banks.length).map fun i => Instr.bankSwap (p.1 / 32) (p.1 % 32) i) ++
  (s.disp.hwqs.map fun (p : Nat × HwQueue) => Instr.queueEntryFetch (p.1 / 64) (p.1 % 64)) ++
  (s.disp.chains.flatMap fun (p : Nat × Chain) =>
    ((List.range 8).map fun d => Instr.prestartReport p.1 d) ++ [.startRelease p.1, .gangReserveTimeout p.1]) ++
  (s.disp.launches.map fun (p : Nat × Launch) => Instr.kernelComplete p.1) ++
  ((s.disp.chains.filter fun p : Nat × Chain => p.2.state = .draining).map fun p : Nat × Chain => Instr.kernelComplete p.2.first) ++
  (s.disp.conts.map fun (p : Nat × Cont) => Instr.suspendWaitComplete p.1) ++
  (s.disp.saved.map fun (p : Nat × Saved) => Instr.evictionRestore p.1) ++
  (s.spillScans.map Instr.spillScan) ++
  (s.disp.migrations.map fun m => Instr.migrateComplete m.part m.va) ++
  (s.disp.coresets.map fun q => Instr.coreset q.1 q.2.1 q.2.2.1 q.2.2.2) ++
  s.disp.moveconts.map fun q => Instr.movecont q.1 q.2.1 q.2.2.1 q.2.2.2

/-- The steps of the rings and slots (R15–R23, R416–R426, R454). -/
noncomputable def State.ringSteps (s : State) : List Instr :=
  (s.rings.flatMap fun (p : Nat × Ring) =>
    [.firstEmission p.1, .segmentEmission p.1, .rstopComplete p.1] ++ (p.2.silent.map fun x => Instr.ringLinkDead p.1 x.1) ++ p.2.order.flatMap fun h =>
      if h.state = .restoring then [.homeCopyRestore p.1 h.tag] else if h.state = .lost then [.missingSegmentReload p.1 h.tag] else []) ++
  (s.flights.flatMap fun (p : Nat × Flight) => (List.range 8).map (Instr.segmentArrival · p.1) ++ [.originReturnCheck p.1]) ++
  s.shared.slots.flatMap fun (p : Nat × MSlot) =>
    if p.2.state = 1 then [.expansionCheck (p.1 / 8) (p.1 % 8)]
    else if p.2.state = 3 then [.slackExpiry (p.1 / 8) (p.1 % 8)]
    else if p.2.state = 4 then [.slotRetire (p.1 / 8) (p.1 % 8)]
    else []

/-- The uncorrectable words that the patrol scrub has not read within 2^32 ticks: it reads every word once in that time (R444). -/
def State.scrubDue (s : State) : List Nat :=
  s.bad.filter fun w => inSram (w * 8) && match s.plat.scrubbed.find? w with
    | some t => decide (t + 2 ^ 32 ≤ s.polestar)
    | none => true

/-- Four ports drawn at random (R430). -/
def State.freeDraws (s : State) : List Nat := (List.range 4).map fun k => (Config.freeWord (2 ^ 63 + s.steps)).toNat / 32 ^ k % 32

/-- The flits that wait at the ports (R433). -/
def State.queuedFlits (s : State) : List Input :=
  s.fabric.ports.flatMap fun (p : Nat × Port) =>
    ((List.range 4).filter fun c => p.2.queue.any fun x => x.cls = c).map fun c => Input.portSends p.1 c

/-- The steps of the I/O die (R372, R422, R435, R443, R446). -/
noncomputable def State.ioSteps (s : State) : List Instr :=
  [.timeFlitSend, .powerStateEntry, .routeRedraw s.freeDraws] ++ (s.scrubDue.map Instr.patrolScrub) ++ (s.fabric.livePorts.map Instr.heartbeat) ++
  (s.fabric.livePorts.map Instr.fabricLinkDead) ++
  ((s.streams.map (·.1)).map Instr.tokenFrameClose) ++
  (s.cores.flatMap fun (p : Nat × Core) => if p.2.wfi.isSome then [.wfiDeadline (p.1 / 32) (p.1 % 32)] else []) ++
  (s.dies.flatMap fun (p : Nat × Die) => s.bufferSteps (.outbound p.1)) ++ s.bufferSteps .egress

/-- Every step the package may take by itself, and every BLOCKED context that may look again. -/
noncomputable def State.deviceSteps (s : State) : List Input :=
  ((s.contexts.filter s.retries).map Input.issue) ++ s.queuedFlits ++
  ((s.contexts.flatMap s.ctxSteps ++ s.engineSteps ++ s.dispatcherSteps ++ s.ringSteps ++ s.ioSteps).map Input.run)

/-- The step whose turn it is. -/
noncomputable def State.deviceTurn (s : State) : Option Input := s.deviceSteps[s.steps / 2 % Nat.max 1 s.deviceSteps.length]?

/-- A device step, command or host action that an input may bring: one without a word, and no word that is none. While the
clocks are gated or stopped, or boot has failed, only the always-on domain acts (R378, R446, R448, R449). -/
def State.mayRun (s : State) (i : Instr) : Bool :=
  encode i == [] &&
  match i with
  | .illegalInstruction .. => false
  | .reset => true
  | .freezeReadout => s.plat.frozen
  | .freeze | .powerRequest .. | .powerStateExit | .doorbell .. | .pcieLinkUp .. | .pcieLinkDown .. => s.plat.booted && !s.plat.halted && !s.plat.frozen
  | _ => s.running

end Sys2Proof.Machine
end

