-- ==== Sys2Proof/Machine/Step.lean ====
section
/-! DEFINITION. One step of the package. -/

namespace Sys2Proof.Machine

/-- A context fetches and runs its next instruction, once the loads that write c15 and the registers it names are performed (R119,
R138). -/
noncomputable def State.issueFrom (s : State) (c : CtxId) : Res :=
  let s := (s.switchTo c).performCode
  match s.fetch with
  | .trap e v t => elapsed (.next (t.takeTrap e v 4))
  | .wait => elapsed (.next s.block)
  | .ok (w, x) t =>
    let len := if isLong w then 8 else 4
    match decode w x with
    | some i => afterIssue c s.hart.pc len (isVectorWord w) i (exec i (t.performTouched i))
    | none =>
      let i := Instr.illegalInstruction (illegalWord w x) (isLong w)
      afterIssue c s.hart.pc len false i (exec i t)

/-- A context BLOCKED in its fetch looks again: it is READY once the fetch need not wait, and issues in its turn (R31, R59, R60). -/
def State.refetch (s : State) : State :=
  match s.performCode.fetch with
  | .wait => s
  | _ => s.mod fun h => { h with status := .ready }

/-- A BLOCKED context looks again: it is READY if its fetch waits no longer, the instruction that waits asks again, or the object it waits
on is looked at (R31, R261). -/
noncomputable def State.lookAgain (s : State) (c : CtxId) : Res :=
  let s := s.switchTo c
  match s.hart.task.wait with
  | none => elapsed (.next s.refetch)
  | some (.again i) => elapsed (exec i s)
  | some (.suspend ..) => elapsed (.next (s.trySuspend c).reapRevoked)
  | some (.stay ..) => elapsed (.next (s.trySuspend c).reapRevoked)
  | some _ => elapsed (.next (s.tryWait c))

/-- One input: a device step if it may run, an instruction of a context or its look again if it may issue, or what the outside does. -/
noncomputable def State.take (s : State) (i : Input) : Res :=
  match i with
  | .run i => if s.mayRun i then elapsed (exec i s) else elapsed (.next s)
  | .issue c =>
    if s.mayIssue c then s.issueFrom c
    else if s.running && s.retries c then s.lookAgain c
    else elapsed (.next s)
  | i => elapsed (.next (s.input i))

/-- A device step, or something else with nothing to take. -/
noncomputable def State.deviceOr (s : State) (other : Res) : Res :=
  match s.deviceTurn with
  | some i => s.take i
  | none => other

/-- What the package does by itself: bring-up, a handler's entry, and by turns an instruction and a device step. -/
noncomputable def State.proceed (s : State) : Res :=
  if s.plat.halted then .fault .bootHalted
  else if !s.plat.booted then elapsed (exec .reset s)
  else if s.plat.frozen then if s.plat.readout < 3 then elapsed (exec .freezeReadout s) else .fault .frozen
  else if 2 ≤ s.plat.ps then elapsed (exec .powerStateExit s)
  else
    match s.trapDue with
    | some (d, k) => elapsed (exec (.trapEntry d k) s)
    | none =>
      match s.pick with
      | none => s.deviceOr (elapsed (.next s))
      | some c => if s.steps % 2 = 1 then s.deviceOr (s.issueFrom c) else s.issueFrom c

/-- One step: the next input, or what the package does by itself. -/
noncomputable def step (s : State) : Host.Outcome State Fault Refusal :=
  match s.agenda with
  | [] => s.proceed
  | i :: rest => { s with agenda := rest }.take i

/-- The state with an instruction where the next step fetches it: at virtual address 0x10000 of partition 1, whose tables
map that page for fetching, in slot 0 of core 0 of die 0, which issues next (log 10). -/
def State.withFetchWord (s : State) (_nbits w : Nat) : State :=
  let pc : Nat := 0x10000
  let base := residentKey 0
  let put := fun (m : List Host.Cell) (off n x : Nat) => memSetAll m (cellsAt (base + off) (leBytes n x))
  let mem := put (put (put (put s.mem 0 8 0x4003) 0x4000 8 0x8003) 0x8008 8 0x1003D) pc 8 (w % 2 ^ 64)
  let desc := leBytes 8 0 ++ leBytes 8 0x3 ++ List.replicate 240 0
  let here : CtxId := ⟨0, 0, 0⟩
  let s := s.switchTo here
  let used := fun k : Nat => base ≤ k * 8 && k * 8 < base + 0x10010
  { s with
    mem := mem
    bad := s.bad.filter fun k => !used k
    agenda := [.issue here]
    hart :=
      { s.hart with
        status := .ready
        pc := BitVec.ofNat 64 pc
        c := s.hart.c.set 15 (boundedCap 3 0x11 0x10000 0x20000 0x10000 true)
        ahead := []
        loads := []
        age := (s.parked.map fun p : Nat × Hart => p.2.age).foldl Nat.max 0
        task := { s.hart.task.issued with part := 1, code := 0x10000, codeLen := 0x10000 } }
    cores := s.cores.insert 0 { s.coreAt 0 0 with failed := false, retired := false, tactive := false, traps := [], seqTraps := [], efq := [], efqHeld := [], groups := 0, midGroup := false }
    dies := s.dies.insert 0 { s.dieAt 0 with outbound := [], imageBase := Config.residentBytes }
    disp := { s.disp with parts := s.disp.parts.insert 1 ⟨desc, [], true, 0, 0, [], false⟩, xcache := [] }
    plat := { s.plat with booted := true, halted := false, frozen := false, ps := 0 } }

end Sys2Proof.Machine
end

