-- ==== Sys2Proof/Safety.lean ====
section
/-! DEFINITION. What claims say of a state and of what a step leaves unchanged. -/

namespace Sys2Proof.Machine

/-- Memory is in canonical form. -/
def State.memOk (s : State) : Prop := Memory.wf s.mem

/-- Every byte and granule tag reads as before, for the issuing task, for its die and at its home. -/
def SameMemory (s t : State) : Prop :=
  (∀ k, t.readByte k = s.readByte k) ∧ (∀ k, t.homeByte k = s.homeByte k) ∧ (∀ k, t.readTag k = s.readTag k)

/-- Only the issuing context may differ: all the rest of the package is as before. -/
def OnlyHere (s t : State) : Prop := t = { s with hart := t.hart }

/-- The issuing task goes on: its PC, its wait and its age change, nothing else of it but the registers named. -/
def SameScalars (s t : State) : Prop := ∀ r, t.rs r = s.rs r

/-- Every scalar register but one is unchanged. -/
def SameScalarsBut (d : SReg) (s t : State) : Prop := ∀ r, r ≠ d → t.rs r = s.rs r

/-- Every capability register is unchanged. -/
def SameCaps (s t : State) : Prop := ∀ r, t.rc r = s.rc r

/-- Every capability register but one is unchanged. -/
def SameCapsBut (d : CReg) (s t : State) : Prop := ∀ r, r ≠ d → t.rc r = s.rc r

/-- Every vector name, the vector type, the rounding mode and the flags are unchanged. -/
def SameVectors (s t : State) : Prop :=
  (∀ r, t.rv r = s.rv r) ∧ t.hart.vec.vtype = s.hart.vec.vtype ∧ t.hart.vec.vrm = s.hart.vec.vrm ∧
    t.hart.vec.vflg = s.hart.vec.vflg

/-- Every mask register is unchanged. -/
def SameMasks (s t : State) : Prop := ∀ r, t.rk r = s.rk r

/-- Tiles, their shapes and dirty bits, and streams are unchanged. -/
def SameTiles (s t : State) : Prop := t.hart.tile = s.hart.tile ∧ t.hart.q = s.hart.q

end Sys2Proof.Machine
end

