-- ==== Sys2Proof/Certificates/Slice0/Obligations.lean ====
section
/-! DEFINITION. The statements for the provers. A table of `Sys2Proof.Claims` says, for the instructions of a shape, what the
rules give each of them; the statement after it quantifies over the table. -/

open Sys2Proof Sys2Proof.Machine

/-- Twenty-eight words that the spec prints as encodings, from every family, decode to the instructions it prints them
for; fn 26 of major 0x01 and the all-zero word decode to none. (R139, R140, R148, R149, Instruction Formats: worked
encodings) -/
def Obligations.SpecWordsDecode : Prop :=
  decode 0x04642800 0 = some (.add 3 4 5) ∧
  decode 0x08840FFF 0 = some (.addi 4 4 0xFFF) ∧
  decode 0x10803FFD 0 = some (.bne 4 0 0x1FFD) ∧
  decode 0x20846010 0 = some (.ldd 4 2 16) ∧
  decode 0x30865038 0 = some (.amoadd 4 3 5 1 3 0) ∧
  decode 0x3084695A 0 = some (.amocas 4 2 6 2 3 1) ∧
  decode 0x281FFFC0 0 = some (.waitc 0 31 31 31) ∧
  decode 0x3400002A 0 = some (.fence 2 2) ∧
  decode 0x38C42825 0 = some (.ctrwait 6 4 5 1 1) ∧
  decode 0x3C0500A7 0 = some (.gsync 5 1) ∧
  decode 0x3C0000C2 0 = some (.exit 2) ∧
  decode 0x40A23020 0 = some (.cpyt 5 2 6) ∧
  decode 0x47820860 0 = some (.qpopv 28 2 1) ∧
  decode 0x48000080 0 = some .mdrain ∧
  decode 0x4D814E20 0 = some (.tldrow 3 5 7) ∧
  decode 0x50A40021 0 = some (.trwait 5 4 0 1) ∧
  decode 0x54C42808 0 = some (.tagdecl 6 4 5 2) ∧
  decode 0x58803020 0 = some (.tkcommit 4 6) ∧
  decode 0x60304223 0 = some (.vfma 3 1 2 1 0) ∧
  decode 0x7820C402 0 = some (.vslidedn 2 3 4 0) ∧
  decode 0x7C518043 0 = some (.vrmaxi 5 6 2 0) ∧
  decode 0x88608004 0 = some (.kpop 6 2) ∧
  decode 0x8D420005 0 = some (.vrng 20 8 0) ∧
  decode 0x84800480 0 = some (.vld 8 1 4 0) ∧
  decode 0x909288AE 0 = some (.vsctadd 9 10 2 5 3) ∧
  decode 0xF4853860 0 = some (.ctxsv 4 5 7) ∧
  decode 0xF8000000 0 = some .nop ∧
  decode 0xFCA00000 0x12345678 = some (.liw 5 0x12345678) ∧
  decode 0x0464281A 0 = none ∧ decode 0 0 = none

/-- For every instruction that has words at all, with every operand at every value its fields admit, if it passes the
checks of well-formedness then decoding the words the encoder writes for it gives back that very instruction. (R138,
R139, R140, R141, R148, R149) -/
def Obligations.EncodedInstructionsDecode : Prop :=
  ∀ i : Instr, encode i = [] ∨ (i.wellFormed = true → decode ((encode i).headD 0) ((encode i).getD 1 0) = some i)

/-- When a context is the next to issue, by the agenda or by its own turn, and the words fetched at its PC decode to
an instruction, the step is that instruction's meaning in the state after the fetch, once the loads that write the
registers it names are performed; words that decode to none run as the illegal word; a failed fetch traps. After it
the context is the youngest of its core, instruction groups are counted and time passes. (R8, R59, R138, R139, R149,
R162) -/
def Obligations.StepRunsTheDecodedInstruction : Prop :=
  ∀ (s u v : State) (c : CtxId),
    ((∃ rest, s.agenda = .issue c :: rest ∧ u = { s with agenda := rest } ∧ u.mayIssue c = true) ∨
      (s.agenda = [] ∧ s.running = true ∧ s.trapDue = none ∧ s.pick = some c ∧ s.steps % 2 = 0 ∧ u = s)) →
    v = (u.switchTo c).performCode →
    (∀ (w x : Nat) (t : State), v.fetch = .ok (w, x) t →
      (∀ i : Instr, decode w x = some i →
        step s = afterIssue c v.hart.pc (if isLong w then 8 else 4) (isVectorWord w) i (exec i (t.performTouched i))) ∧
      (decode w x = none → step s = afterIssue c v.hart.pc (if isLong w then 8 else 4) false (.illegalInstruction (illegalWord w x) (isLong w))
        (exec (.illegalInstruction (illegalWord w x) (isLong w)) t))) ∧
    (∀ e y t, v.fetch = .trap e y t → step s = .next (t.takeTrap e y 4).elapse)

/-- At reset bring-up has not begun, no context holds a task, FWSHARE of every core is 16 and its other supervisor
registers are 0, memory lists nothing; the values the spec does not give (PC and registers 0, time 0) are the model's
choice, logs 3, 4 and 6. (R38, R62, R363, R452, log 3, log 4, log 6) -/
def Obligations.ResetState : Prop :=
  State.reset.plat.booted = false ∧ State.reset.hart.status = .empty ∧ State.reset.parked = [] ∧
  (∀ d k, (State.reset.coreAt d k).fwshare = 16 ∧ (State.reset.coreAt d k).tactive = false ∧
    (State.reset.coreAt d k).tcause = 0 ∧ (State.reset.coreAt d k).pmark = 0 ∧ (State.reset.coreAt d k).efq = []) ∧
  State.reset.mem = [] ∧ (∀ r, State.reset.rs r = 0) ∧ State.reset.hart.pc = 0 ∧ State.reset.polestar = 0 ∧
  State.reset.plat.ps = 0 ∧ State.reset.plat.halted = false ∧ State.reset.plat.frozen = false

/-- The memory of the reset state is in canonical form: addresses rise and no entry equals what an unlisted address
reads as. (R112, R452) -/
def Obligations.ResetMemoryCanonical : Prop :=
  State.reset.memOk

/-- From every state whose memory is in canonical form, whatever the step runs (an instruction, a device step, a host
command or an input), the next state's memory is in canonical form, so that equal memories stay equal data. (R107,
R112, R115) -/
def Obligations.StepKeepsMemoryCanonical : Prop :=
  ∀ s t : State, s.memOk → step s = .next t → t.memOk

/-- Every constructor's meaning answers a next state in every state: a failed check is a trap taken, a wait is a
blocked context, and nothing is refused or faults. (R7, R8, R149, R362, R364) -/
def Obligations.EveryInstructionGoesOn : Prop :=
  ∀ (i : Instr) (s : State), ∃ t, exec i s = .next t

/-- A step of the package never refuses, and it faults only while no input is left and either the boot has failed,
with the name bootHalted, or every clock is stopped by a freeze whose read-out is over, with the name frozen. (R448,
R449) -/
def Obligations.StepStopsOnlyHaltedOrFrozen : Prop :=
  ∀ s : State, (∃ t, step s = .next t) ∨
    (s.agenda = [] ∧ s.plat.halted = true ∧ step s = .fault .bootHalted) ∨
    (s.agenda = [] ∧ s.plat.halted = false ∧ s.plat.booted = true ∧ s.plat.frozen = true ∧ 3 ≤ s.plat.readout ∧ step s = .fault .frozen)

/-- s0 reads as zero, c0 reads as the null capability and k0 reads as all ones in every state, and writing any of the
three changes nothing. (R62) -/
def Obligations.HardwiredRegisters : Prop :=
  (∀ s : State, s.rs 0 = 0 ∧ s.rc 0 = ⟨0, false⟩ ∧ s.rk 0 = BitVec.allOnes 512) ∧
  (∀ (s : State) (v : Word), s.ws 0 v = s) ∧ (∀ (s : State) (v : Cap), s.wc 0 v = s) ∧ (∀ (s : State) (v : KBits), s.wk 0 v = s)

/-- Writing a scalar, capability or mask register other than the hard-wired one makes it read the value written and
leaves every other register of the file; producing a vector result puts it in n0 and in a main or operand destination,
shifts the last-result file by one, and leaves every other main and operand register. (R62, R64, R66, R67) -/
def Obligations.RegisterFilesReadBack : Prop :=
  (∀ (s : State) (d r : SReg) (v : Word), (s.ws d v).rs r = if r = d ∧ d ≠ 0 then v else s.rs r) ∧
  (∀ (s : State) (d r : CReg) (v : Cap), (s.wc d v).rc r = if r = d ∧ d ≠ 0 then v else s.rc r) ∧
  (∀ (s : State) (d r : KReg) (v : KBits), (s.wk d v).rk r = if r = d ∧ d ≠ 0 then v else s.rk r) ∧
  (∀ (s : State) (d : VReg) (x : VBits), (s.wv d x).rv 60 = x ∧ (s.wv d x).rv 61 = s.rv 60 ∧
    (s.wv d x).rv 62 = s.rv 61 ∧ (s.wv d x).rv 63 = s.rv 62 ∧
    ∀ r : VReg, r.toNat < 60 → (s.wv d x).rv r = if r = d then x else s.rv r)

namespace Sys2Proof.Claims

/-- The destination and the result of an instruction that only writes a scalar register (R157–R161). -/
def scalarOp : Instr → Option (SReg × (State → Word))
  | .add d a b => some (d, fun s => s.rs a + s.rs b)
  | .sub d a b => some (d, fun s => s.rs a - s.rs b)
  | .and d a b => some (d, fun s => s.rs a &&& s.rs b)
  | .or d a b => some (d, fun s => s.rs a ||| s.rs b)
  | .xor d a b => some (d, fun s => s.rs a ^^^ s.rs b)
  | .andn d a b => some (d, fun s => s.rs a &&& ~~~s.rs b)
  | .sll d a b => some (d, fun s => s.rs a <<< ((s.rs b).toNat % 64))
  | .srl d a b => some (d, fun s => s.rs a >>> ((s.rs b).toNat % 64))
  | .sra d a b => some (d, fun s => (s.rs a).sshiftRight ((s.rs b).toNat % 64))
  | .ror d a b => some (d, fun s => (s.rs a).rotateRight ((s.rs b).toNat % 64))
  | .slt d a b => some (d, fun s => if (s.rs a).toInt < (s.rs b).toInt then 1 else 0)
  | .sltu d a b => some (d, fun s => if (s.rs a).toNat < (s.rs b).toNat then 1 else 0)
  | .min d a b => some (d, fun s => if (s.rs b).toInt < (s.rs a).toInt then s.rs b else s.rs a)
  | .max d a b => some (d, fun s => if (s.rs a).toInt < (s.rs b).toInt then s.rs b else s.rs a)
  | .minu d a b => some (d, fun s => if (s.rs b).toNat < (s.rs a).toNat then s.rs b else s.rs a)
  | .maxu d a b => some (d, fun s => if (s.rs a).toNat < (s.rs b).toNat then s.rs b else s.rs a)
  | .mul d a b => some (d, fun s => BitVec.ofNat 64 ((s.rs a).toNat * (s.rs b).toNat))
  | .mulh d a b => some (d, fun s => BitVec.ofInt 64 ((s.rs a).toInt * (s.rs b).toInt / (2 ^ 64 : Nat)))
  | .mulhu d a b => some (d, fun s => BitVec.ofNat 64 ((s.rs a).toNat * (s.rs b).toNat / 2 ^ 64))
  | .div d a b => some (d, fun s => if s.rs b = 0 then BitVec.allOnes 64 else (s.rs a).sdiv (s.rs b))
  | .divu d a b => some (d, fun s => if s.rs b = 0 then BitVec.allOnes 64 else s.rs a / s.rs b)
  | .rem d a b => some (d, fun s => (s.rs a).srem (s.rs b))
  | .remu d a b => some (d, fun s => s.rs a % s.rs b)
  | .clz d a => some (d, fun s => BitVec.ofNat 64 (if s.rs a = 0 then 64 else 63 - Nat.log2 (s.rs a).toNat))
  | .ctz d a => some (d, fun s => BitVec.ofNat 64 (((List.range 64).find? fun k => (s.rs a).getLsbD k).getD 64))
  | .popc d a => some (d, fun s => BitVec.ofNat 64 ((List.range 64).filter fun k => (s.rs a).getLsbD k).length)
  | .addi d a imm => some (d, fun s => s.rs a + imm.signExtend 64)
  | .andi d a imm => some (d, fun s => s.rs a &&& imm.setWidth 64)
  | .ori d a imm => some (d, fun s => s.rs a ||| imm.setWidth 64)
  | .xori d a imm => some (d, fun s => s.rs a ^^^ imm.setWidth 64)
  | .slli d a imm => some (d, fun s => s.rs a <<< imm.toNat)
  | .srli d a imm => some (d, fun s => s.rs a >>> imm.toNat)
  | .srai d a imm => some (d, fun s => (s.rs a).sshiftRight imm.toNat)
  | .slti d a imm => some (d, fun s => if (s.rs a).toInt < imm.toInt then 1 else 0)
  | .sltiu d a imm => some (d, fun s => if (s.rs a).toNat < (imm.signExtend 64 : Word).toNat then 1 else 0)
  | .lih d imm => some (d, fun _ => imm.signExtend 64 <<< 12)
  | .addpc d imm => some (d, fun s => s.hart.pc + imm.signExtend 64 <<< 2)
  | .liw d imm => some (d, fun _ => imm.signExtend 64)
  | .addiw d a imm => some (d, fun s => s.rs a + imm.signExtend 64)
  | _ => none

end Sys2Proof.Claims

/-- In every state each register, immediate and constant form of majors 0x01 to 0x03, 0x07 and 0x3F answers the next
state in which its destination holds the result the tables give and the PC has moved past its words; division by zero,
the overflowing quotient and shifts of 64 and more included. (R156, R157, R158, R159, R160, R161) -/
def Obligations.ScalarInstructionsWriteTheirResult : Prop :=
  ∀ (i : Instr) (d : SReg) (f : State → Word), Claims.scalarOp i = some (d, f) →
    ∀ s : State, exec i s = .next ((s.ws d (f s)).advance (4 * (encode i).length))

/-- After a scalar arithmetic instruction every scalar register but the destination, every capability, vector, mask,
tile and stream register, the vector type, rounding mode and flags, every byte and tag of memory and everything
outside the issuing context are unchanged; the PC moves past the instruction. (R8, R156) -/
def Obligations.ScalarFrame : Prop :=
  ∀ (i : Instr) (d : SReg) (f : State → Word), Claims.scalarOp i = some (d, f) →
    ∀ s t : State, exec i s = .next t →
      OnlyHere s t ∧ SameScalarsBut d s t ∧ SameCaps s t ∧ SameVectors s t ∧ SameMasks s t ∧ SameTiles s t ∧ SameMemory s t ∧
        t.hart.pc = s.hart.pc + BitVec.ofNat 64 (4 * (encode i).length)

/-- With a zero divisor the quotient is all ones and the remainder the dividend; for the most negative dividend and
divisor minus one the quotient is the dividend and the remainder 0; otherwise the quotient is the exact one rounded
toward zero and the remainder the dividend less quotient times divisor; signed and unsigned, as DIV, REM, DIVU and
REMU write them. (R158) -/
def Obligations.DivisionIdentity : Prop :=
  ∀ (s : State) (d a b : SReg),
    ∃ q r qu ru : Word, exec (.div d a b) s = .next ((s.ws d q).advance 4) ∧ exec (.rem d a b) s = .next ((s.ws d r).advance 4) ∧
      exec (.divu d a b) s = .next ((s.ws d qu).advance 4) ∧ exec (.remu d a b) s = .next ((s.ws d ru).advance 4) ∧
      (s.rs b = 0 → q = BitVec.allOnes 64 ∧ qu = BitVec.allOnes 64 ∧ r = s.rs a ∧ ru = s.rs a) ∧
      (s.rs b = BitVec.allOnes 64 → s.rs a = BitVec.ofNat 64 (2 ^ 63) → q = s.rs a ∧ r = 0) ∧
      (s.rs b ≠ 0 → ¬ (s.rs b = BitVec.allOnes 64 ∧ s.rs a = BitVec.ofNat 64 (2 ^ 63)) →
        q.toInt = (s.rs a).toInt.tdiv (s.rs b).toInt ∧ r.toInt = (s.rs a).toInt - q.toInt * (s.rs b).toInt) ∧
      (s.rs b ≠ 0 → qu.toNat = (s.rs a).toNat / (s.rs b).toNat ∧ ru.toNat = (s.rs a).toNat - qu.toNat * (s.rs b).toNat)

/-- A branch goes to PC plus four times its signed offset when its condition on the two registers holds and to PC + 4
otherwise; JAL writes PC + 4 and goes to PC plus four times its signed offset; JALR, when the target passes the fetch
checks against c15, writes PC + 4 and goes to the target, and otherwise traps with the first failed check and the
target in TVAL. (R144, R162, R164, R165) -/
def Obligations.BranchesAndJumps : Prop :=
  (∀ (s : State) (a b : SReg) (off : BitVec 13) (i : Instr) (taken : Bool),
    ((i = .beq a b off ∧ taken = decide (s.rs a = s.rs b)) ∨ (i = .bne a b off ∧ taken = decide (s.rs a ≠ s.rs b)) ∨
      (i = .blt a b off ∧ taken = decide ((s.rs a).toInt < (s.rs b).toInt)) ∨
      (i = .bge a b off ∧ taken = decide ((s.rs b).toInt ≤ (s.rs a).toInt)) ∨
      (i = .bltu a b off ∧ taken = decide ((s.rs a).toNat < (s.rs b).toNat)) ∨
      (i = .bgeu a b off ∧ taken = decide ((s.rs b).toNat ≤ (s.rs a).toNat))) →
    ∃ t, exec i s = .next t ∧ t.hart.pc = (if taken then s.hart.pc + off.signExtend 64 * 4 else s.hart.pc + 4) ∧
      OnlyHere s t ∧ SameScalars s t ∧ SameCaps s t ∧ SameVectors s t ∧ SameMasks s t ∧ SameTiles s t ∧ SameMemory s t) ∧
  (∀ (s : State) (d : SReg) (off : BitVec 21), ∃ t, exec (.jal d off) s = .next t ∧
    t.hart.pc = s.hart.pc + off.signExtend 64 * 4 ∧ (d ≠ 0 → t.rs d = s.hart.pc + 4) ∧
    OnlyHere s t ∧ SameScalarsBut d s t ∧ SameCaps s t ∧ SameVectors s t ∧ SameMasks s t ∧ SameTiles s t ∧ SameMemory s t) ∧
  (∀ (s : State) (d a : SReg) (imm : BitVec 12),
    capChecks s.who (s.rc 15) ((s.rs a).toNat + imm.toInt) 4 4 .fetch = none → ∃ t, exec (.jalr d a imm) s = .next t ∧
      t.hart.pc = BitVec.ofInt 64 ((s.rs a).toNat + imm.toInt) ∧ (d ≠ 0 → t.rs d = s.hart.pc + 4) ∧
      OnlyHere s t ∧ SameScalarsBut d s t ∧ SameCaps s t ∧ SameVectors s t ∧ SameMasks s t ∧ SameTiles s t ∧ SameMemory s t) ∧
  (∀ (s : State) (d a : SReg) (imm : BitVec 12) (c : Cause),
    capChecks s.who (s.rc 15) ((s.rs a).toNat + imm.toInt) 4 4 .fetch = some c →
      exec (.jalr d a imm) s = .next (s.takeTrap c (BitVec.ofInt 64 ((s.rs a).toNat + imm.toInt)) 4))

namespace Sys2Proof.Claims

/-- Destination, capability, offset, bytes and signedness of a scalar load (R166). -/
def scalarLoadOf : Instr → Option (SReg × CReg × BitVec 13 × Nat × Bool)
  | .ldb d c imm => some (d, c, imm, 1, true)
  | .ldh d c imm => some (d, c, imm, 2, true)
  | .ldw d c imm => some (d, c, imm, 4, true)
  | .ldd d c imm => some (d, c, imm, 8, true)
  | .ldbu d c imm => some (d, c, imm, 1, false)
  | .ldhu d c imm => some (d, c, imm, 2, false)
  | .ldwu d c imm => some (d, c, imm, 4, false)
  | _ => none

/-- Data register, capability, offset and bytes of a scalar store (R166). -/
def scalarStoreOf : Instr → Option (SReg × CReg × BitVec 13 × Nat)
  | .stb d c imm => some (d, c, imm, 1)
  | .sth d c imm => some (d, c, imm, 2)
  | .stw d c imm => some (d, c, imm, 4)
  | .std d c imm => some (d, c, imm, 8)
  | _ => none

/-- CURSOR plus the sign-extended offset, without wrap (R105, R166). -/
def effective (c : Cap) (imm : BitVec 13) : Int := (c.cursor : Int) + imm.toInt

/-- The access that an instruction checks: capability, address, bytes, alignment and kind, and the TVAL of a failure
(R105, R166, R174, R249). -/
def accessOf (s : State) : Instr → Option (Cap × Int × Nat × Kind)
  | .cldc _ a imm => some (s.rc a, ((s.rc a).cursor : Int) + imm.toInt * 16, 16, .capLoad)
  | .cstc d a imm => some (s.rc a, ((s.rc a).cursor : Int) + imm.toInt * 16, 16, .capStore (s.rc d).tag (s.rc d).grant)
  | .amoadd _ c _ _ _ w | .amoand _ c _ _ _ w | .amoor _ c _ _ _ w | .amoxor _ c _ _ _ w | .amomin _ c _ _ _ w
  | .amomax _ c _ _ _ w | .amominu _ c _ _ _ w | .amomaxu _ c _ _ _ w | .amoswp _ c _ _ _ w | .amocas _ c _ _ _ w
  | .redadd c _ _ _ w | .redand c _ _ _ w | .redor c _ _ _ w | .redxor c _ _ _ w | .redmin c _ _ _ w | .redmax c _ _ _ w
  | .redminu c _ _ _ w | .redmaxu c _ _ _ w => some (s.rc c, ((s.rc c).cursor : Int), if w = 1 then 8 else 4, .atomic)
  | .amofadd _ c _ _ _ | .amofmin _ c _ _ _ | .amofmax _ c _ _ _ | .amobfadd2 _ c _ _ _
  | .redfadd c _ _ _ | .redfmin c _ _ _ | .redfmax c _ _ _ | .redbfadd2 c _ _ _ => some (s.rc c, ((s.rc c).cursor : Int), 4, .atomic)
  | i =>
    match scalarLoadOf i, scalarStoreOf i with
    | some (_, c, imm, n, _), _ => some (s.rc c, effective (s.rc c) imm, n, .load)
    | none, some (_, c, imm, n) => some (s.rc c, effective (s.rc c) imm, n, .store)
    | none, none => none

end Sys2Proof.Claims

/-- Steps 1 to 5 are tag, space, permissions, bounds and alignment, the first failure naming the trap; step 6 asks the
space whether the location exists and step 7 translates; a failure of either carries the address as TVAL, and an
access that passes changes nothing. (R105) -/
def Obligations.AccessChecksInOrder : Prop :=
  ∀ (s : State) (w : Who) (c : Cap) (x : Int) (n al : Nat) (k : Kind),
    (c.tag = false → s.access w c x n al k = .trap .capTag (BitVec.ofInt 64 x) s) ∧
    (c.tag = true → spaceAllows c.space k = false → s.access w c x n al k = .trap .capSpace (BitVec.ofInt 64 x) s) ∧
    (c.tag = true → spaceAllows c.space k = true → permsAllow c k (needsRemote w c.space x) = false →
      s.access w c x n al k = .trap .capPerm (BitVec.ofInt 64 x) s) ∧
    (c.tag = true → spaceAllows c.space k = true → permsAllow c k (needsRemote w c.space x) = true →
      ¬ ((c.base : Int) ≤ x ∧ x + n ≤ c.top) → s.access w c x n al k = .trap .capBounds (BitVec.ofInt 64 x) s) ∧
    (c.tag = true → spaceAllows c.space k = true → permsAllow c k (needsRemote w c.space x) = true →
      (c.base : Int) ≤ x → x + n ≤ c.top → x % (al : Int) ≠ 0 → s.access w c x n al k = .trap .misaligned (BitVec.ofInt 64 x) s) ∧
    (c.tag = true → spaceAllows c.space k = true → permsAllow c k (needsRemote w c.space x) = true →
      (c.base : Int) ≤ x → x + n ≤ c.top → x % (al : Int) = 0 →
        (∀ e, s.place w c.space x.toNat n = .bad e → s.access w c x n al k = .trap e (BitVec.ofInt 64 x) s) ∧
        (∀ j, s.place w c.space x.toNat n = .home j → s.access w c x n al k = .ok j s) ∧
        (∀ sp va, s.place w c.space x.toNat n = .virt sp va →
          s.access w c x n al k = s.translate w.die w.core w.xpart sp va (some k) (BitVec.ofInt 64 x))) ∧
    (∀ j t, s.access w c x n al k = .ok j t → t = s)

/-- For every scalar load and store, CLDC, CSTC and every returning or non-returning atomic: when the check of its
access fails, the next state is the trap with the failed check's cause and the address as TVAL, taken in the state the
check leaves; and while the page migrates the context waits. (R8, R105, R166, R174, R249) -/
def Obligations.FailedAccessTraps : Prop :=
  ∀ (i : Instr) (s : State) (c : Cap) (x : Int) (n : Nat) (k : Kind), Claims.accessOf s i = some (c, x, n, k) →
    (∀ e v t, s.access s.who c x n n k = .trap e v t → exec i s = .next (t.takeTrap e v 4)) ∧
    (s.access s.who c x n n k = .wait → exec i s = .next s.block)

/-- A scalar load whose checks pass at a home that is not lost, and none of whose bytes comes from an uncorrectable
word, completes: one load joins its task's load queue. When the oldest load of a context is performed, pending atomics
to its bytes are performed first; its register then holds the bytes as that load reads them, little-endian, extended
as the form says, the PC stands, and the load is no longer outstanding. (R105, R112, R116, R119, R166, R168) -/
def Obligations.ScalarLoadsComplete : Prop :=
  (∀ (i : Instr) (d : SReg) (c : CReg) (imm : BitVec 13) (n : Nat) (signed : Bool),
    Claims.scalarLoadOf i = some (d, c, imm, n, signed) →
    ∀ (s : State) (k : Nat), s.access s.who (s.rc c) (Claims.effective (s.rc c) imm) n n .load = .ok k s → s.lost k = false →
      s.badBytes k n = [] →
      exec i s = .next ((s.queueLoad (s.rc c).space n (.scalar d n signed) [(0, k)]).advance 4)) ∧
  (∀ (s u : State) (die core slot k : Nat) (c : CtxId) (r : LoadRec) (rest : List LoadRec) (d : SReg) (n : Nat) (signed : Bool),
    c = ⟨die, core, slot⟩ → (s.hartAt c).loads = r :: rest → r.elems = [⟨0, k, none⟩] → r.dest = .scalar d n signed → r.n = n →
    u = s.settleFor c r.ord k n → u.badDrawn c r.ord k n = [] → ∀ x, x = leNat ((upFrom k n).map (u.queueByte c r.ord)) →
    ∃ t, exec (.remoteLoadReturn die core ⟨slot, 0⟩) s = .next t ∧ (t.hartAt c).loads = rest ∧ (t.hartAt c).pc = (u.hartAt c).pc ∧ t.mem = u.mem ∧
      (d ≠ 0 → (t.hartAt c).s.get d.toFin = if signed then BitVec.ofInt 64 (sextInt x (8 * n)) else BitVec.ofNat 64 x))

/-- A scalar store whose checks pass completes: one entry with the low bytes of its data register at the checked
location joins the issuing task's store queue, and a store outside space 1 sets the side-effect bit. (R105, R119,
R166, R395) -/
def Obligations.ScalarStoresComplete : Prop :=
  ∀ (i : Instr) (d : SReg) (c : CReg) (imm : BitVec 13) (n : Nat), Claims.scalarStoreOf i = some (d, c, imm, n) →
    ∀ (s : State) (k : Nat), s.access s.who (s.rc c) (Claims.effective (s.rc c) imm) n n .store = .ok k s →
      exec i s = .next (((s.enqueue (.store s.hart.issued s.here.key (cellsAt k (leBytes n (s.rs d).toNat)) false false)).storeEffect
        (s.rc c).space).advance 4)

/-- After a scalar store that completes at a location, the issuing task reads byte j of the data register at the
location plus j for each of the n bytes, reads every byte outside them as before, and reads the tag of every granule
they touch as clear; a load of any younger instruction reads the bytes likewise; no home changes until the store is
performed, and no register of any file changes. (R4, R107, R119, R166) -/
def Obligations.StoredBytesReadBack : Prop :=
  ∀ (i : Instr) (d : SReg) (c : CReg) (imm : BitVec 13) (n : Nat), Claims.scalarStoreOf i = some (d, c, imm, n) →
    ∀ (s t : State) (k : Nat), s.access s.who (s.rc c) (Claims.effective (s.rc c) imm) n n .store = .ok k s → exec i s = .next t →
      (∀ j, j < n → t.readByte (k + j) = BitVec.ofNat 8 ((s.rs d).toNat / 2 ^ (8 * j))) ∧
      (∀ a, a < k ∨ k + n ≤ a → t.readByte a = s.readByte a) ∧ (∀ j, j < n → t.readTag (k + j) = false) ∧
      (∀ m j, s.hart.issued < m → j < n → t.queueByte t.here m (k + j) = BitVec.ofNat 8 ((s.rs d).toNat / 2 ^ (8 * j))) ∧
      (∀ a, t.homeByte a = s.homeByte a) ∧ OnlyHere s t ∧ SameScalars s t ∧ SameCaps s t ∧ SameVectors s t ∧ SameMasks s t ∧ SameTiles s t

/-- A scalar load that completes leaves every register and every byte of memory as before and only adds itself to the
load queue; performed as its task's oldest load, without waiting atomics or bad words in its way, it changes its
destination register and no other, no byte of memory and nothing outside its context; when its check fails, no
register changes at all and only the trap is recorded. (R8, R112, R116, R119, R166) -/
def Obligations.LoadFrame : Prop :=
  (∀ (i : Instr) (d : SReg) (c : CReg) (imm : BitVec 13) (n : Nat) (signed : Bool),
    Claims.scalarLoadOf i = some (d, c, imm, n, signed) →
    ∀ (s t : State), exec i s = .next t →
      (∀ k, s.access s.who (s.rc c) (Claims.effective (s.rc c) imm) n n .load = .ok k s → s.lost k = false → s.badBytes k n = [] →
        SameScalars s t ∧ SameCaps s t ∧ SameVectors s t ∧ SameMasks s t ∧ SameTiles s t ∧ SameMemory s t ∧ OnlyHere s t ∧
        (∃ r, t.hart.loads = s.hart.loads ++ [r]) ∧ t.hart.pc = s.hart.pc + 4) ∧
      (∀ e v, s.access s.who (s.rc c) (Claims.effective (s.rc c) imm) n n .load = .trap e v s → s.isFw = false →
          SameScalars s t ∧ SameCaps s t ∧ SameVectors s t ∧ SameMasks s t ∧ SameTiles s t ∧ t.mem = s.mem)) ∧
  (∀ (s : State) (r : LoadRec) (rest : List LoadRec) (k n : Nat) (d : SReg) (signed : Bool),
    s.hart.loads = r :: rest → r.elems = [⟨0, k, none⟩] → r.dest = .scalar d n signed → r.n = n →
    keyRegion k ≠ 4 → s.settleFor s.here r.ord k n = s → s.badDrawn s.here r.ord k n = [] → ∀ t, t = s.performUnit s.here 0 →
      SameScalarsBut d s t ∧ SameCaps s t ∧ SameVectors s t ∧ SameMasks s t ∧ SameTiles s t ∧ SameMemory s t ∧ OnlyHere s t ∧
      t.hart.loads = rest ∧ t.hart.stores = s.hart.stores ∧ t.hart.pc = s.hart.pc)

namespace Sys2Proof.Claims

/-- The destination and the capability that a capability instruction without an access writes (R170–R172). -/
def capOp : Instr → Option (CReg × CReg × (State → Cap))
  | .cmov d a => some (d, a, fun s => s.rc a)
  | .cinc d a b => some (d, a, fun s => (s.rc a).move (s.rs b).toInt)
  | .cinci d a imm => some (d, a, fun s => (s.rc a).move (imm.toInt * 16))
  | .csetb d a b e => some (d, a, fun s => (s.rc a).setBounds (s.rs b).toNat (e == 1))
  | .candp d a p => some (d, a, fun s => (s.rc a).mask p)
  | _ => none

/-- The destination and the number that a capability getter writes (R173). -/
def capGet : Instr → Option (SReg × (State → Nat))
  | .cgetb a b => some (b, fun s => (s.rc a).base)
  | .cgetl a b => some (b, fun s => ((((s.rc a).top : Int) - (s.rc a).base) % (2 ^ 56 : Nat)).toNat)
  | .cgetc a b => some (b, fun s => (s.rc a).cursor)
  | .cgetp a b => some (b, fun s => (s.rc a).perms.toNat + (s.rc a).space * 2 ^ 8 + (s.rc a).e * 2 ^ 12)
  | .cgett a b => some (b, fun s => if (s.rc a).tag then 1 else 0)
  | _ => none

end Sys2Proof.Claims

/-- In every state CMOV, CINC, CINCI, CSETB and CANDP write the derived capability to their destination and the
getters write the field they name; the PC moves by 4 and nothing else changes. (R99, R100, R170, R171, R172, R173) -/
def Obligations.CapabilityInstructionsComplete : Prop :=
  (∀ (i : Instr) (d a : CReg) (f : State → Cap), Claims.capOp i = some (d, a, f) →
    ∀ s : State, exec i s = .next ((s.wc d (f s)).advance 4)) ∧
  (∀ (i : Instr) (b : SReg) (f : State → Nat), Claims.capGet i = some (b, f) →
    ∀ s : State, exec i s = .next ((s.ws b (BitVec.ofNat 64 (f s))).advance 4))

/-- When CMOV, CINC, CINCI, CSETB or CANDP leaves a tagged capability in its destination, its source was tagged, the
result's permissions are among the source's, its space is the source's, and CSETB's rounded bounds lie within the
source's; in that state CANDP, CINC and CINCI keep the mantissas and exponent. (R102) -/
def Obligations.CapabilitiesNeverGrow : Prop :=
  ∀ (i : Instr) (d a : CReg) (f : State → Cap), Claims.capOp i = some (d, a, f) →
    ∀ s t : State, exec i s = .next t → d ≠ 0 → (t.rc d).tag = true →
      (s.rc a).tag = true ∧ (t.rc d).perms &&& ~~~(s.rc a).perms = 0 ∧ (t.rc d).space = (s.rc a).space ∧
      ((∃ b e, i = .csetb d a b e ∧
          (s.rc a).base ≤ (s.rc a).cursor / 2 ^ boundsExp 34 0 (s.rc a).cursor ((s.rc a).cursor + (s.rs b).toNat) *
            2 ^ boundsExp 34 0 (s.rc a).cursor ((s.rc a).cursor + (s.rs b).toNat) ∧
          ceilShift ((s.rc a).cursor + (s.rs b).toNat) (boundsExp 34 0 (s.rc a).cursor ((s.rc a).cursor + (s.rs b).toNat)) *
            2 ^ boundsExp 34 0 (s.rc a).cursor ((s.rc a).cursor + (s.rs b).toNat) ≤ (s.rc a).top) ∨
        ((t.rc d).e = (s.rc a).e ∧ (t.rc d).bm = (s.rc a).bm ∧ (t.rc d).tm = (s.rc a).tm))

/-- CLDC whose access passes at a home that is not lost and without bad words enters the load queue; performed, it
loads sixteen bytes, with the granule's tag when the space holds tags and the capability has LDC. CSTC whose access
passes puts the sixteen bytes with the register's tag into the store queue. (R105, R106, R107, R119, R174) -/
def Obligations.CapabilityLoadsAndStoresComplete : Prop :=
  (∀ (s : State) (d a : CReg) (imm : BitVec 8) (k : Nat),
    s.access s.who (s.rc a) ((s.rc a).cursor + imm.toInt * 16) 16 16 .capLoad = .ok k s → s.lost k = false → s.badBytes k 16 = [] →
    exec (.cldc d a imm) s = .next ((s.queueLoad (s.rc a).space 16 (.cap d (decide ((s.rc a).space ≤ 4) && (s.rc a).ldc)) [(0, k)]).advance 4)) ∧
  (∀ (s u : State) (die core slot k : Nat) (c : CtxId) (r : LoadRec) (rest : List LoadRec) (d : CReg) (keep : Bool),
    c = ⟨die, core, slot⟩ → (s.hartAt c).loads = r :: rest → r.elems = [⟨0, k, none⟩] → r.dest = .cap d keep → r.n = 16 →
    u = s.settleFor c r.ord k 16 → u.badDrawn c r.ord k 16 = [] →
    ∃ t, exec (.remoteLoadReturn die core ⟨slot, 0⟩) s = .next t ∧ (t.hartAt c).loads = rest ∧
      (d ≠ 0 → (t.hartAt c).c.get d.toFin =
        ⟨BitVec.ofNat 128 (leNat ((upFrom k 16).map (u.queueByte c r.ord))), keep && u.queueTag c r.ord k⟩)) ∧
  (∀ (s : State) (d a : CReg) (imm : BitVec 8) (k : Nat),
    s.access s.who (s.rc a) ((s.rc a).cursor + imm.toInt * 16) 16 16 (.capStore (s.rc d).tag (s.rc d).grant) = .ok k s →
    exec (.cstc d a imm) s = .next (((s.enqueue (.store s.hart.issued s.here.key (cellsAt k (leBytes 16 (s.rc d).bits.toNat)) (s.rc d).tag
      false)).storeEffect (s.rc a).space).advance 4))

namespace Sys2Proof.Claims

/-- Register destination, capability, operand, scope, order, width and operation code of a returning atomic other than
AMOCAS (R249); the last field says that the old value is written without sign extension. -/
def amoOf : Instr → Option (SReg × CReg × SReg × BitVec 3 × BitVec 2 × Bool × Nat × Bool)
  | .amoadd d c b sc r w => some (d, c, b, sc, r, w == 1, 0, false)
  | .amoand d c b sc r w => some (d, c, b, sc, r, w == 1, 1, false)
  | .amoor d c b sc r w => some (d, c, b, sc, r, w == 1, 2, false)
  | .amoxor d c b sc r w => some (d, c, b, sc, r, w == 1, 3, false)
  | .amomin d c b sc r w => some (d, c, b, sc, r, w == 1, 4, false)
  | .amomax d c b sc r w => some (d, c, b, sc, r, w == 1, 5, false)
  | .amominu d c b sc r w => some (d, c, b, sc, r, w == 1, 6, false)
  | .amomaxu d c b sc r w => some (d, c, b, sc, r, w == 1, 7, false)
  | .amoswp d c b sc r w => some (d, c, b, sc, r, w == 1, 8, false)
  | .amofadd d c b sc r => some (d, c, b, sc, r, false, 10, true)
  | .amofmin d c b sc r => some (d, c, b, sc, r, false, 11, true)
  | .amofmax d c b sc r => some (d, c, b, sc, r, false, 12, true)
  | .amobfadd2 d c b sc r => some (d, c, b, sc, r, false, 13, true)
  | _ => none

/-- Capability, operand, scope, order, width and operation code of a non-returning reduction (R249). -/
def redOf : Instr → Option (CReg × SReg × BitVec 3 × BitVec 2 × Bool × Nat)
  | .redadd c b sc r w => some (c, b, sc, r, w == 1, 0)
  | .redand c b sc r w => some (c, b, sc, r, w == 1, 1)
  | .redor c b sc r w => some (c, b, sc, r, w == 1, 2)
  | .redxor c b sc r w => some (c, b, sc, r, w == 1, 3)
  | .redmin c b sc r w => some (c, b, sc, r, w == 1, 4)
  | .redmax c b sc r w => some (c, b, sc, r, w == 1, 5)
  | .redminu c b sc r w => some (c, b, sc, r, w == 1, 6)
  | .redmaxu c b sc r w => some (c, b, sc, r, w == 1, 7)
  | .redfadd c b sc r => some (c, b, sc, r, false, 10)
  | .redfmin c b sc r => some (c, b, sc, r, false, 11)
  | .redfmax c b sc r => some (c, b, sc, r, false, 12)
  | .redbfadd2 c b sc r => some (c, b, sc, r, false, 13)
  | _ => none

/-- The state in which an atomic of the issuing task finds its home: its own release first, then every older access on
the way there performed and, at another package, the operation asked of it (R115, R119, R128, R432). -/
def atHome (s : State) (sc : BitVec 3) (r : BitVec 2) (k n : Nat) : State := ((s.releaseIf sc r).drainTo k).sendReturning k n

/-- What an atomic does at its home: the write `w`, unless the controller refuses the access and only counts it (R11, R403). -/
def atHomeDo (s : State) (k : Nat) (w : State → State) : State := if s.refused k then s.countRefusal else w s

/-- The low `n` bytes of a register as a number. -/
def lowBytes (n : Nat) (v : Word) : Nat := v.toNat % 2 ^ (8 * n)

end Sys2Proof.Claims

/-- A returning atomic whose check passes at a home that is not lost and whose word is correctable, once older
accesses are performed, writes the value R249 gives for its operation to the home in the same step and returns the old
value, sign-extended for the integer forms; AMOCAS writes the swap register only if the old value equals the compare
register; at a home in this packages own image region its controller counts a refusal and nothing is written. (R249,
R250, R251, R253) -/
def Obligations.AtomicsUpdateTheirHome : Prop :=
  (∀ (i : Instr) (d : SReg) (c : CReg) (b : SReg) (sc : BitVec 3) (r : BitVec 2) (w : Bool) (op : Nat) (fp : Bool),
    Claims.amoOf i = some (d, c, b, sc, r, w, op, fp) → ∀ (s : State) (k n : Nat), n = (if w then 8 else 4) →
    s.access s.who (s.rc c) ((s.rc c).cursor : Int) n n .atomic = .ok k s → s.lost k = false →
    ∀ h, h = Claims.atHome s sc r k n → h.badWords k n = [] → ∀ m, m = h.homeNat k n →
    exec i s = .next (((((Claims.atHomeDo h k fun u => u.writeHomeNat u.here.core k n (atomicNew op (8 * n) m (Claims.lowBytes n (s.rs b))))).effect).ws d
      (if fp then BitVec.ofNat 64 m else BitVec.ofInt 64 (sextInt m (8 * n)))).advance 4)) ∧
  (∀ (s : State) (d : SReg) (c : CReg) (b : SReg) (sc : BitVec 3) (r : BitVec 2) (w : BitVec 1) (k n : Nat), n = (if w = 1 then 8 else 4) →
    s.access s.who (s.rc c) ((s.rc c).cursor : Int) n n .atomic = .ok k s → s.lost k = false →
    ∀ h, h = Claims.atHome s sc r k n → h.badWords k n = [] → ∀ m, m = h.homeNat k n →
    exec (.amocas d c b sc r w) s = .next (((Claims.atHomeDo h k fun u => if m = Claims.lowBytes n (s.rs b) then
      u.writeHomeNat u.here.core k n (Claims.lowBytes n (s.rs (b + 1))) else u).effect.ws d
      (BitVec.ofInt 64 (sextInt m (8 * n)))).advance 4))

/-- A reduction whose check passes completes at once: one entry naming the home, the operation, the width and the
operand joins the store queue, behind a fence at its scope when its order is rel or ar; the side-effect bit is set, no
register is written. (R119, R128, R249, R252, R254) -/
def Obligations.ReductionsEnterTheStoreQueue : Prop :=
  ∀ (i : Instr) (c : CReg) (b : SReg) (sc : BitVec 3) (r : BitVec 2) (w : Bool) (op : Nat),
    Claims.redOf i = some (c, b, sc, r, w, op) → ∀ (s : State) (k n : Nat), n = (if w then 8 else 4) →
    s.access s.who (s.rc c) ((s.rc c).cursor : Int) n n .atomic = .ok k s →
    exec i s = .next ((((if r = 2 ∨ r = 3 then s.enqueue (.act s.hart.issued s.here.key sc.toNat .fence) else s).enqueue
      (.atomic s.hart.issued s.here.key s.hart.task.stay k op w false (BitVec.ofNat 64 (Claims.lowBytes n (s.rs b))) (s.rc c).space s.who.xpart
        s.hart.task.launch (BitVec.ofNat 64 (s.rc c).cursor))).effect).advance 4)

namespace Sys2Proof.Claims

/-- The instructions of majors 0x3D: the firmware context's own (R370). -/
def systemInstr : Instr → Bool
  | .eret _ | .wfi _ | .tlbinv .. | .ctxsv .. | .ctxld .. | .quardr .. | .halt _ => true
  | _ => false

/-- The instructions that only a task may issue (R359). -/
def taskInstr : Instr → Bool
  | .waitvis .. | .node | .barinit .. | .bararv .. | .barxb .. | .barwait .. | .bartest .. | .chrsv .. | .chpush
    .. | .chawait .. | .chrel .. | .chstat .. | .launch .. | .spawn .. | .awaitch .. | .gjoin .. | .gleave .. |
    .gsync .. | .exit .. | .suspend .. | .yield | .hintnext | .self .. | .cpy .. | .cpyt .. | .cpyg .. | .cpys ..
    | .cpyc .. | .cpyf .. | .cpyb .. | .qbind .. | .qaddr .. | .qpops .. | .qpopv .. | .qpeek .. | .qstat .. |
    .qdrain .. | .qfmt .. | .mlease .. | .mfree | .mjob .. | .mstat .. | .mdrain | .merrrd .. | .tcfg .. | .tzero
    .. | .tldrow .. | .tstrow .. | .tld .. | .tst .. | .trowv .. | .tcolv .. | .tvrow .. | .tvcol .. | .ttrans ..
    | .tmma .. | .trel .. | .trbind .. | .trwait .. | .trinfo .. | .trdone | .trhold .. | .trskip .. | .trnext ..
    | .trqry .. | .tagdecl .. | .tagpub .. | .tagwait .. | .tagqry .. | .tagret .. | .coll .. | .tkcommit .. |
    .tkput .. | .wpset .. | .wpclr .. | .wprd .. | .seqst .. | .vfadd .. | .vfsub .. | .vfmul .. | .vfma .. |
    .vfms .. | .vfnma .. | .vfnms .. | .vfmin .. | .vfmax .. | .vfminm .. | .vfmaxm .. | .vfabs .. | .vfneg .. |
    .vfsgnj .. | .vfdiv .. | .vfsqrt .. | .vfrcp .. | .vfrsq .. | .vfexp2 .. | .vflog2 .. | .vftanh .. | .vfceq ..
    | .vfcne .. | .vfclt .. | .vfcle .. | .vfcun .. | .vceq .. | .vcne .. | .vclt .. | .vcle .. | .vcltu .. |
    .vcleu .. | .vadd .. | .vsub .. | .vadds .. | .vsubs .. | .vmul .. | .vmulh .. | .vmulhu .. | .vmin .. | .vmax
    .. | .vminu .. | .vmaxu .. | .vabs .. | .vand .. | .vor .. | .vxor .. | .vandn .. | .vnot .. | .vsll .. |
    .vsrl .. | .vsra .. | .vpopc .. | .vclz .. | .vcvt .. | .vcvtsat .. | .vqfp4 .. | .vdqfp4 .. | .vqfp8 .. |
    .vblksc .. | .vbndsc .. | .vperm .. | .vslideup .. | .vslidedn .. | .vziplo .. | .vziphi .. | .vrev .. |
    .vcompr .. | .vexpnd .. | .vsel .. | .vrsum .. | .vrmax .. | .vrmin .. | .vrmaxi .. | .vrmini .. | .vscans ..
    | .vrand .. | .vror .. | .vtopk .. | .vspc .. | .vspx .. | .vbpt .. | .vbpu .. | .vld .. | .vst .. | .vlds ..
    | .vsts .. | .vgth .. | .vsct .. | .vsctadd .. | .vldb .. | .kand .. | .kor .. | .kxor .. | .knot .. | .kpop
    .. | .kfirst .. | .kset .. | .kmov .. | .vsett .. | .vmvs .. | .vmve .. | .vins .. | .vid .. | .vrng .. |
    .vgumb .. | .vflgrd .. | .vflgclr | .vmov .. => true
  | _ => false

end Sys2Proof.Claims

/-- At task level a trap makes the slot TRAPPED, records the cause, the PC as TPC, TVAL and the instruction length,
and sets the slot's bit in TPEND by joining its core's pending traps, oldest first and of one tick the lowest slot
first; the PC and every register, memory and every other part of the package stay as they were. (R364) -/
def Obligations.TaskTrapIsTaken : Prop :=
  ∀ (s : State) (c : Cause) (v : Word) (n : Nat), s.isFw = false →
    (s.takeTrap c v n).hart.status = .trapped ∧ (s.takeTrap c v n).hart.trap = ⟨c, s.hart.pc, v, n, s.polestar⟩ ∧
    (s.takeTrap c v n).hart.pc = s.hart.pc ∧
    (s.takeTrap c v n).myCore.traps = s.joinTraps s.here s.myCore.traps ∧ s.here.slot ∈ (s.takeTrap c v n).myCore.traps ∧
    (s.takeTrap c v n).hart.s = s.hart.s ∧ (s.takeTrap c v n).hart.c = s.hart.c ∧ (s.takeTrap c v n).hart.vec = s.hart.vec ∧
    (s.takeTrap c v n).hart.tile = s.hart.tile ∧ (s.takeTrap c v n).hart.q = s.hart.q ∧
    { s.takeTrap c v n with hart := s.hart, cores := s.cores } = s

/-- At supervisor level a trap condition stops the core: FWCAUSE holds its code, FWPC the PC of the instruction and
FWVAL the value, the core is reported failed and issues nothing more in any context; the trap registers and every
register of every context stay as they were. (R362) -/
def Obligations.FirmwareFaultIsTaken : Prop :=
  ∀ (s : State) (c : Cause) (v : Word) (n : Nat), s.isFw = true →
    (s.takeTrap c v n).myCore =
      { s.myCore with fwcause := BitVec.ofNat 64 c.code, fwpc := s.hart.pc, fwval := v, failed := true } ∧
    (s.takeTrap c v n).notices = s.notices ++ [.coreFailed s.here.die s.here.core] ∧
    { s.takeTrap c v n with cores := s.cores, notices := s.notices } = s ∧
    (∀ k : Nat, (s.takeTrap c v n).canIssue ⟨s.here.die, s.here.core, k⟩ = false)

/-- Entry for a pending trap writes FWEPC, TCAUSE, TPC and TVAL, sets TACTIVE and sends the firmware context to TVEC;
a pending task trap is taken before sequence traps and those before engine faults. Leaving clears TACTIVE and HXLAT
and goes on at FWEPC when no trap is pending. (R365) -/
def Obligations.HandlerEntryAndReturn : Prop :=
  (∀ (s : State) (d k : Nat) (bg : Word) (x : Word × Word × Word) (k2 : Core), nextTrap s d k = some (x, k2) →
    (s.enterHandler d k bg).coreAt d k =
      { k2 with fwepc := bg &&& 0xFFFFFFFFFFFF, tcause := x.1, tpc := x.2.1, tval := x.2.2, tactive := true, wfi := none } ∧
    ((s.enterHandler d k bg).hartAt (fwOf d k)).pc = k2.tvec ∧ k2.tvec = (s.coreAt d k).tvec) ∧
  (∀ (s : State) (d k slot : Nat) (rest : List Nat), (s.coreAt d k).traps = slot :: rest → ∃ k2,
    nextTrap s d k = some ((tcauseWord (s.hartAt ⟨d, k, slot⟩).trap.cause slot 0, (s.hartAt ⟨d, k, slot⟩).trap.tpc,
      (s.hartAt ⟨d, k, slot⟩).trap.tval), k2) ∧ k2.traps = rest) ∧
  (∀ (s : State) (d k : Nat) (e : SeqTrap) (rest : List SeqTrap), (s.coreAt d k).traps = [] → (s.coreAt d k).seqTraps = e :: rest →
    ∃ x k2, nextTrap s d k = some (x, k2) ∧ x.2.1 = e.tpc ∧ k2.seqTraps = rest) ∧
  (∀ (s : State) (d k : Nat), (s.coreAt d k).traps = [] → (s.coreAt d k).seqTraps = [] → (s.coreAt d k).efq = [] →
    ((s.leaveHandler d k).coreAt d k).tactive = false ∧ ((s.leaveHandler d k).coreAt d k).hxlat = false ∧
    ((s.leaveHandler d k).hartAt (fwOf d k)).pc = (s.coreAt d k).fwepc)

/-- Every well-formed word of major 0x3D issued at task level traps with PRIVILEGED and the word itself as TVAL,
whatever its operands, and a control register from 0x800 up is PRIVILEGED for the four control-register instructions.
(R370) -/
def Obligations.SupervisorInstructionsNeedSupervisor : Prop :=
  (∀ (i : Instr) (s : State), Claims.systemInstr i = true → s.isFw = false → exec i s = .next (s.takeTrap .privileged (tvalWord i) 4)) ∧
  (∀ (s : State) (d a : SReg) (r : BitVec 12) (i : Instr), (i = .ctlrd d r ∨ i = .ctlwr d a r ∨ i = .ctlset d a r ∨ i = .ctlclr d a r) →
    s.isFw = false → 0x800 ≤ r.toNat → exec i s = .next (s.takeTrap .privileged (tvalWord i) 4))

/-- Every instruction of majors 0x0E to 0x24 but the counter instructions, and WAITVIS and NODE, issued by the
firmware context is an illegal-instruction condition with its word as TVAL, handled as a firmware fault; nothing else
of it happens. (R359) -/
def Obligations.TaskInstructionsNeedATask : Prop :=
  ∀ (i : Instr) (s : State), Claims.taskInstr i = true → s.isFw = true → exec i s = .next (s.takeTrap .illegal (tvalWord i) 4)

/-- A word that is no instruction traps with ILLEGAL_INSTRUCTION and the word as TVAL; TRAP traps with
TRAP_INSTRUCTION and its register as TVAL, BRK with BREAKPOINT and 0; NOP only moves the PC; IFENCE performs older
stores at scope die and forgets words fetched ahead. (R149, R176, R177) -/
def Obligations.IllegalWordsAndSoftwareTraps : Prop :=
  (∀ (s : State) (w : Word) (long : Bool), exec (.illegalInstruction w long) s = .next (s.takeTrap .illegal w (if long then 8 else 4))) ∧
  (∀ (s : State) (a : SReg), exec (.trap a) s = .next (s.takeTrap .trapInstruction (s.rs a) 4)) ∧
  (∀ s : State, exec .brk s = .next (s.takeTrap .breakpoint 0 4)) ∧
  (∀ s : State, ∃ t, exec .nop s = .next t ∧ t.hart.pc = s.hart.pc + 4 ∧ OnlyHere s t ∧ SameScalars s t ∧ SameCaps s t ∧ SameVectors s t ∧
    SameMasks s t ∧ SameTiles s t ∧ SameMemory s t) ∧
  (∀ s : State, ∃ t, exec .ifence s = .next t ∧ t.hart.ahead = [] ∧ t.hart.stores = [] ∧ t.hart.pc = (s.release 1).hart.pc + 4)

/-- WAITC completes when each of the four counts of the task is within its literal limit, 31 ignoring the class, and
otherwise waits; SYNCQ performs every older access at scope 0; FENCE rlx is a NOP, acq binds the older loads, rel is a
marker of the store queue, ar performs every older access at its scope; WAITVIS of a launch that is over and a NODE
that no pre-emption takes only move on, WAITVIS with order ar after a release. (R116, R120, R126, R128, R255, R257,
R258, R260) -/
def Obligations.OrderInstructionsComplete : Prop :=
  (∀ (s : State) (l sf c t : BitVec 5),
    ((l = 31 ∨ s.outLoads s.here ≤ l.toNat) ∧ (sf = 31 ∨ s.outStores s.here ≤ sf.toNat) ∧ (c = 31 ∨ s.outCopies s.here ≤ c.toNat) ∧
      (t = 31 ∨ s.outTiles s.here ≤ t.toNat) → exec (.waitc l sf c t) s = .next (s.advance 4)) ∧
    (¬ ((l = 31 ∨ s.outLoads s.here ≤ l.toNat) ∧ (sf = 31 ∨ s.outStores s.here ≤ sf.toNat) ∧
      (c = 31 ∨ s.outCopies s.here ≤ c.toNat) ∧ (t = 31 ∨ s.outTiles s.here ≤ t.toNat)) →
      exec (.waitc l sf c t) s = .next s.block)) ∧
  (∀ s : State, exec .syncq s = .next (s.drainQueue.advance 4)) ∧
  (∀ (s : State) (sc : BitVec 3), exec (.fence sc 0) s = .next (s.advance 4) ∧
    exec (.fence sc 1) s = .next ((s.bindLoads sc.toNat).advance 4) ∧
    exec (.fence sc 2) s = .next ((s.enqueue (.act s.hart.issued s.here.key sc.toNat .fence)).advance 4) ∧
    exec (.fence sc 3) s = .next (((s.bindLoads sc.toNat).release sc.toNat).advance 4)) ∧
  (∀ (s u : State) (a : SReg) (r : BitVec 2), s.isFw = false → u = (if r = 3 then s.release 2 else s) →
    (a = 0 → u.priorLive u.hart.task = false → exec (.waitvis a r) s = .next (u.advance 4)) ∧
    (a = 0 → u.priorLive u.hart.task = true → exec (.waitvis a r) s = .next u.block) ∧
    (a ≠ 0 → u.launchLive u.part ((u.rs a).toNat % 2 ^ 32) = false → exec (.waitvis a r) s = .next (u.advance 4)) ∧
    (a ≠ 0 → u.launchLive u.part ((u.rs a).toNat % 2 ^ 32) = true → exec (.waitvis a r) s = .next u.block)) ∧
  (∀ s : State, s.isFw = false → (s.nodeTakes s.here = false → exec .node s = .next (s.advance 4)) ∧
    (s.nodeTakes s.here = true → exec .node s = .next (s.modTask fun t => { t with atNode := true }).block))

/-- With a reference below 2,048 that firmware or the task's partition may use, CTRSIG puts a signal of the low 32
bits of its operand, released at its scope, behind its older accesses; performed, it adds. CTRRD writes the counter
with its poison bit. CTRWAIT does so once the value has reached the threshold, waits before that, and traps with
ENGINE_ERROR on a poisoned counter. Any other reference traps with ACCESS_DENIED. (R119, R131, R260, R262, R263) -/
def Obligations.CounterInstructionsComplete : Prop :=
  ∀ (s : State) (d a b : SReg) (sc : BitVec 3) (r : BitVec 2),
    ((s.rs a).toNat < 2 ^ 11 → (s.isFw = true ∨ s.allocated s.part (s.rs a).toNat = true) → ∀ k, k = ctrKey (s.rs a).toNat →
      (∀ u, u = (if r = 3 then s.bindLoads sc.toNat else s) → exec (.ctrsig a b sc r) s =
        .next ((u.enqueue (.act u.hart.issued u.here.key sc.toNat (.signal k ((s.rs b).toNat % 2 ^ 32)))).advance 4)) ∧
      (∀ c n, s.accept c (.signal k n) = s.signal k n false) ∧
      exec (.ctrrd d a) s = .next ((s.ws d (s.counter k)).advance 4) ∧
      (∀ u, u = (if r = 3 then s.release sc.toNat else s) → ∀ v, v = u.blockOn (.counter d k (s.rs b) (s.rs a)) →
        (ctrPoison (u.counter k) = false → (s.rs b).toNat ≤ ctrValue (u.counter k) → ∃ t, exec (.ctrwait d a b sc r) s = .next t ∧
          t.hart.pc = u.hart.pc + 4 ∧ t.hart.status = .ready ∧ t.hart.task.wait = none ∧ (d ≠ 0 → t.rs d = u.counter k) ∧
          OnlyHere u t ∧ SameScalarsBut d u t ∧ SameCaps u t ∧ SameVectors u t ∧ SameMasks u t ∧ SameTiles u t ∧ SameMemory u t) ∧
        (ctrPoison (u.counter k) = false → ctrValue (u.counter k) < (s.rs b).toNat → exec (.ctrwait d a b sc r) s = .next v) ∧
        (ctrPoison (u.counter k) = true → exec (.ctrwait d a b sc r) s = .next (v.trapAt v.here .engineError (s.rs a) 4)))) ∧
    (¬ ((s.rs a).toNat < 2 ^ 11 ∧ (s.isFw = true ∨ s.allocated s.part (s.rs a).toNat = true)) →
      ∀ u, u = (if s.isFw = true ∨ 2 ^ 11 ≤ (s.rs a).toNat then s else s.noteAllocated s.part (s.rs a).toNat) →
      exec (.ctrsig a b sc r) s = .next (u.takeTrap .accessDenied (s.rs a) 4) ∧
      exec (.ctrrd d a) s = .next (u.takeTrap .accessDenied (s.rs a) 4) ∧
      exec (.ctrwait d a b sc r) s = .next (u.takeTrap .accessDenied (s.rs a) 4))

/-- For every counter, increment and poison, the value after a signal is the sum or 2^63 - 1 if that is less, the
poison bit is set when it was or when the signal poisons, and a signal changes no other counter. (R262, R263) -/
def Obligations.CounterArithmetic : Prop :=
  (∀ (c : BitVec 64) (inc : Nat) (p : Bool),
    ctrValue (ctrAdd c inc p) = (if ctrValue c + inc < 2 ^ 63 then ctrValue c + inc else 2 ^ 63 - 1) ∧
    ctrPoison (ctrAdd c inc p) = (ctrPoison c || p)) ∧
  (∀ (s : State) (k inc : Nat) (p : Bool), (s.signal k inc p).counter k = ctrAdd (s.counter k) inc p ∧
    ∀ j : Nat, j ≠ k → (s.signal k inc p).counter j = s.counter j)

/-- On a barrier whose access passes: BARINIT with a nonzero count stalls those blocked at it and writes a fresh
barrier; BARARV and BARXB with arrivals left count one arrival and the announced bytes and return the phase; BARWAIT
goes on when the phase is no longer the token's and waits while it is; BARTEST writes which; a barrier without
arrivals left and an overrun one trap with BARRIER_OVERRUN. (R260, R264, R265, R266, R267) -/
def Obligations.StageBarriersComplete : Prop :=
  ∀ (s u : State) (d b : SReg) (c : CReg) (sc : BitVec 3) (r : BitVec 2) (k : Nat), s.isFw = false →
    (s.barrierRef (s.rc c) 0 = .ok k u →
      ((u.rs b).toNat % 2 ^ 16 ≠ 0 → exec (.barinit c b) s = .next (((u.stallWaiters k).setBarrier k
        ⟨(u.rs b).toNat % 2 ^ 16, (u.rs b).toNat % 2 ^ 16, 0, false, 0⟩).advance 4)) ∧
      ((u.rs b).toNat % 2 ^ 16 = 0 → exec (.barinit c b) s = .next (u.takeTrap .illegal (u.rs b) 4)) ∧
      ((u.barrierAt k).overrun ((u.rs b).toNat % 2 ^ 31) = false → exec (.bartest d c b sc r) s =
        .next ((u.ws d (if (u.barrierAt k).phase ≠ (u.rs b).toNat % 2 ^ 31 then 1 else 0)).advance 4)) ∧
      ((u.barrierAt k).overrun ((u.rs b).toNat % 2 ^ 31) = true → exec (.bartest d c b sc r) s =
        .next (u.takeTrap .barrierOverrun (BitVec.ofNat 64 (u.rc c).cursor) 4))) ∧
    (s.barrierRef (s.rc c) sc.toNat = .ok k u →
      ((u.barrierAt k).left ≠ 0 → exec (.bararv d c sc r) s = .next (((u.setBarrier k
        { u.barrierAt k with left := (u.barrierAt k).left - 1 }).ws d (BitVec.ofNat 64 (u.barrierAt k).phase)).advance 4)) ∧
      ((u.barrierAt k).left ≠ 0 → exec (.barxb d c b sc r) s = .next (((u.setBarrier k
        { u.barrierAt k with left := (u.barrierAt k).left - 1, pend := (u.barrierAt k).pend + (s.rs b).toNat }).ws d
          (BitVec.ofNat 64 (u.barrierAt k).phase)).advance 4)) ∧
      ((u.barrierAt k).left = 0 → exec (.bararv d c sc r) s = .next (u.takeTrap .barrierOverrun (BitVec.ofNat 64 (u.rc c).cursor) 4) ∧
        exec (.barxb d c b sc r) s = .next (u.takeTrap .barrierOverrun (BitVec.ofNat 64 (u.rc c).cursor) 4))) ∧
    (s.barrierRef (s.rc c) (if r = 3 then sc.toNat else 0) = .ok k u → ∀ n, n = (u.rs b).toNat % 2 ^ 31 → ∀ v,
      v = u.blockOn (.barrier k n (BitVec.ofNat 64 (u.rc c).cursor)) →
      ((u.barrierAt k).overrun n = false →
        ((u.barrierAt k).phase ≠ n → ∃ t, exec (.barwait c b sc r) s = .next t ∧ t.hart.pc = u.hart.pc + 4 ∧ t.hart.status = .ready ∧
          t.hart.task.wait = none ∧ OnlyHere u t ∧ SameScalars u t ∧ SameCaps u t ∧ SameVectors u t ∧ SameMasks u t ∧ SameTiles u t ∧
          SameMemory u t) ∧
        ((u.barrierAt k).phase = n → exec (.barwait c b sc r) s = .next v)) ∧
      ((u.barrierAt k).overrun n = true →
        exec (.barwait c b sc r) s = .next (v.trapAt v.here .barrierOverrun (BitVec.ofNat 64 (u.rc c).cursor) 4)))

/-- Writing a barrier with no arrivals left and no pending bytes starts the next phase modulo 2^31 with the arrivals
at the count and nothing pending, the error bit telling whether more bytes came than were announced; any other barrier
is written as it is, and what is written reads back. (R264, R266) -/
def Obligations.BarrierPhaseCompletes : Prop :=
  ∀ (s : State) (k : Nat) (b : Barrier), s.memOk → b.count < 2 ^ 16 → b.left < 2 ^ 16 → b.phase < 2 ^ 31 → -2 ^ 63 ≤ b.pend → b.pend < 2 ^ 63 →
    (b.left = 0 → b.pend ≤ 0 →
      (s.setBarrier k b).barrierAt k = ⟨b.count, b.count, (b.phase + 1) % 2 ^ 31, decide (b.pend < 0), 0⟩) ∧
    (b.left ≠ 0 ∨ 0 < b.pend → (s.setBarrier k b).barrierAt k = b)

/-- On a channel its side may use and that is not poisoned: CHRSV of a task with nobody before it takes a FREE slot
and returns its slot word; CHPUSH of a RESERVED one, once an older push of it is performed, puts a push at the
descriptor's scope into the store queue, which fills the slot when performed; CHAWAIT takes a FILLED one; CHREL frees
a TAKEN one once older loads are performed; CHSTAT returns the counts or a stamp; a slot in another state is waited
for (CHRSV, CHAWAIT) or is ACCESS_DENIED. (R260, R268, R269, R270, R271, R413) -/
def Obligations.ChannelInstructionsComplete : Prop :=
  ∀ (s : State) (d a b : SReg) (r : BitVec 2) (c : Channel), s.isFw = false → ∀ h, h = (s.rs a).toNat →
    (s.chanRef (s.rs a) .producer = .ok c s →
      ((c.slot c.rsv).state = 0 → c.waiters = [] → ∃ (t : State) (c2 : Channel), exec (.chrsv d a) s = .next t ∧ t.hart.pc = s.hart.pc + 4 ∧
        t.hart.status = .ready ∧ (d ≠ 0 → t.rs d = c.slotWord s.part c.rsv) ∧ (h, c.rsv, true) ∈ t.hart.task.heldChans ∧
        t.shared.channels.find? h = some c2 ∧ (c2.slot c.rsv).state = 1 ∧ c2.rsv = (c.rsv + 1) % Nat.max 1 c.depth ∧ c2.waiters = [] ∧
        t.mem = s.mem) ∧
      ((c.slot c.rsv).state ≠ 0 ∨ (∃ k rest, c.waiters = k :: rest ∧ k ≠ s.here.key) → exec (.chrsv d a) s =
        .next ((s.setChannel h { c with waiters := c.waiters ++ [s.here.key] }).blockOn (.reserve d h))) ∧
      (∀ (x : CtxId) (i : Nat), s.shared.channels.find? h = some c →
        s.accept x (.push h i) = if (c.slot i).state = 1 then s.fillSlot h i else s)) ∧
    (∀ i v, i = slotIndex (s.rs b) → v = (if s.pushDue h i = true then s.drainQueue else s) → v.chanRef (s.rs a) .producer = .ok c v →
      (i < c.depth → (c.slot i).state = 1 → ∀ u, u = (if r = 3 then v.bindLoads c.scope else v) →
        exec (.chpush a b r) s =
          .next ((((u.enqueue (.act u.hart.issued u.here.key c.scope (.push h i))).unhold h i).effect).advance 4)) ∧
      (c.depth ≤ i ∨ (c.slot i).state ≠ 1 → exec (.chpush a b r) s = .next (v.takeTrap .accessDenied (v.rs b) 4))) ∧
    (s.chanRef (s.rs a) .consumer = .ok c s →
      (∀ u c2, u = (if r = 3 then s.release c.scope else s) → u.shared.channels.find? h = some c2 → c2.poison = false →
        ((c2.slot c2.take).state = 2 → ∃ (t : State) (c3 : Channel), exec (.chawait d a r) s = .next t ∧ t.hart.pc = u.hart.pc + 4 ∧
          t.hart.status = .ready ∧ (d ≠ 0 → t.rs d = c2.slotWord u.part c2.take) ∧ (h, c2.take, false) ∈ t.hart.task.heldChans ∧
          t.shared.channels.find? h = some c3 ∧ (c3.slot c2.take).state = 3 ∧ c3.take = (c2.take + 1) % Nat.max 1 c2.depth ∧ t.mem = u.mem) ∧
        ((c2.slot c2.take).state ≠ 2 → exec (.chawait d a r) s = .next (u.blockOn (.take d h)))) ∧
      (slotIndex (s.rs b) < c.depth → (c.slot (slotIndex (s.rs b))).state = 3 → exec (.chrel a b) s =
        .next ((((s.performLoads s.here).freeSlot h (slotIndex (s.rs b))).unhold h (slotIndex (s.rs b))).advance 4)) ∧
      (c.depth ≤ slotIndex (s.rs b) ∨ (c.slot (slotIndex (s.rs b))).state ≠ 3 →
        exec (.chrel a b) s = .next (s.takeTrap .accessDenied (s.rs b) 4))) ∧
    (s.chanRef (s.rs a) .either = .ok c s →
      (s.rs b = 0 → exec (.chstat d a b) s = .next ((s.ws d c.status).advance 4)) ∧
      (∀ n : Nat, n < 2 ^ 12 → n < c.depth → s.rs b = BitVec.ofNat 64 (2 ^ 16 + n) →
        exec (.chstat d a b) s = .next ((s.ws d (BitVec.ofNat 64 (c.slot n).stamp)).advance 4)))

/-- The first LAUNCH or SPAWN with a readable record address submits a chain and waits; once the chain is accepted it
writes the first launch id shifted left by 32, SPAWN keeping the chain as a child; a refused chain gives its status;
AWAITCH waits until every child ended and then, with what the dies hold performed at pkg, writes how many ended by
EXIT and the lowest-numbered failure's cause. (R34, R272, R273) -/
def Obligations.LaunchingCompletes : Prop :=
  (∀ (s : State) (d a : SReg) (r : BitVec 2) (k : Nat), s.isFw = false → s.hart.task.launching = none →
    (s.rs a).toNat < 2 ^ 48 → s.access s.who (s.rc 2) (s.rs a).toNat 64 64 .load = .ok k s →
    exec (.launch d a r) s = .next ((s.release 2).submit (s.rs a).toNat false).block ∧
    exec (.spawn d a r) s = .next ((s.release 2).submit (s.rs a).toNat true).block) ∧
  (∀ (s : State) (d a : SReg) (r : BitVec 2) (n : Nat) (c : Chain), s.isFw = false → s.hart.task.launching = some n →
    s.disp.chains.find? n = some c →
    (c.state = .checking → exec (.launch d a r) s = .next s.block ∧ exec (.spawn d a r) s = .next s.block) ∧
    (c.state = .refused ∨ c.state = .aborted → ∀ i, i = .launch d a r ∨ i = .spawn d a r → exec i s =
      .next ((((s.dropChain n).modTask fun t => { t with launching := none }).ws d (BitVec.ofNat 64 c.status)).advance 4)) ∧
    (c.state ≠ .checking → c.state ≠ .refused → c.state ≠ .aborted →
      exec (.launch d a r) s = .next ((((if c.state = .complete then s.dropChain n else s).modTask fun t =>
        { t with launching := none }).ws d (BitVec.ofNat 64 (c.first * 2 ^ 32))).advance 4) ∧
      exec (.spawn d a r) s = .next (((s.modTask fun t => { t with launching := none, spawned := t.spawned ++ [n] }).ws d
        (BitVec.ofNat 64 (c.first * 2 ^ 32))).advance 4))) ∧
  (∀ (s : State) (d : SReg), s.isFw = false →
    (s.childrenDone s.hart.task = true → ∀ u, u = (List.range 8).foldl State.drainOutbound s → exec (.awaitch d) s =
      .next ((((u.dropAwaited s.hart.task.spawned).modTask fun t => { t with spawned := [] }).ws d
        (BitVec.ofNat 64 (u.childResult s.hart.task))).advance 4)) ∧
    (s.childrenDone s.hart.task = false → exec (.awaitch d) s = .next s.block))

/-- With an id from 1 to 254, or 255 in a gang: GJOIN writes 1 for a member, else takes a free slot of GROUPS and
writes 0, or writes 2 when none is free; GLEAVE clears the slot, leaves the open phase and writes 0, or writes 1 for
no member; GSYNC of a member arrives and waits, and goes on when its phase is over; any other id is
ILLEGAL_INSTRUCTION with the operand. (R46, R47, R274) -/
def Obligations.ConstellationInstructionsComplete : Prop :=
  ∀ (s : State) (d a : SReg) (sc : BitVec 3), s.isFw = false →
    ((s.rs a).toNat = 0 ∨ 255 < (s.rs a).toNat ∨ ((s.rs a).toNat = 255 ∧ s.hart.task.gang = false) →
      exec (.gjoin d a) s = .next (s.takeTrap .illegal (s.rs a) 4) ∧ exec (.gleave d a) s = .next (s.takeTrap .illegal (s.rs a) 4) ∧
      exec (.gsync a sc) s = .next (s.takeTrap .illegal (s.rs a) 4)) ∧
    (0 < (s.rs a).toNat → ((s.rs a).toNat < 255 ∨ ((s.rs a).toNat = 255 ∧ s.hart.task.gang = true)) →
      ((s.rs a).toNat ∈ groupIds s.hart.task.groups → exec (.gjoin d a) s = .next ((s.ws d 1).advance 4)) ∧
      ((s.rs a).toNat ∉ groupIds s.hart.task.groups →
        (∀ k, (groupIds s.hart.task.groups).findIdx? (· = 0) = some k → exec (.gjoin d a) s = .next (((s.modTask fun t =>
          { t with groups := setGroup t.groups k (s.rs a).toNat }).ws d 0).advance 4)) ∧
        (0 ∉ groupIds s.hart.task.groups → exec (.gjoin d a) s = .next ((s.ws d 2).advance 4)) ∧
        exec (.gleave d a) s = .next ((s.ws d 1).advance 4)) ∧
      (∀ k, (groupIds s.hart.task.groups).findIdx? (· = (s.rs a).toNat) = some k → exec (.gleave d a) s =
        .next ((((s.modTask fun t => { t with groups := setGroup t.groups k 0 }).leavePhases s.hart.task.ident fun p =>
          p.launch = s.hart.task.constLaunch (s.rs a).toNat && p.id = (s.rs a).toNat).ws d 0).advance 4)) ∧
      (∀ x n, s.hart.task.gsync = some (x, n) →
        ((s.shared.phases.any fun p => p.number = n) = false →
          exec (.gsync a sc) s = .next ((s.modTask fun t => { t with gsync := none }).advance 4)) ∧
        ((s.shared.phases.any fun p => p.number = n) = true → exec (.gsync a sc) s = .next s.block)) ∧
      (s.hart.task.gsync = none → (s.rs a).toNat ∈ groupIds s.hart.task.groups →
        ∃ t, exec (.gsync a sc) s = .next t ∧ t.hart.status = .blocked ∧ t.hart.pc = (s.release sc.toNat).hart.pc) ∧
      (s.hart.task.gsync = none → (s.rs a).toNat ∉ groupIds s.hart.task.groups →
        exec (.gsync a sc) s = .next (s.takeTrap .illegal (s.rs a) 4)))

namespace Sys2Proof.Claims

/-- The shadow bank of a pair holds a launch whose record has FLAGS.HINTOK set (R41). -/
def hintOk (s : State) (p : BankPair) : Bool :=
  (p.shadow.bind s.disp.launches.find?).elim false fun r => rFlag r.record 1

/-- The pair after HINTNEXT of a task of launch `l`: its shadow becomes active and its active the older one, if it is the task's record,
HINTOK is set and no older record is left on the core (R41). -/
def hinted (s : State) (l : Nat) (p : BankPair) : BankPair :=
  if p.active = some l ∧ p.older = none ∧ Claims.hintOk s p = true then { p with older := p.active, active := p.shadow, shadow := none } else p

end Sys2Proof.Claims

/-- EXIT waits while a job of its task, and then while a copy, is outstanding, its lease ended between; then it pushes
and releases the slots its task holds, performs its stores at pkg and ends the task. SUSPEND with a good mask and kind
and no lease goes on when its wait is met; unmet, it leaves the slot to a continuation record when nothing is
outstanding and the pool has one, stays on the wait when it has none, and waits while something is outstanding. YIELD
only moves on. HINTNEXT swaps the bank pair of its record as R41 says, a transit task none. SELF writes the word of
R277 that its selector names, and traps for selectors above 3. (R41, R51, R52, R275, R276, R277) -/
def Obligations.TaskEndAndWait : Prop :=
  (∀ (s : State) (r : BitVec 2), s.isFw = false →
    (s.jobsOf s.here ≠ [] → exec (.exit r) s = .next s.block) ∧
    (s.jobsOf s.here = [] → ∀ u, u = s.endLease s.here →
      (u.outCopies u.here ≠ 0 → exec (.exit r) s = .next u.block) ∧
      (u.outCopies u.here = 0 → ∀ v w, v = u.dropHeld u.hart.task.heldChans →
        w = (v.modTask fun t => { t with heldChans := [] }).drainStores v.here →
        exec (.exit r) s = .next ((w.drainOutboundTo w.here.die Pending.isStore).taskEnds w.here 0)))) ∧
  (∀ (s : State) (k a b : BitVec 5) (sc : BitVec 3) (r : BitVec 2), s.isFw = false → k.toNat ≤ 5 → ¬ (k.toNat = 0 ∧ b = 31) →
    ¬ (k.toNat = 4 ∧ b ≠ 0) → maskOk (s.rs a) = true → s.leaseOf s.here = none →
    (s.waitState s.hart.task k.toNat (s.rs b) (s.rs (b + 1)) = .met → exec (.suspend k a b sc r) s = .next (s.advance 4)) ∧
    (∀ e x, s.waitState s.hart.task k.toNat (s.rs b) (s.rs (b + 1)) = .fate e x →
      exec (.suspend k a b sc r) s = .next (s.takeTrap e x 4)) ∧
    (s.waitState s.hart.task k.toNat (s.rs b) (s.rs (b + 1)) = .unmet →
      ∀ u v, u = s.blockOn (.suspend (s.rs a) k.toNat (s.rs b) (s.rs (b + 1)) sc.toNat) → v = u.drainCtx s.here →
      (u.quiet s.here = true → ∀ n, v.freeCont s.here.die = some n →
        exec (.suspend k a b sc r) s = .next (v.suspendTask s.here (s.rs a) k.toNat (s.rs b) (s.rs (b + 1)) n)) ∧
      (u.quiet s.here = true → v.freeCont s.here.die = none →
        exec (.suspend k a b sc r) s = .next (v.modHart s.here fun h =>
          { h with task := { h.task with wait := some (.stay k.toNat (s.rs b) (s.rs (b + 1))) } })) ∧
      (u.quiet s.here = false → exec (.suspend k a b sc r) s = .next u))) ∧
  (∀ s : State, s.isFw = false → exec .yield s = .next (s.advance 4)) ∧
  (∀ s : State, s.isFw = false → exec .hintnext s = .next ((if s.hart.task.transit.isSome = true then s
    else s.modMyCore fun k => { k with banks := k.banks.map (Claims.hinted s s.hart.task.launch) }).advance 4)) ∧
  (∀ (s : State) (d l : BitVec 5), s.isFw = false → ∀ t, t = s.hart.task →
    (l = 0 → exec (.self d l) s = .next ((s.ws d (BitVec.ofNat 64 (s.here.core + s.here.die * 2 ^ 4 + s.here.slot * 2 ^ 7))).advance 4)) ∧
    (l = 1 → exec (.self d l) s = .next ((s.ws d (BitVec.ofNat 64 (match t.transit with
      | some x => x.batches + 2 ^ 16 + 2 ^ 32
      | none => t.extX + t.extY * 2 ^ 16 + t.extZ * 2 ^ 32))).advance 4)) ∧
    (l = 2 → ∀ pos, pos = ((s.ring? t.ring).bind fun r => r.posOf s.fabric.self s.here.die).getD 0 →
      exec (.self d l) s = .next ((s.ws d (BitVec.ofNat 64 (t.arcFirst + t.arcLen * 2 ^ 16 + pos * 2 ^ 32 + t.ring * 2 ^ 48))).advance 4)) ∧
    (l = 3 → exec (.self d l) s = .next ((s.ws d (BitVec.ofNat 64 (t.transit.isSome.toNat + 2 * t.gang.toNat + 4 * t.gated.toNat +
      8 * (!s.childrenDone t).toNat))).advance 4)) ∧
    (3 < l.toNat → exec (.self d l) s = .next (s.takeTrap .illegal (tvalWord (.self d l)) 4)))

namespace Sys2Proof.Claims

/-- A stream after its head element was popped with these conversion flags (R295, R297). -/
def afterPop (q : Stream) (rest : List QElem) (fl : Flags5) : Stream :=
  { q with cvf := q.cvf ||| fl, dq := rest, popped := if q.bp then q.popped + 1 else q.popped }

/-- Kind, destination, source, pattern, handle and card register of a copy instruction (R282). -/
def copyOf (s : State) : Instr → Option (Nat × Cap × Cap × Word × Word × SReg)
  | .cpy d a b => some (0, s.rc d, s.rc a, 0, 0, b)
  | .cpyt d a b => some (1, s.rc d, s.rc a, 0, 0, b)
  | .cpyg d a b => some (2, s.rc d, s.rc a, 0, 0, b)
  | .cpys d a b => some (3, s.rc d, s.rc a, 0, 0, b)
  | .cpyc d a b => some (4, s.rc d, s.rc a, 0, 0, b)
  | .cpyf d a b => some (5, s.rc d, Cap.null, s.rs a, 0, b)
  | .cpyb d a b => some (6, Cap.null, s.rc a, 0, s.rs d, b)
  | _ => none

/-- The engine has room for one more command of a kind (R278, R291). -/
def copyRoom (s : State) (kind eng : Nat) : Bool :=
  decide ((s.copyCtx s.here eng).waiting.length < 16) &&
    (decide (kind ≠ 1) || decide ((s.timed s.here.die s.here.core eng).length < 64))

/-- What dimension 1 of a nest counts by: the entries of the index list in bounds, or where an indexed command does not list this side,
their places in it (R283, R288). -/
def copyRows (kind : Nat) (card : List Byte) (idx : List Nat) (listed : Bool) : Option (List Nat) :=
  if kind = 2 ∨ kind = 3 then some ((inIndices card idx).map fun p => if listed then p.1 else p.2) else none

/-- The source of a copy passes step 6 of R288: a fill has none, an indexed nest without elements in bounds needs none. -/
def sourceOk (kind : Nat) (card : List Byte) (idx : List Nat) (ch : Option Channel) (src : Cap) (s : State) : Prop :=
  kind = 5 ∨ ((kind = 2 ∨ kind = 3) ∧ inIndices card idx = []) ∨
    checkSide src (copySpan card (cSstr card) (copyRows kind card idx (kind == 2)))
      (inCount card 0 * srcBits card (copyConv kind card ch) / 8) (byteSize (srcBits card (copyConv kind card ch)))
      (usedStrides card (cSstr card)) .load s = .ok () s

/-- The destination of a copy passes step 6 of R288: a CPYB writes its channel, a packing sink one run of bytes. -/
def targetOk (kind : Nat) (card : List Byte) (idx : List Nat) (ch : Option Channel) (dst : Cap) (s : State) : Prop :=
  kind = 6 ∨ ((kind = 2 ∨ kind = 3) ∧ inIndices card idx = []) ∨
    (if kind = 4 ∧ (wQ4 (cDfmt card) = true ∨ wBp (cDfmt card) = true) then
      checkSide dst (some (0, 0)) (packedBytes card) 1 [] .store s = .ok () s
    else
      checkSide dst (copySpan card (cDstr card) (copyRows kind card idx (kind == 3)))
        (inCount card 0 * dstBits card (copyConv kind card ch) / 8) (byteSize (dstBits card (copyConv kind card ch)))
        (usedStrides card (cDstr card)) .store s = .ok () s)

end Sys2Proof.Claims

/-- A copy instruction of any kind whose card is read and well formed, whose counters, barrier and channel may be
used, whose nest passes on both sides and whose engine has room completes: one QUEUED command with the card, the task
and the context's next sequence number joins the queue last, the number goes up by one, and the acceptance of that
command enters the store queue behind the older accesses; performed, it marks the command accepted. Without room it
waits. (R121, R278, R282, R284, R288) -/
def Obligations.CopiesAreAccepted : Prop :=
  (∀ (i : Instr) (s : State) (kind : Nat) (dst src : Cap) (pattern handle : Word) (b : SReg), s.isFw = false →
    Claims.copyOf s i = some (kind, dst, src, pattern, handle, b) →
    ∀ (u : State) (card : List Byte) (idx : List Nat) (wait sig : Option Nat) (ch : Option Channel),
    s.readCard (s.rs b).toNat (kind == 2 || kind == 3) = .ok (card, idx) u →
    firstBad (cardFields kind card) = none →
    cardCounter (cFlag card 8) (field card 44 2) u = .ok wait u → cardCounter (cFlag card 9) (field card 50 2) u = .ok sig u →
    cardBarrier card u = .ok () u → copyChannel (tvalWord i) kind handle card u = .ok ch u →
    Claims.sourceOk kind card idx ch src u → Claims.targetOk kind card idx ch dst u →
    (Claims.copyRoom u kind (cEng card) = true → ∃ m : CopyCmd, ∀ v : State,
      v = (u.modCopy u.here (cEng card) fun x => { cmds := x.cmds ++ [m], next := x.next + 1 }).enqueue
        (.act u.hart.issued u.here.key 0 (.copy (cEng card) m.seq)) →
      exec i s = .next ((if kind = 6 then v.effect else v.storeEffect dst.space).advance 4) ∧
      m.kind = kind ∧ m.seq = (u.copyCtx u.here (cEng card)).next ∧ m.card = card ∧ m.idx = idx ∧ m.src = src ∧ m.dst = dst ∧
      m.pattern = pattern ∧ m.task = u.hart.task.ident ∧ m.state = .queued ∧ m.taken = false ∧ m.done = 0 ∧ m.bytes = 0 ∧
      m.wait = (wait.map fun k => (k, field card 46 4)) ∧ m.signal = sig.map fun k => (⟨k, field card 52 4⟩ : Signal)) ∧
    (Claims.copyRoom u kind (cEng card) = false → exec i s = .next s.block)) ∧
  (∀ (s : State) (c : CtxId) (eng seq : Nat), ∀ m ∈ ((s.accept c (.copy eng seq)).copyCtx c eng).cmds, m.seq = seq → m.taken = true)

/-- QBIND with a good card drains the register and, with no read in flight, binds it with empty queues; on a bound
stream QADDR of an address that passes queues it, QPOPS and QPOPV take the head element and QPEEK reads it with the
flags of its conversion, QSTAT reads the status, QDRAIN unbinds likewise, QFMT of a good word changes the formats;
QBIND and QDRAIN wait for reads in flight; on an unbound stream they trap with STREAM_UNBOUND. The word of a QPOPV
that names n1, n2 or n3 decodes to no instruction. (R64, R292, R293, R294, R295, R296) -/
def Obligations.StreamInstructionsComplete : Prop :=
  (∀ (s u : State) (c : CReg) (q : QReg) (b : SReg) (card : List Byte) (idx : List Nat), s.isFw = false →
    s.readCard (s.rs b).toNat false = .ok (card, idx) u → firstBad (streamFields card u.regionLen) = none → ∀ z : Stream,
    z = { Stream.unbound with
        bound := true, cap := u.rc c, card := card, sink := BitVec.ofNat 16 (cDfmt card),
        src := BitVec.ofNat 16 (cStype card + if wEn (cDfmt card) then 2 ^ 15 else 0) } →
    ∀ v, v = ((u.dropStreamFaults u.here q.toNat).wq q (u.rq q).drained).blockOn (.drain q z) →
    ((u.rq q).inflight = [] → ∃ t, exec (.qbind c q b) s = .next t ∧ t.rq q = z ∧ t.hart.pc = u.hart.pc + 4 ∧ t.hart.status = .ready ∧
      (∀ p : QReg, p ≠ q → t.rq p = u.rq p) ∧ SameScalars u t ∧ SameCaps u t ∧ SameVectors u t ∧ SameMasks u t ∧ SameMemory u t) ∧
    ((u.rq q).inflight ≠ [] → exec (.qbind c q b) s = .next v)) ∧
  (∀ (s : State) (d b : SReg) (q : QReg) (v : BitVec 5) (w : BitVec 1), s.isFw = false → (s.rq q).bound = true →
    (((s.rq q).inBounds (s.rs b) = false ∨
        (s.checkSix s.who (s.rq q).cap ((s.rq q).elemAddr (s.rs b)) 1 (byteSize (streamBits (s.rq q).card)) .load = none ∧
          s.checkSix s.who (s.rq q).cap ((s.rq q).elemAddr (s.rs b) + (rawBytes (s.rq q).card : Int) - 1) 1 1 .load = none)) →
      (s.rq q).aq.length < 32 →
      exec (.qaddr q b) s = .next ((s.wq q { s.rq q with aq := (s.rq q).aq ++ [s.rs b] }).advance 4)) ∧
    (32 ≤ (s.rq q).aq.length → exec (.qaddr q b) s = .next s.block) ∧
    (∀ (e : QElem) (rest : List QElem) (bs : List Byte) (fl : Flags5), (s.rq q).dq = e :: rest → (s.rq q).convHead e = (bs, fl) →
      (e.mark = .none → (s.rq q).popBytes ≤ 8 →
        exec (.qpops d q) s = .next (((s.wq q (Claims.afterPop (s.rq q) rest fl)).ws d ((s.rq q).word bs)).advance 4) ∧
        exec (.qpeek d q) s = .next (((s.wq q { s.rq q with cvf := (s.rq q).cvf ||| fl }).ws d ((s.rq q).word bs)).advance 4)) ∧
      (e.mark = .none → exec (.qpopv v q w) s = .next (((s.wq q (Claims.afterPop (s.rq q) rest fl)).wv (w ++ v)
            (BitVec.ofNat 2048 (leNat bs))).advance 4)) ∧
      (e.mark ≠ .none → exec (.qpopv v q w) s = .next (s.takeTrap e.mark e.addr 4))) ∧
    ((s.rq q).dq = [] → exec (.qpopv v q w) s = .next s) ∧
    exec (.qstat d q) s = .next ((s.ws d (s.rq q).status).advance 4) ∧
    ((s.rq q).inflight = [] → ∃ t, exec (.qdrain q) s = .next t ∧ t.rq q = Stream.unbound ∧ t.hart.pc = s.hart.pc + 4 ∧
      t.hart.status = .ready ∧ (∀ p : QReg, p ≠ q → t.rq p = s.rq p)) ∧
    ((s.rq q).inflight ≠ [] → exec (.qdrain q) s =
      .next (((s.dropStreamFaults s.here q.toNat).wq q (s.rq q).drained).blockOn (.drain q Stream.unbound))) ∧
    (qfmtOk (s.rq q) (s.rs b).toNat = true → exec (.qfmt q b) s = .next ((s.wq q { s.rq q with
      src := (s.rs b).extractLsb' 0 16, sink := (s.rs b).extractLsb' 16 16 }).advance 4)) ∧
    (qfmtOk (s.rq q) (s.rs b).toNat = false → exec (.qfmt q b) s = .next (s.takeTrap .illegal (s.rs b) 4))) ∧
  (∀ (s : State) (i : Instr) (d b : SReg) (q : QReg) (v : BitVec 5) (w : BitVec 1), s.isFw = false → (s.rq q).bound = false →
    (i = .qaddr q b ∨ i = .qpops d q ∨ i = .qpopv v q w ∨ i = .qpeek d q ∨ i = .qstat d q ∨ i = .qdrain q ∨ i = .qfmt q b) →
    exec i s = .next (s.takeTrap .streamUnbound (BitVec.ofNat 64 q.toNat) 4)) ∧
  (∀ (v : BitVec 5) (q : QReg), 29 ≤ v.toNat → decode ((encode (.qpopv v q 1)).headD 0) 0 = none)

/-- MLEASE of a good request by a task without lease or request queues it and waits, and the array's grant, on a core
that runs, completes it with its word; MFREE without unfinished jobs ends the lease and MDRAIN without them only moves
on; MJOB with a job left in the lease and a card that passes appends the job with the next id, puts its acceptance
behind the older accesses and writes the id; MSTAT writes a job's status word and MERRRD a word of the log of the
partition; MJOB without a lease is LEASE_VIOLATION. (R121, R238, R241, R242, R243, R244, R245, R248) -/
def Obligations.MatrixInstructionsComplete : Prop :=
  (∀ (s : State) (d a : SReg), s.isFw = false →
    (s.leaseOf s.here = none → s.leaseWaits s.here = none → 1 ≤ (s.rs a).toNat % 2 ^ 7 → (s.rs a).toNat % 2 ^ 7 ≤ 64 →
      (s.rs a).toNat < 2 ^ 9 → bitOf (s.rs a).toNat 7 = false → exec (.mlease d a) s = .next ((s.modArray s.here.die (s.here.core / 4) fun q =>
        { q with reqs := q.reqs ++ [⟨s.here.core, s.here.slot, (s.rs a).toNat % 2 ^ 7, bitOf (s.rs a).toNat 8,
          s.hart.task.transit.isSome, none⟩] }).blockOn (.lease d))) ∧
    ((s.leaseOf s.here).isSome = true ∨ (s.leaseWaits s.here).isSome = true ∨ (s.rs a).toNat % 2 ^ 7 = 0 ∨ 64 < (s.rs a).toNat % 2 ^ 7 ∨
      2 ^ 9 ≤ (s.rs a).toNat ∨ bitOf (s.rs a).toNat 7 = true → exec (.mlease d a) s = .next (s.takeTrap .leaseViolation (s.rs a) 4))) ∧
  (∀ (s : State) (die cl : Nat) (r : LeaseReq) (c : CtxId) (d : SReg), (s.arrayAt die cl).lease = none → (s.arrayAt die cl).next = some r →
    r.restore = none → c = ⟨die, r.core, r.slot⟩ → (s.hartAt c).task.wait = some (.lease d) → s.coreRuns c = true →
    ∃ (t : State) (l : Lease), exec (.matrixLeaseGrant die cl) s = .next t ∧ (t.arrayAt die cl).lease = some l ∧ l.core = r.core ∧
      l.slot = r.slot ∧ l.task = (s.hartAt c).task.ident ∧ l.toIssue = r.run ∧ l.toRun = r.run ∧
      (t.hartAt c).pc = (s.hartAt c).pc + 4 ∧ (t.hartAt c).status = .ready ∧
      (d ≠ 0 → (t.hartAt c).s.get d.toFin = BitVec.ofNat 64 (r.run + r.core % 4 * 2 ^ 8 + if l.kept then 2 ^ 16 else 0))) ∧
  (∀ s : State, s.isFw = false →
    (s.jobsOf s.here = [] → exec .mfree s = .next ((s.endLease s.here).advance 4) ∧ exec .mdrain s = .next (s.advance 4)) ∧
    (s.jobsOf s.here ≠ [] → exec .mfree s = .next s.block ∧ exec .mdrain s = .next s.block)) ∧
  (∀ (s u : State) (d a : SReg) (cb : CReg) (l : Lease) (card : List Byte) (snap : Option Snap), s.isFw = false →
    s.leaseOf s.here = some l → l.toIssue ≠ 0 → s.readRecord (s.rs a).toNat 128 128 = .ok card u → firstBad (jobFields card) = none →
    jobMeridian (tvalWord (.mjob d a cb)) card cb u = .ok snap u → jobRegion card u = .ok () u → ∃ job : Job,
      exec (.mjob d a cb) s = .next (((((u.modLease u.here.die u.here.core fun c =>
        { c with jobs := pruneJobs u.hart.task.ident (c.jobs ++ [job]), next := (c.next + 1) % 2 ^ 16 }).modArray
          u.here.die (u.here.core / 4) fun q => { q with lease := some { l with toIssue := l.toIssue - 1 } }).enqueue
            (.act u.hart.issued u.here.key 0 (.job job.id))).ws d (BitVec.ofNat 64 job.id)).advance 4) ∧
      job.card = card ∧ job.state = 1 ∧ job.pass = 0 ∧ job.taken = false ∧ job.meridian = snap ∧ job.task = u.hart.task.ident ∧
      job.id = (u.leaseCtx u.here.die u.here.core).next) ∧
  (∀ (s : State) (d a : SReg) (cb : CReg), s.isFw = false → s.leaseOf s.here = none →
    (s.leaseWaits s.here = none → exec (.mjob d a cb) s = .next (s.takeTrap .leaseViolation 0 4)) ∧
    ((s.leaseWaits s.here).isSome = true → exec (.mjob d a cb) s = .next s.block)) ∧
  (∀ (s : State) (d a : SReg), s.isFw = false → ∃ w : Word, exec (.mstat d a) s = .next ((s.ws d w).advance 4) ∧
    ((∀ j ∈ s.allJobs s.here, j.id ≠ (s.rs a).toNat % 2 ^ 16) → w = 0) ∧
    (∀ j, (s.allJobs s.here).getLast? = some j → j.id = (s.rs a).toNat % 2 ^ 16 →
      w = BitVec.ofNat 64 (j.state + j.flags * 2 ^ 8 + j.id * 2 ^ 16 + j.pass % 2 ^ 32 * 2 ^ 32))) ∧
  (∀ (s : State) (d a : SReg), s.isFw = false → ∃ w : Word,
    (bitOf (s.rs a).toNat 8 = false → exec (.merrrd d a) s = .next ((s.ws d w).advance 4)) ∧
    (bitOf (s.rs a).toNat 8 = true → exec (.merrrd d a) s = .next (((s.modArray s.here.die (s.here.core / 4) fun q =>
      { q with log := q.log.filter fun e => e.1 ≠ s.part }).ws d w).advance 4)) ∧
    (w = 0 ∨ ((s.part, w) ∈ (s.arrayAt s.here.die (s.here.core / 4)).log)) ∧
    (∀ x, (s.arrayAt s.here.die (s.here.core / 4)).log[(s.rs a).toNat % 8]? = some (s.part, x) → w = x))

namespace Sys2Proof.Claims

/-- The tiles that a tile instruction names and that must be configured (R224). -/
def tileNames : Instr → List TReg
  | .tzero d | .trel d | .tldrow d _ _ | .tld d _ _ | .tvrow d _ _ | .tvcol d _ _ => [d]
  | .tstrow a _ _ | .tst a _ _ | .trowv a _ _ | .tcolv a _ _ => [a]
  | .ttrans d a => [d, a]
  | .tmma d a t => [d, a, t]
  | _ => []

/-- What a tile instruction without memory access makes of the state, and when its operands are in range (R225–R229). -/
def tileResult (s : State) : Instr → Option (Prop × State)
  | .tcfg d b => some (shapeValid (s.rs b &&& shapeMask) = true, s.setShape d (s.rs b &&& shapeMask))
  | .tzero d => some (True, s.setTile d fun _ => 0)
  | .trel d => some (True, s.setShape d 0)
  | .trowv a v b => some ((s.rs b).toNat < shapeRows (s.shape a), s.wv v (s.tileRow a (s.rs b).toNat))
  | .tcolv a v b => some ((s.rs b).toNat < shapeCols (s.shape a), s.wv v (vecOf (8 * shapeElem (s.shape a))
      ((List.range (shapeRows (s.shape a))).map fun i => s.tileElem a i (s.rs b).toNat)))
  | .tvrow d v b => some ((s.rs b).toNat < shapeRows (s.shape d), s.setTile d fun i =>
      if i = (s.rs b).toNat then s.rv v else s.tileRow d i)
  | .tvcol d v b => some ((s.rs b).toNat < shapeCols (s.shape d), s.setTile d fun i => vecOf (8 * shapeElem (s.shape d))
      ((List.range (shapeCols (s.shape d))).map fun j =>
        if j = (s.rs b).toNat then lane (s.rv v) (8 * shapeElem (s.shape d)) i else s.tileElem d i j))
  | .ttrans d a => some (shapeWidth (s.shape d) = shapeWidth (s.shape a) ∧ shapeRows (s.shape d) = shapeCols (s.shape a) ∧
      shapeCols (s.shape d) = shapeRows (s.shape a), s.setTile d fun i => vecOf (8 * shapeElem (s.shape a))
        ((List.range (shapeRows (s.shape a))).map fun j => s.tileElem a j i))
  | .tmma d a t => some (mmaShapes s.vt (s.shape d) (s.shape a) (s.shape t) = true ∧ d ≠ a ∧ d ≠ t,
      (s.accrue false ((mmaRows s d a t).foldl (fun acc r => acc ||| laneFlags 32 (r.map (·.2))) 0)).setTile d fun i =>
        vecOf 32 (((mmaRows s d a t).getD i []).map (·.1)))
  | _ => none

end Sys2Proof.Claims

/-- TCFG, TZERO, TREL, the row and column moves, TTRANS and TMMA issued by a task with every named tile configured and
every index and shape in range answer the state with the tile, shape or vector register written and the PC moved; out
of range they trap with ILLEGAL_INSTRUCTION, and with an unconfigured tile with TILE_UNCONFIGURED and the lowest such
number. (R224, R225, R227, R228, R229) -/
def Obligations.TileInstructionsComplete : Prop :=
  ∀ (i : Instr) (s : State) (p : Prop) (t : State), Claims.tileResult s i = some (p, t) → s.isFw = false →
    ((∀ r ∈ Claims.tileNames i, s.shape r ≠ 0) → p → exec i s = .next (t.advance 4)) ∧
    ((∀ r ∈ Claims.tileNames i, s.shape r ≠ 0) → ¬ p → exec i s = .next (s.takeTrap .illegal (tvalWord i) 4)) ∧
    (∀ r ∈ Claims.tileNames i, s.shape r = 0 → (∀ q ∈ Claims.tileNames i, s.shape q = 0 → r.toNat ≤ q.toNat) →
      exec i s = .next (s.takeTrap .tileUnconfigured (BitVec.ofNat 64 r.toNat) 4))

/-- TLDROW and TLD of a configured tile, all of whose elements pass, enter the load queue; TSTROW and TST put one
store per element into the store queue; the first element that fails its check traps. When the last element of the
oldest load of a context is performed, at a home that is not lost and in no uncorrectable line, the rows that have
elements hold the values read, and the other rows keep theirs. (R113, R114, R119, R223, R226) -/
def Obligations.TileMemoryCompletes : Prop :=
  (∀ (s : State) (d : TReg) (c : CReg) (b : SReg), s.isFw = false → s.shape d ≠ 0 →
    ∀ (rows : List Nat) (addr : Nat → Int) (ld st : Instr),
    ((ld = .tldrow d c b ∧ st = .tstrow d c b ∧ rows = [(s.rs b).toNat] ∧ (s.rs b).toNat < shapeRows (s.shape d) ∧
        addr = fun i => ((s.rc c).cursor : Int) + (i % 256 * shapeElem (s.shape d) : Nat)) ∨
      (ld = .tld d c b ∧ st = .tst d c b ∧ rows = List.range (shapeRows (s.shape d)) ∧
        addr = fun i => ((s.rc c).cursor : Int) + ((i / 256 : Nat) : Int) * (s.rs b).toInt + (i % 256 * shapeElem (s.shape d) : Nat))) →
    (∀ es, checkElems (s.rc c) (shapeElem (s.shape d)) .load addr (tileElems (s.shape d) rows) s = .ok es s →
      exec ld s = .next ((s.queueLoad (s.rc c).space (shapeElem (s.shape d)) (.tile d (s.shape d)) (es.map fun e => (e.1, e.2.1))).advance 4)) ∧
    (∀ es, checkElems (s.rc c) (shapeElem (s.shape d)) .store addr (tileElems (s.shape d) rows) s = .ok es s →
      exec st s = .next (((es.foldl (fun t e => t.enqueueStore (cellsAt e.2.1 (leBytes (shapeElem (s.shape d))
        (s.tileElem d (e.1 / 256) (e.1 % 256)))) false true) s).storeEffect (s.rc c).space).advance 4)) ∧
    (∀ k e v t, (k = Kind.load ∨ k = Kind.store) →
      checkElems (s.rc c) (shapeElem (s.shape d)) k addr (tileElems (s.shape d) rows) s = .trap e v t →
      exec (if k = Kind.load then ld else st) s = .next (t.takeTrap e v 4))) ∧
  (∀ (s u : State) (die core slot i n k : Nat) (c : CtxId) (r r2 : LoadRec) (rest : List LoadRec) (d : TReg) (sh : Word),
    c = ⟨die, core, slot⟩ → (s.hartAt c).loads = r :: rest → r.elems[i]? = some ⟨n, k, none⟩ → r.dest = .tile d sh →
    u = s.settleFor c r.ord k r.n → u.badLines c r.ord k r.n = [] → u.lost k = false →
    r2 = { r with elems := r.elems.modify i fun e => { e with got := some (leNat ((upFrom k r.n).map (u.queueByte c r.ord))) } } →
    (r2.elems.all fun e => e.got.isSome) = true → ∃ t, exec (.remoteLoadReturn die core ⟨slot, i⟩) s = .next t ∧ (t.hartAt c).loads = rest ∧
      (t.hartAt c).tile = (s.hartAt c).tile.write d fun row => if r2.elems.any fun e => e.index / 256 = row then
          vecOf (8 * shapeElem sh) ((List.range (shapeCols sh)).map fun j => (r2.value (row * 256 + j)).getD 0)
        else ((s.hartAt c).tile.rows.get d.toFin)[row]?.getD 0)

namespace Sys2Proof.Claims

/-- The status of a TRBIND of a launch and the bindings after it, from those of the dies asked: a removal needs the key to be the launch's
on every die, a binding needs no other launch to hold it and a free entry on every die (R302). -/
def BindOutcome (s : State) (q : BindReq) (st : Nat) (m : SMap Binding) : Prop :=
  ∀ (image tag : Nat) (mine other full : Nat → Prop), image = field q.record 0 2 → tag = field q.record 2 2 →
    (∀ d, mine d ↔ ∃ b, s.binding d image tag = some b ∧ b.launch = q.launch) →
    (∀ d, other d ↔ ∃ b, s.binding d image tag = some b ∧ b.launch ≠ q.launch) →
    (∀ d, full d ↔ s.binding d image tag = none ∧ 4096 ≤ s.bindCount d) →
    (bitOf (field q.record 40 1) 1 = true →
      ((∀ d ∈ q.dies, mine d) → st = 4 ∧ m = q.dies.foldl (fun m d => m.erase (bindKey d image tag)) s.shared.bindings) ∧
      (¬ (∀ d ∈ q.dies, mine d) → st = 5 ∧ m = s.shared.bindings)) ∧
    (bitOf (field q.record 40 1) 1 = false →
      ((∃ d ∈ q.dies, other d) → st = 2 ∧ m = s.shared.bindings) ∧
      ((∀ d ∈ q.dies, ¬ other d) → (∃ d ∈ q.dies, full d) → st = 3 ∧ m = s.shared.bindings) ∧
      ((∀ d ∈ q.dies, ¬ other d) → (∀ d ∈ q.dies, ¬ full d) →
        ((∃ d ∈ q.dies, mine d) → st = 1) ∧ ((∀ d ∈ q.dies, ¬ mine d) → st = 0) ∧
        m = q.dies.foldl (fun m d => m.insert (bindKey d image tag) (bindingOf q.launch q.record)) s.shared.bindings))

end Sys2Proof.Claims

/-- TRBIND with no request of its context under way and a binding record that is readable and good leaves a request to
its own die with LOCAL, else to the dies of its arc, and waits, as it does while the request is under way. The
decision step of a core that runs ends the request: the bindings become those of the outcome on all the dies or on
none, the destination takes the status, the context goes on past the instruction, and nothing else of the package
changes. (R300, R301, R302) -/
def Obligations.TransitBindingCompletes : Prop :=
  (∀ (s u : State) (d b : SReg) (r : List Byte), s.isFw = false →
    ((s.shared.bindReqs.any fun q => q.ctx = s.here) = true → exec (.trbind d b) s = .next s.block) ∧
    ((s.shared.bindReqs.any fun q => q.ctx = s.here) = false →
      transitRecord (tvalWord (.trbind d b)) (s.rs b).toNat 64 64 (bindFields s.hart.task.codeLen) s = .ok r u →
      ∀ q : BindReq, q = ⟨u.here, d, r, u.hart.task.launch, if bitOf (field r 40 1) 0 = true then [u.here.die]
          else u.arcDies u.hart.task.ring u.hart.task.arcFirst u.hart.task.arcLen⟩ →
        exec (.trbind d b) s = .next ({ u with shared := { u.shared with bindReqs := u.shared.bindReqs ++ [q] } } : State).block)) ∧
  (∀ (s : State) (die core slot : Nat) (c : CtxId) (q : BindReq), c = ⟨die, core, slot⟩ →
    (s.shared.bindReqs.find? fun q => q.ctx = c) = some q →
    (s.coreRuns c = false → exec (.trbindDecision die core slot) s = .next s) ∧
    (s.coreRuns c = true → ∃ (st : Nat) (m : SMap Binding), Claims.BindOutcome s q st m ∧
      exec (.trbindDecision die core slot) s = .next (({ s with shared := { s.shared with
        bindings := m, bindReqs := s.shared.bindReqs.filter fun r => r.ctx ≠ c } } : State).complete c q.dest (BitVec.ofNat 64 st)))) ∧
  (∀ (s : State) (c : CtxId) (d : SReg) (v : Word),
    ((s.complete c d v).hartAt c).pc = (s.hartAt c).pc + 4 ∧ ((s.complete c d v).hartAt c).status = .ready ∧
    (d ≠ 0 → ((s.complete c d v).hartAt c).s.get d.toFin = v) ∧
    { s.complete c d v with hart := s.hart, parked := s.parked } = s)

namespace Sys2Proof.Claims

/-- The slot that TRWAIT takes for a key: PRESENT or HELD with the key, no other such slot PRESENT later or, at the same time, with a lower
number (R303). -/
def TakesSlot (s : State) (die image tag i : Nat) : Prop :=
  let fits := fun j : Nat => j < 6 ∧ ((s.mslot die j).state = 2 ∨ (s.mslot die j).state = 3) ∧ (s.mslot die j).image = image ∧ (s.mslot die j).tag = tag
  fits i ∧ ∀ j, fits j → (s.mslot die j).present < (s.mslot die i).present ∨ ((s.mslot die j).present = (s.mslot die i).present ∧ i ≤ j)

/-- The slot word of TRINFO, field by field (R304). -/
def slotInfo (m : MSlot) : Nat :=
  m.state + m.retained.toNat * 2 ^ 3 + m.fill % 256 * 2 ^ 8 + (if m.state = 0 then 0 else m.image * 2 ^ 16 + m.tag * 2 ^ 32) +
    Nat.min m.opens 16 * 2 ^ 48 + Nat.min m.holds 16 * 2 ^ 53

/-- The state after TRDONE once nothing else reads the slot of the transit: the task's own loads of it performed, OPEN one less if the
slot still has that fill, the transit done (R305). -/
def slotGivenUp (s : State) (x : TransitInfo) : State :=
  let u := s.performFor s.here fun r => r.readsSlot s.here.die x.slot
  let m := u.mslot s.here.die x.slot
  (if m.fill % 256 = x.fill % 256 ∧ (m.state = 2 ∨ m.state = 3) then
    u.modSlot s.here.die x.slot fun m => { m with opens := m.opens - 1 } else u).modHart s.here fun h =>
      { h with task := { h.task with transit := some { x with done := true } } }

end Sys2Proof.Claims

/-- TRWAIT with a key below 2^32, on a die of its task's arc, writes the capability of the slot that R303 takes, after
a release if its order is ar; with no such slot it writes the null capability once its deadline has passed and waits
before that, and the deadline step ends the wait likewise. TRINFO of slots 0 to 5 writes the fields of R304. TRDONE of
a transit task gives its slot up once no copy and no job of it reads the slot, its own loads performed, and waits
before that; a second one only moves on. TRHOLD answers 1 for another fill or an expired slot, 2 at 16 holds, 3 for a
release of none, and else takes or releases one hold with 0. TRQRY writes the predicted tick, bit 63 for MISSING, or
all ones. Bad operands, slots 6 and 7, dies off the arc and TRDONE of another task trap. (R260, R303, R304, R305,
R306, R307) -/
def Obligations.TransitInstructionsComplete : Prop :=
  (∀ (s : State) (cd : CReg) (a b : SReg) (r : BitVec 2), s.isFw = false → ∀ x dl, x = (s.rs a).toNat → dl = (s.rs b).toNat →
    (2 ^ 32 ≤ x → exec (.trwait cd a b r) s = .next (s.takeTrap .illegal (s.rs a) 4)) ∧
    (x < 2 ^ 32 → s.ownsDie s.hart.task s.here.die = false → exec (.trwait cd a b r) s = .next (s.takeTrap .accessDenied (s.rs a) 4)) ∧
    (x < 2 ^ 32 → s.ownsDie s.hart.task s.here.die = true →
      (∀ i, Claims.TakesSlot s s.here.die (x % 2 ^ 16) (x / 2 ^ 16) i → ∀ m, m = s.mslot s.here.die i → exec (.trwait cd a b r) s =
        .next (((if r = 3 then s.release 1 else s).wc cd (slotCap i m.fill m.xbytes)).advance 4)) ∧
      ((∀ i, ¬ Claims.TakesSlot s s.here.die (x % 2 ^ 16) (x / 2 ^ 16) i) →
        (dl ≠ 0 ∧ dl ≤ s.polestar → exec (.trwait cd a b r) s = .next ((s.wc cd Cap.null).advance 4)) ∧
        (dl = 0 ∨ s.polestar < dl → exec (.trwait cd a b r) s =
          .next (s.modTask fun t => { t with keyWait := some (cd, dl) }).block)))) ∧
  (∀ (s : State) (die core slot dl : Nat) (c : CtxId) (cd : CReg), c = ⟨die, core, slot⟩ → (s.hartAt c).task.keyWait = some (cd, dl) →
    (s.coreRuns c = true → (s.hartAt c).status = .blocked → dl ≠ 0 → dl ≤ s.polestar → s.keySlot c = none →
      exec (.trwaitDeadline die core slot) s = .next (s.modHart c fun h =>
        { h.goOn (h.pc + 4) with c := if cd = 0 then h.c else h.c.set cd.toNat Cap.null cd.isLt })) ∧
    (s.coreRuns c = false ∨ (s.hartAt c).status ≠ .blocked ∨ dl = 0 ∨ s.polestar < dl ∨ (s.keySlot c).isSome = true →
      exec (.trwaitDeadline die core slot) s = .next s)) ∧
  (∀ (s : State) (d a : SReg), s.isFw = false →
    ((s.rs a).toNat < 6 →
      exec (.trinfo d a) s = .next ((s.ws d (BitVec.ofNat 64 (Claims.slotInfo (s.mslot s.here.die (s.rs a).toNat)))).advance 4)) ∧
    ((s.rs a).toNat = 6 ∨ (s.rs a).toNat = 7 → exec (.trinfo d a) s = .next (s.takeTrap .accessDenied (s.rs a) 4)) ∧
    (8 ≤ (s.rs a).toNat → exec (.trinfo d a) s = .next (s.takeTrap .illegal (s.rs a) 4))) ∧
  (∀ s : State, s.isFw = false →
    (s.hart.task.transit = none → exec .trdone s = .next (s.takeTrap .illegal (tvalWord .trdone) 4)) ∧
    (∀ x, s.hart.task.transit = some x →
      (x.done = true → exec .trdone s = .next (s.advance 4)) ∧
      (x.done = false → s.slotReads s.here x.slot x.fill = false → exec .trdone s = .next ((Claims.slotGivenUp s x).advance 4)) ∧
      (x.done = false → s.slotReads s.here x.slot x.fill = true → exec .trdone s = .next s.block))) ∧
  (∀ (s : State) (d a : SReg) (i fill : Nat) (back : Bool) (m : MSlot), s.isFw = false → i < 8 → fill < 256 →
    s.rs a = BitVec.ofNat 64 (i + fill * 2 ^ 8 + if back then 2 ^ 16 else 0) → m = s.mslot s.here.die i →
    (6 ≤ i ∨ s.ownsDie s.hart.task s.here.die = false → exec (.trhold d a) s = .next (s.takeTrap .accessDenied (s.rs a) 4)) ∧
    (i < 6 → s.ownsDie s.hart.task s.here.die = true →
      ((m.state ≠ 2 ∧ m.state ≠ 3) ∨ m.fill % 256 ≠ fill ∨ m.deadline < s.polestar → exec (.trhold d a) s = .next ((s.ws d 1).advance 4)) ∧
      (m.state = 2 ∨ m.state = 3 → m.fill % 256 = fill → s.polestar ≤ m.deadline →
        (back = false → m.holds < 16 → exec (.trhold d a) s = .next (((s.modSlot s.here.die i fun m =>
          { m with holds := m.holds + 1, state := 3 }).ws d 0).advance 4)) ∧
        (back = false → 16 ≤ m.holds → exec (.trhold d a) s = .next ((s.ws d 2).advance 4)) ∧
        (back = true → m.holds = 0 → exec (.trhold d a) s = .next ((s.ws d 3).advance 4)) ∧
        (back = true → 0 < m.holds → exec (.trhold d a) s = .next (((s.modSlot s.here.die i fun m =>
          { m with holds := m.holds - 1, state := if m.holds = 1 then 2 else 3 }).ws d 0).advance 4))))) ∧
  (∀ (s : State) (d a : SReg), s.isFw = false →
    (2 ^ 32 ≤ (s.rs a).toNat → exec (.trqry d a) s = .next (s.takeTrap .illegal (s.rs a) 4)) ∧
    ((s.rs a).toNat < 2 ^ 32 →
      ((s.dieAt s.here.die).ephemeris.find? (s.rs a).toNat = none →
        exec (.trqry d a) s = .next ((s.ws d (BitVec.allOnes 64)).advance 4)) ∧
      (∀ x, (s.dieAt s.here.die).ephemeris.find? (s.rs a).toNat = some x → exec (.trqry d a) s = .next ((s.ws d (BitVec.ofNat 64
        (x % 2 ^ 63 + if (s.dieAt s.here.die).missing.contains (s.rs a).toNat then 2 ^ 63 else 0))).advance 4))))

/-- On an entry of the issuing die in the partition's share: TRSKIP makes a READY entry SKIP and writes the state it
found. TRNEXT with a good word writes 1 for an entry that is not WAITING; else it sets next tag, rows and input, the
entry becoming READY when there is no input or it is published, joins the input's wait list, and writes 0; a stale
input traps. SEQST READ writes the selected word, START, STOP and FREE act from the states that R309 allows with 0 and
else only write 1, FREE applying a parked signal first, and ALLOC makes the lowest FREE entry STOPPED with fresh
fields and writes its id, or all ones when none is free. An entry outside the share traps with ACCESS_DENIED and the
operand. (R300, R309, R310, R311, R312) -/
def Obligations.SequenceInstructionsComplete : Prop :=
  ∀ (s : State) (d a b : SReg), s.isFw = false → ∀ x i, x = (s.rs a).toNat → i = x % 2 ^ 10 →
    (∀ k e, seqRef i (s.rs a) s = .ok k s → e = s.seqAt k →
      (e.state = 1 → exec (.trskip d a) s = .next (((s.setSeq k { e with state := 2 }).ws d 1).advance 4)) ∧
      (e.state ≠ 1 → exec (.trskip d a) s = .next ((s.ws d (BitVec.ofNat 64 e.state)).advance 4)) ∧
      (∀ (rows tag w : Nat) (noin : Bool), 1 ≤ rows → rows ≤ 64 → tag < 2 ^ 16 →
        x = i + tag * 2 ^ 16 + rows * 2 ^ 32 + (if noin then 2 ^ 39 else 0) → w = (s.rs b).toNat → w < 2 ^ 32 →
        (e.state ≠ 0 → (noin = true → w = 0) → exec (.trnext d a b) s = .next ((s.ws d 1).advance 4)) ∧
        (e.state = 0 → noin = true → w = 0 → exec (.trnext d a b) s = .next (((s.setSeq k { e with
          nextTag := tag, rows := rows, input := none, state := 1, ready := s.polestar }).ws d 0).advance 4)) ∧
        (e.state = 0 → noin = false → s.staleWait s.part w = true → exec (.trnext d a b) s = .next (s.takeTrap .tagStale (s.rs b) 4)) ∧
        (e.state = 0 → noin = false → s.staleWait s.part w = false → ∀ u, u = s.joinTag s.part w s.here.die (.seq k) →
          (s.published s.part w = true → exec (.trnext d a b) s = .next (((u.setSeq k { e with
            nextTag := tag, rows := rows, input := some w, state := 1, ready := s.polestar }).ws d 0).advance 4)) ∧
          (s.published s.part w = false → exec (.trnext d a b) s = .next (((u.setSeq k { e with
            nextTag := tag, rows := rows, input := some w }).ws d 0).advance 4)))) ∧
      (x < 2 ^ 10 →
        ((s.rs b).toNat ≤ 11 → exec (.seqst d a b) s = .next ((s.ws d (s.seqWord s.part e (s.rs b).toNat)).advance 4)) ∧
        (11 < (s.rs b).toNat → exec (.seqst d a b) s = .next (s.takeTrap .accessDenied (s.rs b) 4))) ∧
      (x = i + 2 * 2 ^ 16 → exec (.seqst d a b) s = .next ((if e.state = 3 then
        (s.setSeq k { e with state := 0, input := none }).ws d 0 else s.ws d 1).advance 4)) ∧
      (x = i + 3 * 2 ^ 16 → exec (.seqst d a b) s = .next ((if e.state ≤ 2 then
        (s.setSeq k { e with state := 3 }).ws d 0 else s.ws d 1).advance 4)) ∧
      (x = i + 4 * 2 ^ 16 →
        (e.state ≠ 3 → exec (.seqst d a b) s = .next ((s.ws d 1).advance 4)) ∧
        (e.state = 3 → ∀ u, u = e.parked.elim s s.taskSignal →
          exec (.seqst d a b) s = .next (((u.setSeq k { e with state := 7, parked := none }).ws d 0).advance 4)))) ∧
    (seqRef i (s.rs a) s = .trap .accessDenied (s.rs a) s → exec (.trskip d a) s = .next (s.takeTrap .accessDenied (s.rs a) 4) ∧
      (x < 2 ^ 10 → exec (.seqst d a b) s = .next (s.takeTrap .accessDenied (s.rs a) 4))) ∧
    (x = i + 2 ^ 16 →
      (s.freeSeq s.part s.here.die = none → exec (.seqst d a b) s = .next ((s.ws d (BitVec.allOnes 64)).advance 4)) ∧
      (∀ n k, s.freeSeq s.part s.here.die = some n → k = seqKey s.here.die n → exec (.seqst d a b) s = .next (((s.setSeq k { s.seqAt k with
        state := 3, image := (s.rs b).toNat % 2 ^ 16, rows := 1, pos := 0, hist := [], input := none, parked := none, part := s.part,
        watch := (s.seqAt k).watch.map fun w => { w with armed := false } }).ws d (BitVec.ofNat 64 n)).advance 4))) ∧
    (2 ^ 20 ≤ x ∨ bitsOf x 15 10 ≠ 0 ∨ 5 ≤ bitsOf x 19 16 → exec (.seqst d a b) s = .next (s.takeTrap .illegal (s.rs a) 4))

/-- Of a tag word below 2^32: TAGDECL of 1 to 4,096 handles, all FREE with the generation after their last retired
one, declares each and writes how many spilled on its die; the first handle that may not be declared traps with
TAG_STALE and its word. TAGPUB and TAGRET of a handle that is not DECLARED or PUBLISHED with the generation trap with
TAG_STALE; TAGPUB is a release at the tag's scope and, unless the tag is PUBLISHED, makes it so and wakes its waiters;
TAGRET retires it. TAGWAIT, which releases too when its order is ar, joins the handle's wait list; not on the spill
record, it traps with TAG_STALE when stale, goes on when published and else waits; on the spill record it waits.
TAGQRY writes the state word of R315. A word of 2^32 or more traps. (R260, R313, R314, R315, R389) -/
def Obligations.TagInstructionsComplete : Prop :=
  ∀ (s : State) (d a b : SReg) (sc : BitVec 3) (r : BitVec 2), s.isFw = false → ∀ w, w = (s.rs a).toNat →
    (2 ^ 32 ≤ w → exec (.tagpub a r) s = .next (s.takeTrap .illegal (s.rs a) 4) ∧ exec (.tagwait a r) s = .next (s.takeTrap .illegal (s.rs a) 4) ∧
      exec (.tagret a) s = .next (s.takeTrap .illegal (s.rs a) 4) ∧ exec (.tagqry d a) s = .next (s.takeTrap .illegal (s.rs a) 4)) ∧
    (∀ n, n = (s.rs b).toNat →
      (n = 0 ∨ 4096 < n ∨ 65536 < w % 2 ^ 16 + n → exec (.tagdecl d a b sc) s = .next (s.takeTrap .illegal (s.rs b) 4)) ∧
      (1 ≤ n → n ≤ 4096 → w % 2 ^ 16 + n ≤ 65536 → w < 2 ^ 32 →
        ∀ may : Nat → Prop, (∀ i, may i ↔ (s.tagRec s.part (w + i)).state = 0 ∧ w / 2 ^ 16 = ((s.tagRec s.part (w + i)).retired + 1) % 2 ^ 16) →
        ((∀ i, i < n → may i) → ∀ u, u = (List.range n).foldl (fun t i => t.declareTag s.part (w + i) sc.toNat) s →
          exec (.tagdecl d a b sc) s = .next ((u.ws d (BitVec.ofNat 64
            ((List.range n).filter fun i => (u.tagRec s.part (w + i)).spilled.contains s.here.die).length)).advance 4)) ∧
        (∀ i, i < n → (∀ j, j < i → may j) → ¬ may i →
          exec (.tagdecl d a b sc) s = .next (s.takeTrap .tagStale (BitVec.ofNat 64 (w + i)) 4)))) ∧
    (w < 2 ^ 32 → ∀ g : TagRec, g = s.tagRec s.part w →
      (((g.state ≠ 1 ∧ g.state ≠ 2) ∨ g.gen ≠ w / 2 ^ 16) → exec (.tagpub a r) s = .next (s.takeTrap .tagStale (s.rs a) 4) ∧
        exec (.tagret a) s = .next (s.takeTrap .tagStale (s.rs a) 4)) ∧
      ((g.state = 1 ∨ g.state = 2) → g.gen = w / 2 ^ 16 → exec (.tagret a) s = .next ((s.retireTag s.part w).advance 4) ∧
        ∀ u, u = ((if r = 3 then s.bindLoads g.scope else s).release g.scope).effect →
        (g.state = 2 → exec (.tagpub a r) s = .next (u.advance 4)) ∧
        (g.state = 1 → exec (.tagpub a r) s = .next (((((u.spillNotice u.part w).setTag u.part w
          { g with state := 2 }).writeSpill u.part w).wakeTag u.part w).advance 4))) ∧
      exec (.tagqry d a) s = .next ((s.ws d (BitVec.ofNat 64 (g.state + (if g.spilled.contains s.here.die then 4 else 0) + g.scope * 2 ^ 4 +
        (if g.state = 0 then g.retired else g.gen) * 2 ^ 16))).advance 4) ∧
      (∀ u v, u = (if r = 3 then s.release g.scope else s).joinTag s.part w s.here.die (.slot s.here.key) →
        v = ({ u with shared := { u.shared with tagWaiters := (u.shared.tagWaiters.filter fun x => x.2 ≠ u.here.key) ++
          [(tagWaitKey u.part w, u.here.key)] } } : State).blockOn (.tag u.part w) →
        (v.isLate u.part w (.slot v.here.key) = true → exec (.tagwait a r) s = .next v) ∧
        (v.isLate u.part w (.slot v.here.key) = false →
          (v.staleWait u.part w = true → exec (.tagwait a r) s = .next (v.trapAt v.here .tagStale (s.rs a) 4)) ∧
          (v.staleWait u.part w = false → v.published u.part w = true → exec (.tagwait a r) s = .next (v.complete v.here 0 0)) ∧
          (v.staleWait u.part w = false → v.published u.part w = false → exec (.tagwait a r) s = .next v))))

/-- TKCOMMIT with room in the sequence-trap queue, a good record and an entry of the partition commits its tokens and
writes the status word; TKPUT with room in the mailbox puts its record behind the older accesses, for a release at pkg
scope, from where it enters the mailbox stamped with the tick, and waits without room; COLL with a card whose
references and arrays pass issues one command to its context's engine; WPSET, WPCLR and WPRD write and read a watch
slot, with status 1 on a FREE or TRAPPED entry. (R300, R316, R317, R319, R320, R374) -/
def Obligations.GenerationInstructionsComplete : Prop :=
  (∀ (s u v : State) (d b : SReg) (head r : List Byte) (sig : Option Nat) (k : Nat), s.isFw = false → s.myCore.seqTraps.length < 16 →
    s.readRecord (s.rs b).toNat 20 16 = .ok head u → ∀ n, n = field head 2 1 →
    transitRecord (tvalWord (.tkcommit d b)) (s.rs b).toNat (16 + 4 * n) 16 (fun r => commitFields r ++ tokenFields n r) u = .ok r v →
    commitCounter r v = .ok sig v → seqRef (field r 0 2) (BitVec.ofNat 64 (field r 0 2)) v = .ok k v →
    ∀ (st : Word) (x : State), v.commit k (field r 0 2) ((List.range n).map fun i => field r (16 + 4 * i) 4)
      (sig.map fun c => ⟨c, field r 8 4⟩) = (st, x) → exec (.tkcommit d b) s = .next ((x.effect.ws d st).advance 4)) ∧
  (∀ (s : State) (d b : SReg), s.isFw = false → 16 ≤ s.myCore.seqTraps.length → exec (.tkcommit d b) s = .next s.block) ∧
  (∀ (s : State) (a b : SReg) (k : Nat), s.isFw = false → (s.rs a).toNat < 2 ^ 10 → (s.rs b).toNat % 2 ^ 32 ≠ 0xFFFFFFFF →
    seqRef (s.rs a).toNat (s.rs a) s = .ok k s →
    ∀ m : TokRec, m = ⟨s.part, (s.rs a).toNat + s.here.die * 2 ^ 10, (s.rs b).toNat % 2 ^ 32, 0⟩ →
    (s.shared.mailbox.length + s.tokensDue < 4096 → exec (.tkput a b) s =
      .next ((s.enqueue (.act s.hart.issued s.here.key 2 (.token m))).effect.advance 4)) ∧
    (4096 ≤ s.shared.mailbox.length + s.tokensDue → exec (.tkput a b) s = .next s.block) ∧
    ∀ (u : State) (c : CtxId), (u.accept c (.token m)).shared.mailbox = u.shared.mailbox ++ [{ m with stamp := u.polestar }]) ∧
  (∀ (s u : State) (b : SReg) (c : List Byte) (wait sig : Option Nat), s.isFw = false →
    transitRecord (tvalWord (.coll b)) (s.rs b).toNat 64 64 collFields s = .ok c u →
    cardCounter (clFlag c 0) (field c 20 2) u = .ok wait u → cardCounter (clFlag c 1) (field c 26 2) u = .ok sig u →
    u.allocated u.part (6144 + clGroup c) = true → collReply c u = .ok () u →
    collArray (field c 8 4) (clCount c * clElem c) (clElem c) u = .ok () u →
    (clFlag c 2 = true ∨ collArray (field c 12 4) (clCount c * clElem c) (clElem c) u = .ok () u) → ∃ (m : CollCmd) (t : State),
    exec (.coll b) s = .next t ∧ t.hart.pc = u.hart.pc + 4 ∧ t.collsOf u.here.key = u.collsOf u.here.key ++ [m] ∧ m.card = c ∧
      m.taken = false ∧ m.contributed = false ∧ m.result = none ∧ m.task = u.hart.task.ident ∧ t.mem = u.mem) ∧
  (∀ (s : State) (d a b : SReg) (k : Nat), s.isFw = false → (s.rs a).toNat < 2 ^ 20 → bitsOf (s.rs a).toNat 15 10 = 0 →
    bitsOf (s.rs a).toNat 19 16 ≤ 9 →
    (∀ (u : State) (r : List Byte), seqRef ((s.rs a).toNat % 2 ^ 10) (s.rs a) u = .ok k u →
      transitRecord (tvalWord (.wpset d a b)) (s.rs b).toNat 80 16 (watchFields (bitsOf (s.rs a).toNat 19 16)) s = .ok r u →
      ((u.seqAt k).state = 7 ∨ (u.seqAt k).state = 4 → exec (.wpset d a b) s = .next ((u.ws d 1).advance 4)) ∧
      ((u.seqAt k).state ≠ 7 → (u.seqAt k).state ≠ 4 → exec (.wpset d a b) s = .next (((u.setSeq k
        ((u.seqAt k).modWatch (bitsOf (s.rs a).toNat 19 16) fun _ => watchOf r)).ws d 0).advance 4))) ∧
    (seqRef ((s.rs a).toNat % 2 ^ 10) (s.rs a) s = .ok k s →
      ((s.seqAt k).state = 7 ∨ (s.seqAt k).state = 4 → exec (.wpclr d a) s = .next ((s.ws d 1).advance 4)) ∧
      ((s.seqAt k).state ≠ 7 → (s.seqAt k).state ≠ 4 → exec (.wpclr d a) s = .next (((s.setSeq k ((s.seqAt k).modWatch
        (bitsOf (s.rs a).toNat 19 16) fun w => { w with armed := false })).ws d 0).advance 4)) ∧
      ((s.rs b).toNat ≤ 17 → exec (.wprd d a b) s = .next ((s.ws d (BitVec.ofNat 64 (((s.seqAt k).slot
        (bitsOf (s.rs a).toNat 19 16)).word (bitsOf (s.rs a).toNat 19 16) (s.rs b).toNat))).advance 4))))

namespace Sys2Proof.Claims

/-- A floating-point result in every unmasked lane, from the lanes of two sources and the old lane (R182, R183). -/
def fpLanes (s : State) (d a b : VReg) (k : KReg) (nf : Bool) (g : Fmt → Nat → Nat → Nat → Nat → Nat × Flags5) : State :=
  s.elementwise (fmtOf s.vt).w d k nf fun i => g (fmtOf s.vt) s.mode (lane (s.rv a) (fmtOf s.vt).w i)
    (lane (s.rv b) (fmtOf s.vt).w i) (lane (s.rv d) (fmtOf s.vt).w i)

/-- An integer or bitwise result in every unmasked lane, without flags (R187, R188). -/
def intLanes (s : State) (d a b : VReg) (k : KReg) (g : Nat → Nat → Nat → Nat) : State :=
  s.elementwise (typeBits s.vt) d k true fun i =>
    (g (typeBits s.vt) (lane (s.rv a) (typeBits s.vt) i) (lane (s.rv b) (typeBits s.vt) i), 0)

/-- A floating-point compare with its NaN rules (R186). -/
def fpCompare (s : State) (d : KReg) (a b : VReg) (k : KReg) (n : BitVec 1) (rel : Fmt → Nat → Nat → Bool)
    (onNan quiet : Bool) : State :=
  s.compare (fmtOf s.vt).w d k (n == 1) fun i =>
    let u := (fmtOf s.vt).decode (lane (s.rv a) (fmtOf s.vt).w i)
    let v := (fmtOf s.vt).decode (lane (s.rv b) (fmtOf s.vt).w i)
    if u.isNan || v.isNan then (onNan, if quiet then fNV else u.snan ||| v.snan)
    else (rel (fmtOf s.vt) (lane (s.rv a) (fmtOf s.vt).w i) (lane (s.rv b) (fmtOf s.vt).w i), 0)

/-- An integer compare (R186). -/
def intCompare (s : State) (d : KReg) (a b : VReg) (k : KReg) (rel : Nat → Nat → Nat → Bool) : State :=
  s.compare (typeBits s.vt) d k true fun i =>
    (rel (typeBits s.vt) (lane (s.rv a) (typeBits s.vt) i) (lane (s.rv b) (typeBits s.vt) i), 0)

/-- A lane movement under a governing mask (R202). -/
def moveLanes (s : State) (d : VReg) (k : KReg) (g : Nat → Nat → Nat) : State :=
  s.wv d (masked (s.rk k) (s.rv d) (typeBits s.vt) (g (typeBits s.vt)))

/-- A reduction's result and flags (R204). -/
def reduced (s : State) (d : VReg) (nf : Bool) (r : Nat × Flags5) : State :=
  (s.accrue nf (flagWord 0 r.2)).wv d (BitVec.ofNat 2048 r.1)

/-- The element types that a vector instruction allows and the state it makes: majors 0x18 to 0x1C, 0x1E to 0x20, 0x22
and 0x23, the instructions of which every other lane comes from these tables (R179–R188, R197–R216). -/
def vecOp : Instr → Option ((Nat → Bool) × (State → State))
  | .vfadd d a b k n => some (isWideFp, fun s => fpLanes s d a b k (n == 1) fun f m x y _ => f.addV m (f.decode x) (f.decode y))
  | .vfsub d a b k n => some (isWideFp, fun s => fpLanes s d a b k (n == 1) fun f m x y _ => f.addV m (f.decode x) ((f.decode y).turn true))
  | .vfmul d a b k n => some (isWideFp, fun s => fpLanes s d a b k (n == 1) fun f m x y _ => f.mulV m (f.decode x) (f.decode y))
  | .vfma d a b k n => some (isWideFp, fun s => fpLanes s d a b k (n == 1) fun f m x y z => f.fmaV m false false (f.decode x) (f.decode y) (f.decode z))
  | .vfms d a b k n => some (isWideFp, fun s => fpLanes s d a b k (n == 1) fun f m x y z => f.fmaV m false true (f.decode x) (f.decode y) (f.decode z))
  | .vfnma d a b k n => some (isWideFp, fun s => fpLanes s d a b k (n == 1) fun f m x y z => f.fmaV m true false (f.decode x) (f.decode y) (f.decode z))
  | .vfnms d a b k n => some (isWideFp, fun s => fpLanes s d a b k (n == 1) fun f m x y z => f.fmaV m true true (f.decode x) (f.decode y) (f.decode z))
  | .vfmin d a b k n => some (isWideFp, fun s => fpLanes s d a b k (n == 1) fun f _ x y _ => f.minmax false false x y)
  | .vfmax d a b k n => some (isWideFp, fun s => fpLanes s d a b k (n == 1) fun f _ x y _ => f.minmax true false x y)
  | .vfminm d a b k n => some (isWideFp, fun s => fpLanes s d a b k (n == 1) fun f _ x y _ => f.minmax false true x y)
  | .vfmaxm d a b k n => some (isWideFp, fun s => fpLanes s d a b k (n == 1) fun f _ x y _ => f.minmax true true x y)
  | .vfdiv d a b k n => some (isWideFp, fun s => fpLanes s d a b k (n == 1) fun f m x y _ => f.divV m (f.decode x) (f.decode y))
  | .vfabs d a k => some (isWideFp, fun s => fpLanes s d a a k true fun f _ x _ _ => (f.mag x, 0))
  | .vfneg d a k => some (isWideFp, fun s => fpLanes s d a a k true fun f _ x _ _ => (f.withSign (!f.sign x) (f.mag x), 0))
  | .vfsgnj d a b k => some (isWideFp, fun s => fpLanes s d a b k true fun f _ x y _ => (f.withSign (f.sign y) (f.mag x), 0))
  | .vfsqrt d a k n => some (isWideFp, fun s => fpLanes s d a a k (n == 1) fun f m x _ _ => f.sqrtV m (f.decode x))
  | .vfrcp d a k n => some (isWideFp, fun s => fpLanes s d a a k (n == 1) fun f m x _ _ => f.rcpV m (f.decode x))
  | .vfrsq d a k n => some (isWideFp, fun s => fpLanes s d a a k (n == 1) fun f m x _ _ => f.rsqV m (f.decode x))
  | .vfexp2 d a k n => some (isWideFp, fun s => fpLanes s d a a k (n == 1) fun f m x _ _ => f.exp2V m (f.decode x))
  | .vflog2 d a k n => some (isWideFp, fun s => fpLanes s d a a k (n == 1) fun f m x _ _ => f.log2V m (f.decode x))
  | .vftanh d a k n => some (isWideFp, fun s => fpLanes s d a a k (n == 1) fun f m x _ _ => f.tanhV m (f.decode x))
  | .vfceq d a b k n => some (isWideFp, fun s => fpCompare s d a b k n (fun f x y => f.eq x y) false false)
  | .vfcne d a b k n => some (isWideFp, fun s => fpCompare s d a b k n (fun f x y => !f.eq x y) true false)
  | .vfclt d a b k n => some (isWideFp, fun s => fpCompare s d a b k n (fun f x y => f.lt x y) false true)
  | .vfcle d a b k n => some (isWideFp, fun s => fpCompare s d a b k n (fun f x y => (f.lt x y || f.eq x y)) false true)
  | .vfcun d a b k n => some (isWideFp, fun s => fpCompare s d a b k n (fun _ _ _ => false) true false)
  | .vceq d a b k => some (isIntType, fun s => intCompare s d a b k fun _ x y => decide (x = y))
  | .vcne d a b k => some (isIntType, fun s => intCompare s d a b k fun _ x y => decide (x ≠ y))
  | .vclt d a b k => some (isIntType, fun s => intCompare s d a b k fun w x y => decide (sgn x w < sgn y w))
  | .vcle d a b k => some (isIntType, fun s => intCompare s d a b k fun w x y => decide (sgn x w ≤ sgn y w))
  | .vcltu d a b k => some (isIntType, fun s => intCompare s d a b k fun _ x y => decide (x < y))
  | .vcleu d a b k => some (isIntType, fun s => intCompare s d a b k fun _ x y => decide (x ≤ y))
  | .vadd d a b k => some (isIntType, fun s => intLanes s d a b k fun w x y => (x + y) % 2 ^ w)
  | .vsub d a b k => some (isIntType, fun s => intLanes s d a b k fun w x y => wrapLane w ((x : Int) - y))
  | .vadds d a b k => some (isIntType, fun s => intLanes s d a b k fun w x y => clampLane w (sgn x w + sgn y w))
  | .vsubs d a b k => some (isIntType, fun s => intLanes s d a b k fun w x y => clampLane w (sgn x w - sgn y w))
  | .vmul d a b k => some (isIntType, fun s => intLanes s d a b k fun w x y => x * y % 2 ^ w)
  | .vmulh d a b k => some (isIntType, fun s => intLanes s d a b k fun w x y => wrapLane w (sgn x w * sgn y w / (2 ^ w : Nat)))
  | .vmulhu d a b k => some (isIntType, fun s => intLanes s d a b k fun w x y => x * y / 2 ^ w)
  | .vmin d a b k => some (isIntType, fun s => intLanes s d a b k fun w x y => if sgn y w < sgn x w then y else x)
  | .vmax d a b k => some (isIntType, fun s => intLanes s d a b k fun w x y => if sgn x w < sgn y w then y else x)
  | .vminu d a b k => some (isIntType, fun s => intLanes s d a b k fun _ x y => Nat.min x y)
  | .vmaxu d a b k => some (isIntType, fun s => intLanes s d a b k fun _ x y => Nat.max x y)
  | .vabs d a k => some (isIntType, fun s => intLanes s d a a k fun w x _ => (sgn x w).natAbs % 2 ^ w)
  | .vand d a b k => some (anyType, fun s => intLanes s d a b k fun _ x y => x &&& y)
  | .vor d a b k => some (anyType, fun s => intLanes s d a b k fun _ x y => x ||| y)
  | .vxor d a b k => some (anyType, fun s => intLanes s d a b k fun _ x y => x ^^^ y)
  | .vandn d a b k => some (anyType, fun s => intLanes s d a b k fun w x y => x &&& (y ^^^ (2 ^ w - 1)))
  | .vnot d a k => some (anyType, fun s => intLanes s d a a k fun w x _ => x ^^^ (2 ^ w - 1))
  | .vsll d a b k => some (isIntType, fun s => intLanes s d a b k fun w x y => x * 2 ^ (y % w) % 2 ^ w)
  | .vsrl d a b k => some (isIntType, fun s => intLanes s d a b k fun w x y => x / 2 ^ (y % w))
  | .vsra d a b k => some (isIntType, fun s => intLanes s d a b k fun w x y => wrapLane w (sgn x w / (2 ^ (y % w) : Nat)))
  | .vpopc d a k => some (isIntType, fun s => intLanes s d a a k fun w x _ => laneOnes w x)
  | .vclz d a k => some (isIntType, fun s => intLanes s d a a k fun w x _ => laneClz w x)
  | .vperm d a b k => some (anyType, fun s => moveLanes s d k fun w i => lane (s.rv a) w (lane (s.rv b) w i % (2048 / w)))
  | .vslideup d a b k => some (anyType, fun s => moveLanes s d k fun w i => if slideAmount (s.rv b) w ≤ i then lane (s.rv a) w (i - slideAmount (s.rv b) w) else lane (s.rv d) w i)
  | .vslidedn d a b k => some (anyType, fun s => moveLanes s d k fun w i => if i + slideAmount (s.rv b) w < 2048 / w then lane (s.rv a) w (i + slideAmount (s.rv b) w) else lane (s.rv d) w i)
  | .vziplo d a b k => some (anyType, fun s => moveLanes s d k fun w i => lane (if i % 2 = 0 then s.rv a else s.rv b) w (i / 2))
  | .vziphi d a b k => some (anyType, fun s => moveLanes s d k fun w i => lane (if i % 2 = 0 then s.rv a else s.rv b) w (2048 / w / 2 + i / 2))
  | .vrev d a k => some (anyType, fun s => moveLanes s d k fun w i => lane (s.rv a) w (2048 / w - 1 - i))
  | .vmov d a k => some (anyType, fun s => moveLanes s d k fun w i => lane (s.rv a) w i)
  | .vmve d a k => some (anyType, fun s => moveLanes s d k fun _ _ => (s.rs a).toNat)
  | .vsel d a b k => some (anyType, fun s => s.wv d (masked (s.rk k) (s.rv b) (typeBits s.vt) (lane (s.rv a) (typeBits s.vt))))
  | .vcompr d a k => some (anyType, fun s => s.wv d (vecOf (typeBits s.vt) ((setLanes (s.rk k) (2048 / typeBits s.vt)).map (lane (s.rv a) (typeBits s.vt)) ++
      (upFrom (setLanes (s.rk k) (2048 / typeBits s.vt)).length
        (2048 / typeBits s.vt - (setLanes (s.rk k) (2048 / typeBits s.vt)).length)).map (lane (s.rv d) (typeBits s.vt)))))
  | .vexpnd d a k => some (anyType, fun s => s.wv d (vecOf (typeBits s.vt) (expandLanes (s.rk k) (s.rv a) (s.rv d) (typeBits s.vt) (2048 / typeBits s.vt) 0 0)))
  | .vid d k => some (reducible, fun s => moveLanes s d k fun _ i => if isIntType s.vt then i else ((fmtOf s.vt).round 0 false i 0 false).1)
  | .vins d a b => some (anyType, fun s => s.wv d (vecOf (typeBits s.vt) ((List.range (2048 / typeBits s.vt)).map fun i =>
      if i = (s.rs b).toNat % (2048 / typeBits s.vt) then (s.rs a).toNat else lane (s.rv d) (typeBits s.vt) i)))
  | .vrng d a k => some (anyType, fun s => s.wv d (masked (s.rk k) (s.rv d) 32 (rngWord (s.rs a) (s.rs (a + 1)) (s.rs (a + 2)))))
  | .vrsum d a k n => some (reducible, fun s => reduced s d (n == 1) (treeOf (sumLane s.vt) (takenLanes (s.rk k) (s.rv a) (typeBits s.vt) (sumIdentity s.vt))))
  | .vrmax d a k n => some (reducible, fun s => reduced s d (n == 1) ((rankWinner s.vt true (s.rk k) (s.rv a)).1, (rankWinner s.vt true (s.rk k) (s.rv a)).2.2))
  | .vrmin d a k n => some (reducible, fun s => reduced s d (n == 1) ((rankWinner s.vt false (s.rk k) (s.rv a)).1, (rankWinner s.vt false (s.rk k) (s.rv a)).2.2))
  | .vrmaxi d a k n => some (reducible, fun s => reduced s d (n == 1) ((rankWinner s.vt true (s.rk k) (s.rv a)).1 + (rankWinner s.vt true (s.rk k) (s.rv a)).2.1 * 2 ^ 32, (rankWinner s.vt true (s.rk k) (s.rv a)).2.2))
  | .vrmini d a k n => some (reducible, fun s => reduced s d (n == 1) ((rankWinner s.vt false (s.rk k) (s.rv a)).1 + (rankWinner s.vt false (s.rk k) (s.rv a)).2.1 * 2 ^ 32, (rankWinner s.vt false (s.rk k) (s.rv a)).2.2))
  | .vrand d a k => some (anyType, fun s => reduced s d false ((takenLanes (s.rk k) (s.rv a) (typeBits s.vt) (2 ^ typeBits s.vt - 1)).foldl (· &&& ·) (2 ^ typeBits s.vt - 1), 0))
  | .vror d a k => some (anyType, fun s => reduced s d false ((takenLanes (s.rk k) (s.rv a) (typeBits s.vt) 0).foldl (· ||| ·) 0, 0))
  | .vbpt d a => some (anyType, fun s => s.wv d (vecOf 1 ((List.range 2048).map fun j =>
      lane (s.rv a) (typeBits s.vt) (j % (2048 / typeBits s.vt)) / 2 ^ (j / (2048 / typeBits s.vt)))))
  | .vbpu d a => some (anyType, fun s => s.wv d (vecOf 1 ((List.range 2048).map fun j =>
      lane (s.rv a) 1 (j % typeBits s.vt * (2048 / typeBits s.vt) + j / typeBits s.vt))))
  | .kand d a b => some (anyType, fun s => s.wk d (s.rk a &&& s.rk b))
  | .kor d a b => some (anyType, fun s => s.wk d (s.rk a ||| s.rk b))
  | .kxor d a b => some (anyType, fun s => s.wk d (s.rk a ^^^ s.rk b))
  | .knot d a => some (anyType, fun s => s.wk d (~~~s.rk a))
  | .kmov d a => some (anyType, fun s => s.wk d (s.rk a))
  | .kset d a => some (anyType, fun s => s.wk d (BitVec.ofNat 512 (2 ^ Nat.min (s.rs a).toNat 512 - 1)))
  | .kpop d a => some (anyType, fun s => s.ws d (BitVec.ofNat 64 (setLanes (s.rk a) (2048 / typeBits s.vt)).length))
  | .kfirst d a => some (anyType, fun s => s.ws d (match setLanes (s.rk a) (2048 / typeBits s.vt) with
      | i :: _ => BitVec.ofNat 64 i
      | [] => BitVec.allOnes 64))
  | .vsett sf m t => some (anyType, fun s => s.mod fun h => { h with vec := { h.vec with vtype := t, vrm := if sf = 1 then m else h.vec.vrm } })
  | .vmvs d a b => some (anyType, fun s => s.ws d (if isIntType s.vt then
        BitVec.ofInt 64 (sextInt (lane (s.rv a) (typeBits s.vt) ((s.rs b).toNat % (2048 / typeBits s.vt))) (typeBits s.vt))
      else BitVec.ofNat 64 (lane (s.rv a) (typeBits s.vt) ((s.rs b).toNat % (2048 / typeBits s.vt)))))
  | .vflgrd d => some (anyType, fun s => s.wv d (s.hart.vec.vflg.setWidth 2048))
  | .vflgclr => some (anyType, fun s => s.mod fun h => { h with vec := { h.vec with vflg := 0 } })
  | _ => none

/-- The instructions of majors 0x18 to 0x20 and 0x23 that change a vector register by a longer rule: their destination,
mask and whether flags are discarded (R189–R196, R206, R207, R210, R211, R216). -/
def vecRule : Instr → Option ((Nat → Bool) × VReg × Option KReg)
  | .vcvt d _ t _ _ _ | .vcvtsat d _ t _ _ _ => some (fun v => v ≠ t.toNat, d, none)
  | .vqfp4 d _ _ _ | .vqfp8 d _ _ _ _ _ | .vblksc d _ _ _ | .vbndsc d _ _ _ | .vgumb d _ _ _ _ => some (isWideFp, d, none)
  | .vdqfp4 d _ _ _ _ _ => some (fun v => v = 5, d, none)
  | .vscans d _ _ _ | .vtopk d _ _ _ _ => some (reducible, d, none)
  | .vspc d _ _ k => some (anyType, d, some k)
  | .vspx d _ _ _ _ => some (anyType, d, none)
  | _ => none

end Sys2Proof.Claims

/-- Issued by a task with an allowed element type, every instruction of the arithmetic, compare, bitwise, movement,
reduction, bit-plane, mask and element families answers the state its rule makes; the conversions, scans, ranking,
sparsity and noise forms answer a state that differs in the flags, one vector result and for VSPC the mask alone; in
another type each traps with ILLEGAL_INSTRUCTION and its word. (R180, R182, R183, R184, R186, R187, R188, R202, R204,
R213, R214) -/
def Obligations.VectorInstructionsComplete : Prop :=
  (∀ (i : Instr) (allowed : Nat → Bool) (f : State → State), Claims.vecOp i = some (allowed, f) → ∀ s : State, s.isFw = false →
    (allowed s.vt = true → exec i s = .next ((f s).advance 4)) ∧
    (allowed s.vt = false → exec i s = .next (s.takeTrap .illegal (tvalWord i) 4))) ∧
  (∀ (i : Instr) (allowed : Nat → Bool) (d : VReg) (km : Option KReg), Claims.vecRule i = some (allowed, d, km) →
    ∀ s : State, s.isFw = false → i.wellFormed = true →
    (allowed s.vt = true → ∃ (nf : Bool) (fl : BitVec 320) (x : VBits) (m : KBits), exec i s =
      .next ((match km with
        | none => (s.accrue nf fl).wv d x
        | some k => (s.wv d x).wk k m).advance 4)) ∧
    (allowed s.vt = false → exec i s = .next (s.takeTrap .illegal (tvalWord i) 4))) ∧
  (∀ (s : State) (d a : VReg) (t : BitVec 4) (r : BitVec 2) (k : KReg) (n : BitVec 1), s.isFw = false → s.vt ≠ t.toNat →
    exec (.vcvt d a t r k n) s = .next ((s.convertTo (typeBits s.vt) (typeBits t.toNat) d k (n == 1) 0 fun i =>
      convert s.vt t.toNat (s.rsel r) false (lane (s.rv a) (typeBits s.vt) i)).advance 4) ∧
    exec (.vcvtsat d a t r k n) s = .next ((s.convertTo (typeBits s.vt) (typeBits t.toNat) d k (n == 1) 0 fun i =>
      convert s.vt t.toNat (s.rsel r) true (lane (s.rv a) (typeBits s.vt) i)).advance 4))

/-- For every lane width, mask and per-lane function, the element-wise form gives an unmasked lane the function's
value and leaves a masked lane of the destination, in the result at n0; a compare gives bit i of its mask likewise and
clears the bits at and above the lane count; a masked lane contributes no flags when every lane is masked. (R65, R182,
R186) -/
def Obligations.LanesOfAResult : Prop :=
  (∀ (s : State) (w : Nat) (d : VReg) (k : KReg) (nf : Bool) (f : Nat → Nat × Flags5), w = 4 ∨ w = 8 ∨ w = 16 ∨ w = 32 →
    ∀ i, i < 2048 / w → lane ((s.elementwise w d k nf f).rv 60) w i =
      if (s.rk k).getLsbD i then (f i).1 % 2 ^ w else lane (s.rv d) w i) ∧
  (∀ (s : State) (w : Nat) (d : VReg) (k : KReg) (nf : Bool) (f : Nat → Nat × Flags5), w = 4 ∨ w = 8 ∨ w = 16 ∨ w = 32 →
    (∀ i, i < 2048 / w → (s.rk k).getLsbD i = false) →
      (s.elementwise w d k nf f).hart.vec.vflg = s.hart.vec.vflg ∧ (s.elementwise w d k nf f).rv 60 = s.rv d) ∧
  (∀ (s : State) (w : Nat) (d k : KReg) (nf : Bool) (f : Nat → Bool × Flags5), w = 4 ∨ w = 8 ∨ w = 16 ∨ w = 32 → d ≠ 0 →
    ∀ i, ((s.compare w d k nf f).rk d).getLsbD i =
      (decide (i < 2048 / w) && if (s.rk k).getLsbD i then (f i).1 else (s.rk d).getLsbD i)) ∧
  (∀ (k : KBits) (old : VBits) (w : Nat) (f : Nat → Nat), w = 4 ∨ w = 8 ∨ w = 16 ∨ w = 32 → ∀ i, i < 2048 / w →
    lane (masked k old w f) w i = if k.getLsbD i then f i % 2 ^ w else lane old w i)

/-- After an arithmetic, bitwise, movement, conversion, ranking or noise form with a vector destination below n0 that
completes: every main and operand register but the destination, every scalar and capability register, the tiles,
streams, VTYPE and VRM, every byte and tag of memory and everything outside the issuing context are unchanged, and the
PC has moved by 4. (R66, R180, R182, R197) -/
def Obligations.VectorFrame : Prop :=
  ∀ (i : Instr) (d : VReg) (s t : State),
    ((∃ allowed, Claims.vecRule i = some (allowed, d, none) ∧ allowed s.vt = true ∧ i.wellFormed = true) ∨
      (∃ a b k n, (i = .vfadd d a b k n ∨ i = .vfsub d a b k n ∨ i = .vfmul d a b k n ∨ i = .vfma d a b k n ∨ i = .vfms d a b k n ∨
        i = .vfnma d a b k n ∨ i = .vfnms d a b k n ∨ i = .vfmin d a b k n ∨ i = .vfmax d a b k n ∨ i = .vfminm d a b k n ∨
        i = .vfmaxm d a b k n ∨ i = .vfdiv d a b k n) ∧ isWideFp s.vt = true) ∨
      (∃ a b k, (i = .vadd d a b k ∨ i = .vsub d a b k ∨ i = .vadds d a b k ∨ i = .vsubs d a b k ∨ i = .vmul d a b k ∨
        i = .vmulh d a b k ∨ i = .vmulhu d a b k ∨ i = .vmin d a b k ∨ i = .vmax d a b k ∨ i = .vsll d a b k ∨ i = .vsrl d a b k ∨
        i = .vsra d a b k) ∧ isIntType s.vt = true) ∨
      (∃ a b k, i = .vperm d a b k ∨ i = .vslideup d a b k ∨ i = .vslidedn d a b k ∨ i = .vsel d a b k ∨ i = .vmov d a k ∨
        i = .vrev d a k ∨ i = .vcompr d a k ∨ i = .vexpnd d a k ∨ i = .vbpt d a ∨ i = .vbpu d a)) →
    s.isFw = false → exec i s = .next t →
      OnlyHere s t ∧ SameScalars s t ∧ SameCaps s t ∧ SameMasks s t ∧ SameTiles s t ∧ SameMemory s t ∧
      (∀ r : VReg, r.toNat < 60 → r ≠ d → t.rv r = s.rv r) ∧ t.rv 61 = s.rv 60 ∧ t.hart.vec.vtype = s.hart.vec.vtype ∧
      t.hart.vec.vrm = s.hart.vec.vrm ∧ t.hart.pc = s.hart.pc + 4

namespace Sys2Proof.Claims

/-- A vector load: allowed types, destination, capability, mask and the addresses of its elements (R200, R217). -/
def vecLoad (s : State) : Instr → Option ((Nat → Bool) × VReg × CReg × KReg × (Nat → Int))
  | .vld d c b k => some (anyType, d, c, k, fun i => ((s.rc c).cursor : Int) + (s.rs b).toInt + (i * elemBytes s.vt : Nat))
  | .vlds d e c b k => some (anyType, d, c, k, fun i => ((s.rc c).cursor : Int) + (s.rs b).toInt + (i : Int) * (s.rs e).toInt)
  | .vgth d a c b k => some (gatherable, d, c, k, fun i =>
      ((s.rc c).cursor : Int) + (s.rs b).toInt + (lane (s.rv a) (typeBits s.vt) i * elemBytes s.vt : Nat))
  | .vldb d c b k => some (anyType, d, c, k, fun _ => ((s.rc c).cursor : Int) + (s.rs b).toInt)
  | _ => none

/-- A vector store or scatter-add, as `vecLoad`; the last field says that it is a reduction (R200, R217, R220). -/
def vecStore (s : State) : Instr → Option ((Nat → Bool) × VReg × CReg × KReg × (Nat → Int) × Bool)
  | .vst d c b k => some (anyType, d, c, k, fun i => ((s.rc c).cursor : Int) + (s.rs b).toInt + (i * elemBytes s.vt : Nat), false)
  | .vsts d e c b k => some (anyType, d, c, k, fun i => ((s.rc c).cursor : Int) + (s.rs b).toInt + (i : Int) * (s.rs e).toInt, false)
  | .vsct d a c b k => some (gatherable, d, c, k, fun i =>
      ((s.rc c).cursor : Int) + (s.rs b).toInt + (lane (s.rv a) (typeBits s.vt) i * elemBytes s.vt : Nat), false)
  | .vsctadd d a c b k => some (scatterable, d, c, k, fun i =>
      ((s.rc c).cursor : Int) + (s.rs b).toInt + (lane (s.rv a) (typeBits s.vt) i * elemBytes s.vt : Nat), true)
  | _ => none

end Sys2Proof.Claims

/-- In an allowed type, when every unmasked element passes: a load joins the load queue with its elements, a store
puts one entry per unmasked element into the store queue, and VSCTADD one reduction each; VSCTADD sets the side-effect
bit with none as well; the first element that fails traps with its own check and address, and nothing is queued. When
the last element of the oldest load of a context is performed, at a home that is not lost and in no uncorrectable
line, its destination holds the elements read and its other lanes keep theirs. (R113, R114, R119, R200, R217, R218,
R219, R220) -/
def Obligations.VectorMemoryCompletes : Prop :=
  (∀ (i : Instr) (s : State) (allowed : Nat → Bool) (d : VReg) (c : CReg) (k : KReg) (addr : Nat → Int),
    Claims.vecLoad s i = some (allowed, d, c, k, addr) → s.isFw = false →
    (allowed s.vt = false → exec i s = .next (s.takeTrap .illegal (tvalWord i) 4)) ∧
    (allowed s.vt = true →
      (∀ e v t, checkElems (s.rc c) (elemBytes s.vt) .load addr (s.elems k) s = .trap e v t → exec i s = .next (t.takeTrap e v 4)) ∧
      (∀ es, checkElems (s.rc c) (elemBytes s.vt) .load addr (s.elems k) s = .ok es s → exec i s =
        .next ((s.queueLoad (s.rc c).space (elemBytes s.vt) (.vector d (elemBytes s.vt)) (es.map fun e => (e.1, e.2.1))).advance 4)))) ∧
  (∀ (i : Instr) (s : State) (allowed : Nat → Bool) (d : VReg) (c : CReg) (k : KReg) (addr : Nat → Int) (red : Bool),
    Claims.vecStore s i = some (allowed, d, c, k, addr, red) → s.isFw = false →
    (allowed s.vt = false → exec i s = .next (s.takeTrap .illegal (tvalWord i) 4)) ∧
    (allowed s.vt = true → ∀ kd, kd = (if red then Kind.atomic else Kind.store) →
      (∀ e v t, checkElems (s.rc c) (elemBytes s.vt) kd addr (s.elems k) s = .trap e v t → exec i s = .next (t.takeTrap e v 4)) ∧
      (checkElems (s.rc c) (elemBytes s.vt) kd addr (s.elems k) s = .ok [] s → exec i s = .next ((if red then s.effect else s).advance 4)) ∧
      (∀ es, checkElems (s.rc c) (elemBytes s.vt) kd addr (s.elems k) s = .ok es s → es ≠ [] →
        (red = false → exec i s = .next (((es.foldl (fun t e => t.enqueueStore (cellsAt e.2.1 (leBytes (elemBytes s.vt)
          (lane (s.rv d) (8 * elemBytes s.vt) e.1))) false false) s).storeEffect (s.rc c).space).advance 4)) ∧
        (red = true → exec i s = .next (((es.foldl (fun t e => t.enqueueAtomic e.2.1 s.vt false true
          (BitVec.ofNat 64 (lane (s.rv d) (8 * elemBytes s.vt) e.1)) (s.rc c).space (BitVec.ofInt 64 e.2.2)) s).effect).advance 4))))) ∧
  (∀ (s u : State) (die core slot i m k n : Nat) (c : CtxId) (r r2 : LoadRec) (rest : List LoadRec) (d : VReg) (old : VBits),
    c = ⟨die, core, slot⟩ → (s.hartAt c).loads = r :: rest → r.elems[i]? = some ⟨m, k, none⟩ → r.dest = .vector d n →
    u = s.settleFor c r.ord k r.n → u.badLines c r.ord k r.n = [] → u.lost k = false → old = (u.hartAt c).vec.v.get d.toFin →
    r2 = { r with elems := r.elems.modify i fun e => { e with got := some (leNat ((upFrom k r.n).map (u.queueByte c r.ord))) } } →
    (r2.elems.all fun e => e.got.isSome) = true → ∃ t, exec (.remoteLoadReturn die core ⟨slot, i⟩) s = .next t ∧ (t.hartAt c).loads = rest ∧
      (t.hartAt c).vec = (u.hartAt c).vec.result d (vecOf (8 * n) ((List.range (256 / n)).map fun j =>
        (r2.value j).getD (lane old (8 * n) j))))

namespace Sys2Proof.Claims

/-- The value of a control register that the issuing context may name (R73, R359, R363). -/
def ctlNow (s : State) (n : Nat) : Option Word := if s.isFw then s.fwCtl n else if n < 0x800 then s.userCtl n else none

/-- The value that a control-register write asks for, before reserved bits are dropped (R175). -/
def ctlNew (s : State) (old : Word) : Instr → Option (SReg × BitVec 12 × Word)
  | .ctlwr d a r => some (d, r, s.rs a)
  | .ctlset d a r => some (d, r, old ||| s.rs a)
  | .ctlclr d a r => some (d, r, old &&& ~~~s.rs a)
  | _ => none

end Sys2Proof.Claims

/-- On a listed register of the context's level CTLRD writes its value; CTLWR, CTLSET and CTLCLR of a writable one
with a valid value write the register's fields and return the old value; an unlisted, read-only or invalid one is
ILLEGAL_INSTRUCTION. At supervisor level ERET, WFI, TLBINV, CTXSV, CTXLD, QUARDR and HALT have their effect under the
conditions on slot, capability and selector. (R72, R73, R175, R363, R370, R371, R372) -/
def Obligations.ControlAndSystemComplete : Prop :=
  (∀ (s : State) (d : SReg) (r : BitVec 12) (v : Word), Claims.ctlNow s r.toNat = some v →
    exec (.ctlrd d r) s = .next (((if r = 0x031 then s.modTask fun t => { t with cyclesRead := v.toNat } else s).ws d v).advance 4)) ∧
  (∀ (s : State) (d : SReg) (r : BitVec 12), Claims.ctlNow s r.toNat = none → s.isFw = true ∨ r.toNat < 0x800 →
    exec (.ctlrd d r) s = .next (s.takeTrap .illegal (tvalWord (.ctlrd d r)) 4)) ∧
  (∀ (s : State) (i : Instr) (d : SReg) (r : BitVec 12) (old new : Word), Claims.ctlNow s r.toNat = some old →
    Claims.ctlNew s old i = some (d, r, new) →
    (ctlMask r.toNat = none → exec i s = .next (s.takeTrap .illegal (tvalWord i) 4)) ∧
    (∀ m, ctlMask r.toNat = some m →
      (s.ctlValid r.toNat (new &&& m) = true → exec i s = .next (((s.writeCtl r.toNat (new &&& m)).ws d old).advance 4)) ∧
      (s.ctlValid r.toNat (new &&& m) = false → exec i s = .next (s.takeTrap .illegal (new &&& m) 4)))) ∧
  (∀ (s : State) (a : SReg), s.isFw = true → ∀ (slot : Nat) (skip stay : Bool), slot < 4 →
    (s.rs a).toNat = (if skip then 1 else 0) + slot * 2 ^ 8 + (if stay then 2 ^ 16 else 0) →
    ∀ c : CtxId, c = ⟨s.here.die, s.here.core, slot⟩ → s.isHeld c = true → (s.hartAt c).undelivered = false →
    ∀ u, u = ((s.release 1).mod fun h => { h with ahead := [] }).resumeSlot c skip →
    (stay = true → exec (.eret a) s = .next (u.advance 4)) ∧
    (stay = false → s.myCore.tactive = true → bitsOf s.myCore.tcause.toNat 11 10 = 0 →
      exec (.eret a) s = .next ((u.advance 4).leaveHandler u.here.die u.here.core))) ∧
  (∀ (s : State) (a : SReg), s.isFw = true → s.rs a = 2 → s.myCore.tactive = true → ∀ u, u = (s.release 1).mod (fun h => { h with ahead := [] }) →
    exec (.eret a) s = .next ((u.advance 4).leaveHandler u.here.die u.here.core)) ∧
  (∀ (s : State) (a : SReg), s.isFw = true →
    (s.myCore.tactive = false → exec (.wfi a) s = .next ((s.modMyCore fun k => { k with wfi := some (s.rs a).toNat }).advance 4)) ∧
    (s.myCore.tactive = true → exec (.wfi a) s = .next (s.takeTrap .illegal (tvalWord (.wfi a)) 4)) ∧
    exec (.halt a) s = .next (s.firmwareFault s.here.die s.here.core 0 s.hart.pc (s.rs a &&& 0xFF))) ∧
  (∀ (s : State) (a b : SReg) (sc : BitVec 3), s.isFw = true → (s.rs b).toNat % 4 ≠ 3 → ∀ u, u = ({ s with disp := { s.disp with
      xcache := s.disp.xcache.filter fun e => !(e.inScope s.here sc.toNat &&
        e.covered ((s.rs b).toNat % 4) (bitsOf (s.rs b).toNat 27 16) ((s.rs a).toNat % 2 ^ 48)) } } : State) →
    exec (.tlbinv a b sc) s = .next ((u.drainDies (if 2 ≤ sc.toNat then List.range 8 else [s.here.die])).advance 4)) ∧
  (∀ (s : State) (d a : SReg) (cb : CReg), s.isFw = true → (s.rs a).toNat < 2 ^ 14 → bitsOf (s.rs a).toNat 7 2 = 0 →
    ∀ c : CtxId, c = ⟨s.here.die, s.here.core, (s.rs a).toNat % 4⟩ →
    (imageCap (s.rc cb) (s.rs a).toNat true = true →
      (s.isHeld c = false → exec (.ctxsv d a cb) s = .next ((s.ws d 1).advance 4)) ∧
      (s.isHeld c = true → ∀ v keys u, v = s.drainStores c → State.imageKeys (s.rc cb) .store
          ((v.imagePieces c (s.rs a).toNat).map fun p => (p.off, p.bytes.length)) v = .ok keys u →
        ∀ w, w = (keys.zip (v.imagePieces c (s.rs a).toNat)).foldl (fun t p => t.enqueueStore (cellsAt p.1 p.2.bytes) p.2.tag false) u →
        exec (.ctxsv d a cb) s = .next (((if bitOf (s.rs a).toNat 12 = true then w.keepSnaps (w.allJobs c) else w).ws d 0).advance 4))) ∧
    (imageCap (s.rc cb) (s.rs a).toNat false = true →
      ((s.hartAt c).status = .ready ∨ (s.hartAt c).status = .blocked ∨ (s.hartAt c).status = .reserved →
        exec (.ctxld d a cb) s = .next ((s.ws d 1).advance 4)) ∧
      ((s.hartAt c).status = .empty → bitOf (s.rs a).toNat 8 = false → exec (.ctxld d a cb) s = .next ((s.ws d 2).advance 4)) ∧
      ((s.hartAt c).status = .trapped ∨ (s.hartAt c).status = .held ∨ ((s.hartAt c).status = .empty ∧ bitOf (s.rs a).toNat 8 = true) →
        ∀ core u l v, State.imageRead (s.rc cb) (if bitOf (s.rs a).toNat 8 = true then imageOffs 0 1024 else []) s = .ok core u →
        State.imageRead (s.rc cb) (loadOffs (s.rs a).toNat (if bitOf (s.rs a).toNat 8 = true
          then ((s.hartAt c).tile.reshape (imageBytes core 0 1024)).dirty else (s.hartAt c).tile.dirty)) u = .ok l v →
        exec (.ctxld d a cb) s = .next ((((v.drainStores c).loadImage c (s.rs a).toNat l).ws d 0).advance 4)))) ∧
  (∀ (s : State) (d a : SReg) (c : CtxId), s.isFw = true → (s.rs a).toNat < 4 → c = ⟨s.here.die, s.here.core, (s.rs a).toNat⟩ →
    s.isHeld c = true → ∀ (v : State) (l : List (Nat × List Byte)), v = s.performLoads c → l = (v.hartAt c).quar.filter (v.hartAt c).quarInside →
    exec (.quardr d a) s = .next (((v.deliverQuar c).ws d (BitVec.ofNat 64
      ((l.length + ((v.hartAt c).q.toList.map fun z => z.diverted.length).sum) % 2 ^ 32 +
        ((v.hartAt c).quar.length - l.length) % 2 ^ 32 * 2 ^ 32))).advance 4))

/-- While a full engine-fault queue holds an engine its copies stand. Else a waiting copy that it has accepted starts
once its wait is met; one under way makes its next access, and ends with none left; a due timed copy starts; a CPYB
reserves a slot that is free in its turn, or joins the line; a stream reads its oldest address, takes in its oldest
read and builds the panel that is due; a free array grants its next lease; an accepted job starts when its wait is
met, goes on, and ends past its last pass; a member contributes, groups deliver, a spill scan is served. (R114, R121,
R136, R236, R239, R284, R287, R291, R294, R297, R319, R390) -/
def Obligations.EngineStepsDoTheirWork : Prop :=
  (∀ (s : State) (die core slot eng : Nat), s.engineHeld die core eng = true →
    exec (.copyStart die core slot eng) s = .next s ∧ exec (.copyComplete die core slot eng) s = .next s ∧
    exec (.cpybSlotReserve die core slot eng) s = .next s ∧ exec (.cpytRelease die core eng) s = .next s) ∧
  (∀ (s : State) (die core slot eng : Nat) (c : CtxId), c = ⟨die, core, slot⟩ → s.engineHeld die core eng = false →
    (∀ m rest, (s.copyCtx c eng).waiting = m :: rest →
      (m.taken = false ∨ s.commandWait m.wait = .unmet → exec (.copyStart die core slot eng) s = .next s) ∧
      (m.taken = true → s.commandWait m.wait = .met →
        exec (.copyStart die core slot eng) s = .next (s.putCopy c eng { m with state := .running, issue := s.polestar }))) ∧
    (∀ m, s.pickCopy (s.copyCtx c eng).running = some m →
      (m.kind ≠ kCpyb → ∀ k, k = m.sink none →
        (m.moved k = true → exec (.copyComplete die core slot eng) s = .next (s.copyEnds c eng m)) ∧
        (m.moved k = false → ∀ n f u, copyStep c eng k (m.units k) m.dst.space m.dst.cursor m s = (n, f, u) →
          exec (.copyComplete die core slot eng) s = .next (u.copyProgress c eng n f))) ∧
      (∀ ch, m.kind = kCpyb → s.shared.channels.find? m.chan = some ch →
        (m.moved (m.sink (some ch)) = true → exec (.copyComplete die core slot eng) s = .next (s.copyEnds c eng m)) ∧
        (m.moved (m.sink (some ch)) = false → ch.poison = false → ∀ i first, m.piece = some (i, first) →
          exec (.copyComplete die core slot eng) s = .next (cpybStep c eng m ch i first s)))) ∧
    (∀ m ch, ((s.copyCtx c eng).running.find? fun m => m.kind = kCpyb && m.piece.isNone) = some m →
      s.shared.channels.find? m.chan = some ch → ch.poison = false → m.moved (m.sink (some ch)) = false →
      (ch.mayReserve (lineKey c eng) = true → exec (.cpybSlotReserve die core slot eng) s =
        .next (((s.chReserve m.chan (lineKey c eng) ch).putCopy c eng { m with piece := some (ch.rsv, m.done) }).serveChannel m.chan)) ∧
      (ch.mayReserve (lineKey c eng) = false → lineKey c eng ∉ ch.waiters → exec (.cpybSlotReserve die core slot eng) s =
        .next (s.setChannel m.chan { ch with waiters := ch.waiters ++ [lineKey c eng] })))) ∧
  (∀ (s : State) (die core eng : Nat) (c : CtxId) (m : CopyCmd), s.timedDue die core eng = [(c, m)] →
    s.engineHeld die core eng = false → s.commandWait m.wait = .met →
    exec (.cpytRelease die core eng) s =
      .next (s.putCopy c eng { m.flag (if m.late then 2 else 0) with issue := s.polestar, state := .running })) ∧
  (∀ (s u : State) (die core slot : Nat) (q : Fin 8) (c : CtxId) (z : Stream), c = ⟨die, core, slot⟩ → z = (s.hartAt c).q.get q →
    (∀ v rest e, z.aq = v :: rest → z.bound = true → z.faulted = false → z.room = true → s.engineHeld die core z.eng = false →
      s.streamRead c q.val z v = (some e, u) → exec (.streamReadIssue die core slot q.val) s =
        .next (u.modStream c q fun z => { z with aq := rest, inflight := z.inflight ++ [e] })) ∧
    ((s.hartAt c).task.wait = none →
      (z.panelDue = false → exec (.streamElementArrival die core slot q.val) s = .next (s.modStream c q Stream.arrive)) ∧
      (z.panelDue = true → exec (.streamElementArrival die core slot q.val) s = .next (s.buildPanel c q))) ∧
    (∀ j y, (s.hartAt c).task.wait = some (.drain j y) → j.toNat = q.val → (s.hartAt c).status = .blocked → c ∈ s.contexts →
      s.coreRuns c = true → z.panelDue = false →
      exec (.streamElementArrival die core slot q.val) s = .next ((s.modStream c q Stream.arrive).tryWait c))) ∧
  (∀ (s : State) (die cl : Nat) (r : LeaseReq), (s.arrayAt die cl).lease = none → (s.arrayAt die cl).next = some r →
    s.coreRuns ⟨die, r.core, r.slot⟩ = true → ∃ t l, exec (.matrixLeaseGrant die cl) s = .next t ∧ (t.arrayAt die cl).lease = some l ∧ l.core = r.core ∧ l.slot = r.slot ∧
      l.toRun = r.run ∧ (t.arrayAt die cl).reqs = (s.arrayAt die cl).reqs.filter fun q => q ≠ r) ∧
  (∀ (s : State) (die core : Nat) (j : Job) (set : Nat → State), (s.leaseCtx die core).head = some j →
    (set = fun st => s.modLease die core fun c => { c with jobs := modFirst (fun j => { j with state := st }) c.jobs }) →
    (∀ l, (s.arrayAt die (core / 4)).lease = some l → l.core = core → j.state < 3 → j.taken = true →
      (bitOf (field j.card 33 1) 7 = false → exec (.matrixJobStart die core) s = .next (set 3)) ∧
      (bitOf (field j.card 33 1) 7 = true → ctrPoison (s.counter (j.counter 32)) = false →
        (field j.card 34 6 ≤ ctrValue (s.counter (j.counter 32)) → exec (.matrixJobStart die core) s = .next (set 3)) ∧
        (ctrValue (s.counter (j.counter 32)) < field j.card 34 6 → exec (.matrixJobStart die core) s = .next (set 2)))) ∧
    (j.state = 3 → passCount j.card ≤ j.pass → exec (.matrixJobComplete die core) s = .next (s.jobEnds die core false)) ∧
    (j.state = 3 → j.pass < passCount j.card → exec (.matrixJobComplete die core) s = .next (s.jobAct die core j))) ∧
  (∀ (s : State) (die core slot key : Nat) (c : CollCmd) (rank : Nat), key = CtxId.key ⟨die, core, slot⟩ →
    ((s.collsOf key).find? fun c => !c.contributed && c.result.isNone) = some c → c.taken = true → s.commandWait c.wait = .met →
    ((s.shared.groups.getD (clGroup c.card) default).members.findIdx? fun w => s.memberKey w = some key) = some rank →
    (s.shared.groups.getD (clGroup c.card) default).dead = false →
    exec (.collContribution die core slot) s = .next (s.contribute key c rank)) ∧
  (∀ (s : State) (g : Nat),
    ((s.shared.groups.getD g default).complete = none →
      exec (.collDelivery g) s = .next ((s.eng.colls.map (·.1)).foldl State.deliverColl s)) ∧
    (∀ cs, (s.shared.groups.getD g default).complete = some cs → exec (.collDelivery g) s =
      .next (((s.formResult g cs).eng.colls.map (·.1)).foldl State.deliverColl (s.formResult g cs)))) ∧
  (∀ (s : State) (part : Nat), ∃ t, exec (.spillScan part) s = .next t ∧ part ∉ t.disp.scanAsked)

/-- A firmware context outside its handler enters it; marks, queue dispositions and SEQCLR are written; deadlines,
watchdogs and returns act; a load returns; a buffered store, act or atomic that may go moves on from its buffer; a
failed context restarts, a failed empty core gets the die's spare or is retired; tasks are killed, pre-empted, evicted
as a group, restored, resumed and, once the package has its time, placed by their dispatcher, banks swap, and a core
error reports its core failed. (R31, R54, R115, R266, R276, R362, R365, R372, R374, R387, R392, R445) -/
def Obligations.CoreAndTaskStepsDoTheirWork : Prop :=
  (∀ (s : State) (d k : Nat),
    ((s.coreAt d k).tactive = false → (s.coreAt d k).failed = false →
      exec (.trapEntry d k) s = .next (s.enterHandler d k (s.hartAt (fwOf d k)).pc)) ∧
    (∀ m, exec (.pmarkWrite d k m) s = .next (s.modCore d k fun c => { c with pmark := m })) ∧
    exec (.efqResume d k) s = .next (s.disposeFault d k false) ∧ exec (.efqAbort d k) s = .next (s.disposeFault d k true) ∧
    (∀ x, (s.coreAt d k).wfi = some x → x ≠ 0 → x ≤ s.polestar →
      exec (.wfiDeadline d k) s = .next (s.modCore d k fun c => { c with wfi := none })) ∧
    ((s.coreAt d k).failed = true → (s.coreAt d k).retired = false → ∀ pc, ∃ t, exec (.firmwareContextRestart d k pc) s = .next t ∧
      (t.coreAt d k).failed = false ∧ (t.coreAt d k).tactive = false ∧ (t.hartAt (fwOf d k)).pc = BitVec.ofNat 64 pc) ∧
    ((s.coreAt d k).failed = true → (s.coreAt d k).retired = false → (∀ i, i < 4 → s.holds ⟨d, k, i⟩ = false) →
      ((s.plat.spares.any fun p => p.1 = d) = true → exec (.spareSubstitution d k) s = .next (s.modCore d k fun c => { c with retired := true })) ∧
      ((s.plat.spares.any fun p => p.1 = d) = false → ∃ t, exec (.spareSubstitution d k) s = .next t ∧
        t.plat.spares = s.plat.spares ++ [(d, k)] ∧ t.plat.closed = s.plat.closed ++ [(d, k)])) ∧
    ((s.coreAt d k).failed = false → (s.coreAt d k).retired = false → ∃ t u : State, exec (.coreError d k) s = .next t ∧
      t = ((u.modCore d k fun c => { c with failed := true }).notify (.coreFailed d k)).reapChains)) ∧
  (∀ (s : State) (d q : Nat) (e : SeqEntry), q < 1024 → s.shared.seqs.find? (seqKey d q) = some e → e.state = 4 →
    (∃ t, exec (.seqclrStop d q) s = .next t ∧ t.shared.seqs.find? (seqKey d q) = some { e with state := 3 }) ∧
    (∃ t, exec (.seqclrWait d q) s = .next t ∧ t.shared.seqs.find? (seqKey d q) = some { e with state := 0, input := none })) ∧
  (∀ (s : State) (d k i : Nat) (c : CtxId), c = ⟨d, k, i⟩ → i < 4 →
    (∀ e, (s.hartAt c).loads = [] → exec (.remoteLoadReturn d k ⟨i, e⟩) s = .next s) ∧
    (∀ r rest e, (s.hartAt c).loads = r :: rest → exec (.remoteLoadReturn d k ⟨i, e⟩) s =
      .next (if e < r.elems.length then s.performUnit c e else s.performOldest c)) ∧
    ((s.hartAt c).status = .trapped ∨ (s.hartAt c).status = .blocked ∨ (s.hartAt c).status = .held →
      ∀ tr, exec (.taskKill d k (.slot i tr)) s = .next ((s.abortLaunch (s.hartAt c).task).taskEnds c ((s.hartAt c).endCause tr)).reapChains) ∧
    (∀ n m v, List.find? (fun p : Nat × Cont => p.2.home = (d, k) && p.2.record = n && (p.2.complete || p.2.fate.isSome)) s.disp.conts = some (m, v) →
      exec (.taskKill d k (.record n)) s = .next (s.killCont m v (v.hart.endCause false)).reapChains) ∧
    (s.evictable c = true → exec (.forcedEviction d k i) s = .next ((s.evictGroup c).foldl State.evictOne s)) ∧
    (∀ b w x y, (s.hartAt c).task.wait = some (.barrier b w x) → (s.hartAt c).task.waiting = some y → (s.hartAt c).status = .blocked →
      s.coreRuns c = true → (s.barrierAt b).phase = w → y + s.watchdog (s.hartAt c).task.part ≤ s.polestar →
      exec (.barrierWatchdog d k i) s = .next (s.trapContext c .barrierStall x 4)) ∧
    (∀ j, s.freeSave (s.hartAt c).task.part = some j → (s.hartAt c).status = .blocked → (s.hartAt c).task.atNode = true →
      s.nodeTakes c = true → s.quiet c = true → s.coreRuns c = true → ∃ (u : State) (v : Saved), exec (.nodePreemption d k i) s = .next (State.keepSaved (u.setHart c Hart.fresh) v) ∧
        v.hart = (s.hartAt c).nodeImage ∧ v.left = c ∧ v.evicted = false)) ∧
  (∀ (s : State) (b : BufId) (n : Nat) (p : Pending) (older newer : List Pending), s.buffer b = older ++ p :: newer → older.length = n →
    s.mayGo b older p = true →
    (p.isAtomic = false → exec (.storePerformAtHome ⟨b, n⟩) s = .next (s.advanceBuffer b p (older ++ newer))) ∧
    (p.isAtomic = true → exec (.atomicPerformAtHome ⟨b, n⟩) s = .next (s.advanceBuffer b p (older ++ newer)))) ∧
  (∀ (s : State) (n : Nat) (v : Cont), s.disp.conts.find? n = some v → v.complete = false → v.fate = none →
    (s.lateCont n v = true → exec (.suspendWaitComplete n) s = .next s) ∧
    (s.lateCont n v = false → s.suspendState v.hart.task v.kind v.object v.threshold = .met → exec (.suspendWaitComplete n) s =
      .next ({ s with disp := { s.disp with
        conts := s.disp.conts.insert n { v with complete := true, since := s.steps, fate := none } } } : State).reapRevoked) ∧
    (s.suspendState v.hart.task v.kind v.object v.threshold = .unmet → exec (.suspendWaitComplete n) s = .next s)) ∧
  (∀ (s : State) (n : Nat) (v : Saved) (c c2 : CtxId) (o o2 : Nat), s.disp.saved.find? n = some v → v.evicted = true →
    s.savedSpot v = some (c, o) → s.firstTransit c.die = none → s.firstSpot c.die = some (.saved n, c2, o2) →
    exec (.evictionRestore n) s = .next (s.restoreEvicted n v c o)) ∧
  (∀ (s : State) (die : Nat), s.timeSet = false → exec (.taskPlacement die) s = .next s) ∧
  (∀ (s : State) (die o : Nat) (c : CtxId), s.timeSet = true →
    (∀ l i, s.firstGone die = some (l, i) → exec (.taskPlacement die) s = .next (s.failPending l i Cause.tagStale.code)) ∧
    (s.firstGone die = none → ∀ n, s.gangTurn = some n → exec (.taskPlacement die) s = .next (s.startReserved n)) ∧
    (s.firstGone die = none → s.gangTurn = none →
      (∀ q, s.firstTransit die = some (q, c, o) → exec (.taskPlacement die) s = .next (s.startTransit q c o)) ∧
      (s.firstTransit die = none → ∀ t, s.holdFor die = some t → exec (.taskPlacement die) s = .next t)) ∧
    (s.firstGone die = none → s.gangTurn = none → s.firstTransit die = none → s.holdFor die = none →
      (∀ l i, s.firstSpot die = some (.pending l i, c, o) →
        exec (.taskPlacement die) s = .next (s.startTask l i c o .ready)) ∧
      (∀ i v, s.firstSpot die = some (.cont i, c, o) → s.disp.conts.find? i = some v →
        exec (.taskPlacement die) s = .next (s.resumeCont i v c o)) ∧
      (∀ i v, s.firstSpot die = some (.saved i, c, o) → s.disp.saved.find? i = some v → v.evicted = false →
        exec (.taskPlacement die) s = .next (s.resumeSaved i v c o)))) ∧
  (∀ (s : State) (d k n : Nat) (p : BankPair), (s.coreAt d k).banks[n]? = some p → exec (.bankSwap d k n) s = .next (s.modCore d k fun c =>
    { c with banks := (s.coreAt d k).banks.take n ++ (s.swapPair d k p).toList ++ (s.coreAt d k).banks.drop (n + 1) }))

/-- A doorbell in a wake window of its port moves a queue's tail within the ring's size, counts else, and outside
every window does nothing; queues fetch, chains are checked, their gangs reserved, reported and started, kernels and
chains complete and are killed when due. MAP, UNMAP, DESTROY, PLOAD, MIGRATE, CORESET, MOVECONT, GRANT, REVOKE,
ALMSET, CHCREATE and CHFREE whose conditions hold act and signal their counter; with a target that does not exist they
change nothing, give a notice and poison their counter. (R34, R36, R378, R380, R382, R384, R385, R388, R406, R410,
R413, R414) -/
def Obligations.DispatcherStepsDoTheirWork : Prop :=
  (∀ (s u : State) (port offset v part q : Nat), s.portUp port = true → offset < 2 ^ 21 → offset % 8 = 0 →
    s.windowOf port (offset / 2 ^ 15) = some part → q = queueKey part (offset % 2 ^ 15 / 8) →
    u = (s.setLatch q { s.latch q with tail := v % 2 ^ 32 }).latchWake q →
    (s.headSize q = none ∨ (∃ h n, s.headSize q = some (h, n) ∧ (v % 2 ^ 32 + 2 ^ 32 - h % 2 ^ 32) % 2 ^ 32 ≤ n) →
      (2 ≤ u.plat.ps → exec (.doorbell port offset v) s = .next u.startWake) ∧
      (u.plat.ps < 2 → (u.latch q).hwq = none → exec (.doorbell port offset v) s = .next u) ∧
      (u.plat.ps < 2 → ∀ h, (u.latch q).hwq = some h → exec (.doorbell port offset v) s = .next (u.wakeHwq h))) ∧
    (∀ h n, s.headSize q = some (h, n) → n < (v % 2 ^ 32 + 2 ^ 32 - h % 2 ^ 32) % 2 ^ 32 → exec (.doorbell port offset v) s =
      .next (s.writeDesc part 232 8 (field (s.partOf part).desc 232 8 + 1)))) ∧
  (∀ (s : State) (port offset v : Nat), s.portUp port = false ∨ 2 ^ 21 ≤ offset ∨ offset % 8 ≠ 0 ∨ s.windowOf port (offset / 2 ^ 15) = none →
    exec (.doorbell port offset v) s = .next s) ∧
  (∀ (s : State) (part qid v d : Nat), (s.latch (queueKey part qid)).desc = some d → ∃ t, exec (.cheadWrite part qid v) s = .next t ∧
    (s.disp.chains = [] → t = s.writePart 0 part (d + 40) (leBytes 4 v))) ∧
  (∀ (s : State) (die hwq : Nat) (w : HwQueue), s.disp.hwqs.find? (hwKey die hwq) = some w →
    (w.state = .idle → exec (.queueEntryFetch die hwq) s = .next (s.wakeHwq (hwKey die hwq))) ∧
    (w.state = .fetch → s.fetchTurn die hwq w = true → exec (.queueEntryFetch die hwq) s =
      .next ((State.noteRead { s with disp := { s.disp with lastHwq := s.disp.lastHwq.insert die hwq } } die w.part
        (w.ring + 16 * (w.head % Nat.max 1 w.size)) 16).fetchEntry (hwKey die hwq) w)) ∧
    (w.state = .fetch → s.fetchTurn die hwq w = false → exec (.queueEntryFetch die hwq) s = .next s)) ∧
  (∀ (s : State) (n die : Nat) (c : Chain), s.disp.chains.find? n = some c → c.state = .checking → c.status = 0 →
    (c.recs ≠ [] → die ∈ s.chainDies c → (c.reports.any fun r => r.1 = die) = false →
      (s.dieTagsStale c die = true → exec (.prestartReport n die) s = .next (s.refuseChain n c 3 .refused)) ∧
      (s.dieTagsStale c die = false → ∀ report : State → State,
        report = (fun t => t.modChain n fun c => { c with reports := c.reports ++ [(die, 0)] }) →
        (c.reserved = true ∨ gangsOf c.recs = [] → exec (.prestartReport n die) s = .next (report s)) ∧
        (c.reserved = false → gangsOf c.recs ≠ [] →
          (s.channelsShort c.die c.part (gangsOf c.recs) = true → exec (.prestartReport n die) s = .next (s.refuseChain n c 5 .refused)) ∧
          (s.channelsShort c.die c.part (gangsOf c.recs) = false →
            (s.mayReserve n c = false ∨ s.reserveGangs n c = none → exec (.prestartReport n die) s = .next s) ∧
            (s.mayReserve n c = true → ∀ t, s.reserveGangs n c = some t →
              exec (.prestartReport n die) s = .next (if (t.disp.chains.find? n).any fun c => c.reserved then report t else t)))))) ∧
    (c.recs ≠ [] → s.timeSet = false → exec (.startRelease n) s = .next s) ∧
    (c.recs ≠ [] → s.timeSet = true → (∀ d ∈ s.chainDies c, (c.reports.any fun r => r.1 = d) = true) →
      ∀ t u v, t = (if c.first = 0 then s.numberLaunches n c else s).modChain n (fun c =>
          { c with state := .running, since := s.steps, reserving := false }) →
      v = (t.chainLaunches n).foldl (fun t p => t.joinGated p.1) t → u = v.startReserved n →
      exec (.startRelease n) s = .next (match c.source with
        | .host _ h _ _ => u.leaveCheck h
        | .task .. => u)) ∧
    (gangsOf c.recs ≠ [] → c.reserved = false → c.reserving = false → c.since + 2 ^ 20 ≤ s.polestar →
      exec (.gangReserveTimeout n) s = .next ((if c.first = 0 then s.numberLaunches n c else s).modChain n fun c =>
        { c with reserving := true }))) ∧
  (∀ (s : State) (n : Nat) (l : Launch), s.disp.launches.find? n = some l →
    exec (.launchKill n) s = .next (s.killChain l.chain) ∧
    (∀ u, u = s.drainChain l.chain →
      (u.chainRuns l.chain = true → u.drained n l = true →
        exec (.kernelComplete n) s = .next ((u.completeKernel n l).completeChain l.chain)) ∧
      (u.drained n l = false → exec (.kernelComplete n) s = .next (u.completeChain l.chain)))) ∧
  (∀ (s : State) (die hwq part qid addr ctr : Nat) (d : List Byte), die < 8 → hwq < 64 → s.disp.hwqs.find? (hwKey die hwq) = none →
    (s.latch (queueKey part qid)).hwq = none → addr % 64 = 0 → addr < 2 ^ 48 → (s.noteRead die part addr 64).readPart die part addr 64 = some d →
    queueOk d qid = true →
    ∃ (u : State) (w : HwQueue), exec (.map die hwq part qid addr ctr) s = .next (State.signal (u.setHwq (hwKey die hwq) w) (ctrKey ctr) 1 false) ∧
      w.part = part ∧ w.qid = qid ∧ w.head = field d 12 4 ∧ (w.state = .idle ∨ w.state = .fetch)) ∧
  (∀ (s : State) (die hwq ctr : Nat) (w : HwQueue), s.disp.hwqs.find? (hwKey die hwq) = some w → w.state ≠ .unmapping →
    ∀ u, u = s.setLatch (queueKey w.part w.qid) { s.latch (queueKey w.part w.qid) with hold := true, noticed := false } →
    (w.state = .check → exec (.unmap die hwq ctr) s = .next (u.setHwq (hwKey die hwq) { w with state := .unmapping, unmapCtr := ctr })) ∧
    (w.state ≠ .check → exec (.unmap die hwq ctr) s = .next (u.finishUnmap (hwKey die hwq) w ctr))) ∧
  (∀ (s : State) (part qid ctr : Nat), qid < 4096 → (s.latch (queueKey part qid)).hwq = none → ∃ u : State,
    exec (.destroy part qid ctr) s = .next (State.signal u (ctrKey ctr) 1 false) ∧ u.disp.latches.find? (queueKey part qid) = none) ∧
  (∀ (s u : State) (part ctr k : Nat) (d : List Byte), s.descHome part = some k → d = s.homeBytes k 256 → u = s.noteHome k 256 →
    descOk d = true → u.badWords k 256 = [] → (part ≠ 0 → u.slotTaken part (field d 4 1) = false) →
    (bitOf (field d 3 1) 0 = false → exec (.pload part ctr) s = .next ((u.removePartition part).signal (ctrKey ctr) 1 false)) ∧
    (bitOf (field d 3 1) 0 = true → (part = 0 ∨ (s.disp.parts.filter fun p => p.1 ≠ 0 && p.1 ≠ part && p.2.active).length < 64) →
      u.keepsArcs part d = true → ∀ v : State, v = { u with disp := { u.disp with
        latches := u.placedLatches
        parts := u.disp.parts.insert part { u.partOf part with desc := d, active := true } } } →
      exec (.pload part ctr) s = .next ((if (u.partOf part).active = true then v else v.writeView part).signal (ctrKey ctr) 1 false))) ∧
  (∀ (s u : State) (part va pa ctr k e : Nat), s.pageLeaf part (va % 2 ^ 48) = (some (k, e), u) → bitOf e 6 = false → pa % 2 ^ 16 = 0 →
    (s.physical part 3 pa).isSome = true → (s.physical part 3 (pa + 2 ^ 16 - 1)).isSome = true → (u.partOf part).active = true → va < 2 ^ 48 →
    ∃ t, exec (.migrate part va pa ctr) s = .next t ∧ t.mem = (u.writeHomeNat 0 k 8 (e + 64)).mem ∧
      t.disp.migrations = u.disp.migrations ++ [⟨part, va / 2 ^ 16 * 2 ^ 16, k, e, pa, ctr⟩]) ∧
  (∀ (s : State) (part va : Nat) (m : Migration), (s.disp.migrations.find? fun m => m.part = part && m.va = va / 2 ^ 16 * 2 ^ 16) = some m →
    (s.frameBusy (residentKey (bitsOf m.old 47 12 * 4096)) = true → exec (.migrateComplete part va) s = .next s) ∧
    (s.frameBusy (residentKey (bitsOf m.old 47 12 * 4096)) = false → ∃ u : State, exec (.migrateComplete part va) s =
      .next (State.signal u (ctrKey m.ctr) 1 false) ∧ u.mem = ((s.copyFrame (residentKey (bitsOf m.old 47 12 * 4096))
        (residentKey m.new)).writeHomeNat 0 m.leaf 8 (m.old - bitsOf m.old 47 12 * 4096 + m.new)).mem ∧ m ∉ u.disp.migrations)) ∧
  (∀ (s : State) (part die mask ctr : Nat), s.disp.coresets.contains (part, die, mask, ctr) = true →
    exec (.coreset part die mask ctr) s = .next (s.workCoreset (part, die, mask, ctr))) ∧
  (∀ (s t : State) (part n rec core ctr : Nat) (v : Cont), t = { s with disp := { s.disp with
      moveconts := s.disp.moveconts.filter (· ≠ (part, rec, core, ctr)) } } →
    t.contAt rec = some (n, v) → v.hart.task.part = part → core < 128 → t.extentReads v = true →
    (∀ u, t.moveCont n v (core / 16) (core % 16) = some u → exec (.movecont part rec core ctr) s = .next (u.signal (ctrKey ctr) 1 false)) ∧
    (t.moveCont n v (core / 16) (core % 16) = none → exec (.movecont part rec core ctr) s = .next { t with disp := { t.disp with
      moveconts := t.disp.moveconts ++ [(part, rec, core, ctr)] } })) ∧
  (∀ (s : State) (h pp pb cp cb ctr : Nat), h < 4096 → (s.partOf pp).active = true → (s.partOf cp).active = true → pp ≠ cp →
    (s.disp.parts.any fun p => p.1 ≠ pp && p.1 ≠ cp && p.2.active && s.allocated p.1 (chanBit h)) = false →
    s.shared.channels.find? h = none → s.allocated pp (chanBit h) = false → s.allocated cp (chanBit h) = false → ∃ c : Channel,
    exec (.grant h pp pb cp cb ctr) s = .next ((((s.setChannel h c).setAllocated pp (chanBit h) true).setAllocated cp (chanBit h) true).signal
      (ctrKey ctr) 1 false) ∧ c.grant = some (pp, pb % 2 ^ 48, cp, cb % 2 ^ 48) ∧ c.poison = false) ∧
  (∀ (s : State) (h ctr : Nat) (c : Channel), s.shared.channels.find? h = some c → c.grant.isSome = true →
    exec (.revoke h ctr) s = .next ((s.poisonChannel h).reapRevoked.signal (ctrKey ctr) 1 false)) ∧
  (∀ (s u : State) (part ctr k : Nat), (s.partOf part).active = true → s.physical part 3 (field (s.partOf part).desc 40 8) = some k →
    u = s.noteHome k 256 → u.badWords k 256 = [] → u.viewOk (u.homeBytes k 256) = true → exec (.almset part ctr) s =
      .next (State.signal { u with disp := { u.disp with
        parts := u.disp.parts.insert part { u.partOf part with view := u.homeBytes k 256 } } } (ctrKey ctr) 1 false)) ∧
  (∀ (s u : State) (part die desc pa ctr k : Nat), pa % 32 = 0 → s.physical part 3 pa = some k → die < 8 → desc < 512 → u = s.noteHome k 32 →
    (u.partOf part).active = true → u.allocated part (chanBit (die * 512 + desc)) = true → u.shared.channels.find? (die * 512 + desc) = none →
    u.badWords k 32 = [] → chanRecordOk (u.homeBytes k 32) = true → ∃ c : Channel, exec (.chcreate part die desc pa ctr) s =
      .next ((u.setChannel (die * 512 + desc) c).signal (ctrKey ctr) 1 false) ∧ c.part = part ∧ c.depth = field (u.homeBytes k 32) 12 2 ∧
      c.slots = [] ∧ c.poison = false) ∧
  (∀ (s : State) (part die desc ctr : Nat) (c : Channel), s.shared.channels.find? (die * 512 + desc) = some c → c.part = part →
    c.grant = none → c.count 1 = 0 → c.count 3 = 0 → exec (.chfree part die desc ctr) s =
      .next (State.signal { s with shared := { s.shared with channels := s.shared.channels.erase (die * 512 + desc) } } (ctrKey ctr) 1 false)) ∧
  (∀ (s : State) (i : Instr) (ctr : Nat),
    ((∃ d q, i = .unmap d q ctr ∧ s.disp.hwqs.find? (hwKey d q) = none) ∨ (∃ p n k, i = .movecont p n k ctr ∧ s.contAt n = none ∧ (p, n, k, ctr) ∉ s.disp.moveconts) ∨
      (∃ h, i = .revoke h ctr ∧ s.shared.channels.find? h = none) ∨ (∃ p, i = .pload p ctr ∧ s.descHome p = none) ∨
      (∃ p va pa, i = .migrate p va pa ctr ∧ s.pageLeaf p (va % 2 ^ 48) = (none, s)) ∨
      (∃ p d m, i = .coreset p d m ctr ∧ s.disp.coresets.contains (p, d, m, ctr) = false ∧ 8 ≤ d) ∨
      (∃ p d c, i = .chfree p d c ctr ∧ s.shared.channels.find? (d * 512 + c) = none) ∨
      (∃ d q p k a, i = .map d q p k a ctr ∧ 8 ≤ d) ∨ (∃ p q, i = .destroy p q ctr ∧ 4096 ≤ q) ∨
      (∃ p, i = .almset p ctr ∧ (s.partOf p).active = false) ∨ (∃ h a b c d, i = .grant h a b c d ctr ∧ 4096 ≤ h) ∨
      (∃ p d c a, i = .chcreate p d c a ctr ∧ a % 32 ≠ 0)) →
    exec i s = .next ((s.notify (.commandFailed ctr)).signal (ctrKey ctr) 0 true))

/-- An eligible home segment is emitted and received by its own die; an arriving header is received and passed on, one
back home is checked and ends; a checked segment becomes PRESENT and one that fails RETIRING with the error counted;
RETIRING slots empty and holds expire when due; copies are restored and reloaded; RFORM, RLOAD, RSTART, RSLACK, RSTOP
and RJOIN act when their conditions hold and the first package reports to their counter and mailbox; a command for no
ring fails, and a link silent for 17,500 ticks bypasses its member. Segments that leave the package are as the model
takes them (log 30). (R15, R18, R19, R20, R21, R23, R416, R417, R424, R425, R426, R454) -/
def Obligations.RingStepsDoTheirWork : Prop :=
  (∀ (s : State) (ring : Nat) (r : Ring), s.ring? ring = some r → r.emits = true →
    (∀ i h d, r.started = true → s.nextEmission r = some (i, h, d) → exec (.segmentEmission ring) s = .next (s.emit ring i h d)) ∧
    (∀ i h, r.started = false → r.start ≤ s.polestar → ((r.order.zipIdx).find? fun (p : Home × Nat) => p.1.turns) = some (h, i) →
      (h.state ≠ .good → exec (.firstEmission ring) s = .next s) ∧
      (∀ d, h.state = .good → r.dieAt s.fabric.self h.home = some d →
        exec (.firstEmission ring) s = .next ((s.setRing ring { r with started := true }).emit ring i h d)))) ∧
  (∀ (s : State) (ring i die : Nat) (h : Home), ∃ f : Flight, f.bytes = (s.homeBytes (residentKey (die * 2 ^ 30 + (s.dieAt die).imageBase + h.off))
      h.size).take 16 ++ leBytes 8 s.polestar ++ (s.homeBytes (residentKey (die * 2 ^ 30 + (s.dieAt die).imageBase + h.off)) h.size).drop 24 ∧
    (s.badWords (residentKey (die * 2 ^ 30 + (s.dieAt die).imageBase + h.off)) h.size = [] →
      s.emit ring i h die = ((s.receive die ring f).passOn ring h.home f).settleRing ring)) ∧
  (∀ (s : State) (die seg : Nat) (f : Flight) (r : Ring), s.arrives die seg = some (f, r) →
    (r.homeOf f.index ≠ some f.dest → exec (.segmentArrival die seg) s =
      .next ((((s.dropFlight seg).receive die f.ring f).passOn f.ring f.dest f).settleRing f.ring)) ∧
    (r.homeOf f.index = some f.dest → (∀ d, d < die → s.arrives d seg = none) → die < 8 → s.flights.find? seg = some f →
      (f.cut = false → segmentOk f.bytes = true → exec (.originReturnCheck seg) s = .next (s.dropFlight seg)) ∧
      (f.cut = true ∨ segmentOk f.bytes = false → exec (.originReturnCheck seg) s =
        .next ((s.dropFlight seg).integrityError die (field f.bytes 0 2) (field f.bytes 2 2))))) ∧
  (∀ (s : State) (die slot : Nat), (s.mslot die slot).state = 1 → s.ring? (s.mslot die slot).ring = none →
    (segmentOk (s.mslot die slot).incoming = true → ∃ u t : State, exec (.expansionCheck die slot) s = .next (t.selectTransits die slot false) ∧
      t.mem = u.mem ∧ u = (s.settleSlot die slot).writeHomeBytes 0 (meridianKey die slot 0) (expandPayload (s.mslot die slot).fmt (field (s.mslot die slot).incoming 13 1)
        (s.mslot die slot).planes ((s.mslot die slot).incoming.drop 64)).1 ∧
      (t.mslot die slot).state = 2 ∧ (t.mslot die slot).present = u.polestar ∧ (t.mslot die slot).deadline = u.polestar + (s.dieAt die).slack) ∧
    (segmentOk (s.mslot die slot).incoming = false → exec (.expansionCheck die slot) s = .next ((s.modSlot die slot fun m =>
      { m with state := 4, retireAt := s.polestar + 16, incoming := [] }).integrityError die (s.mslot die slot).image (s.mslot die slot).tag))) ∧
  (∀ (s : State) (die slot : Nat),
    ((s.mslot die slot).state = 4 → (s.mslot die slot).retireAt ≤ s.polestar →
      exec (.slotRetire die slot) s = .next (s.modSlot die slot fun m => { m with state := 0 })) ∧
    ((s.mslot die slot).state = 3 → (s.mslot die slot).deadline < s.polestar →
      exec (.slackExpiry die slot) s = .next (s.modSlot die slot fun m => { m with state := 2, holds := 0 }))) ∧
  (∀ (s : State) (ring tag d i : Nat) (r : Ring) (h : Home) (bs : List Byte), s.ring? ring = some r → (s.imagePort r).isSome = true →
    s.readSegment r r.image tag h.cbytes h.host = some bs → r.order[i]? = some h →
    (r.entryOf tag .restoring = some i → r.dieAt s.fabric.self h.home = some d →
      exec (.homeCopyRestore ring tag) s = .next (((s.writeSegment d h.off bs).setRing ring
        (r.modHome i fun h => { h with state := .good })).notify (.restored r.image tag true))) ∧
    (∀ q, r.entryOf tag .lost = some i → s.reloader r h = some s.fabric.self → r.roomFor h = some q → r.dieAt s.fabric.self q = some d →
      exec (.missingSegmentReload ring tag) s = .next ((((s.writeSegment d (homedBytes r.order q) bs).setRing ring (r.modHome i fun h =>
        { h with home := q, off := homedBytes r.order q, state := .good })).rewriteRing ring).settleRing ring))) ∧
  (∀ (s : State) (ring config region : Nat) (packages : List Nat) (mail : Mail), ring < 256 → config ≤ 3 → (∀ p ∈ packages, p ≤ 992) →
    s.ring? ring = none → ringPackagesOk s.fabric.self config packages = true → region % 2 ^ 16 = 0 → region ≤ Config.residentBytes → ∀ r : Ring,
    r = { config := config, packages := packages, region := region, mode := .formed, image := 0, manifest := 0, order := [], start := 0, started := false,
          sent := [], slack := 0, period := 0, bypassed := [], stopping := [], part := mail.part } →
    (s.isFirst r = true → s.owns mail.port mail.part = true) →
    (s.rings.any fun (p : Nat × Ring) => (p.2.dies s.fabric.self).any (r.dies s.fabric.self).contains) = false →
    s.mapsRegion (r.dies s.fabric.self) region = false →
    exec (.rform ring config packages region mail) s = .next (((s.setRegion r).setRing ring r).ringDone r mail)) ∧
  (∀ (s : State) (ring : Nat) (mail : Mail) (r : Ring), ring < 256 → s.ring? ring = some r →
    (s.isFirst r = true → s.owns mail.port mail.part = true) →
    (∀ image manifest p order segs q, q = { r with part := mail.part } → image < 2 ^ 16 → r.mode = .formed ∨ r.mode = .loaded →
      s.imagePort q = some p → s.readManifest q image p ((List.range
        ((Config.freeWord s.steps).toNat % 4096 + 1)).map fun i => manifest + 16 * i) [] [] = some (order, segs) → ∃ t : State,
      exec (.rload ring image manifest mail) s = .next ((t.setRing ring { q with
        mode := .loaded, image := image, manifest := manifest, order := order, started := false, sent := [] }).ringDone q mail)) ∧
    (∀ tick slack, r.mode = .loaded → s.polestar + 2 ^ 20 ≤ tick → slack ≤ r.slackBound → ∃ t : State,
      exec (.rstart ring tick slack mail) s = .next (((t.setRing ring { r with
        mode := .running, start := tick, started := false, sent := [], slack := slack, period := r.cycle }).settleRing ring).ringDone r mail)) ∧
    (∀ slack, r.mode = .running ∨ r.mode = .degraded → slack ≤ r.slackBound → exec (.rslack ring slack mail) s =
      .next ((((r.dies s.fabric.self).foldl (fun s d => s.modDie d fun x => { x with slack := slack }) s).setRing ring
        { r with slack := slack }).ringDone r mail)) ∧
    (r.mode ≠ .formed → r.mode ≠ .loaded → exec (.rstop ring mail) s =
      .next ((if s.isFirst r = true then s.takeCommand mail.port else s).setRing ring { r with
        stopping := r.stopping ++ [(mail, (s.portAt mail.port).slot)], quiet := if r.stopping = [] then [] else r.quiet })) ∧
    (∀ p, r.place s.fabric.self = some p → s.fabric.self ≤ 992 → r.mode = .degraded → r.config = 3 →
      (((List.range 8).map fun d => 8 * p + d).all r.bypassed.contains) = true →
      s.fabric.aligned = true → ∃ q : Ring, exec (.rjoin ring s.fabric.self mail) s =
        .next ((((s.setRing ring q).rewriteRing ring).settleRing ring).ringDone r mail) ∧
        q.bypassed = r.bypassed.filter fun x => !((List.range 8).map fun d => 8 * p + d).contains x)) ∧
  (∀ (s : State) (ring : Nat) (r : Ring), s.ring? ring = some r →
    (∀ mail slot, r.stopping = [(mail, slot)] → s.allHome ring r = true → r.mode ≠ .broken →
      exec (.rstopComplete ring) s = .next ((s.setRing ring { r with
        started := false, sent := [], stopping := [], quiet := [], mode := .loaded }).ringStopped r mail slot)) ∧
    (∀ pos, r.mode = .running ∨ r.mode = .degraded → pos < r.size → r.bypassed.contains pos = false →
      (s.silentLong r pos = false → exec (.ringLinkDead ring pos) s = .next s) ∧
      (s.silentLong r pos = true → ∃ (t : State) (q : Ring),
        exec (.ringLinkDead ring pos) s = .next (t.rewriteRing ring) ∧ t.ring? ring = some q ∧
        q.bypassed = (s.lostPositions r pos).foldl setInsert r.bypassed ∧ (q.mode = .degraded ∧ q.spanned = true ∨ q.mode = .broken ∧ q.spanned = false))) ∧
    (∀ n p q, (r.bypassedPlaces.find? fun p => r.granted p < 12 && (r.lanes.getD p (0, 0)).2 ≤ s.polestar) = some p →
      q = { r with lanes := r.lanes.insert p (Nat.min n 12, s.polestar + 2 ^ 24) } →
      (q.granted p = r.granted p → exec (.bypassLaneRequest ring n) s = .next (s.setRing ring q)) ∧
      (q.granted p ≠ r.granted p → exec (.bypassLaneRequest ring n) s = .next ((s.setRing ring q).rewriteRing ring)))) ∧
  (∀ (s : State) (i : Instr) (ring : Nat) (mail : Mail), s.ring? ring = none →
    ((∃ image m, image < 2 ^ 16 ∧ i = .rload ring image m mail) ∨ (∃ t l, i = .rstart ring t l mail) ∨ (∃ l, i = .rslack ring l mail) ∨
      i = .rstop ring mail ∨ (∃ p, p ≤ 992 ∧ i = .rjoin ring p mail)) →
    exec i s = .next (((s.notify (.commandFailed mail.ctr)).signal (ctrKey mail.ctr) 0 true).replyTo mail.port (if ring < 256 then 1 else 2) 0))

/-- Time flits and heartbeats join a port's queue, time is taken, at boot in one step and later by slewing, a silent
port is closed and its loss declared, a new notice is entered, draws, requests, responses, admissions and replays act,
a request answered each time it comes and nothing taken from a dead link; mailbox commands from an owner act and reply
0; token frames are posted and their slots freed; links go down and up; scrubbing logs a bad word; power states
change; droop, freeze, read-out, reset and attestation do their work. (R422, R432, R434, R435, R436, R438, R441, R442,
R443, R446, R448, R452) -/
def Obligations.FabricHostAndPowerStepsDoTheirWork : Prop :=
  (∀ s : State, s.fabric.timeSent + 2 ^ 16 ≤ s.polestar → s.plat.ps < 2 → ∃ u : State,
    u = s.fabric.livePorts.foldl (fun s p => s.sendFlit p (leBytes 8 s.polestar ++ s.freeBytes 56)) s ∧
    exec .timeFlitSend s = .next { u with fabric := { u.fabric with timeSent := u.polestar } }) ∧
  (∀ (s : State) (port time delay : Nat), s.fabric.isLive port = true → ∀ u, u = s.hear port →
    (u.fabric.timePort ≠ some port → exec (.timeFlitReceive port time delay) s = .next u) ∧
    (u.fabric.timePort = some port → u.fabric.aligned = true → exec (.timeFlitReceive port time delay) s =
      .next { u with fabric := { u.fabric with offset := ((time + delay : Nat) : Int) - (u.polestar : Int) } }) ∧
    (u.fabric.timePort = some port → u.fabric.aligned = false → exec (.timeFlitReceive port time delay) s =
      .next (u.setTime (time + delay))) ∧
    (u.booting = true → (u.setTime time).polestar = time ∧ (u.setTime time).fabric.offset = 0 ∧ (u.setTime time).fabric.aligned = true) ∧
    (u.booting = false → u.setTime time =
      { u with fabric := { u.fabric with offset := (time : Int) - u.polestar, aligned := true } })) ∧
  (∀ (s : State) (port : Nat) (p : Port), s.fabric.ports.find? port = some p → p.live = true →
    (p.queue = [] → p.sent + 1024 ≤ s.polestar → s.plat.ps < 2 → exec (.heartbeat port) s = .next (s.sendFlit port (s.freeBytes 64))) ∧
    (p.heard + 17500 ≤ s.polestar → ∀ u : State, u = { s with fabric := s.fabric.modFabricPort port fun p => { p with live := false, queue := [] } } →
      (u.fabric.deadLinks.contains (u.fabric.self, p.peer) = true → exec (.fabricLinkDead port) s = .next (u.enterLoss p.peer u.fabric.self 0)) ∧
      (u.fabric.deadLinks.contains (u.fabric.self, p.peer) = false → ∃ kind : Nat, kind < 2 ∧
        exec (.fabricLinkDead port) s = .next (u.declareLoss port p.peer kind)))) ∧
  (∀ (s : State) (port silent reporter rport kind stamp nseq : Nat), s.fabric.isLive port = true →
    ((s.hear port).fabric.seen.contains (reporter, nseq) = true → exec (.eclipseNotice port silent reporter rport kind stamp nseq) s = .next (s.hear port)) ∧
    ((s.hear port).fabric.seen.contains (reporter, nseq) = false → ∃ t : State,
      exec (.eclipseNotice port silent reporter rport kind stamp nseq) s = .next (t.enterLoss silent reporter kind) ∧
      (reporter, nseq) ∈ t.fabric.seen)) ∧
  (∀ (s : State) (draws : List Nat), s.fabric.redrawn + 2 ^ 24 ≤ s.polestar → ∃ t : State, exec (.routeRedraw draws) s = .next t ∧
    t.fabric.draws = (draws.take 4).map (· % 32) ∧ t.fabric.redrawn = s.polestar) ∧
  (∀ (s : State) (source seqno loc : Nat) (q : FabricReq),
    (s.fabric.isLive q.port = false → exec (.fabricRequest source seqno loc q) s = .next s) ∧
    (s.fabric.isLive q.port = true → ∀ h, h = s.hear q.port →
      (∀ x, (h.fabric.performed.find? fun x => x.1 = source && x.2.1 = seqno) = some x →
        exec (.fabricRequest source seqno loc q) s = .next (h.respond source x.2.2.1 x.2.2.2)) ∧
      ((h.fabric.performed.find? fun x => x.1 = source && x.2.1 = seqno) = none → ∀ u bs tags, u = h.performRequest (loc % 2 ^ 33) q.op →
        bs = h.answer (loc % 2 ^ 33) q.op → tags = h.answerTags (loc % 2 ^ 33) q.op → exec (.fabricRequest source seqno loc q) s =
          .next (State.respond { u with fabric := { u.fabric with
            performed := u.fabric.performed ++ [(source, seqno, bs, tags)] } } source bs tags)))) ∧
  (∀ (s : State) (a : FabricAck),
    (s.fabric.isLive a.port = false → exec (.fabricResponse a) s = .next s) ∧
    (s.fabric.isLive a.port = true → ∀ h, h = s.hear a.port → exec (.fabricResponse a) s = .next { h with fabric := { h.fabric with
      unacked := h.fabric.unacked.filter fun q => q.num ≠ a.request } })) ∧
  (∀ (s : State) (package port master : Nat), package < 993 → ∃ t : State,
    exec (.fabricAdmission package port master) s = .next t.rebuildRoutes.resend ∧ package ∉ t.fabric.eclipsed ∧ package ∈ t.fabric.admitted) ∧
  (∀ (s : State) (port : Nat), s.fabric.isLive port = true →
    exec (.linkLevelReplay port) s = .next { s with fabric := { s.fabric with replays := s.fabric.replays + 1 } }) ∧
  (∀ (s : State) (port part group : Nat), s.owns port part = true → s.groupBusy group = false → group < 4096 →
    (∀ members, 2 ≤ members.length → members.length ≤ 256 → members.all memberOk = true →
      (members.all fun w => s.isMember part (w % 2 ^ 10)) = true →
      (∀ g, s.shared.groups.find? group = some g → g.part = part ∧ g.dead = false) → exec (.groupset port part group members) s =
      .next (State.replyTo (State.setAllocated { s with shared := { s.shared with
        groups := s.shared.groups.insert group ⟨part, members, false, []⟩ } } part (6144 + group) true) port 0 0)) ∧
    (∀ g, s.shared.groups.find? group = some g → g.part = part → exec (.groupclr port part group) s =
      .next (State.replyTo (State.setAllocated { s with shared := { s.shared with groups := s.shared.groups.erase group } }
        part (6144 + group) false) port 0 0))) ∧
  (∀ (s : State) (port : Nat) (parts : List Nat), port < 2 → s.portUp port = true →
    (∀ p ∈ parts, (s.partOf p).active = true ∧ ((s.partOf p).orphaned = true ∨ field (s.partOf p).desc 2 1 = port)) →
    exec (.ownerset port parts) s = .next ((parts.foldl (fun s p => s.giveTo port p) s).replyTo port 0 0)) ∧
  (∀ (s : State) (port part base count tailAddr : Nat), s.owns port part = true → base % 4096 = 0 → base < 2 ^ 48 →
    powerIn count 2 4096 = true → tailAddr % 8 = 0 → tailAddr < 2 ^ 48 → exec (.tsring port part base count tailAddr) s =
    .next ((s.setStream part { s.stream part with
      port := port, base := base, count := count, tailAddr := tailAddr, head := (s.stream part).fseq }).replyTo port 0 0)) ∧
  (∀ (s : State) (port index : Nat), index < 993 → s.portUp port = true →
    exec (.readRoutingEntry port index) s = .next (s.replyTo port 0 (s.fabric.routes.getD index (3 * 2 ^ 5)))) ∧
  (∀ (s : State) (part : Nat), (s.partOf part).orphaned = true → exec (.tokenFrameClose part) s = .next (s.holdTokens part)) ∧
  (∀ (s : State) (part : Nat), (s.partOf part).orphaned = false → (s.stream part).count ≠ 0 → s.frameDue part = true → ∀ u t,
    u = s.holdTokens part → t = u.stream part → u.portUp t.port = true → t.fseq < t.head + t.count →
    exec (.tokenFrameClose part) s = .next (u.postFrame part t (t.holding.take 254))) ∧
  (∀ (s : State) (part head : Nat), (s.stream part).head ≤ head → head ≤ (s.stream part).fseq →
    exec (.tsHeadWrite part head) s = .next (s.setStream part { s.stream part with head := head })) ∧
  (∀ (s : State) (port : Nat), port < 2 →
    exec (.pcieLinkUp port) s = .next (s.modPort port fun p => { p with up := true }) ∧
    ∃ t : State, exec (.pcieLinkDown port) s = .next (t.notify (.portLost port)) ∧ (t.portAt port).up = false) ∧
  (∀ (s : State) (w : Nat), (w ∈ s.bad → ∃ m, exec (.patrolScrub w) s =
    .next (State.logError { s with plat := { s.plat with scrubbed := m } } .scrub 0 w) ∧ m.find? w = some s.polestar) ∧ (w ∉ s.bad → exec (.patrolScrub w) s = .next s)) ∧
  (∀ (s : State) (port st freq : Nat), port < 2 → st < 4 → (st = 1 → 20 ≤ freq ∧ freq ≤ 70) → ∀ u,
    u = (s.modPort port fun p => { p with power := st, freq := if st = 1 then freq else p.freq }) →
    (2 ≤ u.powerTarget → exec (.powerRequest port st freq) s = .next u) ∧
    (u.powerTarget < 2 → 2 ≤ u.plat.ps → exec (.powerRequest port st freq) s = .next u.startWake) ∧
    (u.powerTarget < 2 → u.plat.ps < 2 → exec (.powerRequest port st freq) s =
      .next { u with plat := { u.plat with ps := u.powerTarget, freq := u.powerFreq } })) ∧
  (∀ s : State, 2 ≤ s.powerTarget → s.plat.ps < 2 → s.enginesIdle = true →
    (∀ c ∈ s.contexts, c.slot < 4 → (s.hartAt c).status ≠ .ready) →
    exec .powerStateEntry s = .next { s with plat := { s.plat with ps := s.powerTarget, wakeAt := none, sramLost := s.powerTarget == 3 } }) ∧
  (∀ (s : State) (t : Nat), s.plat.wakeAt = some t → t ≤ s.polestar →
    (s.plat.ps = 3 → exec .powerStateExit s = .next (s.bringUp s.keptLatches 3)) ∧
    (s.plat.ps = 2 → exec .powerStateExit s = .next ((s.disp.hwqs.map (·.1)).foldl State.wakeHwq
      { s with plat := { s.plat with ps := 0, freq := 70, wakeAt := none } }))) ∧
  (∀ (s : State) (die ticks : Nat), ∃ t : State, exec (.droopStretch die ticks) s = .next t ∧ t.polestar = s.polestar + ticks ∧
    (t.dieAt die).stretch = (s.dieAt die).stretch + 1 ∧ (t.dieAt die).lag ≤ (s.dieAt die).lag + ticks) ∧
  (∀ s : State, exec .freeze s = .next { s with plat := { s.plat with frozen := true, readout := 0 } } ∧
    (s.plat.frozen = true → s.plat.readout < 3 → exec .freezeReadout s = .next (State.notify { s with plat := { s.plat with
      readout := s.plat.readout + 1 } } (.readout 0 (s.plat.readout + 1)))) ∧
    (s.plat.secure = true → exec .reset s = .next (s.bringUp [] 0)) ∧
    (s.plat.secure = false → ∃ t : State, exec .reset s = .next t ∧ t.plat.halted = true ∧ t.plat.booted = false ∧ (t.portAt 0).bootStatus = 2 ∧
      (t.portAt 1).bootStatus = 2) ∧
    (∀ port nonce, exec (.attestationReport port nonce) s = .next (s.notify (.attestation port
      (s.reportBody nonce ++ signatureBytes (Config.ecdsaSign (digestWord (sha384 (s.reportBody nonce)))))))))
end

