-- ==== Sys2Proof/Laws/Digest.lean ====
section
/-! SUPPORT. The length of a SHA-384 digest. -/

namespace Sys2Proof.Machine

/-- A round keeps eight working words. -/
theorem shaRound_length (h : List (BitVec 64)) (x : BitVec 64 × BitVec 64) (hh : h.length = 8) : (shaRound h x).length = 8 := by
  match h, hh with
  | [_, _, _, _, _, _, _, _], _ => rfl

/-- Rounds keep eight working words. -/
theorem shaRounds_length (l : List (BitVec 64 × BitVec 64)) : ∀ h : List (BitVec 64), h.length = 8 → (l.foldl shaRound h).length = 8 := by
  induction l with
  | nil => intro h hh; exact hh
  | cons a t ih => intro h hh; exact ih _ (shaRound_length h a hh)

/-- A block keeps eight words. -/
theorem shaBlock_length (h : List (BitVec 64)) (b : List Byte) (hh : h.length = 8) : (shaBlock h b).length = 8 := by
  simp [shaBlock, shaRounds_length _ h hh, hh]

/-- Blocks keep eight words. -/
theorem shaBlocks_length (f : Nat → List Byte) :
    ∀ (l : List Nat) (h : List (BitVec 64)), h.length = 8 → (l.foldl (fun h i => shaBlock h (f i)) h).length = 8 := by
  intro l
  induction l with
  | nil => intro h hh; exact hh
  | cons a t ih => intro h hh; exact ih _ (shaBlock_length h (f a) hh)

/-- A digest has 48 bytes. -/
theorem sha384_length (m : List Byte) : (sha384 m).length = 48 := by
  have key : ∀ h : List (BitVec 64), h.length = 8 → ((h.take 6).flatMap fun w => beBytes 8 w.toNat).length = 48 := by
    intro h hh
    match h, hh with
    | [_, _, _, _, _, _, _, _], _ => simp [beBytes, leBytes]
  exact key _ (shaBlocks_length _ _ _ rfl)

end Sys2Proof.Machine
end

