-- ==== Sys2Proof/Laws/State.lean ====
section
/-! SUPPORT. What each update of the state leaves and what it writes, one lemma for each field of each update. -/

namespace Sys2Proof.Machine

/-! ### mod -/

@[simp] theorem State.mod_here (s : State) (f : Hart → Hart) : (s.mod f).here = s.here := rfl
@[simp] theorem State.mod_hart (s : State) (f : Hart → Hart) : (s.mod f).hart = f s.hart := rfl
@[simp] theorem State.mod_parked (s : State) (f : Hart → Hart) : (s.mod f).parked = s.parked := rfl
@[simp] theorem State.mod_mem (s : State) (f : Hart → Hart) : (s.mod f).mem = s.mem := rfl
@[simp] theorem State.mod_tags (s : State) (f : Hart → Hart) : (s.mod f).tags = s.tags := rfl
@[simp] theorem State.mod_bad (s : State) (f : Hart → Hart) : (s.mod f).bad = s.bad := rfl
@[simp] theorem State.mod_polestar (s : State) (f : Hart → Hart) : (s.mod f).polestar = s.polestar := rfl
@[simp] theorem State.mod_clock (s : State) (f : Hart → Hart) : (s.mod f).clock = s.clock := rfl
@[simp] theorem State.mod_steps (s : State) (f : Hart → Hart) : (s.mod f).steps = s.steps := rfl
@[simp] theorem State.mod_cores (s : State) (f : Hart → Hart) : (s.mod f).cores = s.cores := rfl
@[simp] theorem State.mod_dies (s : State) (f : Hart → Hart) : (s.mod f).dies = s.dies := rfl
@[simp] theorem State.mod_egress (s : State) (f : Hart → Hart) : (s.mod f).egress = s.egress := rfl
@[simp] theorem State.mod_shared (s : State) (f : Hart → Hart) : (s.mod f).shared = s.shared := rfl
@[simp] theorem State.mod_eng (s : State) (f : Hart → Hart) : (s.mod f).eng = s.eng := rfl
@[simp] theorem State.mod_disp (s : State) (f : Hart → Hart) : (s.mod f).disp = s.disp := rfl
@[simp] theorem State.mod_rings (s : State) (f : Hart → Hart) : (s.mod f).rings = s.rings := rfl
@[simp] theorem State.mod_flights (s : State) (f : Hart → Hart) : (s.mod f).flights = s.flights := rfl
@[simp] theorem State.mod_fabric (s : State) (f : Hart → Hart) : (s.mod f).fabric = s.fabric := rfl
@[simp] theorem State.mod_ports (s : State) (f : Hart → Hart) : (s.mod f).ports = s.ports := rfl
@[simp] theorem State.mod_streams (s : State) (f : Hart → Hart) : (s.mod f).streams = s.streams := rfl
@[simp] theorem State.mod_plat (s : State) (f : Hart → Hart) : (s.mod f).plat = s.plat := rfl
@[simp] theorem State.mod_notices (s : State) (f : Hart → Hart) : (s.mod f).notices = s.notices := rfl
@[simp] theorem State.mod_agenda (s : State) (f : Hart → Hart) : (s.mod f).agenda = s.agenda := rfl

/-! ### modTask -/

@[simp] theorem State.modTask_here (s : State) (f : TaskInfo → TaskInfo) : (s.modTask f).here = s.here := rfl
@[simp] theorem State.modTask_hart (s : State) (f : TaskInfo → TaskInfo) : (s.modTask f).hart = { s.hart with task := f s.hart.task } := rfl
@[simp] theorem State.modTask_parked (s : State) (f : TaskInfo → TaskInfo) : (s.modTask f).parked = s.parked := rfl
@[simp] theorem State.modTask_mem (s : State) (f : TaskInfo → TaskInfo) : (s.modTask f).mem = s.mem := rfl
@[simp] theorem State.modTask_tags (s : State) (f : TaskInfo → TaskInfo) : (s.modTask f).tags = s.tags := rfl
@[simp] theorem State.modTask_bad (s : State) (f : TaskInfo → TaskInfo) : (s.modTask f).bad = s.bad := rfl
@[simp] theorem State.modTask_polestar (s : State) (f : TaskInfo → TaskInfo) : (s.modTask f).polestar = s.polestar := rfl
@[simp] theorem State.modTask_clock (s : State) (f : TaskInfo → TaskInfo) : (s.modTask f).clock = s.clock := rfl
@[simp] theorem State.modTask_steps (s : State) (f : TaskInfo → TaskInfo) : (s.modTask f).steps = s.steps := rfl
@[simp] theorem State.modTask_cores (s : State) (f : TaskInfo → TaskInfo) : (s.modTask f).cores = s.cores := rfl
@[simp] theorem State.modTask_dies (s : State) (f : TaskInfo → TaskInfo) : (s.modTask f).dies = s.dies := rfl
@[simp] theorem State.modTask_egress (s : State) (f : TaskInfo → TaskInfo) : (s.modTask f).egress = s.egress := rfl
@[simp] theorem State.modTask_shared (s : State) (f : TaskInfo → TaskInfo) : (s.modTask f).shared = s.shared := rfl
@[simp] theorem State.modTask_eng (s : State) (f : TaskInfo → TaskInfo) : (s.modTask f).eng = s.eng := rfl
@[simp] theorem State.modTask_disp (s : State) (f : TaskInfo → TaskInfo) : (s.modTask f).disp = s.disp := rfl
@[simp] theorem State.modTask_rings (s : State) (f : TaskInfo → TaskInfo) : (s.modTask f).rings = s.rings := rfl
@[simp] theorem State.modTask_flights (s : State) (f : TaskInfo → TaskInfo) : (s.modTask f).flights = s.flights := rfl
@[simp] theorem State.modTask_fabric (s : State) (f : TaskInfo → TaskInfo) : (s.modTask f).fabric = s.fabric := rfl
@[simp] theorem State.modTask_ports (s : State) (f : TaskInfo → TaskInfo) : (s.modTask f).ports = s.ports := rfl
@[simp] theorem State.modTask_streams (s : State) (f : TaskInfo → TaskInfo) : (s.modTask f).streams = s.streams := rfl
@[simp] theorem State.modTask_plat (s : State) (f : TaskInfo → TaskInfo) : (s.modTask f).plat = s.plat := rfl
@[simp] theorem State.modTask_notices (s : State) (f : TaskInfo → TaskInfo) : (s.modTask f).notices = s.notices := rfl
@[simp] theorem State.modTask_agenda (s : State) (f : TaskInfo → TaskInfo) : (s.modTask f).agenda = s.agenda := rfl

/-! ### effect -/

@[simp] theorem State.effect_here (s : State) : s.effect.here = s.here := rfl
@[simp] theorem State.effect_hart (s : State) : s.effect.hart = { s.hart with task := { s.hart.task with sideEffect := true } } := rfl
@[simp] theorem State.effect_parked (s : State) : s.effect.parked = s.parked := rfl
@[simp] theorem State.effect_mem (s : State) : s.effect.mem = s.mem := rfl
@[simp] theorem State.effect_tags (s : State) : s.effect.tags = s.tags := rfl
@[simp] theorem State.effect_bad (s : State) : s.effect.bad = s.bad := rfl
@[simp] theorem State.effect_polestar (s : State) : s.effect.polestar = s.polestar := rfl
@[simp] theorem State.effect_clock (s : State) : s.effect.clock = s.clock := rfl
@[simp] theorem State.effect_steps (s : State) : s.effect.steps = s.steps := rfl
@[simp] theorem State.effect_cores (s : State) : s.effect.cores = s.cores := rfl
@[simp] theorem State.effect_dies (s : State) : s.effect.dies = s.dies := rfl
@[simp] theorem State.effect_egress (s : State) : s.effect.egress = s.egress := rfl
@[simp] theorem State.effect_shared (s : State) : s.effect.shared = s.shared := rfl
@[simp] theorem State.effect_eng (s : State) : s.effect.eng = s.eng := rfl
@[simp] theorem State.effect_disp (s : State) : s.effect.disp = s.disp := rfl
@[simp] theorem State.effect_rings (s : State) : s.effect.rings = s.rings := rfl
@[simp] theorem State.effect_flights (s : State) : s.effect.flights = s.flights := rfl
@[simp] theorem State.effect_fabric (s : State) : s.effect.fabric = s.fabric := rfl
@[simp] theorem State.effect_ports (s : State) : s.effect.ports = s.ports := rfl
@[simp] theorem State.effect_streams (s : State) : s.effect.streams = s.streams := rfl
@[simp] theorem State.effect_plat (s : State) : s.effect.plat = s.plat := rfl
@[simp] theorem State.effect_notices (s : State) : s.effect.notices = s.notices := rfl
@[simp] theorem State.effect_agenda (s : State) : s.effect.agenda = s.agenda := rfl

/-! ### advance -/

@[simp] theorem State.advance_here (s : State) (n : Nat) : (s.advance n).here = s.here := rfl
@[simp] theorem State.advance_hart (s : State) (n : Nat) : (s.advance n).hart = { s.hart with pc := s.hart.pc + BitVec.ofNat 64 n, status := .ready, issued := s.hart.issued + 1, task := s.hart.task.issued } := rfl
@[simp] theorem State.advance_parked (s : State) (n : Nat) : (s.advance n).parked = s.parked := rfl
@[simp] theorem State.advance_mem (s : State) (n : Nat) : (s.advance n).mem = s.mem := rfl
@[simp] theorem State.advance_tags (s : State) (n : Nat) : (s.advance n).tags = s.tags := rfl
@[simp] theorem State.advance_bad (s : State) (n : Nat) : (s.advance n).bad = s.bad := rfl
@[simp] theorem State.advance_polestar (s : State) (n : Nat) : (s.advance n).polestar = s.polestar := rfl
@[simp] theorem State.advance_clock (s : State) (n : Nat) : (s.advance n).clock = s.clock := rfl
@[simp] theorem State.advance_steps (s : State) (n : Nat) : (s.advance n).steps = s.steps := rfl
@[simp] theorem State.advance_cores (s : State) (n : Nat) : (s.advance n).cores = s.cores := rfl
@[simp] theorem State.advance_dies (s : State) (n : Nat) : (s.advance n).dies = s.dies := rfl
@[simp] theorem State.advance_egress (s : State) (n : Nat) : (s.advance n).egress = s.egress := rfl
@[simp] theorem State.advance_shared (s : State) (n : Nat) : (s.advance n).shared = s.shared := rfl
@[simp] theorem State.advance_eng (s : State) (n : Nat) : (s.advance n).eng = s.eng := rfl
@[simp] theorem State.advance_disp (s : State) (n : Nat) : (s.advance n).disp = s.disp := rfl
@[simp] theorem State.advance_rings (s : State) (n : Nat) : (s.advance n).rings = s.rings := rfl
@[simp] theorem State.advance_flights (s : State) (n : Nat) : (s.advance n).flights = s.flights := rfl
@[simp] theorem State.advance_fabric (s : State) (n : Nat) : (s.advance n).fabric = s.fabric := rfl
@[simp] theorem State.advance_ports (s : State) (n : Nat) : (s.advance n).ports = s.ports := rfl
@[simp] theorem State.advance_streams (s : State) (n : Nat) : (s.advance n).streams = s.streams := rfl
@[simp] theorem State.advance_plat (s : State) (n : Nat) : (s.advance n).plat = s.plat := rfl
@[simp] theorem State.advance_notices (s : State) (n : Nat) : (s.advance n).notices = s.notices := rfl
@[simp] theorem State.advance_agenda (s : State) (n : Nat) : (s.advance n).agenda = s.agenda := rfl

/-! ### block -/

@[simp] theorem State.block_here (s : State) : s.block.here = s.here := rfl
@[simp] theorem State.block_hart (s : State) : s.block.hart = { s.hart with status := .blocked, task := { s.hart.task with waiting := some (s.hart.task.waiting.getD s.polestar) } } := rfl
@[simp] theorem State.block_parked (s : State) : s.block.parked = s.parked := rfl
@[simp] theorem State.block_mem (s : State) : s.block.mem = s.mem := rfl
@[simp] theorem State.block_tags (s : State) : s.block.tags = s.tags := rfl
@[simp] theorem State.block_bad (s : State) : s.block.bad = s.bad := rfl
@[simp] theorem State.block_polestar (s : State) : s.block.polestar = s.polestar := rfl
@[simp] theorem State.block_clock (s : State) : s.block.clock = s.clock := rfl
@[simp] theorem State.block_steps (s : State) : s.block.steps = s.steps := rfl
@[simp] theorem State.block_cores (s : State) : s.block.cores = s.cores := rfl
@[simp] theorem State.block_dies (s : State) : s.block.dies = s.dies := rfl
@[simp] theorem State.block_egress (s : State) : s.block.egress = s.egress := rfl
@[simp] theorem State.block_shared (s : State) : s.block.shared = s.shared := rfl
@[simp] theorem State.block_eng (s : State) : s.block.eng = s.eng := rfl
@[simp] theorem State.block_disp (s : State) : s.block.disp = s.disp := rfl
@[simp] theorem State.block_rings (s : State) : s.block.rings = s.rings := rfl
@[simp] theorem State.block_flights (s : State) : s.block.flights = s.flights := rfl
@[simp] theorem State.block_fabric (s : State) : s.block.fabric = s.fabric := rfl
@[simp] theorem State.block_ports (s : State) : s.block.ports = s.ports := rfl
@[simp] theorem State.block_streams (s : State) : s.block.streams = s.streams := rfl
@[simp] theorem State.block_plat (s : State) : s.block.plat = s.plat := rfl
@[simp] theorem State.block_notices (s : State) : s.block.notices = s.notices := rfl
@[simp] theorem State.block_agenda (s : State) : s.block.agenda = s.agenda := rfl

/-! ### blockOn -/

@[simp] theorem State.blockOn_here (s : State) (w : Wait) : (s.blockOn w).here = s.here := rfl
@[simp] theorem State.blockOn_hart (s : State) (w : Wait) : (s.blockOn w).hart = { s.hart with status := .blocked, task := { s.hart.task with wait := some w, waiting := some (s.hart.task.waiting.getD s.polestar) } } := rfl
@[simp] theorem State.blockOn_parked (s : State) (w : Wait) : (s.blockOn w).parked = s.parked := rfl
@[simp] theorem State.blockOn_mem (s : State) (w : Wait) : (s.blockOn w).mem = s.mem := rfl
@[simp] theorem State.blockOn_tags (s : State) (w : Wait) : (s.blockOn w).tags = s.tags := rfl
@[simp] theorem State.blockOn_bad (s : State) (w : Wait) : (s.blockOn w).bad = s.bad := rfl
@[simp] theorem State.blockOn_polestar (s : State) (w : Wait) : (s.blockOn w).polestar = s.polestar := rfl
@[simp] theorem State.blockOn_clock (s : State) (w : Wait) : (s.blockOn w).clock = s.clock := rfl
@[simp] theorem State.blockOn_steps (s : State) (w : Wait) : (s.blockOn w).steps = s.steps := rfl
@[simp] theorem State.blockOn_cores (s : State) (w : Wait) : (s.blockOn w).cores = s.cores := rfl
@[simp] theorem State.blockOn_dies (s : State) (w : Wait) : (s.blockOn w).dies = s.dies := rfl
@[simp] theorem State.blockOn_egress (s : State) (w : Wait) : (s.blockOn w).egress = s.egress := rfl
@[simp] theorem State.blockOn_shared (s : State) (w : Wait) : (s.blockOn w).shared = s.shared := rfl
@[simp] theorem State.blockOn_eng (s : State) (w : Wait) : (s.blockOn w).eng = s.eng := rfl
@[simp] theorem State.blockOn_disp (s : State) (w : Wait) : (s.blockOn w).disp = s.disp := rfl
@[simp] theorem State.blockOn_rings (s : State) (w : Wait) : (s.blockOn w).rings = s.rings := rfl
@[simp] theorem State.blockOn_flights (s : State) (w : Wait) : (s.blockOn w).flights = s.flights := rfl
@[simp] theorem State.blockOn_fabric (s : State) (w : Wait) : (s.blockOn w).fabric = s.fabric := rfl
@[simp] theorem State.blockOn_ports (s : State) (w : Wait) : (s.blockOn w).ports = s.ports := rfl
@[simp] theorem State.blockOn_streams (s : State) (w : Wait) : (s.blockOn w).streams = s.streams := rfl
@[simp] theorem State.blockOn_plat (s : State) (w : Wait) : (s.blockOn w).plat = s.plat := rfl
@[simp] theorem State.blockOn_notices (s : State) (w : Wait) : (s.blockOn w).notices = s.notices := rfl
@[simp] theorem State.blockOn_agenda (s : State) (w : Wait) : (s.blockOn w).agenda = s.agenda := rfl

/-! ### queueLoad -/

@[simp] theorem State.queueLoad_here (s : State) (sp n : Nat) (d : LoadDest) (l : List (Nat × Nat)) : (s.queueLoad sp n d l).here = s.here := rfl
@[simp] theorem State.queueLoad_hart (s : State) (sp n : Nat) (d : LoadDest) (l : List (Nat × Nat)) : (s.queueLoad sp n d l).hart = { s.hart with loads := s.hart.loads ++ [⟨s.hart.issued, s.hart.pc, sp, n, d, l.map fun e => ⟨e.1, e.2, none⟩⟩] } := rfl
@[simp] theorem State.queueLoad_parked (s : State) (sp n : Nat) (d : LoadDest) (l : List (Nat × Nat)) : (s.queueLoad sp n d l).parked = s.parked := rfl
@[simp] theorem State.queueLoad_mem (s : State) (sp n : Nat) (d : LoadDest) (l : List (Nat × Nat)) : (s.queueLoad sp n d l).mem = s.mem := rfl
@[simp] theorem State.queueLoad_tags (s : State) (sp n : Nat) (d : LoadDest) (l : List (Nat × Nat)) : (s.queueLoad sp n d l).tags = s.tags := rfl
@[simp] theorem State.queueLoad_bad (s : State) (sp n : Nat) (d : LoadDest) (l : List (Nat × Nat)) : (s.queueLoad sp n d l).bad = s.bad := rfl
@[simp] theorem State.queueLoad_polestar (s : State) (sp n : Nat) (d : LoadDest) (l : List (Nat × Nat)) : (s.queueLoad sp n d l).polestar = s.polestar := rfl
@[simp] theorem State.queueLoad_clock (s : State) (sp n : Nat) (d : LoadDest) (l : List (Nat × Nat)) : (s.queueLoad sp n d l).clock = s.clock := rfl
@[simp] theorem State.queueLoad_steps (s : State) (sp n : Nat) (d : LoadDest) (l : List (Nat × Nat)) : (s.queueLoad sp n d l).steps = s.steps := rfl
@[simp] theorem State.queueLoad_cores (s : State) (sp n : Nat) (d : LoadDest) (l : List (Nat × Nat)) : (s.queueLoad sp n d l).cores = s.cores := rfl
@[simp] theorem State.queueLoad_dies (s : State) (sp n : Nat) (d : LoadDest) (l : List (Nat × Nat)) : (s.queueLoad sp n d l).dies = s.dies := rfl
@[simp] theorem State.queueLoad_egress (s : State) (sp n : Nat) (d : LoadDest) (l : List (Nat × Nat)) : (s.queueLoad sp n d l).egress = s.egress := rfl
@[simp] theorem State.queueLoad_shared (s : State) (sp n : Nat) (d : LoadDest) (l : List (Nat × Nat)) : (s.queueLoad sp n d l).shared = s.shared := rfl
@[simp] theorem State.queueLoad_eng (s : State) (sp n : Nat) (d : LoadDest) (l : List (Nat × Nat)) : (s.queueLoad sp n d l).eng = s.eng := rfl
@[simp] theorem State.queueLoad_disp (s : State) (sp n : Nat) (d : LoadDest) (l : List (Nat × Nat)) : (s.queueLoad sp n d l).disp = s.disp := rfl
@[simp] theorem State.queueLoad_rings (s : State) (sp n : Nat) (d : LoadDest) (l : List (Nat × Nat)) : (s.queueLoad sp n d l).rings = s.rings := rfl
@[simp] theorem State.queueLoad_flights (s : State) (sp n : Nat) (d : LoadDest) (l : List (Nat × Nat)) : (s.queueLoad sp n d l).flights = s.flights := rfl
@[simp] theorem State.queueLoad_fabric (s : State) (sp n : Nat) (d : LoadDest) (l : List (Nat × Nat)) : (s.queueLoad sp n d l).fabric = s.fabric := rfl
@[simp] theorem State.queueLoad_ports (s : State) (sp n : Nat) (d : LoadDest) (l : List (Nat × Nat)) : (s.queueLoad sp n d l).ports = s.ports := rfl
@[simp] theorem State.queueLoad_streams (s : State) (sp n : Nat) (d : LoadDest) (l : List (Nat × Nat)) : (s.queueLoad sp n d l).streams = s.streams := rfl
@[simp] theorem State.queueLoad_plat (s : State) (sp n : Nat) (d : LoadDest) (l : List (Nat × Nat)) : (s.queueLoad sp n d l).plat = s.plat := rfl
@[simp] theorem State.queueLoad_notices (s : State) (sp n : Nat) (d : LoadDest) (l : List (Nat × Nat)) : (s.queueLoad sp n d l).notices = s.notices := rfl
@[simp] theorem State.queueLoad_agenda (s : State) (sp n : Nat) (d : LoadDest) (l : List (Nat × Nat)) : (s.queueLoad sp n d l).agenda = s.agenda := rfl

/-! ### enqueue -/

@[simp] theorem State.enqueue_here (s : State) (p : Pending) : (s.enqueue p).here = s.here := rfl
@[simp] theorem State.enqueue_hart (s : State) (p : Pending) : (s.enqueue p).hart = { s.hart with stores := s.hart.stores ++ [p] } := rfl
@[simp] theorem State.enqueue_parked (s : State) (p : Pending) : (s.enqueue p).parked = s.parked := rfl
@[simp] theorem State.enqueue_mem (s : State) (p : Pending) : (s.enqueue p).mem = s.mem := rfl
@[simp] theorem State.enqueue_tags (s : State) (p : Pending) : (s.enqueue p).tags = s.tags := rfl
@[simp] theorem State.enqueue_bad (s : State) (p : Pending) : (s.enqueue p).bad = s.bad := rfl
@[simp] theorem State.enqueue_polestar (s : State) (p : Pending) : (s.enqueue p).polestar = s.polestar := rfl
@[simp] theorem State.enqueue_clock (s : State) (p : Pending) : (s.enqueue p).clock = s.clock := rfl
@[simp] theorem State.enqueue_steps (s : State) (p : Pending) : (s.enqueue p).steps = s.steps := rfl
@[simp] theorem State.enqueue_cores (s : State) (p : Pending) : (s.enqueue p).cores = s.cores := rfl
@[simp] theorem State.enqueue_dies (s : State) (p : Pending) : (s.enqueue p).dies = s.dies := rfl
@[simp] theorem State.enqueue_egress (s : State) (p : Pending) : (s.enqueue p).egress = s.egress := rfl
@[simp] theorem State.enqueue_shared (s : State) (p : Pending) : (s.enqueue p).shared = s.shared := rfl
@[simp] theorem State.enqueue_eng (s : State) (p : Pending) : (s.enqueue p).eng = s.eng := rfl
@[simp] theorem State.enqueue_disp (s : State) (p : Pending) : (s.enqueue p).disp = s.disp := rfl
@[simp] theorem State.enqueue_rings (s : State) (p : Pending) : (s.enqueue p).rings = s.rings := rfl
@[simp] theorem State.enqueue_flights (s : State) (p : Pending) : (s.enqueue p).flights = s.flights := rfl
@[simp] theorem State.enqueue_fabric (s : State) (p : Pending) : (s.enqueue p).fabric = s.fabric := rfl
@[simp] theorem State.enqueue_ports (s : State) (p : Pending) : (s.enqueue p).ports = s.ports := rfl
@[simp] theorem State.enqueue_streams (s : State) (p : Pending) : (s.enqueue p).streams = s.streams := rfl
@[simp] theorem State.enqueue_plat (s : State) (p : Pending) : (s.enqueue p).plat = s.plat := rfl
@[simp] theorem State.enqueue_notices (s : State) (p : Pending) : (s.enqueue p).notices = s.notices := rfl
@[simp] theorem State.enqueue_agenda (s : State) (p : Pending) : (s.enqueue p).agenda = s.agenda := rfl

/-! ### wv -/

@[simp] theorem State.wv_here (s : State) (d : VReg) (x : VBits) : (s.wv d x).here = s.here := rfl
@[simp] theorem State.wv_hart (s : State) (d : VReg) (x : VBits) : (s.wv d x).hart = { s.hart with vec := s.hart.vec.result d x } := rfl
@[simp] theorem State.wv_parked (s : State) (d : VReg) (x : VBits) : (s.wv d x).parked = s.parked := rfl
@[simp] theorem State.wv_mem (s : State) (d : VReg) (x : VBits) : (s.wv d x).mem = s.mem := rfl
@[simp] theorem State.wv_tags (s : State) (d : VReg) (x : VBits) : (s.wv d x).tags = s.tags := rfl
@[simp] theorem State.wv_bad (s : State) (d : VReg) (x : VBits) : (s.wv d x).bad = s.bad := rfl
@[simp] theorem State.wv_polestar (s : State) (d : VReg) (x : VBits) : (s.wv d x).polestar = s.polestar := rfl
@[simp] theorem State.wv_clock (s : State) (d : VReg) (x : VBits) : (s.wv d x).clock = s.clock := rfl
@[simp] theorem State.wv_steps (s : State) (d : VReg) (x : VBits) : (s.wv d x).steps = s.steps := rfl
@[simp] theorem State.wv_cores (s : State) (d : VReg) (x : VBits) : (s.wv d x).cores = s.cores := rfl
@[simp] theorem State.wv_dies (s : State) (d : VReg) (x : VBits) : (s.wv d x).dies = s.dies := rfl
@[simp] theorem State.wv_egress (s : State) (d : VReg) (x : VBits) : (s.wv d x).egress = s.egress := rfl
@[simp] theorem State.wv_shared (s : State) (d : VReg) (x : VBits) : (s.wv d x).shared = s.shared := rfl
@[simp] theorem State.wv_eng (s : State) (d : VReg) (x : VBits) : (s.wv d x).eng = s.eng := rfl
@[simp] theorem State.wv_disp (s : State) (d : VReg) (x : VBits) : (s.wv d x).disp = s.disp := rfl
@[simp] theorem State.wv_rings (s : State) (d : VReg) (x : VBits) : (s.wv d x).rings = s.rings := rfl
@[simp] theorem State.wv_flights (s : State) (d : VReg) (x : VBits) : (s.wv d x).flights = s.flights := rfl
@[simp] theorem State.wv_fabric (s : State) (d : VReg) (x : VBits) : (s.wv d x).fabric = s.fabric := rfl
@[simp] theorem State.wv_ports (s : State) (d : VReg) (x : VBits) : (s.wv d x).ports = s.ports := rfl
@[simp] theorem State.wv_streams (s : State) (d : VReg) (x : VBits) : (s.wv d x).streams = s.streams := rfl
@[simp] theorem State.wv_plat (s : State) (d : VReg) (x : VBits) : (s.wv d x).plat = s.plat := rfl
@[simp] theorem State.wv_notices (s : State) (d : VReg) (x : VBits) : (s.wv d x).notices = s.notices := rfl
@[simp] theorem State.wv_agenda (s : State) (d : VReg) (x : VBits) : (s.wv d x).agenda = s.agenda := rfl

/-! ### wq -/

@[simp] theorem State.wq_here (s : State) (r : QReg) (x : Stream) : (s.wq r x).here = s.here := rfl
@[simp] theorem State.wq_hart (s : State) (r : QReg) (x : Stream) : (s.wq r x).hart = { s.hart with q := s.hart.q.set r.toNat x r.isLt } := rfl
@[simp] theorem State.wq_parked (s : State) (r : QReg) (x : Stream) : (s.wq r x).parked = s.parked := rfl
@[simp] theorem State.wq_mem (s : State) (r : QReg) (x : Stream) : (s.wq r x).mem = s.mem := rfl
@[simp] theorem State.wq_tags (s : State) (r : QReg) (x : Stream) : (s.wq r x).tags = s.tags := rfl
@[simp] theorem State.wq_bad (s : State) (r : QReg) (x : Stream) : (s.wq r x).bad = s.bad := rfl
@[simp] theorem State.wq_polestar (s : State) (r : QReg) (x : Stream) : (s.wq r x).polestar = s.polestar := rfl
@[simp] theorem State.wq_clock (s : State) (r : QReg) (x : Stream) : (s.wq r x).clock = s.clock := rfl
@[simp] theorem State.wq_steps (s : State) (r : QReg) (x : Stream) : (s.wq r x).steps = s.steps := rfl
@[simp] theorem State.wq_cores (s : State) (r : QReg) (x : Stream) : (s.wq r x).cores = s.cores := rfl
@[simp] theorem State.wq_dies (s : State) (r : QReg) (x : Stream) : (s.wq r x).dies = s.dies := rfl
@[simp] theorem State.wq_egress (s : State) (r : QReg) (x : Stream) : (s.wq r x).egress = s.egress := rfl
@[simp] theorem State.wq_shared (s : State) (r : QReg) (x : Stream) : (s.wq r x).shared = s.shared := rfl
@[simp] theorem State.wq_eng (s : State) (r : QReg) (x : Stream) : (s.wq r x).eng = s.eng := rfl
@[simp] theorem State.wq_disp (s : State) (r : QReg) (x : Stream) : (s.wq r x).disp = s.disp := rfl
@[simp] theorem State.wq_rings (s : State) (r : QReg) (x : Stream) : (s.wq r x).rings = s.rings := rfl
@[simp] theorem State.wq_flights (s : State) (r : QReg) (x : Stream) : (s.wq r x).flights = s.flights := rfl
@[simp] theorem State.wq_fabric (s : State) (r : QReg) (x : Stream) : (s.wq r x).fabric = s.fabric := rfl
@[simp] theorem State.wq_ports (s : State) (r : QReg) (x : Stream) : (s.wq r x).ports = s.ports := rfl
@[simp] theorem State.wq_streams (s : State) (r : QReg) (x : Stream) : (s.wq r x).streams = s.streams := rfl
@[simp] theorem State.wq_plat (s : State) (r : QReg) (x : Stream) : (s.wq r x).plat = s.plat := rfl
@[simp] theorem State.wq_notices (s : State) (r : QReg) (x : Stream) : (s.wq r x).notices = s.notices := rfl
@[simp] theorem State.wq_agenda (s : State) (r : QReg) (x : Stream) : (s.wq r x).agenda = s.agenda := rfl

/-! ### modCore -/

@[simp] theorem State.modCore_here (s : State) (d k : Nat) (f : Core → Core) : (s.modCore d k f).here = s.here := rfl
@[simp] theorem State.modCore_hart (s : State) (d k : Nat) (f : Core → Core) : (s.modCore d k f).hart = s.hart := rfl
@[simp] theorem State.modCore_parked (s : State) (d k : Nat) (f : Core → Core) : (s.modCore d k f).parked = s.parked := rfl
@[simp] theorem State.modCore_mem (s : State) (d k : Nat) (f : Core → Core) : (s.modCore d k f).mem = s.mem := rfl
@[simp] theorem State.modCore_tags (s : State) (d k : Nat) (f : Core → Core) : (s.modCore d k f).tags = s.tags := rfl
@[simp] theorem State.modCore_bad (s : State) (d k : Nat) (f : Core → Core) : (s.modCore d k f).bad = s.bad := rfl
@[simp] theorem State.modCore_polestar (s : State) (d k : Nat) (f : Core → Core) : (s.modCore d k f).polestar = s.polestar := rfl
@[simp] theorem State.modCore_clock (s : State) (d k : Nat) (f : Core → Core) : (s.modCore d k f).clock = s.clock := rfl
@[simp] theorem State.modCore_steps (s : State) (d k : Nat) (f : Core → Core) : (s.modCore d k f).steps = s.steps := rfl
@[simp] theorem State.modCore_cores (s : State) (d k : Nat) (f : Core → Core) : (s.modCore d k f).cores = s.cores.insert (coreKey d k) (f (s.coreAt d k)) := rfl
@[simp] theorem State.modCore_dies (s : State) (d k : Nat) (f : Core → Core) : (s.modCore d k f).dies = s.dies := rfl
@[simp] theorem State.modCore_egress (s : State) (d k : Nat) (f : Core → Core) : (s.modCore d k f).egress = s.egress := rfl
@[simp] theorem State.modCore_shared (s : State) (d k : Nat) (f : Core → Core) : (s.modCore d k f).shared = s.shared := rfl
@[simp] theorem State.modCore_eng (s : State) (d k : Nat) (f : Core → Core) : (s.modCore d k f).eng = s.eng := rfl
@[simp] theorem State.modCore_disp (s : State) (d k : Nat) (f : Core → Core) : (s.modCore d k f).disp = s.disp := rfl
@[simp] theorem State.modCore_rings (s : State) (d k : Nat) (f : Core → Core) : (s.modCore d k f).rings = s.rings := rfl
@[simp] theorem State.modCore_flights (s : State) (d k : Nat) (f : Core → Core) : (s.modCore d k f).flights = s.flights := rfl
@[simp] theorem State.modCore_fabric (s : State) (d k : Nat) (f : Core → Core) : (s.modCore d k f).fabric = s.fabric := rfl
@[simp] theorem State.modCore_ports (s : State) (d k : Nat) (f : Core → Core) : (s.modCore d k f).ports = s.ports := rfl
@[simp] theorem State.modCore_streams (s : State) (d k : Nat) (f : Core → Core) : (s.modCore d k f).streams = s.streams := rfl
@[simp] theorem State.modCore_plat (s : State) (d k : Nat) (f : Core → Core) : (s.modCore d k f).plat = s.plat := rfl
@[simp] theorem State.modCore_notices (s : State) (d k : Nat) (f : Core → Core) : (s.modCore d k f).notices = s.notices := rfl
@[simp] theorem State.modCore_agenda (s : State) (d k : Nat) (f : Core → Core) : (s.modCore d k f).agenda = s.agenda := rfl

/-! ### modDie -/

@[simp] theorem State.modDie_here (s : State) (d : Nat) (f : Die → Die) : (s.modDie d f).here = s.here := rfl
@[simp] theorem State.modDie_hart (s : State) (d : Nat) (f : Die → Die) : (s.modDie d f).hart = s.hart := rfl
@[simp] theorem State.modDie_parked (s : State) (d : Nat) (f : Die → Die) : (s.modDie d f).parked = s.parked := rfl
@[simp] theorem State.modDie_mem (s : State) (d : Nat) (f : Die → Die) : (s.modDie d f).mem = s.mem := rfl
@[simp] theorem State.modDie_tags (s : State) (d : Nat) (f : Die → Die) : (s.modDie d f).tags = s.tags := rfl
@[simp] theorem State.modDie_bad (s : State) (d : Nat) (f : Die → Die) : (s.modDie d f).bad = s.bad := rfl
@[simp] theorem State.modDie_polestar (s : State) (d : Nat) (f : Die → Die) : (s.modDie d f).polestar = s.polestar := rfl
@[simp] theorem State.modDie_clock (s : State) (d : Nat) (f : Die → Die) : (s.modDie d f).clock = s.clock := rfl
@[simp] theorem State.modDie_steps (s : State) (d : Nat) (f : Die → Die) : (s.modDie d f).steps = s.steps := rfl
@[simp] theorem State.modDie_cores (s : State) (d : Nat) (f : Die → Die) : (s.modDie d f).cores = s.cores := rfl
@[simp] theorem State.modDie_dies (s : State) (d : Nat) (f : Die → Die) : (s.modDie d f).dies = s.dies.insert d (f (s.dieAt d)) := rfl
@[simp] theorem State.modDie_egress (s : State) (d : Nat) (f : Die → Die) : (s.modDie d f).egress = s.egress := rfl
@[simp] theorem State.modDie_shared (s : State) (d : Nat) (f : Die → Die) : (s.modDie d f).shared = s.shared := rfl
@[simp] theorem State.modDie_eng (s : State) (d : Nat) (f : Die → Die) : (s.modDie d f).eng = s.eng := rfl
@[simp] theorem State.modDie_disp (s : State) (d : Nat) (f : Die → Die) : (s.modDie d f).disp = s.disp := rfl
@[simp] theorem State.modDie_rings (s : State) (d : Nat) (f : Die → Die) : (s.modDie d f).rings = s.rings := rfl
@[simp] theorem State.modDie_flights (s : State) (d : Nat) (f : Die → Die) : (s.modDie d f).flights = s.flights := rfl
@[simp] theorem State.modDie_fabric (s : State) (d : Nat) (f : Die → Die) : (s.modDie d f).fabric = s.fabric := rfl
@[simp] theorem State.modDie_ports (s : State) (d : Nat) (f : Die → Die) : (s.modDie d f).ports = s.ports := rfl
@[simp] theorem State.modDie_streams (s : State) (d : Nat) (f : Die → Die) : (s.modDie d f).streams = s.streams := rfl
@[simp] theorem State.modDie_plat (s : State) (d : Nat) (f : Die → Die) : (s.modDie d f).plat = s.plat := rfl
@[simp] theorem State.modDie_notices (s : State) (d : Nat) (f : Die → Die) : (s.modDie d f).notices = s.notices := rfl
@[simp] theorem State.modDie_agenda (s : State) (d : Nat) (f : Die → Die) : (s.modDie d f).agenda = s.agenda := rfl

/-! ### notify -/

@[simp] theorem State.notify_here (s : State) (n : Notice) : (s.notify n).here = s.here := rfl
@[simp] theorem State.notify_hart (s : State) (n : Notice) : (s.notify n).hart = s.hart := rfl
@[simp] theorem State.notify_parked (s : State) (n : Notice) : (s.notify n).parked = s.parked := rfl
@[simp] theorem State.notify_mem (s : State) (n : Notice) : (s.notify n).mem = s.mem := rfl
@[simp] theorem State.notify_tags (s : State) (n : Notice) : (s.notify n).tags = s.tags := rfl
@[simp] theorem State.notify_bad (s : State) (n : Notice) : (s.notify n).bad = s.bad := rfl
@[simp] theorem State.notify_polestar (s : State) (n : Notice) : (s.notify n).polestar = s.polestar := rfl
@[simp] theorem State.notify_clock (s : State) (n : Notice) : (s.notify n).clock = s.clock := rfl
@[simp] theorem State.notify_steps (s : State) (n : Notice) : (s.notify n).steps = s.steps := rfl
@[simp] theorem State.notify_cores (s : State) (n : Notice) : (s.notify n).cores = s.cores := rfl
@[simp] theorem State.notify_dies (s : State) (n : Notice) : (s.notify n).dies = s.dies := rfl
@[simp] theorem State.notify_egress (s : State) (n : Notice) : (s.notify n).egress = s.egress := rfl
@[simp] theorem State.notify_shared (s : State) (n : Notice) : (s.notify n).shared = s.shared := rfl
@[simp] theorem State.notify_eng (s : State) (n : Notice) : (s.notify n).eng = s.eng := rfl
@[simp] theorem State.notify_disp (s : State) (n : Notice) : (s.notify n).disp = s.disp := rfl
@[simp] theorem State.notify_rings (s : State) (n : Notice) : (s.notify n).rings = s.rings := rfl
@[simp] theorem State.notify_flights (s : State) (n : Notice) : (s.notify n).flights = s.flights := rfl
@[simp] theorem State.notify_fabric (s : State) (n : Notice) : (s.notify n).fabric = s.fabric := rfl
@[simp] theorem State.notify_ports (s : State) (n : Notice) : (s.notify n).ports = s.ports := rfl
@[simp] theorem State.notify_streams (s : State) (n : Notice) : (s.notify n).streams = s.streams := rfl
@[simp] theorem State.notify_plat (s : State) (n : Notice) : (s.notify n).plat = s.plat := rfl
@[simp] theorem State.notify_notices (s : State) (n : Notice) : (s.notify n).notices = s.notices ++ [n] := rfl
@[simp] theorem State.notify_agenda (s : State) (n : Notice) : (s.notify n).agenda = s.agenda := rfl

/-! ### setChannel -/

@[simp] theorem State.setChannel_here (s : State) (h : Nat) (c : Channel) : (s.setChannel h c).here = s.here := rfl
@[simp] theorem State.setChannel_hart (s : State) (h : Nat) (c : Channel) : (s.setChannel h c).hart = s.hart := rfl
@[simp] theorem State.setChannel_parked (s : State) (h : Nat) (c : Channel) : (s.setChannel h c).parked = s.parked := rfl
@[simp] theorem State.setChannel_mem (s : State) (h : Nat) (c : Channel) : (s.setChannel h c).mem = s.mem := rfl
@[simp] theorem State.setChannel_tags (s : State) (h : Nat) (c : Channel) : (s.setChannel h c).tags = s.tags := rfl
@[simp] theorem State.setChannel_bad (s : State) (h : Nat) (c : Channel) : (s.setChannel h c).bad = s.bad := rfl
@[simp] theorem State.setChannel_polestar (s : State) (h : Nat) (c : Channel) : (s.setChannel h c).polestar = s.polestar := rfl
@[simp] theorem State.setChannel_clock (s : State) (h : Nat) (c : Channel) : (s.setChannel h c).clock = s.clock := rfl
@[simp] theorem State.setChannel_steps (s : State) (h : Nat) (c : Channel) : (s.setChannel h c).steps = s.steps := rfl
@[simp] theorem State.setChannel_cores (s : State) (h : Nat) (c : Channel) : (s.setChannel h c).cores = s.cores := rfl
@[simp] theorem State.setChannel_dies (s : State) (h : Nat) (c : Channel) : (s.setChannel h c).dies = s.dies := rfl
@[simp] theorem State.setChannel_egress (s : State) (h : Nat) (c : Channel) : (s.setChannel h c).egress = s.egress := rfl
@[simp] theorem State.setChannel_shared (s : State) (h : Nat) (c : Channel) : (s.setChannel h c).shared = { s.shared with channels := s.shared.channels.insert h c } := rfl
@[simp] theorem State.setChannel_eng (s : State) (h : Nat) (c : Channel) : (s.setChannel h c).eng = s.eng := rfl
@[simp] theorem State.setChannel_disp (s : State) (h : Nat) (c : Channel) : (s.setChannel h c).disp = s.disp := rfl
@[simp] theorem State.setChannel_rings (s : State) (h : Nat) (c : Channel) : (s.setChannel h c).rings = s.rings := rfl
@[simp] theorem State.setChannel_flights (s : State) (h : Nat) (c : Channel) : (s.setChannel h c).flights = s.flights := rfl
@[simp] theorem State.setChannel_fabric (s : State) (h : Nat) (c : Channel) : (s.setChannel h c).fabric = s.fabric := rfl
@[simp] theorem State.setChannel_ports (s : State) (h : Nat) (c : Channel) : (s.setChannel h c).ports = s.ports := rfl
@[simp] theorem State.setChannel_streams (s : State) (h : Nat) (c : Channel) : (s.setChannel h c).streams = s.streams := rfl
@[simp] theorem State.setChannel_plat (s : State) (h : Nat) (c : Channel) : (s.setChannel h c).plat = s.plat := rfl
@[simp] theorem State.setChannel_notices (s : State) (h : Nat) (c : Channel) : (s.setChannel h c).notices = s.notices := rfl
@[simp] theorem State.setChannel_agenda (s : State) (h : Nat) (c : Channel) : (s.setChannel h c).agenda = s.agenda := rfl

/-! ### setSeq -/

@[simp] theorem State.setSeq_here (s : State) (k : Nat) (e : SeqEntry) : (s.setSeq k e).here = s.here := rfl
@[simp] theorem State.setSeq_hart (s : State) (k : Nat) (e : SeqEntry) : (s.setSeq k e).hart = s.hart := rfl
@[simp] theorem State.setSeq_parked (s : State) (k : Nat) (e : SeqEntry) : (s.setSeq k e).parked = s.parked := rfl
@[simp] theorem State.setSeq_mem (s : State) (k : Nat) (e : SeqEntry) : (s.setSeq k e).mem = s.mem := rfl
@[simp] theorem State.setSeq_tags (s : State) (k : Nat) (e : SeqEntry) : (s.setSeq k e).tags = s.tags := rfl
@[simp] theorem State.setSeq_bad (s : State) (k : Nat) (e : SeqEntry) : (s.setSeq k e).bad = s.bad := rfl
@[simp] theorem State.setSeq_polestar (s : State) (k : Nat) (e : SeqEntry) : (s.setSeq k e).polestar = s.polestar := rfl
@[simp] theorem State.setSeq_clock (s : State) (k : Nat) (e : SeqEntry) : (s.setSeq k e).clock = s.clock := rfl
@[simp] theorem State.setSeq_steps (s : State) (k : Nat) (e : SeqEntry) : (s.setSeq k e).steps = s.steps := rfl
@[simp] theorem State.setSeq_cores (s : State) (k : Nat) (e : SeqEntry) : (s.setSeq k e).cores = s.cores := rfl
@[simp] theorem State.setSeq_dies (s : State) (k : Nat) (e : SeqEntry) : (s.setSeq k e).dies = s.dies := rfl
@[simp] theorem State.setSeq_egress (s : State) (k : Nat) (e : SeqEntry) : (s.setSeq k e).egress = s.egress := rfl
@[simp] theorem State.setSeq_shared (s : State) (k : Nat) (e : SeqEntry) : (s.setSeq k e).shared = { s.shared with seqs := s.shared.seqs.insert k e } := rfl
@[simp] theorem State.setSeq_eng (s : State) (k : Nat) (e : SeqEntry) : (s.setSeq k e).eng = s.eng := rfl
@[simp] theorem State.setSeq_disp (s : State) (k : Nat) (e : SeqEntry) : (s.setSeq k e).disp = s.disp := rfl
@[simp] theorem State.setSeq_rings (s : State) (k : Nat) (e : SeqEntry) : (s.setSeq k e).rings = s.rings := rfl
@[simp] theorem State.setSeq_flights (s : State) (k : Nat) (e : SeqEntry) : (s.setSeq k e).flights = s.flights := rfl
@[simp] theorem State.setSeq_fabric (s : State) (k : Nat) (e : SeqEntry) : (s.setSeq k e).fabric = s.fabric := rfl
@[simp] theorem State.setSeq_ports (s : State) (k : Nat) (e : SeqEntry) : (s.setSeq k e).ports = s.ports := rfl
@[simp] theorem State.setSeq_streams (s : State) (k : Nat) (e : SeqEntry) : (s.setSeq k e).streams = s.streams := rfl
@[simp] theorem State.setSeq_plat (s : State) (k : Nat) (e : SeqEntry) : (s.setSeq k e).plat = s.plat := rfl
@[simp] theorem State.setSeq_notices (s : State) (k : Nat) (e : SeqEntry) : (s.setSeq k e).notices = s.notices := rfl
@[simp] theorem State.setSeq_agenda (s : State) (k : Nat) (e : SeqEntry) : (s.setSeq k e).agenda = s.agenda := rfl

/-! ### setLatch -/

@[simp] theorem State.setLatch_here (s : State) (q : Nat) (l : Latch) : (s.setLatch q l).here = s.here := rfl
@[simp] theorem State.setLatch_hart (s : State) (q : Nat) (l : Latch) : (s.setLatch q l).hart = s.hart := rfl
@[simp] theorem State.setLatch_parked (s : State) (q : Nat) (l : Latch) : (s.setLatch q l).parked = s.parked := rfl
@[simp] theorem State.setLatch_mem (s : State) (q : Nat) (l : Latch) : (s.setLatch q l).mem = s.mem := rfl
@[simp] theorem State.setLatch_tags (s : State) (q : Nat) (l : Latch) : (s.setLatch q l).tags = s.tags := rfl
@[simp] theorem State.setLatch_bad (s : State) (q : Nat) (l : Latch) : (s.setLatch q l).bad = s.bad := rfl
@[simp] theorem State.setLatch_polestar (s : State) (q : Nat) (l : Latch) : (s.setLatch q l).polestar = s.polestar := rfl
@[simp] theorem State.setLatch_clock (s : State) (q : Nat) (l : Latch) : (s.setLatch q l).clock = s.clock := rfl
@[simp] theorem State.setLatch_steps (s : State) (q : Nat) (l : Latch) : (s.setLatch q l).steps = s.steps := rfl
@[simp] theorem State.setLatch_cores (s : State) (q : Nat) (l : Latch) : (s.setLatch q l).cores = s.cores := rfl
@[simp] theorem State.setLatch_dies (s : State) (q : Nat) (l : Latch) : (s.setLatch q l).dies = s.dies := rfl
@[simp] theorem State.setLatch_egress (s : State) (q : Nat) (l : Latch) : (s.setLatch q l).egress = s.egress := rfl
@[simp] theorem State.setLatch_shared (s : State) (q : Nat) (l : Latch) : (s.setLatch q l).shared = s.shared := rfl
@[simp] theorem State.setLatch_eng (s : State) (q : Nat) (l : Latch) : (s.setLatch q l).eng = s.eng := rfl
@[simp] theorem State.setLatch_disp (s : State) (q : Nat) (l : Latch) : (s.setLatch q l).disp = { s.disp with latches := s.disp.latches.insert q l } := rfl
@[simp] theorem State.setLatch_rings (s : State) (q : Nat) (l : Latch) : (s.setLatch q l).rings = s.rings := rfl
@[simp] theorem State.setLatch_flights (s : State) (q : Nat) (l : Latch) : (s.setLatch q l).flights = s.flights := rfl
@[simp] theorem State.setLatch_fabric (s : State) (q : Nat) (l : Latch) : (s.setLatch q l).fabric = s.fabric := rfl
@[simp] theorem State.setLatch_ports (s : State) (q : Nat) (l : Latch) : (s.setLatch q l).ports = s.ports := rfl
@[simp] theorem State.setLatch_streams (s : State) (q : Nat) (l : Latch) : (s.setLatch q l).streams = s.streams := rfl
@[simp] theorem State.setLatch_plat (s : State) (q : Nat) (l : Latch) : (s.setLatch q l).plat = s.plat := rfl
@[simp] theorem State.setLatch_notices (s : State) (q : Nat) (l : Latch) : (s.setLatch q l).notices = s.notices := rfl
@[simp] theorem State.setLatch_agenda (s : State) (q : Nat) (l : Latch) : (s.setLatch q l).agenda = s.agenda := rfl

/-! ### setHwq -/

@[simp] theorem State.setHwq_here (s : State) (k : Nat) (w : HwQueue) : (s.setHwq k w).here = s.here := rfl
@[simp] theorem State.setHwq_hart (s : State) (k : Nat) (w : HwQueue) : (s.setHwq k w).hart = s.hart := rfl
@[simp] theorem State.setHwq_parked (s : State) (k : Nat) (w : HwQueue) : (s.setHwq k w).parked = s.parked := rfl
@[simp] theorem State.setHwq_mem (s : State) (k : Nat) (w : HwQueue) : (s.setHwq k w).mem = s.mem := rfl
@[simp] theorem State.setHwq_tags (s : State) (k : Nat) (w : HwQueue) : (s.setHwq k w).tags = s.tags := rfl
@[simp] theorem State.setHwq_bad (s : State) (k : Nat) (w : HwQueue) : (s.setHwq k w).bad = s.bad := rfl
@[simp] theorem State.setHwq_polestar (s : State) (k : Nat) (w : HwQueue) : (s.setHwq k w).polestar = s.polestar := rfl
@[simp] theorem State.setHwq_clock (s : State) (k : Nat) (w : HwQueue) : (s.setHwq k w).clock = s.clock := rfl
@[simp] theorem State.setHwq_steps (s : State) (k : Nat) (w : HwQueue) : (s.setHwq k w).steps = s.steps := rfl
@[simp] theorem State.setHwq_cores (s : State) (k : Nat) (w : HwQueue) : (s.setHwq k w).cores = s.cores := rfl
@[simp] theorem State.setHwq_dies (s : State) (k : Nat) (w : HwQueue) : (s.setHwq k w).dies = s.dies := rfl
@[simp] theorem State.setHwq_egress (s : State) (k : Nat) (w : HwQueue) : (s.setHwq k w).egress = s.egress := rfl
@[simp] theorem State.setHwq_shared (s : State) (k : Nat) (w : HwQueue) : (s.setHwq k w).shared = s.shared := rfl
@[simp] theorem State.setHwq_eng (s : State) (k : Nat) (w : HwQueue) : (s.setHwq k w).eng = s.eng := rfl
@[simp] theorem State.setHwq_disp (s : State) (k : Nat) (w : HwQueue) : (s.setHwq k w).disp = { s.disp with hwqs := s.disp.hwqs.insert k w } := rfl
@[simp] theorem State.setHwq_rings (s : State) (k : Nat) (w : HwQueue) : (s.setHwq k w).rings = s.rings := rfl
@[simp] theorem State.setHwq_flights (s : State) (k : Nat) (w : HwQueue) : (s.setHwq k w).flights = s.flights := rfl
@[simp] theorem State.setHwq_fabric (s : State) (k : Nat) (w : HwQueue) : (s.setHwq k w).fabric = s.fabric := rfl
@[simp] theorem State.setHwq_ports (s : State) (k : Nat) (w : HwQueue) : (s.setHwq k w).ports = s.ports := rfl
@[simp] theorem State.setHwq_streams (s : State) (k : Nat) (w : HwQueue) : (s.setHwq k w).streams = s.streams := rfl
@[simp] theorem State.setHwq_plat (s : State) (k : Nat) (w : HwQueue) : (s.setHwq k w).plat = s.plat := rfl
@[simp] theorem State.setHwq_notices (s : State) (k : Nat) (w : HwQueue) : (s.setHwq k w).notices = s.notices := rfl
@[simp] theorem State.setHwq_agenda (s : State) (k : Nat) (w : HwQueue) : (s.setHwq k w).agenda = s.agenda := rfl

/-! ### setRing -/

@[simp] theorem State.setRing_here (s : State) (n : Nat) (r : Ring) : (s.setRing n r).here = s.here := rfl
@[simp] theorem State.setRing_hart (s : State) (n : Nat) (r : Ring) : (s.setRing n r).hart = s.hart := rfl
@[simp] theorem State.setRing_parked (s : State) (n : Nat) (r : Ring) : (s.setRing n r).parked = s.parked := rfl
@[simp] theorem State.setRing_mem (s : State) (n : Nat) (r : Ring) : (s.setRing n r).mem = s.mem := rfl
@[simp] theorem State.setRing_tags (s : State) (n : Nat) (r : Ring) : (s.setRing n r).tags = s.tags := rfl
@[simp] theorem State.setRing_bad (s : State) (n : Nat) (r : Ring) : (s.setRing n r).bad = s.bad := rfl
@[simp] theorem State.setRing_polestar (s : State) (n : Nat) (r : Ring) : (s.setRing n r).polestar = s.polestar := rfl
@[simp] theorem State.setRing_clock (s : State) (n : Nat) (r : Ring) : (s.setRing n r).clock = s.clock := rfl
@[simp] theorem State.setRing_steps (s : State) (n : Nat) (r : Ring) : (s.setRing n r).steps = s.steps := rfl
@[simp] theorem State.setRing_cores (s : State) (n : Nat) (r : Ring) : (s.setRing n r).cores = s.cores := rfl
@[simp] theorem State.setRing_dies (s : State) (n : Nat) (r : Ring) : (s.setRing n r).dies = s.dies := rfl
@[simp] theorem State.setRing_egress (s : State) (n : Nat) (r : Ring) : (s.setRing n r).egress = s.egress := rfl
@[simp] theorem State.setRing_shared (s : State) (n : Nat) (r : Ring) : (s.setRing n r).shared = s.shared := rfl
@[simp] theorem State.setRing_eng (s : State) (n : Nat) (r : Ring) : (s.setRing n r).eng = s.eng := rfl
@[simp] theorem State.setRing_disp (s : State) (n : Nat) (r : Ring) : (s.setRing n r).disp = s.disp := rfl
@[simp] theorem State.setRing_rings (s : State) (n : Nat) (r : Ring) : (s.setRing n r).rings = s.rings.insert n r := rfl
@[simp] theorem State.setRing_flights (s : State) (n : Nat) (r : Ring) : (s.setRing n r).flights = s.flights := rfl
@[simp] theorem State.setRing_fabric (s : State) (n : Nat) (r : Ring) : (s.setRing n r).fabric = s.fabric := rfl
@[simp] theorem State.setRing_ports (s : State) (n : Nat) (r : Ring) : (s.setRing n r).ports = s.ports := rfl
@[simp] theorem State.setRing_streams (s : State) (n : Nat) (r : Ring) : (s.setRing n r).streams = s.streams := rfl
@[simp] theorem State.setRing_plat (s : State) (n : Nat) (r : Ring) : (s.setRing n r).plat = s.plat := rfl
@[simp] theorem State.setRing_notices (s : State) (n : Nat) (r : Ring) : (s.setRing n r).notices = s.notices := rfl
@[simp] theorem State.setRing_agenda (s : State) (n : Nat) (r : Ring) : (s.setRing n r).agenda = s.agenda := rfl

/-! ### setColls -/

@[simp] theorem State.setColls_here (s : State) (k : Nat) (l : List CollCmd) : (s.setColls k l).here = s.here := rfl
@[simp] theorem State.setColls_hart (s : State) (k : Nat) (l : List CollCmd) : (s.setColls k l).hart = s.hart := rfl
@[simp] theorem State.setColls_parked (s : State) (k : Nat) (l : List CollCmd) : (s.setColls k l).parked = s.parked := rfl
@[simp] theorem State.setColls_mem (s : State) (k : Nat) (l : List CollCmd) : (s.setColls k l).mem = s.mem := rfl
@[simp] theorem State.setColls_tags (s : State) (k : Nat) (l : List CollCmd) : (s.setColls k l).tags = s.tags := rfl
@[simp] theorem State.setColls_bad (s : State) (k : Nat) (l : List CollCmd) : (s.setColls k l).bad = s.bad := rfl
@[simp] theorem State.setColls_polestar (s : State) (k : Nat) (l : List CollCmd) : (s.setColls k l).polestar = s.polestar := rfl
@[simp] theorem State.setColls_clock (s : State) (k : Nat) (l : List CollCmd) : (s.setColls k l).clock = s.clock := rfl
@[simp] theorem State.setColls_steps (s : State) (k : Nat) (l : List CollCmd) : (s.setColls k l).steps = s.steps := rfl
@[simp] theorem State.setColls_cores (s : State) (k : Nat) (l : List CollCmd) : (s.setColls k l).cores = s.cores := rfl
@[simp] theorem State.setColls_dies (s : State) (k : Nat) (l : List CollCmd) : (s.setColls k l).dies = s.dies := rfl
@[simp] theorem State.setColls_egress (s : State) (k : Nat) (l : List CollCmd) : (s.setColls k l).egress = s.egress := rfl
@[simp] theorem State.setColls_shared (s : State) (k : Nat) (l : List CollCmd) : (s.setColls k l).shared = s.shared := rfl
@[simp] theorem State.setColls_disp (s : State) (k : Nat) (l : List CollCmd) : (s.setColls k l).disp = s.disp := rfl
@[simp] theorem State.setColls_rings (s : State) (k : Nat) (l : List CollCmd) : (s.setColls k l).rings = s.rings := rfl
@[simp] theorem State.setColls_flights (s : State) (k : Nat) (l : List CollCmd) : (s.setColls k l).flights = s.flights := rfl
@[simp] theorem State.setColls_fabric (s : State) (k : Nat) (l : List CollCmd) : (s.setColls k l).fabric = s.fabric := rfl
@[simp] theorem State.setColls_ports (s : State) (k : Nat) (l : List CollCmd) : (s.setColls k l).ports = s.ports := rfl
@[simp] theorem State.setColls_streams (s : State) (k : Nat) (l : List CollCmd) : (s.setColls k l).streams = s.streams := rfl
@[simp] theorem State.setColls_plat (s : State) (k : Nat) (l : List CollCmd) : (s.setColls k l).plat = s.plat := rfl
@[simp] theorem State.setColls_notices (s : State) (k : Nat) (l : List CollCmd) : (s.setColls k l).notices = s.notices := rfl
@[simp] theorem State.setColls_agenda (s : State) (k : Nat) (l : List CollCmd) : (s.setColls k l).agenda = s.agenda := rfl

/-! ### setStream -/

@[simp] theorem State.setStream_here (s : State) (n : Nat) (t : TokStream) : (s.setStream n t).here = s.here := rfl
@[simp] theorem State.setStream_hart (s : State) (n : Nat) (t : TokStream) : (s.setStream n t).hart = s.hart := rfl
@[simp] theorem State.setStream_parked (s : State) (n : Nat) (t : TokStream) : (s.setStream n t).parked = s.parked := rfl
@[simp] theorem State.setStream_mem (s : State) (n : Nat) (t : TokStream) : (s.setStream n t).mem = s.mem := rfl
@[simp] theorem State.setStream_tags (s : State) (n : Nat) (t : TokStream) : (s.setStream n t).tags = s.tags := rfl
@[simp] theorem State.setStream_bad (s : State) (n : Nat) (t : TokStream) : (s.setStream n t).bad = s.bad := rfl
@[simp] theorem State.setStream_polestar (s : State) (n : Nat) (t : TokStream) : (s.setStream n t).polestar = s.polestar := rfl
@[simp] theorem State.setStream_clock (s : State) (n : Nat) (t : TokStream) : (s.setStream n t).clock = s.clock := rfl
@[simp] theorem State.setStream_steps (s : State) (n : Nat) (t : TokStream) : (s.setStream n t).steps = s.steps := rfl
@[simp] theorem State.setStream_cores (s : State) (n : Nat) (t : TokStream) : (s.setStream n t).cores = s.cores := rfl
@[simp] theorem State.setStream_dies (s : State) (n : Nat) (t : TokStream) : (s.setStream n t).dies = s.dies := rfl
@[simp] theorem State.setStream_egress (s : State) (n : Nat) (t : TokStream) : (s.setStream n t).egress = s.egress := rfl
@[simp] theorem State.setStream_shared (s : State) (n : Nat) (t : TokStream) : (s.setStream n t).shared = s.shared := rfl
@[simp] theorem State.setStream_eng (s : State) (n : Nat) (t : TokStream) : (s.setStream n t).eng = s.eng := rfl
@[simp] theorem State.setStream_disp (s : State) (n : Nat) (t : TokStream) : (s.setStream n t).disp = s.disp := rfl
@[simp] theorem State.setStream_rings (s : State) (n : Nat) (t : TokStream) : (s.setStream n t).rings = s.rings := rfl
@[simp] theorem State.setStream_flights (s : State) (n : Nat) (t : TokStream) : (s.setStream n t).flights = s.flights := rfl
@[simp] theorem State.setStream_fabric (s : State) (n : Nat) (t : TokStream) : (s.setStream n t).fabric = s.fabric := rfl
@[simp] theorem State.setStream_ports (s : State) (n : Nat) (t : TokStream) : (s.setStream n t).ports = s.ports := rfl
@[simp] theorem State.setStream_streams (s : State) (n : Nat) (t : TokStream) : (s.setStream n t).streams = s.streams.insert n t := rfl
@[simp] theorem State.setStream_plat (s : State) (n : Nat) (t : TokStream) : (s.setStream n t).plat = s.plat := rfl
@[simp] theorem State.setStream_notices (s : State) (n : Nat) (t : TokStream) : (s.setStream n t).notices = s.notices := rfl
@[simp] theorem State.setStream_agenda (s : State) (n : Nat) (t : TokStream) : (s.setStream n t).agenda = s.agenda := rfl

/-! ### modPort -/

@[simp] theorem State.modPort_here (s : State) (n : Nat) (f : HostPort → HostPort) : (s.modPort n f).here = s.here := rfl
@[simp] theorem State.modPort_hart (s : State) (n : Nat) (f : HostPort → HostPort) : (s.modPort n f).hart = s.hart := rfl
@[simp] theorem State.modPort_parked (s : State) (n : Nat) (f : HostPort → HostPort) : (s.modPort n f).parked = s.parked := rfl
@[simp] theorem State.modPort_mem (s : State) (n : Nat) (f : HostPort → HostPort) : (s.modPort n f).mem = s.mem := rfl
@[simp] theorem State.modPort_tags (s : State) (n : Nat) (f : HostPort → HostPort) : (s.modPort n f).tags = s.tags := rfl
@[simp] theorem State.modPort_bad (s : State) (n : Nat) (f : HostPort → HostPort) : (s.modPort n f).bad = s.bad := rfl
@[simp] theorem State.modPort_polestar (s : State) (n : Nat) (f : HostPort → HostPort) : (s.modPort n f).polestar = s.polestar := rfl
@[simp] theorem State.modPort_clock (s : State) (n : Nat) (f : HostPort → HostPort) : (s.modPort n f).clock = s.clock := rfl
@[simp] theorem State.modPort_steps (s : State) (n : Nat) (f : HostPort → HostPort) : (s.modPort n f).steps = s.steps := rfl
@[simp] theorem State.modPort_cores (s : State) (n : Nat) (f : HostPort → HostPort) : (s.modPort n f).cores = s.cores := rfl
@[simp] theorem State.modPort_dies (s : State) (n : Nat) (f : HostPort → HostPort) : (s.modPort n f).dies = s.dies := rfl
@[simp] theorem State.modPort_egress (s : State) (n : Nat) (f : HostPort → HostPort) : (s.modPort n f).egress = s.egress := rfl
@[simp] theorem State.modPort_shared (s : State) (n : Nat) (f : HostPort → HostPort) : (s.modPort n f).shared = s.shared := rfl
@[simp] theorem State.modPort_eng (s : State) (n : Nat) (f : HostPort → HostPort) : (s.modPort n f).eng = s.eng := rfl
@[simp] theorem State.modPort_disp (s : State) (n : Nat) (f : HostPort → HostPort) : (s.modPort n f).disp = s.disp := rfl
@[simp] theorem State.modPort_rings (s : State) (n : Nat) (f : HostPort → HostPort) : (s.modPort n f).rings = s.rings := rfl
@[simp] theorem State.modPort_flights (s : State) (n : Nat) (f : HostPort → HostPort) : (s.modPort n f).flights = s.flights := rfl
@[simp] theorem State.modPort_fabric (s : State) (n : Nat) (f : HostPort → HostPort) : (s.modPort n f).fabric = s.fabric := rfl
@[simp] theorem State.modPort_ports (s : State) (n : Nat) (f : HostPort → HostPort) : (s.modPort n f).ports = s.ports.insert n (f (s.portAt n)) := rfl
@[simp] theorem State.modPort_streams (s : State) (n : Nat) (f : HostPort → HostPort) : (s.modPort n f).streams = s.streams := rfl
@[simp] theorem State.modPort_plat (s : State) (n : Nat) (f : HostPort → HostPort) : (s.modPort n f).plat = s.plat := rfl
@[simp] theorem State.modPort_notices (s : State) (n : Nat) (f : HostPort → HostPort) : (s.modPort n f).notices = s.notices := rfl
@[simp] theorem State.modPort_agenda (s : State) (n : Nat) (f : HostPort → HostPort) : (s.modPort n f).agenda = s.agenda := rfl

/-! ### ws -/

@[simp] theorem State.ws_here (s : State) (r : SReg) (v : Word) : (s.ws r v).here = s.here := by unfold State.ws; split <;> rfl
@[simp] theorem State.ws_parked (s : State) (r : SReg) (v : Word) : (s.ws r v).parked = s.parked := by unfold State.ws; split <;> rfl
@[simp] theorem State.ws_mem (s : State) (r : SReg) (v : Word) : (s.ws r v).mem = s.mem := by unfold State.ws; split <;> rfl
@[simp] theorem State.ws_tags (s : State) (r : SReg) (v : Word) : (s.ws r v).tags = s.tags := by unfold State.ws; split <;> rfl
@[simp] theorem State.ws_bad (s : State) (r : SReg) (v : Word) : (s.ws r v).bad = s.bad := by unfold State.ws; split <;> rfl
@[simp] theorem State.ws_polestar (s : State) (r : SReg) (v : Word) : (s.ws r v).polestar = s.polestar := by unfold State.ws; split <;> rfl
@[simp] theorem State.ws_clock (s : State) (r : SReg) (v : Word) : (s.ws r v).clock = s.clock := by unfold State.ws; split <;> rfl
@[simp] theorem State.ws_steps (s : State) (r : SReg) (v : Word) : (s.ws r v).steps = s.steps := by unfold State.ws; split <;> rfl
@[simp] theorem State.ws_cores (s : State) (r : SReg) (v : Word) : (s.ws r v).cores = s.cores := by unfold State.ws; split <;> rfl
@[simp] theorem State.ws_dies (s : State) (r : SReg) (v : Word) : (s.ws r v).dies = s.dies := by unfold State.ws; split <;> rfl
@[simp] theorem State.ws_egress (s : State) (r : SReg) (v : Word) : (s.ws r v).egress = s.egress := by unfold State.ws; split <;> rfl
@[simp] theorem State.ws_shared (s : State) (r : SReg) (v : Word) : (s.ws r v).shared = s.shared := by unfold State.ws; split <;> rfl
@[simp] theorem State.ws_eng (s : State) (r : SReg) (v : Word) : (s.ws r v).eng = s.eng := by unfold State.ws; split <;> rfl
@[simp] theorem State.ws_disp (s : State) (r : SReg) (v : Word) : (s.ws r v).disp = s.disp := by unfold State.ws; split <;> rfl
@[simp] theorem State.ws_rings (s : State) (r : SReg) (v : Word) : (s.ws r v).rings = s.rings := by unfold State.ws; split <;> rfl
@[simp] theorem State.ws_flights (s : State) (r : SReg) (v : Word) : (s.ws r v).flights = s.flights := by unfold State.ws; split <;> rfl
@[simp] theorem State.ws_fabric (s : State) (r : SReg) (v : Word) : (s.ws r v).fabric = s.fabric := by unfold State.ws; split <;> rfl
@[simp] theorem State.ws_ports (s : State) (r : SReg) (v : Word) : (s.ws r v).ports = s.ports := by unfold State.ws; split <;> rfl
@[simp] theorem State.ws_streams (s : State) (r : SReg) (v : Word) : (s.ws r v).streams = s.streams := by unfold State.ws; split <;> rfl
@[simp] theorem State.ws_plat (s : State) (r : SReg) (v : Word) : (s.ws r v).plat = s.plat := by unfold State.ws; split <;> rfl
@[simp] theorem State.ws_notices (s : State) (r : SReg) (v : Word) : (s.ws r v).notices = s.notices := by unfold State.ws; split <;> rfl
@[simp] theorem State.ws_agenda (s : State) (r : SReg) (v : Word) : (s.ws r v).agenda = s.agenda := by unfold State.ws; split <;> rfl

/-! ### wc -/

@[simp] theorem State.wc_here (s : State) (r : CReg) (v : Cap) : (s.wc r v).here = s.here := by unfold State.wc; split <;> rfl
@[simp] theorem State.wc_parked (s : State) (r : CReg) (v : Cap) : (s.wc r v).parked = s.parked := by unfold State.wc; split <;> rfl
@[simp] theorem State.wc_mem (s : State) (r : CReg) (v : Cap) : (s.wc r v).mem = s.mem := by unfold State.wc; split <;> rfl
@[simp] theorem State.wc_tags (s : State) (r : CReg) (v : Cap) : (s.wc r v).tags = s.tags := by unfold State.wc; split <;> rfl
@[simp] theorem State.wc_bad (s : State) (r : CReg) (v : Cap) : (s.wc r v).bad = s.bad := by unfold State.wc; split <;> rfl
@[simp] theorem State.wc_polestar (s : State) (r : CReg) (v : Cap) : (s.wc r v).polestar = s.polestar := by unfold State.wc; split <;> rfl
@[simp] theorem State.wc_clock (s : State) (r : CReg) (v : Cap) : (s.wc r v).clock = s.clock := by unfold State.wc; split <;> rfl
@[simp] theorem State.wc_steps (s : State) (r : CReg) (v : Cap) : (s.wc r v).steps = s.steps := by unfold State.wc; split <;> rfl
@[simp] theorem State.wc_cores (s : State) (r : CReg) (v : Cap) : (s.wc r v).cores = s.cores := by unfold State.wc; split <;> rfl
@[simp] theorem State.wc_dies (s : State) (r : CReg) (v : Cap) : (s.wc r v).dies = s.dies := by unfold State.wc; split <;> rfl
@[simp] theorem State.wc_egress (s : State) (r : CReg) (v : Cap) : (s.wc r v).egress = s.egress := by unfold State.wc; split <;> rfl
@[simp] theorem State.wc_shared (s : State) (r : CReg) (v : Cap) : (s.wc r v).shared = s.shared := by unfold State.wc; split <;> rfl
@[simp] theorem State.wc_eng (s : State) (r : CReg) (v : Cap) : (s.wc r v).eng = s.eng := by unfold State.wc; split <;> rfl
@[simp] theorem State.wc_disp (s : State) (r : CReg) (v : Cap) : (s.wc r v).disp = s.disp := by unfold State.wc; split <;> rfl
@[simp] theorem State.wc_rings (s : State) (r : CReg) (v : Cap) : (s.wc r v).rings = s.rings := by unfold State.wc; split <;> rfl
@[simp] theorem State.wc_flights (s : State) (r : CReg) (v : Cap) : (s.wc r v).flights = s.flights := by unfold State.wc; split <;> rfl
@[simp] theorem State.wc_fabric (s : State) (r : CReg) (v : Cap) : (s.wc r v).fabric = s.fabric := by unfold State.wc; split <;> rfl
@[simp] theorem State.wc_ports (s : State) (r : CReg) (v : Cap) : (s.wc r v).ports = s.ports := by unfold State.wc; split <;> rfl
@[simp] theorem State.wc_streams (s : State) (r : CReg) (v : Cap) : (s.wc r v).streams = s.streams := by unfold State.wc; split <;> rfl
@[simp] theorem State.wc_plat (s : State) (r : CReg) (v : Cap) : (s.wc r v).plat = s.plat := by unfold State.wc; split <;> rfl
@[simp] theorem State.wc_notices (s : State) (r : CReg) (v : Cap) : (s.wc r v).notices = s.notices := by unfold State.wc; split <;> rfl
@[simp] theorem State.wc_agenda (s : State) (r : CReg) (v : Cap) : (s.wc r v).agenda = s.agenda := by unfold State.wc; split <;> rfl

/-! ### wk -/

@[simp] theorem State.wk_here (s : State) (r : KReg) (x : KBits) : (s.wk r x).here = s.here := by unfold State.wk; split <;> rfl
@[simp] theorem State.wk_parked (s : State) (r : KReg) (x : KBits) : (s.wk r x).parked = s.parked := by unfold State.wk; split <;> rfl
@[simp] theorem State.wk_mem (s : State) (r : KReg) (x : KBits) : (s.wk r x).mem = s.mem := by unfold State.wk; split <;> rfl
@[simp] theorem State.wk_tags (s : State) (r : KReg) (x : KBits) : (s.wk r x).tags = s.tags := by unfold State.wk; split <;> rfl
@[simp] theorem State.wk_bad (s : State) (r : KReg) (x : KBits) : (s.wk r x).bad = s.bad := by unfold State.wk; split <;> rfl
@[simp] theorem State.wk_polestar (s : State) (r : KReg) (x : KBits) : (s.wk r x).polestar = s.polestar := by unfold State.wk; split <;> rfl
@[simp] theorem State.wk_clock (s : State) (r : KReg) (x : KBits) : (s.wk r x).clock = s.clock := by unfold State.wk; split <;> rfl
@[simp] theorem State.wk_steps (s : State) (r : KReg) (x : KBits) : (s.wk r x).steps = s.steps := by unfold State.wk; split <;> rfl
@[simp] theorem State.wk_cores (s : State) (r : KReg) (x : KBits) : (s.wk r x).cores = s.cores := by unfold State.wk; split <;> rfl
@[simp] theorem State.wk_dies (s : State) (r : KReg) (x : KBits) : (s.wk r x).dies = s.dies := by unfold State.wk; split <;> rfl
@[simp] theorem State.wk_egress (s : State) (r : KReg) (x : KBits) : (s.wk r x).egress = s.egress := by unfold State.wk; split <;> rfl
@[simp] theorem State.wk_shared (s : State) (r : KReg) (x : KBits) : (s.wk r x).shared = s.shared := by unfold State.wk; split <;> rfl
@[simp] theorem State.wk_eng (s : State) (r : KReg) (x : KBits) : (s.wk r x).eng = s.eng := by unfold State.wk; split <;> rfl
@[simp] theorem State.wk_disp (s : State) (r : KReg) (x : KBits) : (s.wk r x).disp = s.disp := by unfold State.wk; split <;> rfl
@[simp] theorem State.wk_rings (s : State) (r : KReg) (x : KBits) : (s.wk r x).rings = s.rings := by unfold State.wk; split <;> rfl
@[simp] theorem State.wk_flights (s : State) (r : KReg) (x : KBits) : (s.wk r x).flights = s.flights := by unfold State.wk; split <;> rfl
@[simp] theorem State.wk_fabric (s : State) (r : KReg) (x : KBits) : (s.wk r x).fabric = s.fabric := by unfold State.wk; split <;> rfl
@[simp] theorem State.wk_ports (s : State) (r : KReg) (x : KBits) : (s.wk r x).ports = s.ports := by unfold State.wk; split <;> rfl
@[simp] theorem State.wk_streams (s : State) (r : KReg) (x : KBits) : (s.wk r x).streams = s.streams := by unfold State.wk; split <;> rfl
@[simp] theorem State.wk_plat (s : State) (r : KReg) (x : KBits) : (s.wk r x).plat = s.plat := by unfold State.wk; split <;> rfl
@[simp] theorem State.wk_notices (s : State) (r : KReg) (x : KBits) : (s.wk r x).notices = s.notices := by unfold State.wk; split <;> rfl
@[simp] theorem State.wk_agenda (s : State) (r : KReg) (x : KBits) : (s.wk r x).agenda = s.agenda := by unfold State.wk; split <;> rfl

/-! ### accrue -/

@[simp] theorem State.accrue_here (s : State) (b : Bool) (f : BitVec 320) : (s.accrue b f).here = s.here := by unfold State.accrue; split <;> rfl
@[simp] theorem State.accrue_parked (s : State) (b : Bool) (f : BitVec 320) : (s.accrue b f).parked = s.parked := by unfold State.accrue; split <;> rfl
@[simp] theorem State.accrue_mem (s : State) (b : Bool) (f : BitVec 320) : (s.accrue b f).mem = s.mem := by unfold State.accrue; split <;> rfl
@[simp] theorem State.accrue_tags (s : State) (b : Bool) (f : BitVec 320) : (s.accrue b f).tags = s.tags := by unfold State.accrue; split <;> rfl
@[simp] theorem State.accrue_bad (s : State) (b : Bool) (f : BitVec 320) : (s.accrue b f).bad = s.bad := by unfold State.accrue; split <;> rfl
@[simp] theorem State.accrue_polestar (s : State) (b : Bool) (f : BitVec 320) : (s.accrue b f).polestar = s.polestar := by unfold State.accrue; split <;> rfl
@[simp] theorem State.accrue_clock (s : State) (b : Bool) (f : BitVec 320) : (s.accrue b f).clock = s.clock := by unfold State.accrue; split <;> rfl
@[simp] theorem State.accrue_steps (s : State) (b : Bool) (f : BitVec 320) : (s.accrue b f).steps = s.steps := by unfold State.accrue; split <;> rfl
@[simp] theorem State.accrue_cores (s : State) (b : Bool) (f : BitVec 320) : (s.accrue b f).cores = s.cores := by unfold State.accrue; split <;> rfl
@[simp] theorem State.accrue_dies (s : State) (b : Bool) (f : BitVec 320) : (s.accrue b f).dies = s.dies := by unfold State.accrue; split <;> rfl
@[simp] theorem State.accrue_egress (s : State) (b : Bool) (f : BitVec 320) : (s.accrue b f).egress = s.egress := by unfold State.accrue; split <;> rfl
@[simp] theorem State.accrue_shared (s : State) (b : Bool) (f : BitVec 320) : (s.accrue b f).shared = s.shared := by unfold State.accrue; split <;> rfl
@[simp] theorem State.accrue_eng (s : State) (b : Bool) (f : BitVec 320) : (s.accrue b f).eng = s.eng := by unfold State.accrue; split <;> rfl
@[simp] theorem State.accrue_disp (s : State) (b : Bool) (f : BitVec 320) : (s.accrue b f).disp = s.disp := by unfold State.accrue; split <;> rfl
@[simp] theorem State.accrue_rings (s : State) (b : Bool) (f : BitVec 320) : (s.accrue b f).rings = s.rings := by unfold State.accrue; split <;> rfl
@[simp] theorem State.accrue_flights (s : State) (b : Bool) (f : BitVec 320) : (s.accrue b f).flights = s.flights := by unfold State.accrue; split <;> rfl
@[simp] theorem State.accrue_fabric (s : State) (b : Bool) (f : BitVec 320) : (s.accrue b f).fabric = s.fabric := by unfold State.accrue; split <;> rfl
@[simp] theorem State.accrue_ports (s : State) (b : Bool) (f : BitVec 320) : (s.accrue b f).ports = s.ports := by unfold State.accrue; split <;> rfl
@[simp] theorem State.accrue_streams (s : State) (b : Bool) (f : BitVec 320) : (s.accrue b f).streams = s.streams := by unfold State.accrue; split <;> rfl
@[simp] theorem State.accrue_plat (s : State) (b : Bool) (f : BitVec 320) : (s.accrue b f).plat = s.plat := by unfold State.accrue; split <;> rfl
@[simp] theorem State.accrue_notices (s : State) (b : Bool) (f : BitVec 320) : (s.accrue b f).notices = s.notices := by unfold State.accrue; split <;> rfl
@[simp] theorem State.accrue_agenda (s : State) (b : Bool) (f : BitVec 320) : (s.accrue b f).agenda = s.agenda := by unfold State.accrue; split <;> rfl

/-! ### setHart -/

@[simp] theorem State.setHart_here (s : State) (c : CtxId) (h : Hart) : (s.setHart c h).here = s.here := by unfold State.setHart; split <;> rfl
@[simp] theorem State.setHart_mem (s : State) (c : CtxId) (h : Hart) : (s.setHart c h).mem = s.mem := by unfold State.setHart; split <;> rfl
@[simp] theorem State.setHart_tags (s : State) (c : CtxId) (h : Hart) : (s.setHart c h).tags = s.tags := by unfold State.setHart; split <;> rfl
@[simp] theorem State.setHart_bad (s : State) (c : CtxId) (h : Hart) : (s.setHart c h).bad = s.bad := by unfold State.setHart; split <;> rfl
@[simp] theorem State.setHart_polestar (s : State) (c : CtxId) (h : Hart) : (s.setHart c h).polestar = s.polestar := by unfold State.setHart; split <;> rfl
@[simp] theorem State.setHart_clock (s : State) (c : CtxId) (h : Hart) : (s.setHart c h).clock = s.clock := by unfold State.setHart; split <;> rfl
@[simp] theorem State.setHart_steps (s : State) (c : CtxId) (h : Hart) : (s.setHart c h).steps = s.steps := by unfold State.setHart; split <;> rfl
@[simp] theorem State.setHart_cores (s : State) (c : CtxId) (h : Hart) : (s.setHart c h).cores = s.cores := by unfold State.setHart; split <;> rfl
@[simp] theorem State.setHart_dies (s : State) (c : CtxId) (h : Hart) : (s.setHart c h).dies = s.dies := by unfold State.setHart; split <;> rfl
@[simp] theorem State.setHart_egress (s : State) (c : CtxId) (h : Hart) : (s.setHart c h).egress = s.egress := by unfold State.setHart; split <;> rfl
@[simp] theorem State.setHart_shared (s : State) (c : CtxId) (h : Hart) : (s.setHart c h).shared = s.shared := by unfold State.setHart; split <;> rfl
@[simp] theorem State.setHart_eng (s : State) (c : CtxId) (h : Hart) : (s.setHart c h).eng = s.eng := by unfold State.setHart; split <;> rfl
@[simp] theorem State.setHart_disp (s : State) (c : CtxId) (h : Hart) : (s.setHart c h).disp = s.disp := by unfold State.setHart; split <;> rfl
@[simp] theorem State.setHart_rings (s : State) (c : CtxId) (h : Hart) : (s.setHart c h).rings = s.rings := by unfold State.setHart; split <;> rfl
@[simp] theorem State.setHart_flights (s : State) (c : CtxId) (h : Hart) : (s.setHart c h).flights = s.flights := by unfold State.setHart; split <;> rfl
@[simp] theorem State.setHart_fabric (s : State) (c : CtxId) (h : Hart) : (s.setHart c h).fabric = s.fabric := by unfold State.setHart; split <;> rfl
@[simp] theorem State.setHart_ports (s : State) (c : CtxId) (h : Hart) : (s.setHart c h).ports = s.ports := by unfold State.setHart; split <;> rfl
@[simp] theorem State.setHart_streams (s : State) (c : CtxId) (h : Hart) : (s.setHart c h).streams = s.streams := by unfold State.setHart; split <;> rfl
@[simp] theorem State.setHart_plat (s : State) (c : CtxId) (h : Hart) : (s.setHart c h).plat = s.plat := by unfold State.setHart; split <;> rfl
@[simp] theorem State.setHart_notices (s : State) (c : CtxId) (h : Hart) : (s.setHart c h).notices = s.notices := by unfold State.setHart; split <;> rfl
@[simp] theorem State.setHart_agenda (s : State) (c : CtxId) (h : Hart) : (s.setHart c h).agenda = s.agenda := by unfold State.setHart; split <;> rfl

/-! ### modHart -/

@[simp] theorem State.modHart_here (s : State) (c : CtxId) (f : Hart → Hart) : (s.modHart c f).here = s.here := by unfold State.modHart State.setHart; split <;> rfl
@[simp] theorem State.modHart_mem (s : State) (c : CtxId) (f : Hart → Hart) : (s.modHart c f).mem = s.mem := by unfold State.modHart State.setHart; split <;> rfl
@[simp] theorem State.modHart_tags (s : State) (c : CtxId) (f : Hart → Hart) : (s.modHart c f).tags = s.tags := by unfold State.modHart State.setHart; split <;> rfl
@[simp] theorem State.modHart_bad (s : State) (c : CtxId) (f : Hart → Hart) : (s.modHart c f).bad = s.bad := by unfold State.modHart State.setHart; split <;> rfl
@[simp] theorem State.modHart_polestar (s : State) (c : CtxId) (f : Hart → Hart) : (s.modHart c f).polestar = s.polestar := by unfold State.modHart State.setHart; split <;> rfl
@[simp] theorem State.modHart_clock (s : State) (c : CtxId) (f : Hart → Hart) : (s.modHart c f).clock = s.clock := by unfold State.modHart State.setHart; split <;> rfl
@[simp] theorem State.modHart_steps (s : State) (c : CtxId) (f : Hart → Hart) : (s.modHart c f).steps = s.steps := by unfold State.modHart State.setHart; split <;> rfl
@[simp] theorem State.modHart_cores (s : State) (c : CtxId) (f : Hart → Hart) : (s.modHart c f).cores = s.cores := by unfold State.modHart State.setHart; split <;> rfl
@[simp] theorem State.modHart_dies (s : State) (c : CtxId) (f : Hart → Hart) : (s.modHart c f).dies = s.dies := by unfold State.modHart State.setHart; split <;> rfl
@[simp] theorem State.modHart_egress (s : State) (c : CtxId) (f : Hart → Hart) : (s.modHart c f).egress = s.egress := by unfold State.modHart State.setHart; split <;> rfl
@[simp] theorem State.modHart_shared (s : State) (c : CtxId) (f : Hart → Hart) : (s.modHart c f).shared = s.shared := by unfold State.modHart State.setHart; split <;> rfl
@[simp] theorem State.modHart_eng (s : State) (c : CtxId) (f : Hart → Hart) : (s.modHart c f).eng = s.eng := by unfold State.modHart State.setHart; split <;> rfl
@[simp] theorem State.modHart_disp (s : State) (c : CtxId) (f : Hart → Hart) : (s.modHart c f).disp = s.disp := by unfold State.modHart State.setHart; split <;> rfl
@[simp] theorem State.modHart_rings (s : State) (c : CtxId) (f : Hart → Hart) : (s.modHart c f).rings = s.rings := by unfold State.modHart State.setHart; split <;> rfl
@[simp] theorem State.modHart_flights (s : State) (c : CtxId) (f : Hart → Hart) : (s.modHart c f).flights = s.flights := by unfold State.modHart State.setHart; split <;> rfl
@[simp] theorem State.modHart_fabric (s : State) (c : CtxId) (f : Hart → Hart) : (s.modHart c f).fabric = s.fabric := by unfold State.modHart State.setHart; split <;> rfl
@[simp] theorem State.modHart_ports (s : State) (c : CtxId) (f : Hart → Hart) : (s.modHart c f).ports = s.ports := by unfold State.modHart State.setHart; split <;> rfl
@[simp] theorem State.modHart_streams (s : State) (c : CtxId) (f : Hart → Hart) : (s.modHart c f).streams = s.streams := by unfold State.modHart State.setHart; split <;> rfl
@[simp] theorem State.modHart_plat (s : State) (c : CtxId) (f : Hart → Hart) : (s.modHart c f).plat = s.plat := by unfold State.modHart State.setHart; split <;> rfl
@[simp] theorem State.modHart_notices (s : State) (c : CtxId) (f : Hart → Hart) : (s.modHart c f).notices = s.notices := by unfold State.modHart State.setHart; split <;> rfl
@[simp] theorem State.modHart_agenda (s : State) (c : CtxId) (f : Hart → Hart) : (s.modHart c f).agenda = s.agenda := by unfold State.modHart State.setHart; split <;> rfl

/-! ### storeEffect -/

@[simp] theorem State.storeEffect_here (s : State) (n : Nat) : (s.storeEffect n).here = s.here := by unfold State.storeEffect; split <;> rfl
@[simp] theorem State.storeEffect_parked (s : State) (n : Nat) : (s.storeEffect n).parked = s.parked := by unfold State.storeEffect; split <;> rfl
@[simp] theorem State.storeEffect_mem (s : State) (n : Nat) : (s.storeEffect n).mem = s.mem := by unfold State.storeEffect; split <;> rfl
@[simp] theorem State.storeEffect_tags (s : State) (n : Nat) : (s.storeEffect n).tags = s.tags := by unfold State.storeEffect; split <;> rfl
@[simp] theorem State.storeEffect_bad (s : State) (n : Nat) : (s.storeEffect n).bad = s.bad := by unfold State.storeEffect; split <;> rfl
@[simp] theorem State.storeEffect_polestar (s : State) (n : Nat) : (s.storeEffect n).polestar = s.polestar := by unfold State.storeEffect; split <;> rfl
@[simp] theorem State.storeEffect_clock (s : State) (n : Nat) : (s.storeEffect n).clock = s.clock := by unfold State.storeEffect; split <;> rfl
@[simp] theorem State.storeEffect_steps (s : State) (n : Nat) : (s.storeEffect n).steps = s.steps := by unfold State.storeEffect; split <;> rfl
@[simp] theorem State.storeEffect_cores (s : State) (n : Nat) : (s.storeEffect n).cores = s.cores := by unfold State.storeEffect; split <;> rfl
@[simp] theorem State.storeEffect_dies (s : State) (n : Nat) : (s.storeEffect n).dies = s.dies := by unfold State.storeEffect; split <;> rfl
@[simp] theorem State.storeEffect_egress (s : State) (n : Nat) : (s.storeEffect n).egress = s.egress := by unfold State.storeEffect; split <;> rfl
@[simp] theorem State.storeEffect_shared (s : State) (n : Nat) : (s.storeEffect n).shared = s.shared := by unfold State.storeEffect; split <;> rfl
@[simp] theorem State.storeEffect_eng (s : State) (n : Nat) : (s.storeEffect n).eng = s.eng := by unfold State.storeEffect; split <;> rfl
@[simp] theorem State.storeEffect_disp (s : State) (n : Nat) : (s.storeEffect n).disp = s.disp := by unfold State.storeEffect; split <;> rfl
@[simp] theorem State.storeEffect_rings (s : State) (n : Nat) : (s.storeEffect n).rings = s.rings := by unfold State.storeEffect; split <;> rfl
@[simp] theorem State.storeEffect_flights (s : State) (n : Nat) : (s.storeEffect n).flights = s.flights := by unfold State.storeEffect; split <;> rfl
@[simp] theorem State.storeEffect_fabric (s : State) (n : Nat) : (s.storeEffect n).fabric = s.fabric := by unfold State.storeEffect; split <;> rfl
@[simp] theorem State.storeEffect_ports (s : State) (n : Nat) : (s.storeEffect n).ports = s.ports := by unfold State.storeEffect; split <;> rfl
@[simp] theorem State.storeEffect_streams (s : State) (n : Nat) : (s.storeEffect n).streams = s.streams := by unfold State.storeEffect; split <;> rfl
@[simp] theorem State.storeEffect_plat (s : State) (n : Nat) : (s.storeEffect n).plat = s.plat := by unfold State.storeEffect; split <;> rfl
@[simp] theorem State.storeEffect_notices (s : State) (n : Nat) : (s.storeEffect n).notices = s.notices := by unfold State.storeEffect; split <;> rfl
@[simp] theorem State.storeEffect_agenda (s : State) (n : Nat) : (s.storeEffect n).agenda = s.agenda := by unfold State.storeEffect; split <;> rfl

end Sys2Proof.Machine
end

