-- ==== Sys2Proof/Laws/Memory.lean ====
section
/-! SUPPORT. Sparse maps and memory: read after write, and the canonical form that every write keeps. -/

namespace Sys2Proof

/-! ### Sparse maps -/

@[simp] theorem SMap.find_insert_same {α : Type} (m : SMap α) (k : Nat) (a : α) : (m.insert k a).find? k = some a := by
  induction m with
  | nil => simp [SMap.insert, SMap.find?]
  | cons p t ih =>
    unfold SMap.insert
    split
    · simp [SMap.find?]
    · split
      · simp [SMap.find?]
      · simp [SMap.find?, *]

theorem SMap.find_insert_other {α : Type} (m : SMap α) {j k : Nat} (a : α) (h : j ≠ k) : (m.insert j a).find? k = m.find? k := by
  induction m with
  | nil => simp [SMap.insert, SMap.find?, h]
  | cons p t ih =>
    unfold SMap.insert
    split
    · simp [SMap.find?, h]
    · split
      · rename_i h2
        simp [SMap.find?, h2 ▸ h, h]
      · simp [SMap.find?, ih]

theorem SMap.find_insert {α : Type} (m : SMap α) (j k : Nat) (a : α) : (m.insert j a).find? k = if j = k then some a else m.find? k := by
  split
  · next h => subst h; exact m.find_insert_same _ a
  · next h => exact m.find_insert_other a h

@[simp] theorem SMap.getD_insert_same {α : Type} (m : SMap α) (k : Nat) (a d : α) : (m.insert k a).getD k d = a := by simp [SMap.getD]

theorem SMap.getD_insert_other {α : Type} (m : SMap α) {j k : Nat} (a d : α) (h : j ≠ k) : (m.insert j a).getD k d = m.getD k d := by
  simp [SMap.getD, SMap.find_insert_other m a h]

@[simp] theorem SMap.find_erase_same {α : Type} (m : SMap α) (k : Nat) : (m.erase k).find? k = none := by
  induction m with
  | nil => rfl
  | cons p t ih =>
    unfold SMap.erase at ih ⊢
    simp only [List.filter_cons]
    split
    · next h =>
      simp only [decide_eq_true_eq] at h
      simp only [SMap.find?, if_neg h]
      exact ih
    · exact ih

theorem SMap.find_erase_other {α : Type} (m : SMap α) {j k : Nat} (h : j ≠ k) : (m.erase j).find? k = m.find? k := by
  induction m with
  | nil => rfl
  | cons p t ih =>
    unfold SMap.erase at ih ⊢
    simp only [List.filter_cons]
    split
    · simp only [SMap.find?]
      rw [ih]
    · next h2 =>
      have : p.1 = j := by simpa using h2
      simp only [SMap.find?, this, if_neg h]
      exact ih

theorem mem_setInsert (l : List Nat) (k j : Nat) : j ∈ setInsert l k ↔ j = k ∨ j ∈ l := by
  induction l with
  | nil => simp [setInsert]
  | cons a t ih =>
    unfold setInsert
    split
    · simp
    · split
      · next h => simp [h]
      · simp [ih]; tauto

namespace Machine

/-! ### The canonical form -/

/-- Memory is canonical exactly when its addresses rise and no entry reads as an unlisted one. -/
theorem memCanonical_iff (m : List Host.Cell) :
    memCanonical m = true ↔ m.Pairwise (fun a b => a.1 < b.1) ∧ ∀ c ∈ m, c.2 ≠ emptyByte := by
  induction m with
  | nil => simp [memCanonical]
  | cons p t ih =>
    obtain ⟨j, b⟩ := p
    cases t with
    | nil => simp [memCanonical]
    | cons q t =>
      obtain ⟨k, c⟩ := q
      simp only [memCanonical, Bool.and_eq_true, decide_eq_true_eq, bne_iff_ne, ne_eq, ih, List.pairwise_cons, List.forall_mem_cons]
      constructor
      · rintro ⟨⟨h1, h2⟩, ⟨h3, h4⟩, h5⟩
        exact ⟨⟨⟨h1, fun a ha => Nat.lt_trans h1 (h3 a ha)⟩, h3, h4⟩, h2, h5⟩
      · rintro ⟨⟨⟨h1, _⟩, h3, h4⟩, h2, h5⟩
        exact ⟨⟨h1, h2⟩, ⟨h3, h4⟩, h5⟩

/-- Entries of a memory after a write are the new one and old ones of other addresses. -/
theorem mem_of_mem_memSet {m : List Host.Cell} {k : Nat} {b : Byte} {c : Host.Cell} (h : c ∈ memSet m k b) :
    (c = (k, b) ∧ b ≠ emptyByte) ∨ c ∈ m := by
  induction m with
  | nil => unfold memSet at h; split at h <;> simp_all
  | cons p t ih =>
    obtain ⟨j, x⟩ := p
    unfold memSet at h
    split at h
    · split at h
      · exact .inr h
      · rcases List.mem_cons.1 h with rfl | h
        · exact .inl ⟨rfl, ‹_›⟩
        · exact .inr h
    · split at h
      · split at h
        · exact .inr (List.mem_cons_of_mem _ h)
        · rcases List.mem_cons.1 h with rfl | h
          · exact .inl ⟨rfl, ‹_›⟩
          · exact .inr (List.mem_cons_of_mem _ h)
      · simp only [List.mem_cons] at h ⊢
        rcases h with h | h
        · exact .inr (.inl h)
        · rcases ih h with h | h <;> tauto

/-- A write of one byte keeps the canonical form. -/
theorem memSet_wf {m : List Host.Cell} (h : Memory.wf m) (k : Nat) (b : Byte) : Memory.wf (memSet m k b) := by
  unfold Memory.wf at h ⊢
  rw [memCanonical_iff] at h ⊢
  obtain ⟨hp, hb⟩ := h
  constructor
  · clear hb
    induction m with
    | nil => unfold memSet; split <;> simp
    | cons p t ih =>
      obtain ⟨j, x⟩ := p
      rw [List.pairwise_cons] at hp
      unfold memSet
      split
      · next hk =>
        split
        · exact List.pairwise_cons.2 hp
        · refine List.pairwise_cons.2 ⟨fun a ha => ?_, List.pairwise_cons.2 hp⟩
          rcases List.mem_cons.1 ha with rfl | ha
          · exact hk
          · exact Nat.lt_trans hk (hp.1 a ha)
      · split
        · next hk =>
          split
          · exact hp.2
          · exact List.pairwise_cons.2 ⟨fun a ha => hk ▸ hp.1 a ha, hp.2⟩
        · next h1 h2 =>
          refine List.pairwise_cons.2 ⟨fun a ha => ?_, ih hp.2⟩
          rcases mem_of_mem_memSet ha with ⟨rfl, _⟩ | ha
          · exact Nat.lt_of_le_of_ne (Nat.le_of_not_lt h1) h2
          · exact hp.1 a ha
  · intro c hc
    rcases mem_of_mem_memSet hc with ⟨rfl, h⟩ | hc
    · exact h
    · exact hb c hc

/-- A write of several bytes keeps the canonical form. -/
theorem memSetAll_wf {m : List Host.Cell} (h : Memory.wf m) (cs : List Host.Cell) : Memory.wf (memSetAll m cs) := by
  unfold memSetAll
  induction cs generalizing m with
  | nil => exact h
  | cons c t ih => exact ih (memSet_wf h c.1 c.2)

/-- Dropping entries keeps the canonical form. -/
theorem filter_wf {m : List Host.Cell} (h : Memory.wf m) (p : Host.Cell → Bool) : Memory.wf (m.filter p) := by
  unfold Memory.wf at h ⊢
  rw [memCanonical_iff] at h ⊢
  exact ⟨h.1.filter p, fun c hc => h.2 c (List.mem_of_mem_filter hc)⟩

/-! ### Read after write -/

/-- An address below every entry reads as an unlisted one. -/
theorem memGet_below {m : List Host.Cell} {k : Nat} (h : ∀ c ∈ m, k < c.1) : memGet m k = emptyByte := by
  induction m with
  | nil => rfl
  | cons p t ih =>
    have h1 := h p (by simp)
    simp only [memGet, if_neg (Nat.ne_of_gt h1)]
    exact ih fun c hc => h c (List.mem_cons_of_mem _ hc)

/-- A byte written reads as written. -/
theorem memGet_memSet_same {m : List Host.Cell} (h : Memory.wf m) (k : Nat) (b : Byte) : memGet (memSet m k b) k = b := by
  have hp := ((memCanonical_iff m).1 h).1
  clear h
  induction m with
  | nil => unfold memSet; split <;> simp_all [memGet]
  | cons p t ih =>
    obtain ⟨j, x⟩ := p
    rw [List.pairwise_cons] at hp
    unfold memSet
    split
    · next hk =>
      split
      · next hb =>
        rw [hb]
        refine memGet_below fun c hc => ?_
        rcases List.mem_cons.1 hc with rfl | hc
        · exact hk
        · exact Nat.lt_trans hk (hp.1 c hc)
      · simp [memGet]
    · split
      · next hk =>
        split
        · next hb => rw [hb]; exact memGet_below fun c hc => hk ▸ hp.1 c hc
        · simp [memGet]
      · next h1 h2 => simp only [memGet, if_neg h2]; exact ih hp.2

/-- A write leaves every other byte alone. -/
theorem memGet_memSet_other (m : List Host.Cell) {j k : Nat} (b : Byte) (h : j ≠ k) : memGet (memSet m j b) k = memGet m k := by
  induction m with
  | nil => unfold memSet; split <;> simp [memGet, h]
  | cons p t ih =>
    obtain ⟨i, x⟩ := p
    unfold memSet
    split
    · split
      · rfl
      · simp [memGet, h]
    · split
      · next h2 =>
        have : i ≠ k := h2 ▸ h
        split <;> simp [memGet, h, this]
      · simp [memGet, ih]

/-- Writes at other addresses leave a byte alone. -/
theorem memGet_memSetAll_other (m : List Host.Cell) {cs : List Host.Cell} {k : Nat} (h : ∀ c ∈ cs, c.1 ≠ k) :
    memGet (memSetAll m cs) k = memGet m k := by
  unfold memSetAll
  induction cs generalizing m with
  | nil => rfl
  | cons c t ih =>
    rw [List.foldl_cons, ih _ fun d hd => h d (List.mem_cons_of_mem _ hd), memGet_memSet_other _ _ (h c (by simp))]

/-- A run of cells holds exactly its addresses. -/
theorem mem_cellsAt (k : Nat) (bs : List Byte) (c : Host.Cell) :
    c ∈ cellsAt k bs ↔ ∃ i, ∃ h : i < bs.length, c = (k + i, bs[i]) := by
  induction bs generalizing k with
  | nil => simp [cellsAt]
  | cons b t ih =>
    simp only [cellsAt, List.mem_cons, ih]
    constructor
    · rintro (rfl | ⟨i, hi, rfl⟩)
      · exact ⟨0, by simp, by simp⟩
      · exact ⟨i + 1, by simp [hi], by simp; omega⟩
    · rintro ⟨i, hi, rfl⟩
      cases i with
      | zero => exact .inl (by simp)
      | succ i => exact .inr ⟨i, by simpa using hi, by simp; omega⟩

/-- A byte of a run that was written reads as written. -/
theorem memGet_cellsAt {m : List Host.Cell} (h : Memory.wf m) (k : Nat) (bs : List Byte) {i : Nat} (hi : i < bs.length) :
    memGet (memSetAll m (cellsAt k bs)) (k + i) = bs[i] := by
  induction bs generalizing m k i with
  | nil => simp at hi
  | cons b t ih =>
    cases i with
    | zero =>
      show memGet (memSetAll (memSet m k b) (cellsAt (k + 1) t)) (k + 0) = b
      rw [memGet_memSetAll_other]
      · exact memGet_memSet_same h k b
      · intro c hc
        obtain ⟨j, _, rfl⟩ := (mem_cellsAt _ _ _).1 hc
        simp only; omega
    | succ i =>
      show memGet (memSetAll (memSet m k b) (cellsAt (k + 1) t)) (k + (i + 1)) = t[i]'(by simpa using hi)
      rw [show k + (i + 1) = k + 1 + i by omega]
      exact ih (memSet_wf h k b) (k + 1) (by simpa using hi)

/-! ### Writing at the home -/

@[simp] theorem State.logError_mem (s : State) (a : Reader) (c w : Nat) : (s.logError a c w).mem = s.mem := rfl
@[simp] theorem State.logError_hart (s : State) (a : Reader) (c w : Nat) : (s.logError a c w).hart = s.hart := rfl
@[simp] theorem State.logError_here (s : State) (a : Reader) (c w : Nat) : (s.logError a c w).here = s.here := rfl
@[simp] theorem State.logError_tags (s : State) (a : Reader) (c w : Nat) : (s.logError a c w).tags = s.tags := rfl

/-- Logging several errors writes no memory. -/
theorem logAll_mem (l : List Nat) (a : Reader) (c : Nat) (s : State) : (l.foldl (fun t w => t.logError a c w) s).mem = s.mem := by
  induction l generalizing s with
  | nil => rfl
  | cons w t ih => rw [List.foldl_cons, ih]; rfl

/-- A write at the home writes its cells, whatever it logs. -/
@[simp] theorem State.writeHome_mem (s : State) (n : Nat) (cs : List Host.Cell) (b : Bool) : (s.writeHome n cs b).mem = memSetAll s.mem cs := by
  unfold State.writeHome
  exact logAll_mem _ _ _ _

/-- A write at the home keeps the canonical form. -/
theorem State.writeHome_memOk {s : State} (h : s.memOk) (n : Nat) (cs : List Host.Cell) (b : Bool) : (s.writeHome n cs b).memOk := by
  unfold State.memOk
  rw [State.writeHome_mem]
  exact memSetAll_wf h cs

theorem State.writeHomeBytes_memOk {s : State} (h : s.memOk) (n k : Nat) (bs : List Byte) : (s.writeHomeBytes n k bs).memOk :=
  State.writeHome_memOk h _ _ _

theorem State.writeHomeNat_memOk {s : State} (h : s.memOk) (c k n x : Nat) : (s.writeHomeNat c k n x).memOk :=
  State.writeHome_memOk h _ _ _

/-- A byte outside the cells written reads as before. -/
theorem State.writeHome_other (s : State) (n : Nat) {cs : List Host.Cell} (b : Bool) {k : Nat} (h : ∀ c ∈ cs, c.1 ≠ k) :
    (s.writeHome n cs b).homeByte k = s.homeByte k := by
  unfold State.homeByte
  rw [State.writeHome_mem, memGet_memSetAll_other _ h]

/-- A byte written at its home reads as written. -/
theorem State.writeHomeBytes_same {s : State} (h : s.memOk) (n k : Nat) (bs : List Byte) {i : Nat} (hi : i < bs.length) :
    (s.writeHomeBytes n k bs).homeByte (k + i) = bs[i] := by
  unfold State.homeByte State.writeHomeBytes
  rw [State.writeHome_mem, memGet_cellsAt h k bs hi]

/-- A run of bytes inside those written at their home reads as written. -/
theorem State.homeBytes_written {s : State} (h : s.memOk) (c k a n : Nat) (bs : List Byte) (hn : a + n ≤ bs.length) :
    (s.writeHomeBytes c k bs).homeBytes (k + a) n = (bs.drop a).take n := by
  apply List.ext_getElem
  · simp [State.homeBytes, upFrom]; omega
  · intro i h1 h2
    have hi : i < n := by simpa [State.homeBytes, upFrom] using h1
    simp only [State.homeBytes, upFrom, List.getElem_map, List.getElem_range, List.getElem_take, List.getElem_drop]
    rw [Nat.add_assoc, State.writeHomeBytes_same h c k bs (by omega)]

end Machine

end Sys2Proof
end

