-- ==== Sys2Proof/Laws/Ops.lean ====
section
/-! SUPPORT. What the shared operations can do: how an instruction ends, registers, contexts, traps. -/

namespace Sys2Proof.Machine

/-! ### How an operation ends -/

@[simp] theorem R.bind_ok {α β : Type} (a : α) (s : State) (f : α → State → R β) : (R.ok a s).bind f = f a s := rfl
@[simp] theorem R.bind_trap {α β : Type} (c : Cause) (v : Word) (s : State) (f : α → State → R β) : (R.trap c v s).bind f = .trap c v s := rfl
@[simp] theorem R.bind_wait {α β : Type} (f : α → State → R β) : (R.wait : R α).bind f = .wait := rfl
@[simp] theorem R.require_true (c : Cause) (v : Word) (s : State) : R.require true c v s = .ok () s := rfl
@[simp] theorem R.require_false (c : Cause) (v : Word) (s : State) : R.require false c v s = .trap c v s := rfl

/-- What a chain of two operations can do. -/
theorem R.bind_cases {α β : Type} (r : R α) (f : α → State → R β) :
    (∃ a s, r = .ok a s ∧ r.bind f = f a s) ∨ (∃ c v s, r = .trap c v s ∧ r.bind f = .trap c v s) ∨ (r = .wait ∧ r.bind f = .wait) := by
  cases r with
  | ok a s => exact .inl ⟨a, s, rfl, rfl⟩
  | trap c v s => exact .inr (.inl ⟨c, v, s, rfl, rfl⟩)
  | wait => exact .inr (.inr ⟨rfl, rfl⟩)

@[simp] theorem finish_ok (n : Nat) (s t : State) : finish n s (.ok () t) = .next (t.advance n) := rfl
@[simp] theorem finish_trap (n : Nat) (s t : State) (c : Cause) (v : Word) : finish n s (.trap c v t) = .next (t.takeTrap c v n) := rfl
@[simp] theorem finish_wait (n : Nat) (s : State) : finish n s .wait = .next s.block := rfl

/-- An instruction always ends in a next state: it goes on, traps or waits. -/
theorem finish_cases (n : Nat) (s : State) (r : R Unit) :
    (∃ t, r = .ok () t ∧ finish n s r = .next (t.advance n)) ∨
    (∃ c v t, r = .trap c v t ∧ finish n s r = .next (t.takeTrap c v n)) ∨ (r = .wait ∧ finish n s r = .next s.block) := by
  cases r with
  | ok a t => exact .inl ⟨t, rfl, rfl⟩
  | trap c v t => exact .inr (.inl ⟨c, v, t, rfl, rfl⟩)
  | wait => exact .inr (.inr ⟨rfl, rfl⟩)

theorem finish_next (n : Nat) (s : State) (r : R Unit) : ∃ t, finish n s r = .next t := by
  cases r <;> exact ⟨_, rfl⟩

theorem systemOnly_fw {s : State} (h : s.isFw = true) (w : Word) (r : R Unit) : systemOnly s w r = r := by simp [systemOnly, h]
theorem systemOnly_task {s : State} (h : s.isFw = false) (w : Word) (r : R Unit) : systemOnly s w r = .trap .privileged w s := by
  simp [systemOnly, h]
theorem taskOnly_task {α : Type} {s : State} (h : s.isFw = false) (w : Word) (r : R α) : taskOnly s w r = r := by simp [taskOnly, h]
theorem taskOnly_fw {α : Type} {s : State} (h : s.isFw = true) (w : Word) (r : R α) : taskOnly s w r = .trap .illegal w s := by
  simp [taskOnly, h]

/-- A trap at task level stops the slot (R364). -/
theorem takeTrap_task {s : State} (h : s.isFw = false) (c : Cause) (v : Word) (n : Nat) : s.takeTrap c v n = s.trapContext s.here c v n := by
  simp [State.takeTrap, h]

/-- A trap at supervisor level is a firmware fault (R362). -/
theorem takeTrap_fw {s : State} (h : s.isFw = true) (c : Cause) (v : Word) (n : Nat) :
    s.takeTrap c v n = s.firmwareFault s.here.die s.here.core c.code s.hart.pc v := by
  simp [State.takeTrap, h]

/-! ### Registers -/

/-- Reading an entry of a register file after a write to one. -/
theorem vget_set {α : Type} {n : Nat} (v : Vector α n) (i : Nat) (hi : i < n) (x : α) (j : Fin n) :
    (v.set i x hi).get j = if i = j.val then x else v.get j := by
  show (v.set i x hi)[j.val] = if i = j.val then x else v[j.val]
  rw [Vector.getElem_set]

theorem State.rs_ws (s : State) (d r : SReg) (v : Word) : (s.ws d v).rs r = if r = d ∧ d ≠ 0 then v else s.rs r := by
  unfold State.rs State.ws
  by_cases hr : r = 0
  · have : ¬(r = d ∧ d ≠ 0) := fun h => h.2 (h.1 ▸ hr)
    rw [if_pos hr, if_pos hr, if_neg this]
  · rw [if_neg hr, if_neg hr]
    by_cases hd : d = 0
    · rw [if_pos hd, if_neg fun h => h.2 hd]
    · rw [if_neg hd]
      refine (vget_set _ _ d.isLt _ _).trans ?_
      by_cases h : r = d
      · subst h; exact (if_pos rfl).trans (if_pos ⟨rfl, hr⟩).symm
      · have h2 : ¬d.toNat = (r.toFin).val := fun e => h (BitVec.eq_of_toNat_eq e.symm)
        rw [if_neg h2, if_neg fun e => h e.1]

theorem State.rc_wc (s : State) (d r : CReg) (v : Cap) : (s.wc d v).rc r = if r = d ∧ d ≠ 0 then v else s.rc r := by
  unfold State.rc State.wc
  by_cases hr : r = 0
  · have : ¬(r = d ∧ d ≠ 0) := fun h => h.2 (h.1 ▸ hr)
    rw [if_pos hr, if_pos hr, if_neg this]
  · rw [if_neg hr, if_neg hr]
    by_cases hd : d = 0
    · rw [if_pos hd, if_neg fun h => h.2 hd]
    · rw [if_neg hd]
      refine (vget_set _ _ d.isLt _ _).trans ?_
      by_cases h : r = d
      · subst h; exact (if_pos rfl).trans (if_pos ⟨rfl, hr⟩).symm
      · have h2 : ¬d.toNat = (r.toFin).val := fun e => h (BitVec.eq_of_toNat_eq e.symm)
        rw [if_neg h2, if_neg fun e => h e.1]

theorem State.rk_wk (s : State) (d r : KReg) (v : KBits) : (s.wk d v).rk r = if r = d ∧ d ≠ 0 then v else s.rk r := by
  unfold State.rk State.wk
  by_cases hr : r = 0
  · have : ¬(r = d ∧ d ≠ 0) := fun h => h.2 (h.1 ▸ hr)
    rw [if_pos hr, if_pos hr, if_neg this]
  · rw [if_neg hr, if_neg hr]
    by_cases hd : d = 0
    · rw [if_pos hd, if_neg fun h => h.2 hd]
    · rw [if_neg hd]
      refine (vget_set _ _ d.isLt _ _).trans ?_
      by_cases h : r = d
      · subst h; exact (if_pos rfl).trans (if_pos ⟨rfl, hr⟩).symm
      · have h2 : ¬d.toNat = (r.toFin).val := fun e => h (BitVec.eq_of_toNat_eq e.symm)
        rw [if_neg h2, if_neg fun e => h e.1]

@[simp] theorem State.rs_zero (s : State) : s.rs 0 = 0 := rfl
@[simp] theorem State.rc_zero (s : State) : s.rc 0 = Cap.null := rfl
@[simp] theorem State.rk_zero (s : State) : s.rk 0 = BitVec.allOnes 512 := rfl

/-! ### Contexts -/

/-- The registers of a context after a write to another or the same. -/
theorem State.hartAt_setHart (s : State) (c e : CtxId) (h : Hart) (he : c.key = e.key → c = e) :
    (s.setHart c h).hartAt e = if e = c then h else s.hartAt e := by
  unfold State.hartAt State.setHart
  by_cases hc : c = s.here
  · subst hc
    by_cases h2 : e = s.here <;> simp [h2]
  · by_cases h2 : e = s.here
    · subst h2; simp [hc, Ne.symm hc]
    · simp only [hc, if_false, h2]
      by_cases h3 : e = c
      · subst h3; simp
      · simp only [h3, if_false]
        exact SMap.getD_insert_other _ _ _ fun h => h3 (he h).symm

@[simp] theorem State.hartAt_here (s : State) : s.hartAt s.here = s.hart := by simp [State.hartAt]

@[simp] theorem State.setHart_self (s : State) (h : Hart) : s.setHart s.here h = { s with hart := h } := by simp [State.setHart]

@[simp] theorem State.modHart_self (s : State) (f : Hart → Hart) : s.modHart s.here f = s.mod f := by simp [State.modHart, State.mod]

theorem State.coreAt_modCore (s : State) (d k : Nat) (f : Core → Core) : (s.modCore d k f).coreAt d k = f (s.coreAt d k) := by
  simp [State.coreAt]

theorem State.dieAt_modDie (s : State) (d : Nat) (f : Die → Die) : (s.modDie d f).dieAt d = f (s.dieAt d) := by simp [State.dieAt]

theorem State.dieAt_modDie_other (s : State) {d e : Nat} (f : Die → Die) (h : d ≠ e) : (s.modDie d f).dieAt e = s.dieAt e := by
  simp [State.dieAt, SMap.getD_insert_other _ _ _ h]

@[simp] theorem State.hartAt_modHart (s : State) (c : CtxId) (f : Hart → Hart) : (s.modHart c f).hartAt c = f (s.hartAt c) := by
  unfold State.modHart; rw [State.hartAt_setHart _ _ _ _ fun _ => rfl, if_pos rfl]

/-! ### Waits -/

@[simp] theorem State.blockOn_hartAt (s : State) (w : Wait) : (s.blockOn w).hartAt s.here = (s.blockOn w).hart := State.hartAt_here (s.blockOn w)

/-- A wait that starts: the context blocks on it and looks at once (R31, R261). -/
@[simp] theorem finishWait_ok (s t : State) (w : Wait) : finishWait s (.ok w t) = .next ((t.blockOn w).tryWait t.here) := rfl
@[simp] theorem finishWait_trap (s t : State) (c : Cause) (v : Word) : finishWait s (.trap c v t) = .next (t.takeTrap c v 4) := rfl
@[simp] theorem finishWait_wait (s : State) : finishWait s .wait = .next s.block := rfl

/-! ### Traps -/

/-- A task trap stops the slot with its cause, TPC and TVAL; no register of the task changes (R77, R364). -/
theorem trapContext_here (s : State) (c : Cause) (v : Word) (n : Nat) :
    (s.trapContext s.here c v n).hart =
      { s.hart with status := .trapped, trap := ⟨c, s.hart.pc, v, n, s.polestar⟩, task := s.hart.task.issued } := by
  simp [State.trapContext]

@[simp] theorem trapContext_mem (s : State) (x : CtxId) (c : Cause) (v : Word) (n : Nat) : (s.trapContext x c v n).mem = s.mem := by
  simp [State.trapContext]

@[simp] theorem firmwareFault_mem (s : State) (d k n : Nat) (p v : Word) : (s.firmwareFault d k n p v).mem = s.mem := by
  simp [State.firmwareFault]

@[simp] theorem takeTrap_mem (s : State) (c : Cause) (v : Word) (n : Nat) : (s.takeTrap c v n).mem = s.mem := by
  unfold State.takeTrap; split <;> simp

@[simp] theorem enterHandler_mem (s : State) (d k : Nat) (bg : Word) : (s.enterHandler d k bg).mem = s.mem := by
  unfold State.enterHandler; split <;> simp

@[simp] theorem leaveHandler_mem (s : State) (d k : Nat) : (s.leaveHandler d k).mem = s.mem := by
  unfold State.leaveHandler; dsimp only; split <;> simp

end Sys2Proof.Machine
end

