-- ==== Sys2Proof/Laws/PerInstr.lean ====
section
/-! SUPPORT. Decoding what the encoder writes, one lemma for each constructor (R140, R148). -/

namespace Sys2Proof.Laws

/-- A number cut from a register's own number is that register. -/
theorem bv_toNat {w : Nat} (x : BitVec w) : bv w x.toNat = x := by simp [bv]

/-- A short word decodes by its major opcode (R140). -/
theorem decode_of {w mj x : Nat} {i : Instr} (hj : w / 2 ^ 26 = mj) (hm : mj < 63) (h : decFields mj w = some i)
    (hw : i.wellFormed = true) : decode w x = some i := by
  have hl : isLong w = false := by unfold isLong; rw [hj]; exact decide_eq_false (by omega)
  unfold decode decodeWord
  rw [hl, hj, h]
  simp [hw]

/-- A long form decodes by the fields of its first word (R139, R140). -/
theorem decode_FL {sd sa fn : Nat} (x : Nat) (hd : sd < 2 ^ 5) (ha : sa < 2 ^ 5) (hf : fn < 2 ^ 4) :
    decode (encFL sd sa fn) x = if fn = 0 ∧ sa = 0 then some (.liw (bv 5 sd) (bv 32 x))
      else if fn = 1 then some (.addiw (bv 5 sd) (bv 5 sa) (bv 32 x)) else none := by
  have h1 : encFL sd sa fn / 2 ^ 26 = 63 := by simp only [encFL]; omega
  have h2 : encFL sd sa fn / 2 ^ 21 % 2 ^ 5 = sd := by simp only [encFL]; omega
  have h3 : encFL sd sa fn / 2 ^ 16 % 2 ^ 5 = sa := by simp only [encFL]; omega
  have h4 : encFL sd sa fn % 2 ^ 12 = 0 := by simp only [encFL]; omega
  have h5 : encFL sd sa fn / 2 ^ 12 % 2 ^ 4 = fn := by simp only [encFL]; omega
  have hl : isLong (encFL sd sa fn) = true := by unfold isLong; rw [h1]; rfl
  unfold decode
  rw [hl, if_pos rfl]
  unfold decodeLong
  simp only [h2, h3, h4, h5, if_true]

/-! ### The formats: cutting a word gives the fields it was built of (R140) -/

/-- Format FA. -/
theorem decode_FA {mj a b c d : Nat} {i : Instr} (x : Nat) {k : Nat → Nat → Nat → Nat → Option Instr} (ha : a < 2 ^ 5) (hb : b < 2 ^ 5) (hc : c < 2 ^ 5) (hd : d < 2 ^ 11)
    (hm : mj < 63) (hf : ∀ w, decFields mj w = cutFA w k) (hk : k a b c d = some i) (hw : i.wellFormed = true) :
    decode (encFA mj a b c d) x = some i := by
  refine decode_of (mj := mj) ?_ hm ?_ hw
  · simp only [encFA]; omega
  · rw [hf, ← hk]; simp only [cutFA, encFA]; congr 1 <;> omega

/-- Format FI. -/
theorem decode_FI {mj a b c d : Nat} {i : Instr} (x : Nat) {k : Nat → Nat → Nat → Nat → Option Instr} (ha : a < 2 ^ 5) (hb : b < 2 ^ 5) (hc : c < 2 ^ 4) (hd : d < 2 ^ 12)
    (hm : mj < 63) (hf : ∀ w, decFields mj w = cutFI w k) (hk : k a b c d = some i) (hw : i.wellFormed = true) :
    decode (encFI mj a b c d) x = some i := by
  refine decode_of (mj := mj) ?_ hm ?_ hw
  · simp only [encFI]; omega
  · rw [hf, ← hk]; simp only [cutFI, encFI]; congr 1 <;> omega

/-- Format FU. -/
theorem decode_FU {mj a b : Nat} {i : Instr} (x : Nat) {k : Nat → Nat → Option Instr} (ha : a < 2 ^ 5) (hb : b < 2 ^ 21)
    (hm : mj < 63) (hf : ∀ w, decFields mj w = cutFU w k) (hk : k a b = some i) (hw : i.wellFormed = true) :
    decode (encFU mj a b) x = some i := by
  refine decode_of (mj := mj) ?_ hm ?_ hw
  · simp only [encFU]; omega
  · rw [hf, ← hk]; simp only [cutFU, encFU]; congr 1 <;> omega

/-- Format FB. -/
theorem decode_FB {mj a b c d : Nat} {i : Instr} (x : Nat) {k : Nat → Nat → Nat → Nat → Option Instr} (ha : a < 2 ^ 5) (hb : b < 2 ^ 5) (hc : c < 2 ^ 3) (hd : d < 2 ^ 13)
    (hm : mj < 63) (hf : ∀ w, decFields mj w = cutFB w k) (hk : k a b c d = some i) (hw : i.wellFormed = true) :
    decode (encFB mj a b c d) x = some i := by
  refine decode_of (mj := mj) ?_ hm ?_ hw
  · simp only [encFB]; omega
  · rw [hf, ← hk]; simp only [cutFB, encFB]; congr 1 <;> omega

/-- Format FJ. -/
theorem decode_FJ {mj a b : Nat} {i : Instr} (x : Nat) {k : Nat → Nat → Option Instr} (ha : a < 2 ^ 5) (hb : b < 2 ^ 21)
    (hm : mj < 63) (hf : ∀ w, decFields mj w = cutFJ w k) (hk : k a b = some i) (hw : i.wellFormed = true) :
    decode (encFJ mj a b) x = some i := by
  refine decode_of (mj := mj) ?_ hm ?_ hw
  · simp only [encFJ]; omega
  · rw [hf, ← hk]; simp only [cutFJ, encFJ]; congr 1 <;> omega

/-- Format FM. -/
theorem decode_FM {mj a b c d : Nat} {i : Instr} (x : Nat) {k : Nat → Nat → Nat → Nat → Option Instr} (ha : a < 2 ^ 5) (hb : b < 2 ^ 4) (hc : c < 2 ^ 4) (hd : d < 2 ^ 13)
    (hm : mj < 63) (hf : ∀ w, decFields mj w = cutFM w k) (hk : k a b c d = some i) (hw : i.wellFormed = true) :
    decode (encFM mj a b c d) x = some i := by
  refine decode_of (mj := mj) ?_ hm ?_ hw
  · simp only [encFM]; omega
  · rw [hf, ← hk]; simp only [cutFM, encFM]; congr 1 <;> omega

/-- Format FC. -/
theorem decode_FC {mj a b c d e : Nat} {i : Instr} (x : Nat) {k : Nat → Nat → Nat → Nat → Nat → Option Instr} (ha : a < 2 ^ 4) (hb : b < 2 ^ 4) (hc : c < 2 ^ 5) (hd : d < 2 ^ 5) (he : e < 2 ^ 8)
    (hm : mj < 63) (hf : ∀ w, decFields mj w = cutFC w k) (hk : k a b c d e = some i) (hw : i.wellFormed = true) :
    decode (encFC mj a b c d e) x = some i := by
  refine decode_of (mj := mj) ?_ hm ?_ hw
  · simp only [encFC]; omega
  · rw [hf, ← hk]; simp only [cutFC, encFC]; congr 1 <;> omega

/-- Format FAT. -/
theorem decode_FAT {mj a b c d e f g p q : Nat} {i : Instr} (x : Nat) {k : Nat → Nat → Nat → Nat → Nat → Nat → Nat → Nat → Nat → Option Instr} (ha : a < 2 ^ 5) (hb : b < 2 ^ 4) (hc : c < 2 ^ 5) (hd : d < 2 ^ 4) (he : e < 2 ^ 3) (hf : f < 2 ^ 2) (hg : g < 2 ^ 1) (hp : p < 2 ^ 1) (hq : q < 2 ^ 1)
    (hm : mj < 63) (hf : ∀ w, decFields mj w = cutFAT w k) (hk : k a b c d e f g p q = some i) (hw : i.wellFormed = true) :
    decode (encFAT mj a b c d e f g p q) x = some i := by
  refine decode_of (mj := mj) ?_ hm ?_ hw
  · simp only [encFAT]; omega
  · rw [hf, ← hk]; simp only [cutFAT, encFAT]; congr 1 <;> omega

/-- Format FW. -/
theorem decode_FW {mj a b c d e : Nat} {i : Instr} (x : Nat) {k : Nat → Nat → Nat → Nat → Nat → Option Instr} (ha : a < 2 ^ 5) (hb : b < 2 ^ 5) (hc : c < 2 ^ 5) (hd : d < 2 ^ 5) (he : e < 2 ^ 6)
    (hm : mj < 63) (hf : ∀ w, decFields mj w = cutFW w k) (hk : k a b c d e = some i) (hw : i.wellFormed = true) :
    decode (encFW mj a b c d e) x = some i := by
  refine decode_of (mj := mj) ?_ hm ?_ hw
  · simp only [encFW]; omega
  · rw [hf, ← hk]; simp only [cutFW, encFW]; congr 1 <;> omega

/-- Format FX. -/
theorem decode_FX {mj a b c d e f : Nat} {i : Instr} (x : Nat) {k : Nat → Nat → Nat → Nat → Nat → Nat → Option Instr} (ha : a < 2 ^ 5) (hb : b < 2 ^ 5) (hc : c < 2 ^ 5) (hd : d < 2 ^ 6) (he : e < 2 ^ 3) (hf : f < 2 ^ 2)
    (hm : mj < 63) (hf : ∀ w, decFields mj w = cutFX w k) (hk : k a b c d e f = some i) (hw : i.wellFormed = true) :
    decode (encFX mj a b c d e f) x = some i := by
  refine decode_of (mj := mj) ?_ hm ?_ hw
  · simp only [encFX]; omega
  · rw [hf, ← hk]; simp only [cutFX, encFX]; congr 1 <;> omega

/-- Format FV. -/
theorem decode_FV {mj a b c d e f : Nat} {i : Instr} (x : Nat) {k : Nat → Nat → Nat → Nat → Nat → Nat → Option Instr} (ha : a < 2 ^ 6) (hb : b < 2 ^ 6) (hc : c < 2 ^ 6) (hd : d < 2 ^ 3) (he : e < 2 ^ 1) (hf : f < 2 ^ 4)
    (hm : mj < 63) (hf : ∀ w, decFields mj w = cutFV w k) (hk : k a b c d e f = some i) (hw : i.wellFormed = true) :
    decode (encFV mj a b c d e f) x = some i := by
  refine decode_of (mj := mj) ?_ hm ?_ hw
  · simp only [encFV]; omega
  · rw [hf, ← hk]; simp only [cutFV, encFV]; congr 1 <;> omega

/-- Format FVM. -/
theorem decode_FVM {mj a b c d e f : Nat} {i : Instr} (x : Nat) {k : Nat → Nat → Nat → Nat → Nat → Nat → Option Instr} (ha : a < 2 ^ 6) (hb : b < 2 ^ 6) (hc : c < 2 ^ 4) (hd : d < 2 ^ 5) (he : e < 2 ^ 3) (hf : f < 2 ^ 2)
    (hm : mj < 63) (hf : ∀ w, decFields mj w = cutFVM w k) (hk : k a b c d e f = some i) (hw : i.wellFormed = true) :
    decode (encFVM mj a b c d e f) x = some i := by
  refine decode_of (mj := mj) ?_ hm ?_ hw
  · simp only [encFVM]; omega
  · rw [hf, ← hk]; simp only [cutFVM, encFVM]; congr 1 <;> omega

/-- Format FT. -/
theorem decode_FT {mj a b c d e f : Nat} {i : Instr} (x : Nat) {k : Nat → Nat → Nat → Nat → Nat → Nat → Option Instr} (ha : a < 2 ^ 3) (hb : b < 2 ^ 3) (hc : c < 2 ^ 6) (hd : d < 2 ^ 5) (he : e < 2 ^ 5) (hf : f < 2 ^ 4)
    (hm : mj < 63) (hf : ∀ w, decFields mj w = cutFT w k) (hk : k a b c d e f = some i) (hw : i.wellFormed = true) :
    decode (encFT mj a b c d e f) x = some i := by
  refine decode_of (mj := mj) ?_ hm ?_ hw
  · simp only [encFT]; omega
  · rw [hf, ← hk]; simp only [cutFT, encFT]; congr 1 <;> omega

namespace RoundTrip

/-- What the encoder writes of a well-formed instruction with a word decodes to that instruction. -/
def Statement (i : Instr) : Prop :=
  encode i = [] ∨ (i.wellFormed = true → decode ((encode i).headD 0) ((encode i).getD 1 0) = some i)

theorem add (d : BitVec 5) (a : BitVec 5) (b : BitVec 5) : Statement (.add d a b) :=
  Or.inr fun h => decode_FA (k := dec01) 0 d.isLt a.isLt b.isLt (by decide) (by decide) (fun _ => rfl) (by change some _ = _; simp only [bv_toNat]) h
theorem sub (d : BitVec 5) (a : BitVec 5) (b : BitVec 5) : Statement (.sub d a b) :=
  Or.inr fun h => decode_FA (k := dec01) 0 d.isLt a.isLt b.isLt (by decide) (by decide) (fun _ => rfl) (by change some _ = _; simp only [bv_toNat]) h
theorem and (d : BitVec 5) (a : BitVec 5) (b : BitVec 5) : Statement (.and d a b) :=
  Or.inr fun h => decode_FA (k := dec01) 0 d.isLt a.isLt b.isLt (by decide) (by decide) (fun _ => rfl) (by change some _ = _; simp only [bv_toNat]) h
theorem or (d : BitVec 5) (a : BitVec 5) (b : BitVec 5) : Statement (.or d a b) :=
  Or.inr fun h => decode_FA (k := dec01) 0 d.isLt a.isLt b.isLt (by decide) (by decide) (fun _ => rfl) (by change some _ = _; simp only [bv_toNat]) h
theorem xor (d : BitVec 5) (a : BitVec 5) (b : BitVec 5) : Statement (.xor d a b) :=
  Or.inr fun h => decode_FA (k := dec01) 0 d.isLt a.isLt b.isLt (by decide) (by decide) (fun _ => rfl) (by change some _ = _; simp only [bv_toNat]) h
theorem andn (d : BitVec 5) (a : BitVec 5) (b : BitVec 5) : Statement (.andn d a b) :=
  Or.inr fun h => decode_FA (k := dec01) 0 d.isLt a.isLt b.isLt (by decide) (by decide) (fun _ => rfl) (by change some _ = _; simp only [bv_toNat]) h
theorem sll (d : BitVec 5) (a : BitVec 5) (b : BitVec 5) : Statement (.sll d a b) :=
  Or.inr fun h => decode_FA (k := dec01) 0 d.isLt a.isLt b.isLt (by decide) (by decide) (fun _ => rfl) (by change some _ = _; simp only [bv_toNat]) h
theorem srl (d : BitVec 5) (a : BitVec 5) (b : BitVec 5) : Statement (.srl d a b) :=
  Or.inr fun h => decode_FA (k := dec01) 0 d.isLt a.isLt b.isLt (by decide) (by decide) (fun _ => rfl) (by change some _ = _; simp only [bv_toNat]) h
theorem sra (d : BitVec 5) (a : BitVec 5) (b : BitVec 5) : Statement (.sra d a b) :=
  Or.inr fun h => decode_FA (k := dec01) 0 d.isLt a.isLt b.isLt (by decide) (by decide) (fun _ => rfl) (by change some _ = _; simp only [bv_toNat]) h
theorem ror (d : BitVec 5) (a : BitVec 5) (b : BitVec 5) : Statement (.ror d a b) :=
  Or.inr fun h => decode_FA (k := dec01) 0 d.isLt a.isLt b.isLt (by decide) (by decide) (fun _ => rfl) (by change some _ = _; simp only [bv_toNat]) h
theorem slt (d : BitVec 5) (a : BitVec 5) (b : BitVec 5) : Statement (.slt d a b) :=
  Or.inr fun h => decode_FA (k := dec01) 0 d.isLt a.isLt b.isLt (by decide) (by decide) (fun _ => rfl) (by change some _ = _; simp only [bv_toNat]) h
theorem sltu (d : BitVec 5) (a : BitVec 5) (b : BitVec 5) : Statement (.sltu d a b) :=
  Or.inr fun h => decode_FA (k := dec01) 0 d.isLt a.isLt b.isLt (by decide) (by decide) (fun _ => rfl) (by change some _ = _; simp only [bv_toNat]) h
theorem min (d : BitVec 5) (a : BitVec 5) (b : BitVec 5) : Statement (.min d a b) :=
  Or.inr fun h => decode_FA (k := dec01) 0 d.isLt a.isLt b.isLt (by decide) (by decide) (fun _ => rfl) (by change some _ = _; simp only [bv_toNat]) h
theorem max (d : BitVec 5) (a : BitVec 5) (b : BitVec 5) : Statement (.max d a b) :=
  Or.inr fun h => decode_FA (k := dec01) 0 d.isLt a.isLt b.isLt (by decide) (by decide) (fun _ => rfl) (by change some _ = _; simp only [bv_toNat]) h
theorem minu (d : BitVec 5) (a : BitVec 5) (b : BitVec 5) : Statement (.minu d a b) :=
  Or.inr fun h => decode_FA (k := dec01) 0 d.isLt a.isLt b.isLt (by decide) (by decide) (fun _ => rfl) (by change some _ = _; simp only [bv_toNat]) h
theorem maxu (d : BitVec 5) (a : BitVec 5) (b : BitVec 5) : Statement (.maxu d a b) :=
  Or.inr fun h => decode_FA (k := dec01) 0 d.isLt a.isLt b.isLt (by decide) (by decide) (fun _ => rfl) (by change some _ = _; simp only [bv_toNat]) h
theorem mul (d : BitVec 5) (a : BitVec 5) (b : BitVec 5) : Statement (.mul d a b) :=
  Or.inr fun h => decode_FA (k := dec01) 0 d.isLt a.isLt b.isLt (by decide) (by decide) (fun _ => rfl) (by change some _ = _; simp only [bv_toNat]) h
theorem mulh (d : BitVec 5) (a : BitVec 5) (b : BitVec 5) : Statement (.mulh d a b) :=
  Or.inr fun h => decode_FA (k := dec01) 0 d.isLt a.isLt b.isLt (by decide) (by decide) (fun _ => rfl) (by change some _ = _; simp only [bv_toNat]) h
theorem mulhu (d : BitVec 5) (a : BitVec 5) (b : BitVec 5) : Statement (.mulhu d a b) :=
  Or.inr fun h => decode_FA (k := dec01) 0 d.isLt a.isLt b.isLt (by decide) (by decide) (fun _ => rfl) (by change some _ = _; simp only [bv_toNat]) h
theorem div (d : BitVec 5) (a : BitVec 5) (b : BitVec 5) : Statement (.div d a b) :=
  Or.inr fun h => decode_FA (k := dec01) 0 d.isLt a.isLt b.isLt (by decide) (by decide) (fun _ => rfl) (by change some _ = _; simp only [bv_toNat]) h
theorem divu (d : BitVec 5) (a : BitVec 5) (b : BitVec 5) : Statement (.divu d a b) :=
  Or.inr fun h => decode_FA (k := dec01) 0 d.isLt a.isLt b.isLt (by decide) (by decide) (fun _ => rfl) (by change some _ = _; simp only [bv_toNat]) h
theorem rem (d : BitVec 5) (a : BitVec 5) (b : BitVec 5) : Statement (.rem d a b) :=
  Or.inr fun h => decode_FA (k := dec01) 0 d.isLt a.isLt b.isLt (by decide) (by decide) (fun _ => rfl) (by change some _ = _; simp only [bv_toNat]) h
theorem remu (d : BitVec 5) (a : BitVec 5) (b : BitVec 5) : Statement (.remu d a b) :=
  Or.inr fun h => decode_FA (k := dec01) 0 d.isLt a.isLt b.isLt (by decide) (by decide) (fun _ => rfl) (by change some _ = _; simp only [bv_toNat]) h
theorem clz (d : BitVec 5) (a : BitVec 5) : Statement (.clz d a) :=
  Or.inr fun h => decode_FA (k := dec01) 0 d.isLt a.isLt (by decide) (by decide) (by decide) (fun _ => rfl) (by change some _ = _; simp only [bv_toNat]) h
theorem ctz (d : BitVec 5) (a : BitVec 5) : Statement (.ctz d a) :=
  Or.inr fun h => decode_FA (k := dec01) 0 d.isLt a.isLt (by decide) (by decide) (by decide) (fun _ => rfl) (by change some _ = _; simp only [bv_toNat]) h
theorem popc (d : BitVec 5) (a : BitVec 5) : Statement (.popc d a) :=
  Or.inr fun h => decode_FA (k := dec01) 0 d.isLt a.isLt (by decide) (by decide) (by decide) (fun _ => rfl) (by change some _ = _; simp only [bv_toNat]) h
theorem addi (d : BitVec 5) (a : BitVec 5) (imm : BitVec 12) : Statement (.addi d a imm) :=
  Or.inr fun h => decode_FI (k := dec02) 0 d.isLt a.isLt (by decide) imm.isLt (by decide) (fun _ => rfl) (by change some _ = _; simp only [bv_toNat]) h
theorem andi (d : BitVec 5) (a : BitVec 5) (imm : BitVec 12) : Statement (.andi d a imm) :=
  Or.inr fun h => decode_FI (k := dec02) 0 d.isLt a.isLt (by decide) imm.isLt (by decide) (fun _ => rfl) (by change some _ = _; simp only [bv_toNat]) h
theorem ori (d : BitVec 5) (a : BitVec 5) (imm : BitVec 12) : Statement (.ori d a imm) :=
  Or.inr fun h => decode_FI (k := dec02) 0 d.isLt a.isLt (by decide) imm.isLt (by decide) (fun _ => rfl) (by change some _ = _; simp only [bv_toNat]) h
theorem xori (d : BitVec 5) (a : BitVec 5) (imm : BitVec 12) : Statement (.xori d a imm) :=
  Or.inr fun h => decode_FI (k := dec02) 0 d.isLt a.isLt (by decide) imm.isLt (by decide) (fun _ => rfl) (by change some _ = _; simp only [bv_toNat]) h
theorem slli (d : BitVec 5) (a : BitVec 5) (imm : BitVec 6) : Statement (.slli d a imm) :=
  Or.inr fun h => decode_FI (k := dec02) 0 d.isLt a.isLt (by decide) (Nat.lt_of_lt_of_le imm.isLt (by decide)) (by decide) (fun _ => rfl) (by simp [dec02, bv, show imm.toNat < 64 from imm.isLt]) h
theorem srli (d : BitVec 5) (a : BitVec 5) (imm : BitVec 6) : Statement (.srli d a imm) :=
  Or.inr fun h => decode_FI (k := dec02) 0 d.isLt a.isLt (by decide) (Nat.lt_of_lt_of_le imm.isLt (by decide)) (by decide) (fun _ => rfl) (by simp [dec02, bv, show imm.toNat < 64 from imm.isLt]) h
theorem srai (d : BitVec 5) (a : BitVec 5) (imm : BitVec 6) : Statement (.srai d a imm) :=
  Or.inr fun h => decode_FI (k := dec02) 0 d.isLt a.isLt (by decide) (Nat.lt_of_lt_of_le imm.isLt (by decide)) (by decide) (fun _ => rfl) (by simp [dec02, bv, show imm.toNat < 64 from imm.isLt]) h
theorem slti (d : BitVec 5) (a : BitVec 5) (imm : BitVec 12) : Statement (.slti d a imm) :=
  Or.inr fun h => decode_FI (k := dec02) 0 d.isLt a.isLt (by decide) imm.isLt (by decide) (fun _ => rfl) (by change some _ = _; simp only [bv_toNat]) h
theorem sltiu (d : BitVec 5) (a : BitVec 5) (imm : BitVec 12) : Statement (.sltiu d a imm) :=
  Or.inr fun h => decode_FI (k := dec02) 0 d.isLt a.isLt (by decide) imm.isLt (by decide) (fun _ => rfl) (by change some _ = _; simp only [bv_toNat]) h
theorem lih (d : BitVec 5) (imm : BitVec 21) : Statement (.lih d imm) :=
  Or.inr fun h => decode_FU (k := dec03) 0 d.isLt imm.isLt (by decide) (fun _ => rfl) (by change some _ = _; simp only [bv_toNat]) h
theorem addpc (d : BitVec 5) (imm : BitVec 21) : Statement (.addpc d imm) :=
  Or.inr fun h => decode_FU (k := dec07) 0 d.isLt imm.isLt (by decide) (fun _ => rfl) (by change some _ = _; simp only [bv_toNat]) h
/-- Two words that decode to the instruction they encode. -/
theorem of_two {i : Instr} {w x : Nat} (e : encode i = [w, x]) (h : decode w x = some i) : Statement i :=
  Or.inr fun _ => by rw [e]; exact h

theorem decode_liw (d : SReg) (imm : BitVec 32) : decode (encFL d.toNat 0 0) imm.toNat = some (.liw d imm) := by
  rw [decode_FL _ d.isLt (Nat.two_pow_pos 5) (Nat.two_pow_pos 4), if_pos ⟨rfl, rfl⟩, bv_toNat, bv_toNat]
theorem decode_addiw (d a : SReg) (imm : BitVec 32) :
    decode (encFL d.toNat a.toNat 1) imm.toNat = some (.addiw d a imm) := by
  rw [decode_FL _ d.isLt a.isLt (by decide), if_neg (by omega), if_pos rfl, bv_toNat, bv_toNat, bv_toNat]

theorem liw (d : SReg) (imm : BitVec 32) : Statement (.liw d imm) := of_two rfl (decode_liw d imm)
theorem addiw (d a : SReg) (imm : BitVec 32) : Statement (.addiw d a imm) := of_two rfl (decode_addiw d a imm)
theorem beq (a : BitVec 5) (b : BitVec 5) (off : BitVec 13) : Statement (.beq a b off) :=
  Or.inr fun h => decode_FB (k := dec04) 0 a.isLt b.isLt (by decide) off.isLt (by decide) (fun _ => rfl) (by change some _ = _; simp only [bv_toNat]) h
theorem bne (a : BitVec 5) (b : BitVec 5) (off : BitVec 13) : Statement (.bne a b off) :=
  Or.inr fun h => decode_FB (k := dec04) 0 a.isLt b.isLt (by decide) off.isLt (by decide) (fun _ => rfl) (by change some _ = _; simp only [bv_toNat]) h
theorem blt (a : BitVec 5) (b : BitVec 5) (off : BitVec 13) : Statement (.blt a b off) :=
  Or.inr fun h => decode_FB (k := dec04) 0 a.isLt b.isLt (by decide) off.isLt (by decide) (fun _ => rfl) (by change some _ = _; simp only [bv_toNat]) h
theorem bge (a : BitVec 5) (b : BitVec 5) (off : BitVec 13) : Statement (.bge a b off) :=
  Or.inr fun h => decode_FB (k := dec04) 0 a.isLt b.isLt (by decide) off.isLt (by decide) (fun _ => rfl) (by change some _ = _; simp only [bv_toNat]) h
theorem bltu (a : BitVec 5) (b : BitVec 5) (off : BitVec 13) : Statement (.bltu a b off) :=
  Or.inr fun h => decode_FB (k := dec04) 0 a.isLt b.isLt (by decide) off.isLt (by decide) (fun _ => rfl) (by change some _ = _; simp only [bv_toNat]) h
theorem bgeu (a : BitVec 5) (b : BitVec 5) (off : BitVec 13) : Statement (.bgeu a b off) :=
  Or.inr fun h => decode_FB (k := dec04) 0 a.isLt b.isLt (by decide) off.isLt (by decide) (fun _ => rfl) (by change some _ = _; simp only [bv_toNat]) h
theorem jal (d : BitVec 5) (off : BitVec 21) : Statement (.jal d off) :=
  Or.inr fun h => decode_FJ (k := dec05) 0 d.isLt off.isLt (by decide) (fun _ => rfl) (by change some _ = _; simp only [bv_toNat]) h
theorem jalr (d : BitVec 5) (a : BitVec 5) (imm : BitVec 12) : Statement (.jalr d a imm) :=
  Or.inr fun h => decode_FI (k := dec06) 0 d.isLt a.isLt (by decide) imm.isLt (by decide) (fun _ => rfl) (by change some _ = _; simp only [bv_toNat]) h
theorem ldb (d : BitVec 5) (c : BitVec 4) (imm : BitVec 13) : Statement (.ldb d c imm) :=
  Or.inr fun h => decode_FM (k := dec08) 0 d.isLt c.isLt (by decide) imm.isLt (by decide) (fun _ => rfl) (by change some _ = _; simp only [bv_toNat]) h
theorem ldh (d : BitVec 5) (c : BitVec 4) (imm : BitVec 13) : Statement (.ldh d c imm) :=
  Or.inr fun h => decode_FM (k := dec08) 0 d.isLt c.isLt (by decide) imm.isLt (by decide) (fun _ => rfl) (by change some _ = _; simp only [bv_toNat]) h
theorem ldw (d : BitVec 5) (c : BitVec 4) (imm : BitVec 13) : Statement (.ldw d c imm) :=
  Or.inr fun h => decode_FM (k := dec08) 0 d.isLt c.isLt (by decide) imm.isLt (by decide) (fun _ => rfl) (by change some _ = _; simp only [bv_toNat]) h
theorem ldd (d : BitVec 5) (c : BitVec 4) (imm : BitVec 13) : Statement (.ldd d c imm) :=
  Or.inr fun h => decode_FM (k := dec08) 0 d.isLt c.isLt (by decide) imm.isLt (by decide) (fun _ => rfl) (by change some _ = _; simp only [bv_toNat]) h
theorem ldbu (d : BitVec 5) (c : BitVec 4) (imm : BitVec 13) : Statement (.ldbu d c imm) :=
  Or.inr fun h => decode_FM (k := dec08) 0 d.isLt c.isLt (by decide) imm.isLt (by decide) (fun _ => rfl) (by change some _ = _; simp only [bv_toNat]) h
theorem ldhu (d : BitVec 5) (c : BitVec 4) (imm : BitVec 13) : Statement (.ldhu d c imm) :=
  Or.inr fun h => decode_FM (k := dec08) 0 d.isLt c.isLt (by decide) imm.isLt (by decide) (fun _ => rfl) (by change some _ = _; simp only [bv_toNat]) h
theorem ldwu (d : BitVec 5) (c : BitVec 4) (imm : BitVec 13) : Statement (.ldwu d c imm) :=
  Or.inr fun h => decode_FM (k := dec08) 0 d.isLt c.isLt (by decide) imm.isLt (by decide) (fun _ => rfl) (by change some _ = _; simp only [bv_toNat]) h
theorem stb (d : BitVec 5) (c : BitVec 4) (imm : BitVec 13) : Statement (.stb d c imm) :=
  Or.inr fun h => decode_FM (k := dec08) 0 d.isLt c.isLt (by decide) imm.isLt (by decide) (fun _ => rfl) (by change some _ = _; simp only [bv_toNat]) h
theorem sth (d : BitVec 5) (c : BitVec 4) (imm : BitVec 13) : Statement (.sth d c imm) :=
  Or.inr fun h => decode_FM (k := dec08) 0 d.isLt c.isLt (by decide) imm.isLt (by decide) (fun _ => rfl) (by change some _ = _; simp only [bv_toNat]) h
theorem stw (d : BitVec 5) (c : BitVec 4) (imm : BitVec 13) : Statement (.stw d c imm) :=
  Or.inr fun h => decode_FM (k := dec08) 0 d.isLt c.isLt (by decide) imm.isLt (by decide) (fun _ => rfl) (by change some _ = _; simp only [bv_toNat]) h
theorem std (d : BitVec 5) (c : BitVec 4) (imm : BitVec 13) : Statement (.std d c imm) :=
  Or.inr fun h => decode_FM (k := dec08) 0 d.isLt c.isLt (by decide) imm.isLt (by decide) (fun _ => rfl) (by change some _ = _; simp only [bv_toNat]) h
theorem cmov (d : BitVec 4) (a : BitVec 4) : Statement (.cmov d a) :=
  Or.inr fun h => decode_FC (k := dec09) 0 d.isLt a.isLt (by decide) (by decide) (by decide) (by decide) (fun _ => rfl) (by change some _ = _; simp only [bv_toNat]) h
theorem cinc (d : BitVec 4) (a : BitVec 4) (b : BitVec 5) : Statement (.cinc d a b) :=
  Or.inr fun h => decode_FC (k := dec09) 0 d.isLt a.isLt b.isLt (by decide) (by decide) (by decide) (fun _ => rfl) (by change some _ = _; simp only [bv_toNat]) h
theorem cinci (d : BitVec 4) (a : BitVec 4) (imm : BitVec 8) : Statement (.cinci d a imm) :=
  Or.inr fun h => decode_FC (k := dec09) 0 d.isLt a.isLt (by decide) (by decide) imm.isLt (by decide) (fun _ => rfl) (by change some _ = _; simp only [bv_toNat]) h
theorem csetb (d : BitVec 4) (a : BitVec 4) (b : BitVec 5) (e : BitVec 1) : Statement (.csetb d a b e) :=
  Or.inr fun h => decode_FC (k := dec09) 0 d.isLt a.isLt b.isLt (by decide) (Nat.lt_of_lt_of_le e.isLt (by decide)) (by decide) (fun _ => rfl) (by simp [dec09, bv, show e.toNat < 2 from e.isLt]) h
theorem candp (d : BitVec 4) (a : BitVec 4) (p : BitVec 8) : Statement (.candp d a p) :=
  Or.inr fun h => decode_FC (k := dec09) 0 d.isLt a.isLt (by decide) (by decide) p.isLt (by decide) (fun _ => rfl) (by change some _ = _; simp only [bv_toNat]) h
theorem cgetb (a : BitVec 4) (b : BitVec 5) : Statement (.cgetb a b) :=
  Or.inr fun h => decode_FC (k := dec09) 0 (by decide) a.isLt b.isLt (by decide) (by decide) (by decide) (fun _ => rfl) (by change some _ = _; simp only [bv_toNat]) h
theorem cgetl (a : BitVec 4) (b : BitVec 5) : Statement (.cgetl a b) :=
  Or.inr fun h => decode_FC (k := dec09) 0 (by decide) a.isLt b.isLt (by decide) (by decide) (by decide) (fun _ => rfl) (by change some _ = _; simp only [bv_toNat]) h
theorem cgetc (a : BitVec 4) (b : BitVec 5) : Statement (.cgetc a b) :=
  Or.inr fun h => decode_FC (k := dec09) 0 (by decide) a.isLt b.isLt (by decide) (by decide) (by decide) (fun _ => rfl) (by change some _ = _; simp only [bv_toNat]) h
theorem cgetp (a : BitVec 4) (b : BitVec 5) : Statement (.cgetp a b) :=
  Or.inr fun h => decode_FC (k := dec09) 0 (by decide) a.isLt b.isLt (by decide) (by decide) (by decide) (fun _ => rfl) (by change some _ = _; simp only [bv_toNat]) h
theorem cgett (a : BitVec 4) (b : BitVec 5) : Statement (.cgett a b) :=
  Or.inr fun h => decode_FC (k := dec09) 0 (by decide) a.isLt b.isLt (by decide) (by decide) (by decide) (fun _ => rfl) (by change some _ = _; simp only [bv_toNat]) h
theorem cldc (d : BitVec 4) (a : BitVec 4) (imm : BitVec 8) : Statement (.cldc d a imm) :=
  Or.inr fun h => decode_FC (k := dec09) 0 d.isLt a.isLt (by decide) (by decide) imm.isLt (by decide) (fun _ => rfl) (by change some _ = _; simp only [bv_toNat]) h
theorem cstc (d : BitVec 4) (a : BitVec 4) (imm : BitVec 8) : Statement (.cstc d a imm) :=
  Or.inr fun h => decode_FC (k := dec09) 0 d.isLt a.isLt (by decide) (by decide) imm.isLt (by decide) (fun _ => rfl) (by change some _ = _; simp only [bv_toNat]) h
theorem waitc (l : BitVec 5) (sf : BitVec 5) (c : BitVec 5) (t : BitVec 5) : Statement (.waitc l sf c t) :=
  Or.inr fun h => decode_FW (k := dec0A) 0 l.isLt sf.isLt c.isLt t.isLt (by decide) (by decide) (fun _ => rfl) (by change some _ = _; simp only [bv_toNat]) h
theorem amoadd (d : BitVec 5) (c : BitVec 4) (b : BitVec 5) (sf : BitVec 3) (r : BitVec 2) (w : BitVec 1) : Statement (.amoadd d c b sf r w) :=
  Or.inr fun h => decode_FAT (k := dec0C) 0 d.isLt c.isLt b.isLt (by decide) sf.isLt r.isLt (by decide) w.isLt (by decide) (by decide) (fun _ => rfl) (by change some _ = _; simp only [bv_toNat]) h
theorem amoand (d : BitVec 5) (c : BitVec 4) (b : BitVec 5) (sf : BitVec 3) (r : BitVec 2) (w : BitVec 1) : Statement (.amoand d c b sf r w) :=
  Or.inr fun h => decode_FAT (k := dec0C) 0 d.isLt c.isLt b.isLt (by decide) sf.isLt r.isLt (by decide) w.isLt (by decide) (by decide) (fun _ => rfl) (by change some _ = _; simp only [bv_toNat]) h
theorem amoor (d : BitVec 5) (c : BitVec 4) (b : BitVec 5) (sf : BitVec 3) (r : BitVec 2) (w : BitVec 1) : Statement (.amoor d c b sf r w) :=
  Or.inr fun h => decode_FAT (k := dec0C) 0 d.isLt c.isLt b.isLt (by decide) sf.isLt r.isLt (by decide) w.isLt (by decide) (by decide) (fun _ => rfl) (by change some _ = _; simp only [bv_toNat]) h
theorem amoxor (d : BitVec 5) (c : BitVec 4) (b : BitVec 5) (sf : BitVec 3) (r : BitVec 2) (w : BitVec 1) : Statement (.amoxor d c b sf r w) :=
  Or.inr fun h => decode_FAT (k := dec0C) 0 d.isLt c.isLt b.isLt (by decide) sf.isLt r.isLt (by decide) w.isLt (by decide) (by decide) (fun _ => rfl) (by change some _ = _; simp only [bv_toNat]) h
theorem amomin (d : BitVec 5) (c : BitVec 4) (b : BitVec 5) (sf : BitVec 3) (r : BitVec 2) (w : BitVec 1) : Statement (.amomin d c b sf r w) :=
  Or.inr fun h => decode_FAT (k := dec0C) 0 d.isLt c.isLt b.isLt (by decide) sf.isLt r.isLt (by decide) w.isLt (by decide) (by decide) (fun _ => rfl) (by change some _ = _; simp only [bv_toNat]) h
theorem amomax (d : BitVec 5) (c : BitVec 4) (b : BitVec 5) (sf : BitVec 3) (r : BitVec 2) (w : BitVec 1) : Statement (.amomax d c b sf r w) :=
  Or.inr fun h => decode_FAT (k := dec0C) 0 d.isLt c.isLt b.isLt (by decide) sf.isLt r.isLt (by decide) w.isLt (by decide) (by decide) (fun _ => rfl) (by change some _ = _; simp only [bv_toNat]) h
theorem amominu (d : BitVec 5) (c : BitVec 4) (b : BitVec 5) (sf : BitVec 3) (r : BitVec 2) (w : BitVec 1) : Statement (.amominu d c b sf r w) :=
  Or.inr fun h => decode_FAT (k := dec0C) 0 d.isLt c.isLt b.isLt (by decide) sf.isLt r.isLt (by decide) w.isLt (by decide) (by decide) (fun _ => rfl) (by change some _ = _; simp only [bv_toNat]) h
theorem amomaxu (d : BitVec 5) (c : BitVec 4) (b : BitVec 5) (sf : BitVec 3) (r : BitVec 2) (w : BitVec 1) : Statement (.amomaxu d c b sf r w) :=
  Or.inr fun h => decode_FAT (k := dec0C) 0 d.isLt c.isLt b.isLt (by decide) sf.isLt r.isLt (by decide) w.isLt (by decide) (by decide) (fun _ => rfl) (by change some _ = _; simp only [bv_toNat]) h
theorem amoswp (d : BitVec 5) (c : BitVec 4) (b : BitVec 5) (sf : BitVec 3) (r : BitVec 2) (w : BitVec 1) : Statement (.amoswp d c b sf r w) :=
  Or.inr fun h => decode_FAT (k := dec0C) 0 d.isLt c.isLt b.isLt (by decide) sf.isLt r.isLt (by decide) w.isLt (by decide) (by decide) (fun _ => rfl) (by change some _ = _; simp only [bv_toNat]) h
theorem amocas (d : BitVec 5) (c : BitVec 4) (b : BitVec 5) (sf : BitVec 3) (r : BitVec 2) (w : BitVec 1) : Statement (.amocas d c b sf r w) :=
  Or.inr fun h => decode_FAT (k := dec0C) 0 d.isLt c.isLt b.isLt (by decide) sf.isLt r.isLt (by decide) w.isLt (by decide) (by decide) (fun _ => rfl) (by change some _ = _; simp only [bv_toNat]) h
theorem amofadd (d : BitVec 5) (c : BitVec 4) (b : BitVec 5) (sf : BitVec 3) (r : BitVec 2) : Statement (.amofadd d c b sf r) :=
  Or.inr fun h => decode_FAT (k := dec0C) 0 d.isLt c.isLt b.isLt (by decide) sf.isLt r.isLt (by decide) (by decide) (by decide) (by decide) (fun _ => rfl) (by change some _ = _; simp only [bv_toNat]) h
theorem amofmin (d : BitVec 5) (c : BitVec 4) (b : BitVec 5) (sf : BitVec 3) (r : BitVec 2) : Statement (.amofmin d c b sf r) :=
  Or.inr fun h => decode_FAT (k := dec0C) 0 d.isLt c.isLt b.isLt (by decide) sf.isLt r.isLt (by decide) (by decide) (by decide) (by decide) (fun _ => rfl) (by change some _ = _; simp only [bv_toNat]) h
theorem amofmax (d : BitVec 5) (c : BitVec 4) (b : BitVec 5) (sf : BitVec 3) (r : BitVec 2) : Statement (.amofmax d c b sf r) :=
  Or.inr fun h => decode_FAT (k := dec0C) 0 d.isLt c.isLt b.isLt (by decide) sf.isLt r.isLt (by decide) (by decide) (by decide) (by decide) (fun _ => rfl) (by change some _ = _; simp only [bv_toNat]) h
theorem amobfadd2 (d : BitVec 5) (c : BitVec 4) (b : BitVec 5) (sf : BitVec 3) (r : BitVec 2) : Statement (.amobfadd2 d c b sf r) :=
  Or.inr fun h => decode_FAT (k := dec0C) 0 d.isLt c.isLt b.isLt (by decide) sf.isLt r.isLt (by decide) (by decide) (by decide) (by decide) (fun _ => rfl) (by change some _ = _; simp only [bv_toNat]) h
theorem redadd (c : BitVec 4) (b : BitVec 5) (sf : BitVec 3) (r : BitVec 2) (w : BitVec 1) : Statement (.redadd c b sf r w) :=
  Or.inr fun h => decode_FAT (k := dec0C) 0 (by decide) c.isLt b.isLt (by decide) sf.isLt r.isLt (by decide) w.isLt (by decide) (by decide) (fun _ => rfl) (by change some _ = _; simp only [bv_toNat]) h
theorem redand (c : BitVec 4) (b : BitVec 5) (sf : BitVec 3) (r : BitVec 2) (w : BitVec 1) : Statement (.redand c b sf r w) :=
  Or.inr fun h => decode_FAT (k := dec0C) 0 (by decide) c.isLt b.isLt (by decide) sf.isLt r.isLt (by decide) w.isLt (by decide) (by decide) (fun _ => rfl) (by change some _ = _; simp only [bv_toNat]) h
theorem redor (c : BitVec 4) (b : BitVec 5) (sf : BitVec 3) (r : BitVec 2) (w : BitVec 1) : Statement (.redor c b sf r w) :=
  Or.inr fun h => decode_FAT (k := dec0C) 0 (by decide) c.isLt b.isLt (by decide) sf.isLt r.isLt (by decide) w.isLt (by decide) (by decide) (fun _ => rfl) (by change some _ = _; simp only [bv_toNat]) h
theorem redxor (c : BitVec 4) (b : BitVec 5) (sf : BitVec 3) (r : BitVec 2) (w : BitVec 1) : Statement (.redxor c b sf r w) :=
  Or.inr fun h => decode_FAT (k := dec0C) 0 (by decide) c.isLt b.isLt (by decide) sf.isLt r.isLt (by decide) w.isLt (by decide) (by decide) (fun _ => rfl) (by change some _ = _; simp only [bv_toNat]) h
theorem redmin (c : BitVec 4) (b : BitVec 5) (sf : BitVec 3) (r : BitVec 2) (w : BitVec 1) : Statement (.redmin c b sf r w) :=
  Or.inr fun h => decode_FAT (k := dec0C) 0 (by decide) c.isLt b.isLt (by decide) sf.isLt r.isLt (by decide) w.isLt (by decide) (by decide) (fun _ => rfl) (by change some _ = _; simp only [bv_toNat]) h
theorem redmax (c : BitVec 4) (b : BitVec 5) (sf : BitVec 3) (r : BitVec 2) (w : BitVec 1) : Statement (.redmax c b sf r w) :=
  Or.inr fun h => decode_FAT (k := dec0C) 0 (by decide) c.isLt b.isLt (by decide) sf.isLt r.isLt (by decide) w.isLt (by decide) (by decide) (fun _ => rfl) (by change some _ = _; simp only [bv_toNat]) h
theorem redminu (c : BitVec 4) (b : BitVec 5) (sf : BitVec 3) (r : BitVec 2) (w : BitVec 1) : Statement (.redminu c b sf r w) :=
  Or.inr fun h => decode_FAT (k := dec0C) 0 (by decide) c.isLt b.isLt (by decide) sf.isLt r.isLt (by decide) w.isLt (by decide) (by decide) (fun _ => rfl) (by change some _ = _; simp only [bv_toNat]) h
theorem redmaxu (c : BitVec 4) (b : BitVec 5) (sf : BitVec 3) (r : BitVec 2) (w : BitVec 1) : Statement (.redmaxu c b sf r w) :=
  Or.inr fun h => decode_FAT (k := dec0C) 0 (by decide) c.isLt b.isLt (by decide) sf.isLt r.isLt (by decide) w.isLt (by decide) (by decide) (fun _ => rfl) (by change some _ = _; simp only [bv_toNat]) h
theorem redfadd (c : BitVec 4) (b : BitVec 5) (sf : BitVec 3) (r : BitVec 2) : Statement (.redfadd c b sf r) :=
  Or.inr fun h => decode_FAT (k := dec0C) 0 (by decide) c.isLt b.isLt (by decide) sf.isLt r.isLt (by decide) (by decide) (by decide) (by decide) (fun _ => rfl) (by change some _ = _; simp only [bv_toNat]) h
theorem redfmin (c : BitVec 4) (b : BitVec 5) (sf : BitVec 3) (r : BitVec 2) : Statement (.redfmin c b sf r) :=
  Or.inr fun h => decode_FAT (k := dec0C) 0 (by decide) c.isLt b.isLt (by decide) sf.isLt r.isLt (by decide) (by decide) (by decide) (by decide) (fun _ => rfl) (by change some _ = _; simp only [bv_toNat]) h
theorem redfmax (c : BitVec 4) (b : BitVec 5) (sf : BitVec 3) (r : BitVec 2) : Statement (.redfmax c b sf r) :=
  Or.inr fun h => decode_FAT (k := dec0C) 0 (by decide) c.isLt b.isLt (by decide) sf.isLt r.isLt (by decide) (by decide) (by decide) (by decide) (fun _ => rfl) (by change some _ = _; simp only [bv_toNat]) h
theorem redbfadd2 (c : BitVec 4) (b : BitVec 5) (sf : BitVec 3) (r : BitVec 2) : Statement (.redbfadd2 c b sf r) :=
  Or.inr fun h => decode_FAT (k := dec0C) 0 (by decide) c.isLt b.isLt (by decide) sf.isLt r.isLt (by decide) (by decide) (by decide) (by decide) (fun _ => rfl) (by change some _ = _; simp only [bv_toNat]) h
theorem syncq : Statement (.syncq) :=
  Or.inr fun h => decode_FX (k := dec0D) 0 (by decide) (by decide) (by decide) (by decide) (by decide) (by decide) (by decide) (fun _ => rfl) (by rfl) h
theorem fence (sf : BitVec 3) (r : BitVec 2) : Statement (.fence sf r) :=
  Or.inr fun h => decode_FX (k := dec0D) 0 (by decide) (by decide) (by decide) (by decide) sf.isLt r.isLt (by decide) (fun _ => rfl) (by change some _ = _; simp only [bv_toNat]) h
theorem waitvis (a : BitVec 5) (r : BitVec 2) : Statement (.waitvis a r) :=
  Or.inr fun h => decode_FX (k := dec0D) 0 (by decide) a.isLt (by decide) (by decide) (by decide) r.isLt (by decide) (fun _ => rfl) (by change some _ = _; simp only [bv_toNat]) h
theorem node : Statement (.node) :=
  Or.inr fun h => decode_FX (k := dec0D) 0 (by decide) (by decide) (by decide) (by decide) (by decide) (by decide) (by decide) (fun _ => rfl) (by rfl) h
theorem ctrsig (a : BitVec 5) (b : BitVec 5) (sf : BitVec 3) (r : BitVec 2) : Statement (.ctrsig a b sf r) :=
  Or.inr fun h => decode_FX (k := dec0E) 0 (by decide) a.isLt b.isLt (by decide) sf.isLt r.isLt (by decide) (fun _ => rfl) (by change some _ = _; simp only [bv_toNat]) h
theorem ctrwait (d : BitVec 5) (a : BitVec 5) (b : BitVec 5) (sf : BitVec 3) (r : BitVec 2) : Statement (.ctrwait d a b sf r) :=
  Or.inr fun h => decode_FX (k := dec0E) 0 d.isLt a.isLt b.isLt (by decide) sf.isLt r.isLt (by decide) (fun _ => rfl) (by change some _ = _; simp only [bv_toNat]) h
theorem ctrrd (d : BitVec 5) (a : BitVec 5) : Statement (.ctrrd d a) :=
  Or.inr fun h => decode_FX (k := dec0E) 0 d.isLt a.isLt (by decide) (by decide) (by decide) (by decide) (by decide) (fun _ => rfl) (by change some _ = _; simp only [bv_toNat]) h
theorem barinit (c : BitVec 4) (b : BitVec 5) : Statement (.barinit c b) :=
  Or.inr fun h => decode_FX (k := dec0E) 0 (by decide) (Nat.lt_of_lt_of_le c.isLt (by decide)) b.isLt (by decide) (by decide) (by decide) (by decide) (fun _ => rfl) (by simp [dec0E, bv, show c.toNat < 16 from c.isLt]) h
theorem bararv (d : BitVec 5) (c : BitVec 4) (sf : BitVec 3) (r : BitVec 2) : Statement (.bararv d c sf r) :=
  Or.inr fun h => decode_FX (k := dec0E) 0 d.isLt (Nat.lt_of_lt_of_le c.isLt (by decide)) (by decide) (by decide) sf.isLt r.isLt (by decide) (fun _ => rfl) (by simp [dec0E, bv, show c.toNat < 16 from c.isLt]) h
theorem barxb (d : BitVec 5) (c : BitVec 4) (b : BitVec 5) (sf : BitVec 3) (r : BitVec 2) : Statement (.barxb d c b sf r) :=
  Or.inr fun h => decode_FX (k := dec0E) 0 d.isLt (Nat.lt_of_lt_of_le c.isLt (by decide)) b.isLt (by decide) sf.isLt r.isLt (by decide) (fun _ => rfl) (by simp [dec0E, bv, show c.toNat < 16 from c.isLt]) h
theorem barwait (c : BitVec 4) (b : BitVec 5) (sf : BitVec 3) (r : BitVec 2) : Statement (.barwait c b sf r) :=
  Or.inr fun h => decode_FX (k := dec0E) 0 (by decide) (Nat.lt_of_lt_of_le c.isLt (by decide)) b.isLt (by decide) sf.isLt r.isLt (by decide) (fun _ => rfl) (by simp [dec0E, bv, show c.toNat < 16 from c.isLt]) h
theorem bartest (d : BitVec 5) (c : BitVec 4) (b : BitVec 5) (sf : BitVec 3) (r : BitVec 2) : Statement (.bartest d c b sf r) :=
  Or.inr fun h => decode_FX (k := dec0E) 0 d.isLt (Nat.lt_of_lt_of_le c.isLt (by decide)) b.isLt (by decide) sf.isLt r.isLt (by decide) (fun _ => rfl) (by simp [dec0E, bv, show c.toNat < 16 from c.isLt]) h
theorem chrsv (d : BitVec 5) (a : BitVec 5) : Statement (.chrsv d a) :=
  Or.inr fun h => decode_FX (k := dec0E) 0 d.isLt a.isLt (by decide) (by decide) (by decide) (by decide) (by decide) (fun _ => rfl) (by change some _ = _; simp only [bv_toNat]) h
theorem chpush (a : BitVec 5) (b : BitVec 5) (r : BitVec 2) : Statement (.chpush a b r) :=
  Or.inr fun h => decode_FX (k := dec0E) 0 (by decide) a.isLt b.isLt (by decide) (by decide) r.isLt (by decide) (fun _ => rfl) (by change some _ = _; simp only [bv_toNat]) h
theorem chawait (d : BitVec 5) (a : BitVec 5) (r : BitVec 2) : Statement (.chawait d a r) :=
  Or.inr fun h => decode_FX (k := dec0E) 0 d.isLt a.isLt (by decide) (by decide) (by decide) r.isLt (by decide) (fun _ => rfl) (by change some _ = _; simp only [bv_toNat]) h
theorem chrel (a : BitVec 5) (b : BitVec 5) : Statement (.chrel a b) :=
  Or.inr fun h => decode_FX (k := dec0E) 0 (by decide) a.isLt b.isLt (by decide) (by decide) (by decide) (by decide) (fun _ => rfl) (by change some _ = _; simp only [bv_toNat]) h
theorem chstat (d : BitVec 5) (a : BitVec 5) (b : BitVec 5) : Statement (.chstat d a b) :=
  Or.inr fun h => decode_FX (k := dec0E) 0 d.isLt a.isLt b.isLt (by decide) (by decide) (by decide) (by decide) (fun _ => rfl) (by change some _ = _; simp only [bv_toNat]) h
theorem launch (d : BitVec 5) (a : BitVec 5) (r : BitVec 2) : Statement (.launch d a r) :=
  Or.inr fun h => decode_FX (k := dec0F) 0 d.isLt a.isLt (by decide) (by decide) (by decide) r.isLt (by decide) (fun _ => rfl) (by change some _ = _; simp only [bv_toNat]) h
theorem spawn (d : BitVec 5) (a : BitVec 5) (r : BitVec 2) : Statement (.spawn d a r) :=
  Or.inr fun h => decode_FX (k := dec0F) 0 d.isLt a.isLt (by decide) (by decide) (by decide) r.isLt (by decide) (fun _ => rfl) (by change some _ = _; simp only [bv_toNat]) h
theorem awaitch (d : BitVec 5) : Statement (.awaitch d) :=
  Or.inr fun h => decode_FX (k := dec0F) 0 d.isLt (by decide) (by decide) (by decide) (by decide) (by decide) (by decide) (fun _ => rfl) (by change some _ = _; simp only [bv_toNat]) h
theorem gjoin (d : BitVec 5) (a : BitVec 5) : Statement (.gjoin d a) :=
  Or.inr fun h => decode_FX (k := dec0F) 0 d.isLt a.isLt (by decide) (by decide) (by decide) (by decide) (by decide) (fun _ => rfl) (by change some _ = _; simp only [bv_toNat]) h
theorem gleave (d : BitVec 5) (a : BitVec 5) : Statement (.gleave d a) :=
  Or.inr fun h => decode_FX (k := dec0F) 0 d.isLt a.isLt (by decide) (by decide) (by decide) (by decide) (by decide) (fun _ => rfl) (by change some _ = _; simp only [bv_toNat]) h
theorem gsync (a : BitVec 5) (sf : BitVec 3) : Statement (.gsync a sf) :=
  Or.inr fun h => decode_FX (k := dec0F) 0 (by decide) a.isLt (by decide) (by decide) sf.isLt (by decide) (by decide) (fun _ => rfl) (by change some _ = _; simp only [bv_toNat]) h
theorem exit (r : BitVec 2) : Statement (.exit r) :=
  Or.inr fun h => decode_FX (k := dec0F) 0 (by decide) (by decide) (by decide) (by decide) (by decide) r.isLt (by decide) (fun _ => rfl) (by change some _ = _; simp only [bv_toNat]) h
theorem suspend (k : BitVec 5) (a : BitVec 5) (b : BitVec 5) (sf : BitVec 3) (r : BitVec 2) : Statement (.suspend k a b sf r) :=
  Or.inr fun h => decode_FX (k := dec0F) 0 k.isLt a.isLt b.isLt (by decide) sf.isLt r.isLt (by decide) (fun _ => rfl) (by change some _ = _; simp only [bv_toNat]) h
theorem yield : Statement (.yield) :=
  Or.inr fun h => decode_FX (k := dec0F) 0 (by decide) (by decide) (by decide) (by decide) (by decide) (by decide) (by decide) (fun _ => rfl) (by rfl) h
theorem hintnext : Statement (.hintnext) :=
  Or.inr fun h => decode_FX (k := dec0F) 0 (by decide) (by decide) (by decide) (by decide) (by decide) (by decide) (by decide) (fun _ => rfl) (by rfl) h
theorem self (d : BitVec 5) (l : BitVec 5) : Statement (.self d l) :=
  Or.inr fun h => decode_FX (k := dec0F) 0 d.isLt l.isLt (by decide) (by decide) (by decide) (by decide) (by decide) (fun _ => rfl) (by change some _ = _; simp only [bv_toNat]) h
theorem cpy (d : BitVec 4) (a : BitVec 4) (b : BitVec 5) : Statement (.cpy d a b) :=
  Or.inr fun h => decode_FX (k := dec10) 0 (Nat.lt_of_lt_of_le d.isLt (by decide)) (Nat.lt_of_lt_of_le a.isLt (by decide)) b.isLt (by decide) (by decide) (by decide) (by decide) (fun _ => rfl) (by simp [dec10, bv, show d.toNat < 16 from d.isLt, show a.toNat < 16 from a.isLt]) h
theorem cpyt (d : BitVec 4) (a : BitVec 4) (b : BitVec 5) : Statement (.cpyt d a b) :=
  Or.inr fun h => decode_FX (k := dec10) 0 (Nat.lt_of_lt_of_le d.isLt (by decide)) (Nat.lt_of_lt_of_le a.isLt (by decide)) b.isLt (by decide) (by decide) (by decide) (by decide) (fun _ => rfl) (by simp [dec10, bv, show d.toNat < 16 from d.isLt, show a.toNat < 16 from a.isLt]) h
theorem cpyg (d : BitVec 4) (a : BitVec 4) (b : BitVec 5) : Statement (.cpyg d a b) :=
  Or.inr fun h => decode_FX (k := dec10) 0 (Nat.lt_of_lt_of_le d.isLt (by decide)) (Nat.lt_of_lt_of_le a.isLt (by decide)) b.isLt (by decide) (by decide) (by decide) (by decide) (fun _ => rfl) (by simp [dec10, bv, show d.toNat < 16 from d.isLt, show a.toNat < 16 from a.isLt]) h
theorem cpys (d : BitVec 4) (a : BitVec 4) (b : BitVec 5) : Statement (.cpys d a b) :=
  Or.inr fun h => decode_FX (k := dec10) 0 (Nat.lt_of_lt_of_le d.isLt (by decide)) (Nat.lt_of_lt_of_le a.isLt (by decide)) b.isLt (by decide) (by decide) (by decide) (by decide) (fun _ => rfl) (by simp [dec10, bv, show d.toNat < 16 from d.isLt, show a.toNat < 16 from a.isLt]) h
theorem cpyc (d : BitVec 4) (a : BitVec 4) (b : BitVec 5) : Statement (.cpyc d a b) :=
  Or.inr fun h => decode_FX (k := dec10) 0 (Nat.lt_of_lt_of_le d.isLt (by decide)) (Nat.lt_of_lt_of_le a.isLt (by decide)) b.isLt (by decide) (by decide) (by decide) (by decide) (fun _ => rfl) (by simp [dec10, bv, show d.toNat < 16 from d.isLt, show a.toNat < 16 from a.isLt]) h
theorem cpyf (d : BitVec 4) (a : BitVec 5) (b : BitVec 5) : Statement (.cpyf d a b) :=
  Or.inr fun h => decode_FX (k := dec10) 0 (Nat.lt_of_lt_of_le d.isLt (by decide)) a.isLt b.isLt (by decide) (by decide) (by decide) (by decide) (fun _ => rfl) (by simp [dec10, bv, show d.toNat < 16 from d.isLt]) h
theorem cpyb (d : BitVec 5) (a : BitVec 4) (b : BitVec 5) : Statement (.cpyb d a b) :=
  Or.inr fun h => decode_FX (k := dec10) 0 d.isLt (Nat.lt_of_lt_of_le a.isLt (by decide)) b.isLt (by decide) (by decide) (by decide) (by decide) (fun _ => rfl) (by simp [dec10, bv, show a.toNat < 16 from a.isLt]) h
theorem qbind (c : BitVec 4) (q : BitVec 3) (b : BitVec 5) : Statement (.qbind c q b) :=
  Or.inr fun h => decode_FX (k := dec11) 0 (Nat.lt_of_lt_of_le c.isLt (by decide)) (Nat.lt_of_lt_of_le q.isLt (by decide)) b.isLt (by decide) (by decide) (by decide) (by decide) (fun _ => rfl) (by simp [dec11, bv, show c.toNat < 16 from c.isLt, show q.toNat < 8 from q.isLt]) h
theorem qaddr (q : BitVec 3) (b : BitVec 5) : Statement (.qaddr q b) :=
  Or.inr fun h => decode_FX (k := dec11) 0 (by decide) (Nat.lt_of_lt_of_le q.isLt (by decide)) b.isLt (by decide) (by decide) (by decide) (by decide) (fun _ => rfl) (by simp [dec11, bv, show q.toNat < 8 from q.isLt]) h
theorem qpops (d : BitVec 5) (q : BitVec 3) : Statement (.qpops d q) :=
  Or.inr fun h => decode_FX (k := dec11) 0 d.isLt (Nat.lt_of_lt_of_le q.isLt (by decide)) (by decide) (by decide) (by decide) (by decide) (by decide) (fun _ => rfl) (by simp [dec11, bv, show q.toNat < 8 from q.isLt]) h
theorem qpopv (v : BitVec 5) (q : BitVec 3) (w : BitVec 1) : Statement (.qpopv v q w) :=
  Or.inr fun h => decode_FX (k := dec11) 0 v.isLt (Nat.lt_of_lt_of_le q.isLt (by decide)) (Nat.lt_of_lt_of_le w.isLt (by decide)) (by decide) (by decide) (by decide) (by decide) (fun _ => rfl) (by simp [dec11, bv, show q.toNat < 8 from q.isLt, show w.toNat < 2 from w.isLt]) h
theorem qpeek (d : BitVec 5) (q : BitVec 3) : Statement (.qpeek d q) :=
  Or.inr fun h => decode_FX (k := dec11) 0 d.isLt (Nat.lt_of_lt_of_le q.isLt (by decide)) (by decide) (by decide) (by decide) (by decide) (by decide) (fun _ => rfl) (by simp [dec11, bv, show q.toNat < 8 from q.isLt]) h
theorem qstat (d : BitVec 5) (q : BitVec 3) : Statement (.qstat d q) :=
  Or.inr fun h => decode_FX (k := dec11) 0 d.isLt (Nat.lt_of_lt_of_le q.isLt (by decide)) (by decide) (by decide) (by decide) (by decide) (by decide) (fun _ => rfl) (by simp [dec11, bv, show q.toNat < 8 from q.isLt]) h
theorem qdrain (q : BitVec 3) : Statement (.qdrain q) :=
  Or.inr fun h => decode_FX (k := dec11) 0 (by decide) (Nat.lt_of_lt_of_le q.isLt (by decide)) (by decide) (by decide) (by decide) (by decide) (by decide) (fun _ => rfl) (by simp [dec11, bv, show q.toNat < 8 from q.isLt]) h
theorem qfmt (q : BitVec 3) (b : BitVec 5) : Statement (.qfmt q b) :=
  Or.inr fun h => decode_FX (k := dec11) 0 (by decide) (Nat.lt_of_lt_of_le q.isLt (by decide)) b.isLt (by decide) (by decide) (by decide) (by decide) (fun _ => rfl) (by simp [dec11, bv, show q.toNat < 8 from q.isLt]) h
theorem mlease (d : BitVec 5) (a : BitVec 5) : Statement (.mlease d a) :=
  Or.inr fun h => decode_FX (k := dec12) 0 d.isLt a.isLt (by decide) (by decide) (by decide) (by decide) (by decide) (fun _ => rfl) (by change some _ = _; simp only [bv_toNat]) h
theorem mfree : Statement (.mfree) :=
  Or.inr fun h => decode_FX (k := dec12) 0 (by decide) (by decide) (by decide) (by decide) (by decide) (by decide) (by decide) (fun _ => rfl) (by rfl) h
theorem mjob (d : BitVec 5) (a : BitVec 5) (c : BitVec 4) : Statement (.mjob d a c) :=
  Or.inr fun h => decode_FX (k := dec12) 0 d.isLt a.isLt (Nat.lt_of_lt_of_le c.isLt (by decide)) (by decide) (by decide) (by decide) (by decide) (fun _ => rfl) (by simp [dec12, bv, show c.toNat < 16 from c.isLt]) h
theorem mstat (d : BitVec 5) (a : BitVec 5) : Statement (.mstat d a) :=
  Or.inr fun h => decode_FX (k := dec12) 0 d.isLt a.isLt (by decide) (by decide) (by decide) (by decide) (by decide) (fun _ => rfl) (by change some _ = _; simp only [bv_toNat]) h
theorem mdrain : Statement (.mdrain) :=
  Or.inr fun h => decode_FX (k := dec12) 0 (by decide) (by decide) (by decide) (by decide) (by decide) (by decide) (by decide) (fun _ => rfl) (by rfl) h
theorem merrrd (d : BitVec 5) (a : BitVec 5) : Statement (.merrrd d a) :=
  Or.inr fun h => decode_FX (k := dec12) 0 d.isLt a.isLt (by decide) (by decide) (by decide) (by decide) (by decide) (fun _ => rfl) (by change some _ = _; simp only [bv_toNat]) h
theorem tcfg (d : BitVec 3) (b : BitVec 5) : Statement (.tcfg d b) :=
  Or.inr fun h => decode_FT (k := dec13) 0 d.isLt (by decide) (by decide) b.isLt (by decide) (by decide) (by decide) (fun _ => rfl) (by change some _ = _; simp only [bv_toNat]) h
theorem tzero (d : BitVec 3) : Statement (.tzero d) :=
  Or.inr fun h => decode_FT (k := dec13) 0 d.isLt (by decide) (by decide) (by decide) (by decide) (by decide) (by decide) (fun _ => rfl) (by change some _ = _; simp only [bv_toNat]) h
theorem tldrow (d : BitVec 3) (c : BitVec 4) (b : BitVec 5) : Statement (.tldrow d c b) :=
  Or.inr fun h => decode_FT (k := dec13) 0 d.isLt (by decide) (Nat.lt_of_lt_of_le c.isLt (by decide)) b.isLt (by decide) (by decide) (by decide) (fun _ => rfl) (by simp [dec13, bv, show c.toNat < 16 from c.isLt]) h
theorem tstrow (a : BitVec 3) (c : BitVec 4) (b : BitVec 5) : Statement (.tstrow a c b) :=
  Or.inr fun h => decode_FT (k := dec13) 0 (by decide) a.isLt (Nat.lt_of_lt_of_le c.isLt (by decide)) b.isLt (by decide) (by decide) (by decide) (fun _ => rfl) (by simp [dec13, bv, show c.toNat < 16 from c.isLt]) h
theorem tld (d : BitVec 3) (c : BitVec 4) (b : BitVec 5) : Statement (.tld d c b) :=
  Or.inr fun h => decode_FT (k := dec13) 0 d.isLt (by decide) (Nat.lt_of_lt_of_le c.isLt (by decide)) b.isLt (by decide) (by decide) (by decide) (fun _ => rfl) (by simp [dec13, bv, show c.toNat < 16 from c.isLt]) h
theorem tst (a : BitVec 3) (c : BitVec 4) (b : BitVec 5) : Statement (.tst a c b) :=
  Or.inr fun h => decode_FT (k := dec13) 0 (by decide) a.isLt (Nat.lt_of_lt_of_le c.isLt (by decide)) b.isLt (by decide) (by decide) (by decide) (fun _ => rfl) (by simp [dec13, bv, show c.toNat < 16 from c.isLt]) h
theorem trowv (a : BitVec 3) (v : BitVec 6) (b : BitVec 5) : Statement (.trowv a v b) :=
  Or.inr fun h => decode_FT (k := dec13) 0 (by decide) a.isLt v.isLt b.isLt (by decide) (by decide) (by decide) (fun _ => rfl) (by change some _ = _; simp only [bv_toNat]) h
theorem tcolv (a : BitVec 3) (v : BitVec 6) (b : BitVec 5) : Statement (.tcolv a v b) :=
  Or.inr fun h => decode_FT (k := dec13) 0 (by decide) a.isLt v.isLt b.isLt (by decide) (by decide) (by decide) (fun _ => rfl) (by change some _ = _; simp only [bv_toNat]) h
theorem tvrow (d : BitVec 3) (v : BitVec 6) (b : BitVec 5) : Statement (.tvrow d v b) :=
  Or.inr fun h => decode_FT (k := dec13) 0 d.isLt (by decide) v.isLt b.isLt (by decide) (by decide) (by decide) (fun _ => rfl) (by change some _ = _; simp only [bv_toNat]) h
theorem tvcol (d : BitVec 3) (v : BitVec 6) (b : BitVec 5) : Statement (.tvcol d v b) :=
  Or.inr fun h => decode_FT (k := dec13) 0 d.isLt (by decide) v.isLt b.isLt (by decide) (by decide) (by decide) (fun _ => rfl) (by change some _ = _; simp only [bv_toNat]) h
theorem ttrans (d : BitVec 3) (a : BitVec 3) : Statement (.ttrans d a) :=
  Or.inr fun h => decode_FT (k := dec13) 0 d.isLt a.isLt (by decide) (by decide) (by decide) (by decide) (by decide) (fun _ => rfl) (by change some _ = _; simp only [bv_toNat]) h
theorem tmma (d : BitVec 3) (a : BitVec 3) (t : BitVec 3) : Statement (.tmma d a t) :=
  Or.inr fun h => decode_FT (k := dec13) 0 d.isLt a.isLt (by decide) (Nat.lt_of_lt_of_le t.isLt (by decide)) (by decide) (by decide) (by decide) (fun _ => rfl) (by simp [dec13, bv, show t.toNat < 8 from t.isLt]) h
theorem trel (d : BitVec 3) : Statement (.trel d) :=
  Or.inr fun h => decode_FT (k := dec13) 0 d.isLt (by decide) (by decide) (by decide) (by decide) (by decide) (by decide) (fun _ => rfl) (by change some _ = _; simp only [bv_toNat]) h
theorem trbind (d : BitVec 5) (b : BitVec 5) : Statement (.trbind d b) :=
  Or.inr fun h => decode_FX (k := dec14) 0 d.isLt (by decide) b.isLt (by decide) (by decide) (by decide) (by decide) (fun _ => rfl) (by change some _ = _; simp only [bv_toNat]) h
theorem trwait (c : BitVec 4) (a : BitVec 5) (b : BitVec 5) (r : BitVec 2) : Statement (.trwait c a b r) :=
  Or.inr fun h => decode_FX (k := dec14) 0 (Nat.lt_of_lt_of_le c.isLt (by decide)) a.isLt b.isLt (by decide) (by decide) r.isLt (by decide) (fun _ => rfl) (by simp [dec14, bv, show c.toNat < 16 from c.isLt]) h
theorem trinfo (d : BitVec 5) (a : BitVec 5) : Statement (.trinfo d a) :=
  Or.inr fun h => decode_FX (k := dec14) 0 d.isLt a.isLt (by decide) (by decide) (by decide) (by decide) (by decide) (fun _ => rfl) (by change some _ = _; simp only [bv_toNat]) h
theorem trdone : Statement (.trdone) :=
  Or.inr fun h => decode_FX (k := dec14) 0 (by decide) (by decide) (by decide) (by decide) (by decide) (by decide) (by decide) (fun _ => rfl) (by rfl) h
theorem trhold (d : BitVec 5) (a : BitVec 5) : Statement (.trhold d a) :=
  Or.inr fun h => decode_FX (k := dec14) 0 d.isLt a.isLt (by decide) (by decide) (by decide) (by decide) (by decide) (fun _ => rfl) (by change some _ = _; simp only [bv_toNat]) h
theorem trskip (d : BitVec 5) (a : BitVec 5) : Statement (.trskip d a) :=
  Or.inr fun h => decode_FX (k := dec14) 0 d.isLt a.isLt (by decide) (by decide) (by decide) (by decide) (by decide) (fun _ => rfl) (by change some _ = _; simp only [bv_toNat]) h
theorem trnext (d : BitVec 5) (a : BitVec 5) (b : BitVec 5) : Statement (.trnext d a b) :=
  Or.inr fun h => decode_FX (k := dec14) 0 d.isLt a.isLt b.isLt (by decide) (by decide) (by decide) (by decide) (fun _ => rfl) (by change some _ = _; simp only [bv_toNat]) h
theorem trqry (d : BitVec 5) (a : BitVec 5) : Statement (.trqry d a) :=
  Or.inr fun h => decode_FX (k := dec14) 0 d.isLt a.isLt (by decide) (by decide) (by decide) (by decide) (by decide) (fun _ => rfl) (by change some _ = _; simp only [bv_toNat]) h
theorem tagdecl (d : BitVec 5) (a : BitVec 5) (b : BitVec 5) (sf : BitVec 3) : Statement (.tagdecl d a b sf) :=
  Or.inr fun h => decode_FX (k := dec15) 0 d.isLt a.isLt b.isLt (by decide) sf.isLt (by decide) (by decide) (fun _ => rfl) (by change some _ = _; simp only [bv_toNat]) h
theorem tagpub (a : BitVec 5) (r : BitVec 2) : Statement (.tagpub a r) :=
  Or.inr fun h => decode_FX (k := dec15) 0 (by decide) a.isLt (by decide) (by decide) (by decide) r.isLt (by decide) (fun _ => rfl) (by change some _ = _; simp only [bv_toNat]) h
theorem tagwait (a : BitVec 5) (r : BitVec 2) : Statement (.tagwait a r) :=
  Or.inr fun h => decode_FX (k := dec15) 0 (by decide) a.isLt (by decide) (by decide) (by decide) r.isLt (by decide) (fun _ => rfl) (by change some _ = _; simp only [bv_toNat]) h
theorem tagqry (d : BitVec 5) (a : BitVec 5) : Statement (.tagqry d a) :=
  Or.inr fun h => decode_FX (k := dec15) 0 d.isLt a.isLt (by decide) (by decide) (by decide) (by decide) (by decide) (fun _ => rfl) (by change some _ = _; simp only [bv_toNat]) h
theorem tagret (a : BitVec 5) : Statement (.tagret a) :=
  Or.inr fun h => decode_FX (k := dec15) 0 (by decide) a.isLt (by decide) (by decide) (by decide) (by decide) (by decide) (fun _ => rfl) (by change some _ = _; simp only [bv_toNat]) h
theorem coll (b : BitVec 5) : Statement (.coll b) :=
  Or.inr fun h => decode_FX (k := dec16) 0 (by decide) (by decide) b.isLt (by decide) (by decide) (by decide) (by decide) (fun _ => rfl) (by change some _ = _; simp only [bv_toNat]) h
theorem tkcommit (d : BitVec 5) (b : BitVec 5) : Statement (.tkcommit d b) :=
  Or.inr fun h => decode_FX (k := dec16) 0 d.isLt (by decide) b.isLt (by decide) (by decide) (by decide) (by decide) (fun _ => rfl) (by change some _ = _; simp only [bv_toNat]) h
theorem tkput (a : BitVec 5) (b : BitVec 5) : Statement (.tkput a b) :=
  Or.inr fun h => decode_FX (k := dec16) 0 (by decide) a.isLt b.isLt (by decide) (by decide) (by decide) (by decide) (fun _ => rfl) (by change some _ = _; simp only [bv_toNat]) h
theorem wpset (d : BitVec 5) (a : BitVec 5) (b : BitVec 5) : Statement (.wpset d a b) :=
  Or.inr fun h => decode_FX (k := dec16) 0 d.isLt a.isLt b.isLt (by decide) (by decide) (by decide) (by decide) (fun _ => rfl) (by change some _ = _; simp only [bv_toNat]) h
theorem wpclr (d : BitVec 5) (a : BitVec 5) : Statement (.wpclr d a) :=
  Or.inr fun h => decode_FX (k := dec16) 0 d.isLt a.isLt (by decide) (by decide) (by decide) (by decide) (by decide) (fun _ => rfl) (by change some _ = _; simp only [bv_toNat]) h
theorem wprd (d : BitVec 5) (a : BitVec 5) (b : BitVec 5) : Statement (.wprd d a b) :=
  Or.inr fun h => decode_FX (k := dec16) 0 d.isLt a.isLt b.isLt (by decide) (by decide) (by decide) (by decide) (fun _ => rfl) (by change some _ = _; simp only [bv_toNat]) h
theorem seqst (d : BitVec 5) (a : BitVec 5) (b : BitVec 5) : Statement (.seqst d a b) :=
  Or.inr fun h => decode_FX (k := dec16) 0 d.isLt a.isLt b.isLt (by decide) (by decide) (by decide) (by decide) (fun _ => rfl) (by change some _ = _; simp only [bv_toNat]) h
theorem vfadd (d : BitVec 6) (a : BitVec 6) (b : BitVec 6) (k : BitVec 3) (n : BitVec 1) : Statement (.vfadd d a b k n) :=
  Or.inr fun h => decode_FV (k := dec18) 0 d.isLt a.isLt b.isLt k.isLt n.isLt (by decide) (by decide) (fun _ => rfl) (by change some _ = _; simp only [bv_toNat]) h
theorem vfsub (d : BitVec 6) (a : BitVec 6) (b : BitVec 6) (k : BitVec 3) (n : BitVec 1) : Statement (.vfsub d a b k n) :=
  Or.inr fun h => decode_FV (k := dec18) 0 d.isLt a.isLt b.isLt k.isLt n.isLt (by decide) (by decide) (fun _ => rfl) (by change some _ = _; simp only [bv_toNat]) h
theorem vfmul (d : BitVec 6) (a : BitVec 6) (b : BitVec 6) (k : BitVec 3) (n : BitVec 1) : Statement (.vfmul d a b k n) :=
  Or.inr fun h => decode_FV (k := dec18) 0 d.isLt a.isLt b.isLt k.isLt n.isLt (by decide) (by decide) (fun _ => rfl) (by change some _ = _; simp only [bv_toNat]) h
theorem vfma (d : BitVec 6) (a : BitVec 6) (b : BitVec 6) (k : BitVec 3) (n : BitVec 1) : Statement (.vfma d a b k n) :=
  Or.inr fun h => decode_FV (k := dec18) 0 d.isLt a.isLt b.isLt k.isLt n.isLt (by decide) (by decide) (fun _ => rfl) (by change some _ = _; simp only [bv_toNat]) h
theorem vfms (d : BitVec 6) (a : BitVec 6) (b : BitVec 6) (k : BitVec 3) (n : BitVec 1) : Statement (.vfms d a b k n) :=
  Or.inr fun h => decode_FV (k := dec18) 0 d.isLt a.isLt b.isLt k.isLt n.isLt (by decide) (by decide) (fun _ => rfl) (by change some _ = _; simp only [bv_toNat]) h
theorem vfnma (d : BitVec 6) (a : BitVec 6) (b : BitVec 6) (k : BitVec 3) (n : BitVec 1) : Statement (.vfnma d a b k n) :=
  Or.inr fun h => decode_FV (k := dec18) 0 d.isLt a.isLt b.isLt k.isLt n.isLt (by decide) (by decide) (fun _ => rfl) (by change some _ = _; simp only [bv_toNat]) h
theorem vfnms (d : BitVec 6) (a : BitVec 6) (b : BitVec 6) (k : BitVec 3) (n : BitVec 1) : Statement (.vfnms d a b k n) :=
  Or.inr fun h => decode_FV (k := dec18) 0 d.isLt a.isLt b.isLt k.isLt n.isLt (by decide) (by decide) (fun _ => rfl) (by change some _ = _; simp only [bv_toNat]) h
theorem vfmin (d : BitVec 6) (a : BitVec 6) (b : BitVec 6) (k : BitVec 3) (n : BitVec 1) : Statement (.vfmin d a b k n) :=
  Or.inr fun h => decode_FV (k := dec18) 0 d.isLt a.isLt b.isLt k.isLt n.isLt (by decide) (by decide) (fun _ => rfl) (by change some _ = _; simp only [bv_toNat]) h
theorem vfmax (d : BitVec 6) (a : BitVec 6) (b : BitVec 6) (k : BitVec 3) (n : BitVec 1) : Statement (.vfmax d a b k n) :=
  Or.inr fun h => decode_FV (k := dec18) 0 d.isLt a.isLt b.isLt k.isLt n.isLt (by decide) (by decide) (fun _ => rfl) (by change some _ = _; simp only [bv_toNat]) h
theorem vfminm (d : BitVec 6) (a : BitVec 6) (b : BitVec 6) (k : BitVec 3) (n : BitVec 1) : Statement (.vfminm d a b k n) :=
  Or.inr fun h => decode_FV (k := dec18) 0 d.isLt a.isLt b.isLt k.isLt n.isLt (by decide) (by decide) (fun _ => rfl) (by change some _ = _; simp only [bv_toNat]) h
theorem vfmaxm (d : BitVec 6) (a : BitVec 6) (b : BitVec 6) (k : BitVec 3) (n : BitVec 1) : Statement (.vfmaxm d a b k n) :=
  Or.inr fun h => decode_FV (k := dec18) 0 d.isLt a.isLt b.isLt k.isLt n.isLt (by decide) (by decide) (fun _ => rfl) (by change some _ = _; simp only [bv_toNat]) h
theorem vfabs (d : BitVec 6) (a : BitVec 6) (k : BitVec 3) : Statement (.vfabs d a k) :=
  Or.inr fun h => decode_FV (k := dec18) 0 d.isLt a.isLt (by decide) k.isLt (by decide) (by decide) (by decide) (fun _ => rfl) (by change some _ = _; simp only [bv_toNat]) h
theorem vfneg (d : BitVec 6) (a : BitVec 6) (k : BitVec 3) : Statement (.vfneg d a k) :=
  Or.inr fun h => decode_FV (k := dec18) 0 d.isLt a.isLt (by decide) k.isLt (by decide) (by decide) (by decide) (fun _ => rfl) (by change some _ = _; simp only [bv_toNat]) h
theorem vfsgnj (d : BitVec 6) (a : BitVec 6) (b : BitVec 6) (k : BitVec 3) : Statement (.vfsgnj d a b k) :=
  Or.inr fun h => decode_FV (k := dec18) 0 d.isLt a.isLt b.isLt k.isLt (by decide) (by decide) (by decide) (fun _ => rfl) (by change some _ = _; simp only [bv_toNat]) h
theorem vfdiv (d : BitVec 6) (a : BitVec 6) (b : BitVec 6) (k : BitVec 3) (n : BitVec 1) : Statement (.vfdiv d a b k n) :=
  Or.inr fun h => decode_FV (k := dec18) 0 d.isLt a.isLt b.isLt k.isLt n.isLt (by decide) (by decide) (fun _ => rfl) (by change some _ = _; simp only [bv_toNat]) h
theorem vfsqrt (d : BitVec 6) (a : BitVec 6) (k : BitVec 3) (n : BitVec 1) : Statement (.vfsqrt d a k n) :=
  Or.inr fun h => decode_FV (k := dec18) 0 d.isLt a.isLt (by decide) k.isLt n.isLt (by decide) (by decide) (fun _ => rfl) (by change some _ = _; simp only [bv_toNat]) h
theorem vfrcp (d : BitVec 6) (a : BitVec 6) (k : BitVec 3) (n : BitVec 1) : Statement (.vfrcp d a k n) :=
  Or.inr fun h => decode_FV (k := dec19) 0 d.isLt a.isLt (by decide) k.isLt n.isLt (by decide) (by decide) (fun _ => rfl) (by change some _ = _; simp only [bv_toNat]) h
theorem vfrsq (d : BitVec 6) (a : BitVec 6) (k : BitVec 3) (n : BitVec 1) : Statement (.vfrsq d a k n) :=
  Or.inr fun h => decode_FV (k := dec19) 0 d.isLt a.isLt (by decide) k.isLt n.isLt (by decide) (by decide) (fun _ => rfl) (by change some _ = _; simp only [bv_toNat]) h
theorem vfexp2 (d : BitVec 6) (a : BitVec 6) (k : BitVec 3) (n : BitVec 1) : Statement (.vfexp2 d a k n) :=
  Or.inr fun h => decode_FV (k := dec19) 0 d.isLt a.isLt (by decide) k.isLt n.isLt (by decide) (by decide) (fun _ => rfl) (by change some _ = _; simp only [bv_toNat]) h
theorem vflog2 (d : BitVec 6) (a : BitVec 6) (k : BitVec 3) (n : BitVec 1) : Statement (.vflog2 d a k n) :=
  Or.inr fun h => decode_FV (k := dec19) 0 d.isLt a.isLt (by decide) k.isLt n.isLt (by decide) (by decide) (fun _ => rfl) (by change some _ = _; simp only [bv_toNat]) h
theorem vftanh (d : BitVec 6) (a : BitVec 6) (k : BitVec 3) (n : BitVec 1) : Statement (.vftanh d a k n) :=
  Or.inr fun h => decode_FV (k := dec19) 0 d.isLt a.isLt (by decide) k.isLt n.isLt (by decide) (by decide) (fun _ => rfl) (by change some _ = _; simp only [bv_toNat]) h
theorem vfceq (d : BitVec 3) (a : BitVec 6) (b : BitVec 6) (k : BitVec 3) (n : BitVec 1) : Statement (.vfceq d a b k n) :=
  Or.inr fun h => decode_FV (k := dec1A) 0 (Nat.lt_of_lt_of_le d.isLt (by decide)) a.isLt b.isLt k.isLt n.isLt (by decide) (by decide) (fun _ => rfl) (by simp [dec1A, bv, show d.toNat < 8 from d.isLt]) h
theorem vfcne (d : BitVec 3) (a : BitVec 6) (b : BitVec 6) (k : BitVec 3) (n : BitVec 1) : Statement (.vfcne d a b k n) :=
  Or.inr fun h => decode_FV (k := dec1A) 0 (Nat.lt_of_lt_of_le d.isLt (by decide)) a.isLt b.isLt k.isLt n.isLt (by decide) (by decide) (fun _ => rfl) (by simp [dec1A, bv, show d.toNat < 8 from d.isLt]) h
theorem vfclt (d : BitVec 3) (a : BitVec 6) (b : BitVec 6) (k : BitVec 3) (n : BitVec 1) : Statement (.vfclt d a b k n) :=
  Or.inr fun h => decode_FV (k := dec1A) 0 (Nat.lt_of_lt_of_le d.isLt (by decide)) a.isLt b.isLt k.isLt n.isLt (by decide) (by decide) (fun _ => rfl) (by simp [dec1A, bv, show d.toNat < 8 from d.isLt]) h
theorem vfcle (d : BitVec 3) (a : BitVec 6) (b : BitVec 6) (k : BitVec 3) (n : BitVec 1) : Statement (.vfcle d a b k n) :=
  Or.inr fun h => decode_FV (k := dec1A) 0 (Nat.lt_of_lt_of_le d.isLt (by decide)) a.isLt b.isLt k.isLt n.isLt (by decide) (by decide) (fun _ => rfl) (by simp [dec1A, bv, show d.toNat < 8 from d.isLt]) h
theorem vfcun (d : BitVec 3) (a : BitVec 6) (b : BitVec 6) (k : BitVec 3) (n : BitVec 1) : Statement (.vfcun d a b k n) :=
  Or.inr fun h => decode_FV (k := dec1A) 0 (Nat.lt_of_lt_of_le d.isLt (by decide)) a.isLt b.isLt k.isLt n.isLt (by decide) (by decide) (fun _ => rfl) (by simp [dec1A, bv, show d.toNat < 8 from d.isLt]) h
theorem vceq (d : BitVec 3) (a : BitVec 6) (b : BitVec 6) (k : BitVec 3) : Statement (.vceq d a b k) :=
  Or.inr fun h => decode_FV (k := dec1A) 0 (Nat.lt_of_lt_of_le d.isLt (by decide)) a.isLt b.isLt k.isLt (by decide) (by decide) (by decide) (fun _ => rfl) (by simp [dec1A, bv, show d.toNat < 8 from d.isLt]) h
theorem vcne (d : BitVec 3) (a : BitVec 6) (b : BitVec 6) (k : BitVec 3) : Statement (.vcne d a b k) :=
  Or.inr fun h => decode_FV (k := dec1A) 0 (Nat.lt_of_lt_of_le d.isLt (by decide)) a.isLt b.isLt k.isLt (by decide) (by decide) (by decide) (fun _ => rfl) (by simp [dec1A, bv, show d.toNat < 8 from d.isLt]) h
theorem vclt (d : BitVec 3) (a : BitVec 6) (b : BitVec 6) (k : BitVec 3) : Statement (.vclt d a b k) :=
  Or.inr fun h => decode_FV (k := dec1A) 0 (Nat.lt_of_lt_of_le d.isLt (by decide)) a.isLt b.isLt k.isLt (by decide) (by decide) (by decide) (fun _ => rfl) (by simp [dec1A, bv, show d.toNat < 8 from d.isLt]) h
theorem vcle (d : BitVec 3) (a : BitVec 6) (b : BitVec 6) (k : BitVec 3) : Statement (.vcle d a b k) :=
  Or.inr fun h => decode_FV (k := dec1A) 0 (Nat.lt_of_lt_of_le d.isLt (by decide)) a.isLt b.isLt k.isLt (by decide) (by decide) (by decide) (fun _ => rfl) (by simp [dec1A, bv, show d.toNat < 8 from d.isLt]) h
theorem vcltu (d : BitVec 3) (a : BitVec 6) (b : BitVec 6) (k : BitVec 3) : Statement (.vcltu d a b k) :=
  Or.inr fun h => decode_FV (k := dec1A) 0 (Nat.lt_of_lt_of_le d.isLt (by decide)) a.isLt b.isLt k.isLt (by decide) (by decide) (by decide) (fun _ => rfl) (by simp [dec1A, bv, show d.toNat < 8 from d.isLt]) h
theorem vcleu (d : BitVec 3) (a : BitVec 6) (b : BitVec 6) (k : BitVec 3) : Statement (.vcleu d a b k) :=
  Or.inr fun h => decode_FV (k := dec1A) 0 (Nat.lt_of_lt_of_le d.isLt (by decide)) a.isLt b.isLt k.isLt (by decide) (by decide) (by decide) (fun _ => rfl) (by simp [dec1A, bv, show d.toNat < 8 from d.isLt]) h
theorem vadd (d : BitVec 6) (a : BitVec 6) (b : BitVec 6) (k : BitVec 3) : Statement (.vadd d a b k) :=
  Or.inr fun h => decode_FV (k := dec1B) 0 d.isLt a.isLt b.isLt k.isLt (by decide) (by decide) (by decide) (fun _ => rfl) (by change some _ = _; simp only [bv_toNat]) h
theorem vsub (d : BitVec 6) (a : BitVec 6) (b : BitVec 6) (k : BitVec 3) : Statement (.vsub d a b k) :=
  Or.inr fun h => decode_FV (k := dec1B) 0 d.isLt a.isLt b.isLt k.isLt (by decide) (by decide) (by decide) (fun _ => rfl) (by change some _ = _; simp only [bv_toNat]) h
theorem vadds (d : BitVec 6) (a : BitVec 6) (b : BitVec 6) (k : BitVec 3) : Statement (.vadds d a b k) :=
  Or.inr fun h => decode_FV (k := dec1B) 0 d.isLt a.isLt b.isLt k.isLt (by decide) (by decide) (by decide) (fun _ => rfl) (by change some _ = _; simp only [bv_toNat]) h
theorem vsubs (d : BitVec 6) (a : BitVec 6) (b : BitVec 6) (k : BitVec 3) : Statement (.vsubs d a b k) :=
  Or.inr fun h => decode_FV (k := dec1B) 0 d.isLt a.isLt b.isLt k.isLt (by decide) (by decide) (by decide) (fun _ => rfl) (by change some _ = _; simp only [bv_toNat]) h
theorem vmul (d : BitVec 6) (a : BitVec 6) (b : BitVec 6) (k : BitVec 3) : Statement (.vmul d a b k) :=
  Or.inr fun h => decode_FV (k := dec1B) 0 d.isLt a.isLt b.isLt k.isLt (by decide) (by decide) (by decide) (fun _ => rfl) (by change some _ = _; simp only [bv_toNat]) h
theorem vmulh (d : BitVec 6) (a : BitVec 6) (b : BitVec 6) (k : BitVec 3) : Statement (.vmulh d a b k) :=
  Or.inr fun h => decode_FV (k := dec1B) 0 d.isLt a.isLt b.isLt k.isLt (by decide) (by decide) (by decide) (fun _ => rfl) (by change some _ = _; simp only [bv_toNat]) h
theorem vmulhu (d : BitVec 6) (a : BitVec 6) (b : BitVec 6) (k : BitVec 3) : Statement (.vmulhu d a b k) :=
  Or.inr fun h => decode_FV (k := dec1B) 0 d.isLt a.isLt b.isLt k.isLt (by decide) (by decide) (by decide) (fun _ => rfl) (by change some _ = _; simp only [bv_toNat]) h
theorem vmin (d : BitVec 6) (a : BitVec 6) (b : BitVec 6) (k : BitVec 3) : Statement (.vmin d a b k) :=
  Or.inr fun h => decode_FV (k := dec1B) 0 d.isLt a.isLt b.isLt k.isLt (by decide) (by decide) (by decide) (fun _ => rfl) (by change some _ = _; simp only [bv_toNat]) h
theorem vmax (d : BitVec 6) (a : BitVec 6) (b : BitVec 6) (k : BitVec 3) : Statement (.vmax d a b k) :=
  Or.inr fun h => decode_FV (k := dec1B) 0 d.isLt a.isLt b.isLt k.isLt (by decide) (by decide) (by decide) (fun _ => rfl) (by change some _ = _; simp only [bv_toNat]) h
theorem vminu (d : BitVec 6) (a : BitVec 6) (b : BitVec 6) (k : BitVec 3) : Statement (.vminu d a b k) :=
  Or.inr fun h => decode_FV (k := dec1B) 0 d.isLt a.isLt b.isLt k.isLt (by decide) (by decide) (by decide) (fun _ => rfl) (by change some _ = _; simp only [bv_toNat]) h
theorem vmaxu (d : BitVec 6) (a : BitVec 6) (b : BitVec 6) (k : BitVec 3) : Statement (.vmaxu d a b k) :=
  Or.inr fun h => decode_FV (k := dec1B) 0 d.isLt a.isLt b.isLt k.isLt (by decide) (by decide) (by decide) (fun _ => rfl) (by change some _ = _; simp only [bv_toNat]) h
theorem vabs (d : BitVec 6) (a : BitVec 6) (k : BitVec 3) : Statement (.vabs d a k) :=
  Or.inr fun h => decode_FV (k := dec1B) 0 d.isLt a.isLt (by decide) k.isLt (by decide) (by decide) (by decide) (fun _ => rfl) (by change some _ = _; simp only [bv_toNat]) h
theorem vand (d : BitVec 6) (a : BitVec 6) (b : BitVec 6) (k : BitVec 3) : Statement (.vand d a b k) :=
  Or.inr fun h => decode_FV (k := dec1C) 0 d.isLt a.isLt b.isLt k.isLt (by decide) (by decide) (by decide) (fun _ => rfl) (by change some _ = _; simp only [bv_toNat]) h
theorem vor (d : BitVec 6) (a : BitVec 6) (b : BitVec 6) (k : BitVec 3) : Statement (.vor d a b k) :=
  Or.inr fun h => decode_FV (k := dec1C) 0 d.isLt a.isLt b.isLt k.isLt (by decide) (by decide) (by decide) (fun _ => rfl) (by change some _ = _; simp only [bv_toNat]) h
theorem vxor (d : BitVec 6) (a : BitVec 6) (b : BitVec 6) (k : BitVec 3) : Statement (.vxor d a b k) :=
  Or.inr fun h => decode_FV (k := dec1C) 0 d.isLt a.isLt b.isLt k.isLt (by decide) (by decide) (by decide) (fun _ => rfl) (by change some _ = _; simp only [bv_toNat]) h
theorem vandn (d : BitVec 6) (a : BitVec 6) (b : BitVec 6) (k : BitVec 3) : Statement (.vandn d a b k) :=
  Or.inr fun h => decode_FV (k := dec1C) 0 d.isLt a.isLt b.isLt k.isLt (by decide) (by decide) (by decide) (fun _ => rfl) (by change some _ = _; simp only [bv_toNat]) h
theorem vnot (d : BitVec 6) (a : BitVec 6) (k : BitVec 3) : Statement (.vnot d a k) :=
  Or.inr fun h => decode_FV (k := dec1C) 0 d.isLt a.isLt (by decide) k.isLt (by decide) (by decide) (by decide) (fun _ => rfl) (by change some _ = _; simp only [bv_toNat]) h
theorem vsll (d : BitVec 6) (a : BitVec 6) (b : BitVec 6) (k : BitVec 3) : Statement (.vsll d a b k) :=
  Or.inr fun h => decode_FV (k := dec1C) 0 d.isLt a.isLt b.isLt k.isLt (by decide) (by decide) (by decide) (fun _ => rfl) (by change some _ = _; simp only [bv_toNat]) h
theorem vsrl (d : BitVec 6) (a : BitVec 6) (b : BitVec 6) (k : BitVec 3) : Statement (.vsrl d a b k) :=
  Or.inr fun h => decode_FV (k := dec1C) 0 d.isLt a.isLt b.isLt k.isLt (by decide) (by decide) (by decide) (fun _ => rfl) (by change some _ = _; simp only [bv_toNat]) h
theorem vsra (d : BitVec 6) (a : BitVec 6) (b : BitVec 6) (k : BitVec 3) : Statement (.vsra d a b k) :=
  Or.inr fun h => decode_FV (k := dec1C) 0 d.isLt a.isLt b.isLt k.isLt (by decide) (by decide) (by decide) (fun _ => rfl) (by change some _ = _; simp only [bv_toNat]) h
theorem vpopc (d : BitVec 6) (a : BitVec 6) (k : BitVec 3) : Statement (.vpopc d a k) :=
  Or.inr fun h => decode_FV (k := dec1C) 0 d.isLt a.isLt (by decide) k.isLt (by decide) (by decide) (by decide) (fun _ => rfl) (by change some _ = _; simp only [bv_toNat]) h
theorem vclz (d : BitVec 6) (a : BitVec 6) (k : BitVec 3) : Statement (.vclz d a k) :=
  Or.inr fun h => decode_FV (k := dec1C) 0 d.isLt a.isLt (by decide) k.isLt (by decide) (by decide) (by decide) (fun _ => rfl) (by change some _ = _; simp only [bv_toNat]) h
theorem vcvt (d a : VReg) (t : BitVec 4) (r : BitVec 2) (k : KReg) (n : BitVec 1) : Statement (.vcvt d a t r k n) :=
  Or.inr fun h => decode_FV (k := dec1D) 0 d.isLt a.isLt (by have := t.isLt; have := r.isLt; omega) k.isLt n.isLt (by decide) (by decide)
    (fun _ => rfl) (by
      have ht : (t.toNat * 4 + r.toNat) / 4 = t.toNat := by have := r.isLt; omega
      have hr : BitVec.ofNat 2 (t.toNat * 4 + r.toNat) = r := by
        apply BitVec.eq_of_toNat_eq; have := r.isLt; simp only [BitVec.toNat_ofNat]; omega
      simp [dec1D, bv, ht, hr]) h
theorem vcvtsat (d a : VReg) (t : BitVec 4) (r : BitVec 2) (k : KReg) (n : BitVec 1) : Statement (.vcvtsat d a t r k n) :=
  Or.inr fun h => decode_FV (k := dec1D) 0 d.isLt a.isLt (by have := t.isLt; have := r.isLt; omega) k.isLt n.isLt (by decide) (by decide)
    (fun _ => rfl) (by
      have ht : (t.toNat * 4 + r.toNat) / 4 = t.toNat := by have := r.isLt; omega
      have hr : BitVec.ofNat 2 (t.toNat * 4 + r.toNat) = r := by
        apply BitVec.eq_of_toNat_eq; have := r.isLt; simp only [BitVec.toNat_ofNat]; omega
      simp [dec1D, bv, ht, hr]) h
theorem vqfp4 (d : BitVec 6) (a : BitVec 6) (k : BitVec 3) (n : BitVec 1) : Statement (.vqfp4 d a k n) :=
  Or.inr fun h => decode_FV (k := dec1D) 0 d.isLt a.isLt (by decide) k.isLt n.isLt (by decide) (by decide) (fun _ => rfl) (by change some _ = _; simp only [bv_toNat]) h
theorem vdqfp4 (d a : VReg) (t : BitVec 4) (r : BitVec 2) (k : KReg) (n : BitVec 1) : Statement (.vdqfp4 d a t r k n) :=
  Or.inr fun h => decode_FV (k := dec1D) 0 d.isLt a.isLt (by have := t.isLt; have := r.isLt; omega) k.isLt n.isLt (by decide) (by decide)
    (fun _ => rfl) (by
      have ht : (t.toNat * 4 + r.toNat) / 4 = t.toNat := by have := r.isLt; omega
      have hr : BitVec.ofNat 2 (t.toNat * 4 + r.toNat) = r := by
        apply BitVec.eq_of_toNat_eq; have := r.isLt; simp only [BitVec.toNat_ofNat]; omega
      simp [dec1D, bv, ht, hr]) h
theorem vqfp8 (d a : VReg) (t : BitVec 4) (r : BitVec 2) (k : KReg) (n : BitVec 1) : Statement (.vqfp8 d a t r k n) :=
  Or.inr fun h => decode_FV (k := dec1D) 0 d.isLt a.isLt (by have := t.isLt; have := r.isLt; omega) k.isLt n.isLt (by decide) (by decide)
    (fun _ => rfl) (by
      have ht : (t.toNat * 4 + r.toNat) / 4 = t.toNat := by have := r.isLt; omega
      have hr : BitVec.ofNat 2 (t.toNat * 4 + r.toNat) = r := by
        apply BitVec.eq_of_toNat_eq; have := r.isLt; simp only [BitVec.toNat_ofNat]; omega
      simp [dec1D, bv, ht, hr]) h
theorem vblksc (d : BitVec 6) (a : BitVec 6) (k : BitVec 3) (n : BitVec 1) : Statement (.vblksc d a k n) :=
  Or.inr fun h => decode_FV (k := dec1D) 0 d.isLt a.isLt (by decide) k.isLt n.isLt (by decide) (by decide) (fun _ => rfl) (by change some _ = _; simp only [bv_toNat]) h
theorem vbndsc (d : BitVec 6) (a : BitVec 6) (k : BitVec 3) (n : BitVec 1) : Statement (.vbndsc d a k n) :=
  Or.inr fun h => decode_FV (k := dec1D) 0 d.isLt a.isLt (by decide) k.isLt n.isLt (by decide) (by decide) (fun _ => rfl) (by change some _ = _; simp only [bv_toNat]) h
theorem vperm (d : BitVec 6) (a : BitVec 6) (b : BitVec 6) (k : BitVec 3) : Statement (.vperm d a b k) :=
  Or.inr fun h => decode_FV (k := dec1E) 0 d.isLt a.isLt b.isLt k.isLt (by decide) (by decide) (by decide) (fun _ => rfl) (by change some _ = _; simp only [bv_toNat]) h
theorem vslideup (d : BitVec 6) (a : BitVec 6) (b : BitVec 6) (k : BitVec 3) : Statement (.vslideup d a b k) :=
  Or.inr fun h => decode_FV (k := dec1E) 0 d.isLt a.isLt b.isLt k.isLt (by decide) (by decide) (by decide) (fun _ => rfl) (by change some _ = _; simp only [bv_toNat]) h
theorem vslidedn (d : BitVec 6) (a : BitVec 6) (b : BitVec 6) (k : BitVec 3) : Statement (.vslidedn d a b k) :=
  Or.inr fun h => decode_FV (k := dec1E) 0 d.isLt a.isLt b.isLt k.isLt (by decide) (by decide) (by decide) (fun _ => rfl) (by change some _ = _; simp only [bv_toNat]) h
theorem vziplo (d : BitVec 6) (a : BitVec 6) (b : BitVec 6) (k : BitVec 3) : Statement (.vziplo d a b k) :=
  Or.inr fun h => decode_FV (k := dec1E) 0 d.isLt a.isLt b.isLt k.isLt (by decide) (by decide) (by decide) (fun _ => rfl) (by change some _ = _; simp only [bv_toNat]) h
theorem vziphi (d : BitVec 6) (a : BitVec 6) (b : BitVec 6) (k : BitVec 3) : Statement (.vziphi d a b k) :=
  Or.inr fun h => decode_FV (k := dec1E) 0 d.isLt a.isLt b.isLt k.isLt (by decide) (by decide) (by decide) (fun _ => rfl) (by change some _ = _; simp only [bv_toNat]) h
theorem vrev (d : BitVec 6) (a : BitVec 6) (k : BitVec 3) : Statement (.vrev d a k) :=
  Or.inr fun h => decode_FV (k := dec1E) 0 d.isLt a.isLt (by decide) k.isLt (by decide) (by decide) (by decide) (fun _ => rfl) (by change some _ = _; simp only [bv_toNat]) h
theorem vcompr (d : BitVec 6) (a : BitVec 6) (k : BitVec 3) : Statement (.vcompr d a k) :=
  Or.inr fun h => decode_FV (k := dec1E) 0 d.isLt a.isLt (by decide) k.isLt (by decide) (by decide) (by decide) (fun _ => rfl) (by change some _ = _; simp only [bv_toNat]) h
theorem vexpnd (d : BitVec 6) (a : BitVec 6) (k : BitVec 3) : Statement (.vexpnd d a k) :=
  Or.inr fun h => decode_FV (k := dec1E) 0 d.isLt a.isLt (by decide) k.isLt (by decide) (by decide) (by decide) (fun _ => rfl) (by change some _ = _; simp only [bv_toNat]) h
theorem vsel (d : BitVec 6) (a : BitVec 6) (b : BitVec 6) (k : BitVec 3) : Statement (.vsel d a b k) :=
  Or.inr fun h => decode_FV (k := dec1E) 0 d.isLt a.isLt b.isLt k.isLt (by decide) (by decide) (by decide) (fun _ => rfl) (by change some _ = _; simp only [bv_toNat]) h
theorem vrsum (d : BitVec 6) (a : BitVec 6) (k : BitVec 3) (n : BitVec 1) : Statement (.vrsum d a k n) :=
  Or.inr fun h => decode_FV (k := dec1F) 0 d.isLt a.isLt (by decide) k.isLt n.isLt (by decide) (by decide) (fun _ => rfl) (by change some _ = _; simp only [bv_toNat]) h
theorem vrmax (d : BitVec 6) (a : BitVec 6) (k : BitVec 3) (n : BitVec 1) : Statement (.vrmax d a k n) :=
  Or.inr fun h => decode_FV (k := dec1F) 0 d.isLt a.isLt (by decide) k.isLt n.isLt (by decide) (by decide) (fun _ => rfl) (by change some _ = _; simp only [bv_toNat]) h
theorem vrmin (d : BitVec 6) (a : BitVec 6) (k : BitVec 3) (n : BitVec 1) : Statement (.vrmin d a k n) :=
  Or.inr fun h => decode_FV (k := dec1F) 0 d.isLt a.isLt (by decide) k.isLt n.isLt (by decide) (by decide) (fun _ => rfl) (by change some _ = _; simp only [bv_toNat]) h
theorem vrmaxi (d : BitVec 6) (a : BitVec 6) (k : BitVec 3) (n : BitVec 1) : Statement (.vrmaxi d a k n) :=
  Or.inr fun h => decode_FV (k := dec1F) 0 d.isLt a.isLt (by decide) k.isLt n.isLt (by decide) (by decide) (fun _ => rfl) (by change some _ = _; simp only [bv_toNat]) h
theorem vrmini (d : BitVec 6) (a : BitVec 6) (k : BitVec 3) (n : BitVec 1) : Statement (.vrmini d a k n) :=
  Or.inr fun h => decode_FV (k := dec1F) 0 d.isLt a.isLt (by decide) k.isLt n.isLt (by decide) (by decide) (fun _ => rfl) (by change some _ = _; simp only [bv_toNat]) h
theorem vscans (d : BitVec 6) (a : BitVec 6) (k : BitVec 3) (n : BitVec 1) : Statement (.vscans d a k n) :=
  Or.inr fun h => decode_FV (k := dec1F) 0 d.isLt a.isLt (by decide) k.isLt n.isLt (by decide) (by decide) (fun _ => rfl) (by change some _ = _; simp only [bv_toNat]) h
theorem vrand (d : BitVec 6) (a : BitVec 6) (k : BitVec 3) : Statement (.vrand d a k) :=
  Or.inr fun h => decode_FV (k := dec1F) 0 d.isLt a.isLt (by decide) k.isLt (by decide) (by decide) (by decide) (fun _ => rfl) (by change some _ = _; simp only [bv_toNat]) h
theorem vror (d : BitVec 6) (a : BitVec 6) (k : BitVec 3) : Statement (.vror d a k) :=
  Or.inr fun h => decode_FV (k := dec1F) 0 d.isLt a.isLt (by decide) k.isLt (by decide) (by decide) (by decide) (fun _ => rfl) (by change some _ = _; simp only [bv_toNat]) h
theorem vtopk (d : BitVec 6) (a : BitVec 6) (b : BitVec 6) (k : BitVec 3) (n : BitVec 1) : Statement (.vtopk d a b k n) :=
  Or.inr fun h => decode_FV (k := dec1F) 0 d.isLt a.isLt b.isLt k.isLt n.isLt (by decide) (by decide) (fun _ => rfl) (by change some _ = _; simp only [bv_toNat]) h
theorem vspc (d : BitVec 6) (a : BitVec 6) (n : BitVec 6) (k : BitVec 3) : Statement (.vspc d a n k) :=
  Or.inr fun h => decode_FV (k := dec20) 0 d.isLt a.isLt n.isLt k.isLt (by decide) (by decide) (by decide) (fun _ => rfl) (by change some _ = _; simp only [bv_toNat]) h
theorem vspx (d : BitVec 6) (a : BitVec 6) (n : BitVec 6) (k : BitVec 3) (f : BitVec 1) : Statement (.vspx d a n k f) :=
  Or.inr fun h => decode_FV (k := dec20) 0 d.isLt a.isLt n.isLt k.isLt f.isLt (by decide) (by decide) (fun _ => rfl) (by change some _ = _; simp only [bv_toNat]) h
theorem vbpt (d : BitVec 6) (a : BitVec 6) : Statement (.vbpt d a) :=
  Or.inr fun h => decode_FV (k := dec20) 0 d.isLt a.isLt (by decide) (by decide) (by decide) (by decide) (by decide) (fun _ => rfl) (by change some _ = _; simp only [bv_toNat]) h
theorem vbpu (d : BitVec 6) (a : BitVec 6) : Statement (.vbpu d a) :=
  Or.inr fun h => decode_FV (k := dec20) 0 d.isLt a.isLt (by decide) (by decide) (by decide) (by decide) (by decide) (fun _ => rfl) (by change some _ = _; simp only [bv_toNat]) h
theorem vld (d : BitVec 6) (c : BitVec 4) (b : BitVec 5) (k : BitVec 3) : Statement (.vld d c b k) :=
  Or.inr fun h => decode_FVM (k := dec21) 0 d.isLt (by decide) c.isLt b.isLt k.isLt (by decide) (by decide) (fun _ => rfl) (by change some _ = _; simp only [bv_toNat]) h
theorem vst (d : BitVec 6) (c : BitVec 4) (b : BitVec 5) (k : BitVec 3) : Statement (.vst d c b k) :=
  Or.inr fun h => decode_FVM (k := dec21) 0 d.isLt (by decide) c.isLt b.isLt k.isLt (by decide) (by decide) (fun _ => rfl) (by change some _ = _; simp only [bv_toNat]) h
theorem vlds (d : BitVec 6) (sf : BitVec 5) (c : BitVec 4) (b : BitVec 5) (k : BitVec 3) : Statement (.vlds d sf c b k) :=
  Or.inr fun h => decode_FVM (k := dec21) 0 d.isLt (Nat.lt_of_lt_of_le sf.isLt (by decide)) c.isLt b.isLt k.isLt (by decide) (by decide) (fun _ => rfl) (by simp [dec21, bv, show sf.toNat < 32 from sf.isLt]) h
theorem vsts (d : BitVec 6) (sf : BitVec 5) (c : BitVec 4) (b : BitVec 5) (k : BitVec 3) : Statement (.vsts d sf c b k) :=
  Or.inr fun h => decode_FVM (k := dec21) 0 d.isLt (Nat.lt_of_lt_of_le sf.isLt (by decide)) c.isLt b.isLt k.isLt (by decide) (by decide) (fun _ => rfl) (by simp [dec21, bv, show sf.toNat < 32 from sf.isLt]) h
theorem vgth (d : BitVec 6) (a : BitVec 6) (c : BitVec 4) (b : BitVec 5) (k : BitVec 3) : Statement (.vgth d a c b k) :=
  Or.inr fun h => decode_FVM (k := dec24) 0 d.isLt a.isLt c.isLt b.isLt k.isLt (by decide) (by decide) (fun _ => rfl) (by change some _ = _; simp only [bv_toNat]) h
theorem vsct (d : BitVec 6) (a : BitVec 6) (c : BitVec 4) (b : BitVec 5) (k : BitVec 3) : Statement (.vsct d a c b k) :=
  Or.inr fun h => decode_FVM (k := dec24) 0 d.isLt a.isLt c.isLt b.isLt k.isLt (by decide) (by decide) (fun _ => rfl) (by change some _ = _; simp only [bv_toNat]) h
theorem vsctadd (d : BitVec 6) (a : BitVec 6) (c : BitVec 4) (b : BitVec 5) (k : BitVec 3) : Statement (.vsctadd d a c b k) :=
  Or.inr fun h => decode_FVM (k := dec24) 0 d.isLt a.isLt c.isLt b.isLt k.isLt (by decide) (by decide) (fun _ => rfl) (by change some _ = _; simp only [bv_toNat]) h
theorem vldb (d : BitVec 6) (c : BitVec 4) (b : BitVec 5) (k : BitVec 3) : Statement (.vldb d c b k) :=
  Or.inr fun h => decode_FVM (k := dec24) 0 d.isLt (by decide) c.isLt b.isLt k.isLt (by decide) (by decide) (fun _ => rfl) (by change some _ = _; simp only [bv_toNat]) h
theorem kand (d : BitVec 3) (a : BitVec 3) (b : BitVec 3) : Statement (.kand d a b) :=
  Or.inr fun h => decode_FV (k := dec22) 0 (Nat.lt_of_lt_of_le d.isLt (by decide)) (Nat.lt_of_lt_of_le a.isLt (by decide)) (Nat.lt_of_lt_of_le b.isLt (by decide)) (by decide) (by decide) (by decide) (by decide) (fun _ => rfl) (by simp [dec22, bv, show d.toNat < 8 from d.isLt, show a.toNat < 8 from a.isLt, show b.toNat < 8 from b.isLt]) h
theorem kor (d : BitVec 3) (a : BitVec 3) (b : BitVec 3) : Statement (.kor d a b) :=
  Or.inr fun h => decode_FV (k := dec22) 0 (Nat.lt_of_lt_of_le d.isLt (by decide)) (Nat.lt_of_lt_of_le a.isLt (by decide)) (Nat.lt_of_lt_of_le b.isLt (by decide)) (by decide) (by decide) (by decide) (by decide) (fun _ => rfl) (by simp [dec22, bv, show d.toNat < 8 from d.isLt, show a.toNat < 8 from a.isLt, show b.toNat < 8 from b.isLt]) h
theorem kxor (d : BitVec 3) (a : BitVec 3) (b : BitVec 3) : Statement (.kxor d a b) :=
  Or.inr fun h => decode_FV (k := dec22) 0 (Nat.lt_of_lt_of_le d.isLt (by decide)) (Nat.lt_of_lt_of_le a.isLt (by decide)) (Nat.lt_of_lt_of_le b.isLt (by decide)) (by decide) (by decide) (by decide) (by decide) (fun _ => rfl) (by simp [dec22, bv, show d.toNat < 8 from d.isLt, show a.toNat < 8 from a.isLt, show b.toNat < 8 from b.isLt]) h
theorem knot (d : BitVec 3) (a : BitVec 3) : Statement (.knot d a) :=
  Or.inr fun h => decode_FV (k := dec22) 0 (Nat.lt_of_lt_of_le d.isLt (by decide)) (Nat.lt_of_lt_of_le a.isLt (by decide)) (by decide) (by decide) (by decide) (by decide) (by decide) (fun _ => rfl) (by simp [dec22, bv, show d.toNat < 8 from d.isLt, show a.toNat < 8 from a.isLt]) h
theorem kpop (d : BitVec 5) (a : BitVec 3) : Statement (.kpop d a) :=
  Or.inr fun h => decode_FV (k := dec22) 0 (Nat.lt_of_lt_of_le d.isLt (by decide)) (Nat.lt_of_lt_of_le a.isLt (by decide)) (by decide) (by decide) (by decide) (by decide) (by decide) (fun _ => rfl) (by simp [dec22, bv, show d.toNat < 32 from d.isLt, show a.toNat < 8 from a.isLt]) h
theorem kfirst (d : BitVec 5) (a : BitVec 3) : Statement (.kfirst d a) :=
  Or.inr fun h => decode_FV (k := dec22) 0 (Nat.lt_of_lt_of_le d.isLt (by decide)) (Nat.lt_of_lt_of_le a.isLt (by decide)) (by decide) (by decide) (by decide) (by decide) (by decide) (fun _ => rfl) (by simp [dec22, bv, show d.toNat < 32 from d.isLt, show a.toNat < 8 from a.isLt]) h
theorem kset (d : BitVec 3) (a : BitVec 5) : Statement (.kset d a) :=
  Or.inr fun h => decode_FV (k := dec22) 0 (Nat.lt_of_lt_of_le d.isLt (by decide)) (Nat.lt_of_lt_of_le a.isLt (by decide)) (by decide) (by decide) (by decide) (by decide) (by decide) (fun _ => rfl) (by simp [dec22, bv, show d.toNat < 8 from d.isLt, show a.toNat < 32 from a.isLt]) h
theorem kmov (d : BitVec 3) (a : BitVec 3) : Statement (.kmov d a) :=
  Or.inr fun h => decode_FV (k := dec22) 0 (Nat.lt_of_lt_of_le d.isLt (by decide)) (Nat.lt_of_lt_of_le a.isLt (by decide)) (by decide) (by decide) (by decide) (by decide) (by decide) (fun _ => rfl) (by simp [dec22, bv, show d.toNat < 8 from d.isLt, show a.toNat < 8 from a.isLt]) h
theorem vsett (sf : BitVec 1) (m : BitVec 3) (t : BitVec 4) : Statement (.vsett sf m t) :=
  Or.inr fun h => decode_FV (k := dec23) 0 (by decide) (by have := sf.isLt; have := m.isLt; omega) (by have := t.isLt; omega) (by decide)
    (by decide) (by decide) (by decide) (fun _ => rfl) (by
      have hs : (sf.toNat * 8 + m.toNat) / 8 = sf.toNat := by have := m.isLt; omega
      have hl : sf.toNat * 8 + m.toNat < 16 := by have := sf.isLt; have := m.isLt; omega
      have hm : BitVec.ofNat 3 (sf.toNat * 8 + m.toNat) = m := by
        apply BitVec.eq_of_toNat_eq; have := m.isLt; simp only [BitVec.toNat_ofNat]; omega
      simp [dec23, bv, hs, hm, hl]) h
theorem vmvs (d : BitVec 5) (a : BitVec 6) (b : BitVec 5) : Statement (.vmvs d a b) :=
  Or.inr fun h => decode_FV (k := dec23) 0 (Nat.lt_of_lt_of_le d.isLt (by decide)) a.isLt (Nat.lt_of_lt_of_le b.isLt (by decide)) (by decide) (by decide) (by decide) (by decide) (fun _ => rfl) (by simp [dec23, bv, show d.toNat < 32 from d.isLt, show b.toNat < 32 from b.isLt]) h
theorem vmve (d : BitVec 6) (a : BitVec 5) (k : BitVec 3) : Statement (.vmve d a k) :=
  Or.inr fun h => decode_FV (k := dec23) 0 d.isLt (Nat.lt_of_lt_of_le a.isLt (by decide)) (by decide) k.isLt (by decide) (by decide) (by decide) (fun _ => rfl) (by simp [dec23, bv, show a.toNat < 32 from a.isLt]) h
theorem vins (d : BitVec 6) (a : BitVec 5) (b : BitVec 5) : Statement (.vins d a b) :=
  Or.inr fun h => decode_FV (k := dec23) 0 d.isLt (Nat.lt_of_lt_of_le a.isLt (by decide)) (Nat.lt_of_lt_of_le b.isLt (by decide)) (by decide) (by decide) (by decide) (by decide) (fun _ => rfl) (by simp [dec23, bv, show a.toNat < 32 from a.isLt, show b.toNat < 32 from b.isLt]) h
theorem vid (d : BitVec 6) (k : BitVec 3) : Statement (.vid d k) :=
  Or.inr fun h => decode_FV (k := dec23) 0 d.isLt (by decide) (by decide) k.isLt (by decide) (by decide) (by decide) (fun _ => rfl) (by change some _ = _; simp only [bv_toNat]) h
theorem vrng (d : BitVec 6) (a : BitVec 5) (k : BitVec 3) : Statement (.vrng d a k) :=
  Or.inr fun h => decode_FV (k := dec23) 0 d.isLt (Nat.lt_of_lt_of_le a.isLt (by decide)) (by decide) k.isLt (by decide) (by decide) (by decide) (fun _ => rfl) (by simp [dec23, bv, show a.toNat < 32 from a.isLt]) h
theorem vgumb (d : BitVec 6) (a : BitVec 6) (b : BitVec 6) (k : BitVec 3) (n : BitVec 1) : Statement (.vgumb d a b k n) :=
  Or.inr fun h => decode_FV (k := dec23) 0 d.isLt a.isLt b.isLt k.isLt n.isLt (by decide) (by decide) (fun _ => rfl) (by change some _ = _; simp only [bv_toNat]) h
theorem vflgrd (d : BitVec 6) : Statement (.vflgrd d) :=
  Or.inr fun h => decode_FV (k := dec23) 0 d.isLt (by decide) (by decide) (by decide) (by decide) (by decide) (by decide) (fun _ => rfl) (by change some _ = _; simp only [bv_toNat]) h
theorem vflgclr : Statement (.vflgclr) :=
  Or.inr fun h => decode_FV (k := dec23) 0 (by decide) (by decide) (by decide) (by decide) (by decide) (by decide) (by decide) (fun _ => rfl) (by rfl) h
theorem vmov (d : BitVec 6) (a : BitVec 6) (k : BitVec 3) : Statement (.vmov d a k) :=
  Or.inr fun h => decode_FV (k := dec23) 0 d.isLt a.isLt (by decide) k.isLt (by decide) (by decide) (by decide) (fun _ => rfl) (by change some _ = _; simp only [bv_toNat]) h
theorem ctlrd (d : BitVec 5) (r : BitVec 12) : Statement (.ctlrd d r) :=
  Or.inr fun h => decode_FI (k := dec3C) 0 d.isLt (by decide) (by decide) r.isLt (by decide) (fun _ => rfl) (by change some _ = _; simp only [bv_toNat]) h
theorem ctlwr (d : BitVec 5) (a : BitVec 5) (r : BitVec 12) : Statement (.ctlwr d a r) :=
  Or.inr fun h => decode_FI (k := dec3C) 0 d.isLt a.isLt (by decide) r.isLt (by decide) (fun _ => rfl) (by change some _ = _; simp only [bv_toNat]) h
theorem ctlset (d : BitVec 5) (a : BitVec 5) (r : BitVec 12) : Statement (.ctlset d a r) :=
  Or.inr fun h => decode_FI (k := dec3C) 0 d.isLt a.isLt (by decide) r.isLt (by decide) (fun _ => rfl) (by change some _ = _; simp only [bv_toNat]) h
theorem ctlclr (d : BitVec 5) (a : BitVec 5) (r : BitVec 12) : Statement (.ctlclr d a r) :=
  Or.inr fun h => decode_FI (k := dec3C) 0 d.isLt a.isLt (by decide) r.isLt (by decide) (fun _ => rfl) (by change some _ = _; simp only [bv_toNat]) h
theorem eret (a : BitVec 5) : Statement (.eret a) :=
  Or.inr fun h => decode_FX (k := dec3D) 0 (by decide) a.isLt (by decide) (by decide) (by decide) (by decide) (by decide) (fun _ => rfl) (by change some _ = _; simp only [bv_toNat]) h
theorem wfi (a : BitVec 5) : Statement (.wfi a) :=
  Or.inr fun h => decode_FX (k := dec3D) 0 (by decide) a.isLt (by decide) (by decide) (by decide) (by decide) (by decide) (fun _ => rfl) (by change some _ = _; simp only [bv_toNat]) h
theorem tlbinv (a : BitVec 5) (b : BitVec 5) (sf : BitVec 3) : Statement (.tlbinv a b sf) :=
  Or.inr fun h => decode_FX (k := dec3D) 0 (by decide) a.isLt b.isLt (by decide) sf.isLt (by decide) (by decide) (fun _ => rfl) (by change some _ = _; simp only [bv_toNat]) h
theorem ctxsv (d : BitVec 5) (a : BitVec 5) (c : BitVec 4) : Statement (.ctxsv d a c) :=
  Or.inr fun h => decode_FX (k := dec3D) 0 d.isLt a.isLt (Nat.lt_of_lt_of_le c.isLt (by decide)) (by decide) (by decide) (by decide) (by decide) (fun _ => rfl) (by simp [dec3D, bv, show c.toNat < 16 from c.isLt]) h
theorem ctxld (d : BitVec 5) (a : BitVec 5) (c : BitVec 4) : Statement (.ctxld d a c) :=
  Or.inr fun h => decode_FX (k := dec3D) 0 d.isLt a.isLt (Nat.lt_of_lt_of_le c.isLt (by decide)) (by decide) (by decide) (by decide) (by decide) (fun _ => rfl) (by simp [dec3D, bv, show c.toNat < 16 from c.isLt]) h
theorem quardr (d : BitVec 5) (a : BitVec 5) : Statement (.quardr d a) :=
  Or.inr fun h => decode_FX (k := dec3D) 0 d.isLt a.isLt (by decide) (by decide) (by decide) (by decide) (by decide) (fun _ => rfl) (by change some _ = _; simp only [bv_toNat]) h
theorem halt (a : BitVec 5) : Statement (.halt a) :=
  Or.inr fun h => decode_FX (k := dec3D) 0 (by decide) a.isLt (by decide) (by decide) (by decide) (by decide) (by decide) (fun _ => rfl) (by change some _ = _; simp only [bv_toNat]) h
theorem nop : Statement (.nop) :=
  Or.inr fun h => decode_FX (k := dec3E) 0 (by decide) (by decide) (by decide) (by decide) (by decide) (by decide) (by decide) (fun _ => rfl) (by rfl) h
theorem trap (a : BitVec 5) : Statement (.trap a) :=
  Or.inr fun h => decode_FX (k := dec3E) 0 (by decide) a.isLt (by decide) (by decide) (by decide) (by decide) (by decide) (fun _ => rfl) (by change some _ = _; simp only [bv_toNat]) h
theorem brk : Statement (.brk) :=
  Or.inr fun h => decode_FX (k := dec3E) 0 (by decide) (by decide) (by decide) (by decide) (by decide) (by decide) (by decide) (fun _ => rfl) (by rfl) h
theorem ifence : Statement (.ifence) :=
  Or.inr fun h => decode_FX (k := dec3E) 0 (by decide) (by decide) (by decide) (by decide) (by decide) (by decide) (by decide) (fun _ => rfl) (by rfl) h
theorem illegalInstruction (word : BitVec 64) (long : Bool) : Statement (.illegalInstruction word long) :=
  Or.inr fun h => by simp [Instr.wellFormed] at h
theorem trapEntry (die : Nat) (core : Nat) : Statement (.trapEntry die core) := Or.inl rfl
theorem pmarkWrite (die : Nat) (core : Nat) (marks : BitVec 4) : Statement (.pmarkWrite die core marks) := Or.inl rfl
theorem efqResume (die : Nat) (core : Nat) : Statement (.efqResume die core) := Or.inl rfl
theorem efqAbort (die : Nat) (core : Nat) : Statement (.efqAbort die core) := Or.inl rfl
theorem seqclrStop (die : Nat) (seq : Nat) : Statement (.seqclrStop die seq) := Or.inl rfl
theorem seqclrWait (die : Nat) (seq : Nat) : Statement (.seqclrWait die seq) := Or.inl rfl
theorem segmentEmission (ring : Nat) : Statement (.segmentEmission ring) := Or.inl rfl
theorem firstEmission (ring : Nat) : Statement (.firstEmission ring) := Or.inl rfl
theorem segmentArrival (die : Nat) (seg : Nat) : Statement (.segmentArrival die seg) := Or.inl rfl
theorem expansionCheck (die : Nat) (slot : Nat) : Statement (.expansionCheck die slot) := Or.inl rfl
theorem originReturnCheck (seg : Nat) : Statement (.originReturnCheck seg) := Or.inl rfl
theorem homeCopyRestore (ring : Nat) (tag : Nat) : Statement (.homeCopyRestore ring tag) := Or.inl rfl
theorem slotRetire (die : Nat) (slot : Nat) : Statement (.slotRetire die slot) := Or.inl rfl
theorem slackExpiry (die : Nat) (slot : Nat) : Statement (.slackExpiry die slot) := Or.inl rfl
theorem taskPlacement (die : Nat) : Statement (.taskPlacement die) := Or.inl rfl
theorem bankSwap (die : Nat) (core : Nat) (pair : Nat) : Statement (.bankSwap die core pair) := Or.inl rfl
theorem queueEntryFetch (die : Nat) (hwq : Nat) : Statement (.queueEntryFetch die hwq) := Or.inl rfl
theorem prestartReport (chain : Nat) (die : Nat) : Statement (.prestartReport chain die) := Or.inl rfl
theorem startRelease (chain : Nat) : Statement (.startRelease chain) := Or.inl rfl
theorem kernelComplete (launch : Nat) : Statement (.kernelComplete launch) := Or.inl rfl
theorem launchKill (launch : Nat) : Statement (.launchKill launch) := Or.inl rfl
theorem nodePreemption (die : Nat) (core : Nat) (slot : Nat) : Statement (.nodePreemption die core slot) := Or.inl rfl
theorem suspendWaitComplete (cont : Nat) : Statement (.suspendWaitComplete cont) := Or.inl rfl
theorem forcedEviction (die : Nat) (core : Nat) (slot : Nat) : Statement (.forcedEviction die core slot) := Or.inl rfl
theorem evictionRestore (saved : Nat) : Statement (.evictionRestore saved) := Or.inl rfl
theorem gangReserveTimeout (chain : Nat) : Statement (.gangReserveTimeout chain) := Or.inl rfl
theorem coreError (die : Nat) (core : Nat) : Statement (.coreError die core) := Or.inl rfl
theorem spareSubstitution (die : Nat) (core : Nat) : Statement (.spareSubstitution die core) := Or.inl rfl
theorem barrierWatchdog (die : Nat) (core : Nat) (slot : Nat) : Statement (.barrierWatchdog die core slot) := Or.inl rfl
theorem copyStart (die : Nat) (core : Nat) (slot : Nat) (eng : Nat) : Statement (.copyStart die core slot eng) := Or.inl rfl
theorem copyComplete (die : Nat) (core : Nat) (slot : Nat) (eng : Nat) : Statement (.copyComplete die core slot eng) := Or.inl rfl
theorem cpytRelease (die : Nat) (core : Nat) (eng : Nat) : Statement (.cpytRelease die core eng) := Or.inl rfl
theorem cpybSlotReserve (die : Nat) (core : Nat) (slot : Nat) (eng : Nat) : Statement (.cpybSlotReserve die core slot eng) := Or.inl rfl
theorem streamReadIssue (die : Nat) (core : Nat) (slot : Nat) (q : Nat) : Statement (.streamReadIssue die core slot q) := Or.inl rfl
theorem streamElementArrival (die : Nat) (core : Nat) (slot : Nat) (q : Nat) : Statement (.streamElementArrival die core slot q) := Or.inl rfl
theorem matrixLeaseGrant (die : Nat) (cluster : Nat) : Statement (.matrixLeaseGrant die cluster) := Or.inl rfl
theorem matrixJobStart (die : Nat) (core : Nat) : Statement (.matrixJobStart die core) := Or.inl rfl
theorem matrixJobComplete (die : Nat) (core : Nat) : Statement (.matrixJobComplete die core) := Or.inl rfl
theorem storePerformAtHome (at_ : BufEntry) : Statement (.storePerformAtHome at_) := Or.inl rfl
theorem remoteLoadReturn (die : Nat) (core : Nat) (unit : LoadUnit) : Statement (.remoteLoadReturn die core unit) := Or.inl rfl
theorem atomicPerformAtHome (at_ : BufEntry) : Statement (.atomicPerformAtHome at_) := Or.inl rfl
theorem trbindDecision (die : Nat) (core : Nat) (slot : Nat) : Statement (.trbindDecision die core slot) := Or.inl rfl
theorem collContribution (die : Nat) (core : Nat) (slot : Nat) : Statement (.collContribution die core slot) := Or.inl rfl
theorem collDelivery (group : Nat) : Statement (.collDelivery group) := Or.inl rfl
theorem spillScan (part : Nat) : Statement (.spillScan part) := Or.inl rfl
theorem tokenFrameClose (part : Nat) : Statement (.tokenFrameClose part) := Or.inl rfl
theorem tsHeadWrite (part : Nat) (head : Nat) : Statement (.tsHeadWrite part head) := Or.inl rfl
theorem doorbell (port : Nat) (offset : Nat) (value : Nat) : Statement (.doorbell port offset value) := Or.inl rfl
theorem map (die : Nat) (hwq : Nat) (part : Nat) (qid : Nat) (addr : Nat) (ctr : Nat) : Statement (.map die hwq part qid addr ctr) := Or.inl rfl
theorem unmap (die : Nat) (hwq : Nat) (ctr : Nat) : Statement (.unmap die hwq ctr) := Or.inl rfl
theorem destroy (part : Nat) (qid : Nat) (ctr : Nat) : Statement (.destroy part qid ctr) := Or.inl rfl
theorem pload (part : Nat) (ctr : Nat) : Statement (.pload part ctr) := Or.inl rfl
theorem migrate (part : Nat) (va : Nat) (pa : Nat) (ctr : Nat) : Statement (.migrate part va pa ctr) := Or.inl rfl
theorem migrateComplete (part : Nat) (va : Nat) : Statement (.migrateComplete part va) := Or.inl rfl
theorem coreset (part : Nat) (die : Nat) (mask : Nat) (ctr : Nat) : Statement (.coreset part die mask ctr) := Or.inl rfl
theorem movecont (part : Nat) (rec : Nat) (core : Nat) (ctr : Nat) : Statement (.movecont part rec core ctr) := Or.inl rfl
theorem grant (handle : Nat) (prodPart : Nat) (prodBase : Nat) (consPart : Nat) (consBase : Nat) (ctr : Nat) : Statement (.grant handle prodPart prodBase consPart consBase ctr) := Or.inl rfl
theorem revoke (handle : Nat) (ctr : Nat) : Statement (.revoke handle ctr) := Or.inl rfl
theorem almset (part : Nat) (ctr : Nat) : Statement (.almset part ctr) := Or.inl rfl
theorem chcreate (part : Nat) (die : Nat) (desc : Nat) (pa : Nat) (ctr : Nat) : Statement (.chcreate part die desc pa ctr) := Or.inl rfl
theorem chfree (part : Nat) (die : Nat) (desc : Nat) (ctr : Nat) : Statement (.chfree part die desc ctr) := Or.inl rfl
theorem rform (ring : Nat) (config : Nat) (packages : List Nat) (region : Nat) (mail : Mail) : Statement (.rform ring config packages region mail) := Or.inl rfl
theorem rload (ring : Nat) (image : Nat) (manifest : Nat) (mail : Mail) : Statement (.rload ring image manifest mail) := Or.inl rfl
theorem rstart (ring : Nat) (tick : Nat) (slack : Nat) (mail : Mail) : Statement (.rstart ring tick slack mail) := Or.inl rfl
theorem rslack (ring : Nat) (slack : Nat) (mail : Mail) : Statement (.rslack ring slack mail) := Or.inl rfl
theorem rstop (ring : Nat) (mail : Mail) : Statement (.rstop ring mail) := Or.inl rfl
theorem rstopComplete (ring : Nat) : Statement (.rstopComplete ring) := Or.inl rfl
theorem rjoin (ring : Nat) (package : Nat) (mail : Mail) : Statement (.rjoin ring package mail) := Or.inl rfl
theorem ringLinkDead (ring : Nat) (position : Nat) : Statement (.ringLinkDead ring position) := Or.inl rfl
theorem missingSegmentReload (ring : Nat) (tag : Nat) : Statement (.missingSegmentReload ring tag) := Or.inl rfl
theorem bypassLaneRequest (ring : Nat) (granted : Nat) : Statement (.bypassLaneRequest ring granted) := Or.inl rfl
theorem timeFlitSend : Statement (.timeFlitSend) := Or.inl rfl
theorem timeFlitReceive (port : Nat) (time : Nat) (delay : Nat) : Statement (.timeFlitReceive port time delay) := Or.inl rfl
theorem heartbeat (port : Nat) : Statement (.heartbeat port) := Or.inl rfl
theorem fabricLinkDead (port : Nat) : Statement (.fabricLinkDead port) := Or.inl rfl
theorem eclipseNotice (port : Nat) (silent : Nat) (reporter : Nat) (rport : Nat) (kind : Nat) (stamp : Nat) (nseq : Nat) : Statement (.eclipseNotice port silent reporter rport kind stamp nseq) := Or.inl rfl
theorem routeRedraw (draws : List Nat) : Statement (.routeRedraw draws) := Or.inl rfl
theorem fabricRequest (source : Nat) (seqno : Nat) (loc : Nat) (req : FabricReq) : Statement (.fabricRequest source seqno loc req) := Or.inl rfl
theorem fabricResponse (ack : FabricAck) : Statement (.fabricResponse ack) := Or.inl rfl
theorem groupset (port : Nat) (part : Nat) (group : Nat) (members : List Nat) : Statement (.groupset port part group members) := Or.inl rfl
theorem groupclr (port : Nat) (part : Nat) (group : Nat) : Statement (.groupclr port part group) := Or.inl rfl
theorem ownerset (port : Nat) (parts : List Nat) : Statement (.ownerset port parts) := Or.inl rfl
theorem tsring (port : Nat) (part : Nat) (base : Nat) (count : Nat) (tailAddr : Nat) : Statement (.tsring port part base count tailAddr) := Or.inl rfl
theorem readRoutingEntry (port : Nat) (index : Nat) : Statement (.readRoutingEntry port index) := Or.inl rfl
theorem pcieLinkDown (port : Nat) : Statement (.pcieLinkDown port) := Or.inl rfl
theorem patrolScrub (word : Nat) : Statement (.patrolScrub word) := Or.inl rfl
theorem powerRequest (port : Nat) (state : Nat) (freq : Nat) : Statement (.powerRequest port state freq) := Or.inl rfl
theorem powerStateEntry : Statement (.powerStateEntry) := Or.inl rfl
theorem powerStateExit : Statement (.powerStateExit) := Or.inl rfl
theorem droopStretch (die : Nat) (ticks : Nat) : Statement (.droopStretch die ticks) := Or.inl rfl
theorem freeze : Statement (.freeze) := Or.inl rfl
theorem freezeReadout : Statement (.freezeReadout) := Or.inl rfl
theorem reset : Statement (.reset) := Or.inl rfl
theorem attestationReport (port : Nat) (nonce : BitVec 384) : Statement (.attestationReport port nonce) := Or.inl rfl
theorem taskKill (die : Nat) (core : Nat) (target : KillTarget) : Statement (.taskKill die core target) := Or.inl rfl
theorem trwaitDeadline (die : Nat) (core : Nat) (slot : Nat) : Statement (.trwaitDeadline die core slot) := Or.inl rfl
theorem wfiDeadline (die : Nat) (core : Nat) : Statement (.wfiDeadline die core) := Or.inl rfl
theorem fabricAdmission (package : Nat) (port : Nat) (master : Nat) : Statement (.fabricAdmission package port master) := Or.inl rfl
theorem pcieLinkUp (port : Nat) : Statement (.pcieLinkUp port) := Or.inl rfl
theorem cheadWrite (part : Nat) (qid : Nat) (value : Nat) : Statement (.cheadWrite part qid value) := Or.inl rfl
theorem firmwareContextRestart (die : Nat) (core : Nat) (pc : Nat) : Statement (.firmwareContextRestart die core pc) := Or.inl rfl
theorem linkLevelReplay (port : Nat) : Statement (.linkLevelReplay port) := Or.inl rfl

end RoundTrip

end Sys2Proof.Laws
end

