-- ==== Sys2Proof/Tests/Slice0.lean ====
section
/-! SUPPORT. The model's own tests: ill-formed terms, words the manual prints, single steps on small states with the manual's
worked values, and a witness for the hypotheses of every statement. -/

set_option maxRecDepth 100000
set_option exponentiation.threshold 4096

namespace Sys2Proof.Tests

open Sys2Proof.Machine

/-! ### Well-formedness refuses each ill-formed field (R145–R149) -/

theorem test_wf_scope : (Instr.amoadd 1 1 1 5 0 0).wellFormed = false := by decide
theorem test_wf_red_scope : (Instr.redadd 1 1 7 0 0).wellFormed = false := by decide
theorem test_wf_amocas_register : (Instr.amocas 1 1 31 1 0 0).wellFormed = false := by decide
theorem test_wf_fence_scope : (Instr.fence 5 2).wellFormed = false := by decide
theorem test_wf_acquire_order : (Instr.ctrwait 1 1 1 1 2).wellFormed = false := by decide
theorem test_wf_waitvis_order : (Instr.waitvis 1 0).wellFormed = false := by decide
theorem test_wf_release_order : (Instr.ctrsig 1 1 1 1).wellFormed = false := by decide
theorem test_wf_exit_order : (Instr.exit 0).wellFormed = false := by decide
theorem test_wf_suspend_kind : (Instr.suspend 6 1 1 1 0).wellFormed = false := by decide
theorem test_wf_self_field : (Instr.self 1 4).wellFormed = false := by decide
theorem test_wf_vector_destination : (Instr.vfadd 61 1 2 0 0).wellFormed = false := by decide
theorem test_wf_tagdecl_scope : (Instr.tagdecl 1 1 1 0).wellFormed = false := by decide
theorem test_wf_quantise_type : (Instr.vqfp8 1 2 0 0 0 0).wellFormed = false := by decide
theorem test_wf_sparse_width : (Instr.vspc 1 2 3 0).wellFormed = false := by decide
theorem test_wf_vrng_source : (Instr.vrng 1 30 0).wellFormed = false := by decide

/-! ### Words of the manual decode to their instructions (Instruction Formats: worked encodings, and the chapters' own) -/

theorem test_decode_add : decode 0x04642800 0 = some (.add 3 4 5) := by decide
theorem test_decode_bne : decode 0x10803FFD 0 = some (.bne 4 0 0x1FFD) := by decide
theorem test_decode_ldd : decode 0x20846010 0 = some (.ldd 4 2 16) := by decide
theorem test_decode_csetb : decode 0x2554C301 0 = some (.csetb 5 5 6 1) := by decide
theorem test_decode_amocas : decode 0x3084695A 0 = some (.amocas 4 2 6 2 3 1) := by decide
theorem test_decode_redadd : decode 0x30065024 0 = some (.redadd 3 5 1 0 0) := by decide
theorem test_decode_ctrwait : decode 0x38C42825 0 = some (.ctrwait 6 4 5 1 1) := by decide
theorem test_decode_gsync : decode 0x3C0500A7 0 = some (.gsync 5 1) := by decide
theorem test_decode_cpy : decode 0x40223000 0 = some (.cpy 1 2 6) := by decide
theorem test_decode_qpopv : decode 0x47820860 0 = some (.qpopv 28 2 1) := by decide
theorem test_decode_qpopv_last_results : decode 0x47A20860 0 = none := by decide
theorem test_decode_mdrain : decode 0x48000080 0 = some .mdrain := by decide
theorem test_decode_tldrow : decode 0x4D814E20 0 = some (.tldrow 3 5 7) := by decide
theorem test_decode_trwait : decode 0x50A40021 0 = some (.trwait 5 4 0 1) := by decide
theorem test_decode_tagdecl : decode 0x54C42808 0 = some (.tagdecl 6 4 5 2) := by decide
theorem test_decode_tkcommit : decode 0x58803020 0 = some (.tkcommit 4 6) := by decide
theorem test_decode_vfma : decode 0x60304223 0 = some (.vfma 3 1 2 1 0) := by decide
theorem test_decode_vsett : decode 0x8C000000 0 = some (.vsett 0 0 0) := by decide
theorem test_decode_vblksc : decode 0x74C29405 0 = some (.vblksc 12 10 0 0) := by decide
theorem test_decode_vqfp4 : decode 0x74C29502 0 = some (.vqfp4 12 10 0 0) := by decide
theorem test_decode_vscatter : decode 0x909288AE 0 = some (.vsctadd 9 10 2 5 3) := by decide
theorem test_decode_kpop : decode 0x88608004 0 = some (.kpop 6 2) := by decide
theorem test_decode_ctxsv : decode 0xF4853860 0 = some (.ctxsv 4 5 7) := by decide
theorem test_decode_long : decode 0xFCA00000 0x12345678 = some (.liw 5 0x12345678) := by decide
theorem test_decode_zero : decode 0 0 = none := by decide
theorem test_decode_reserved_fn : decode 0x0464281A 0 = none := by decide
theorem test_table_word : decodeTableWord 32 0x04642800 = some (.add 3 4 5) := by decide

/-! ### Small states -/

/-- A package that has booted, whose issuing task of partition 1 stands at 0x1_0000 (test state). -/
def task : State :=
  { State.reset with
    plat := { Platform.reset with booted := true }
    hart := { Hart.fresh with status := .ready, pc := 0x10000, task := { Hart.fresh.task with part := 1, region := 0x40000, scratch := 16 } } }

/-- The same package with the firmware context of core 0 issuing (test state). -/
def firmware : State := { task with here := ⟨0, 0, 4⟩ }

/-- The capability of R102's first example: [0x4_0000, 0x5_0000) of the scratchpad, PERMS 0x2F. -/
def scratch : Cap := ⟨0x0042000005000000_2F00000000040000, true⟩

/-- A task whose c1 is that capability. -/
def loader : State := task.wc 1 scratch

/-- A property of the next state. -/
def after (r : Res) (p : State → Bool) : Bool :=
  match r with
  | .next t => p t
  | _ => false

/-- The next state, or the test's first one. -/
def run (r : Res) : State :=
  match r with
  | .next t => t
  | _ => task

/-! ### Scalar instructions (R157–R166) -/

theorem test_add_wraps : after (exec (.add 3 1 2) ((task.ws 1 (BitVec.allOnes 64)).ws 2 2)) (fun t => t.rs 3 == 1) = true := by decide
theorem test_s0_discards : after (exec (.addi 0 0 5) task) (fun t => t.rs 0 == 0 && t.hart.pc == 0x10004) = true := by decide
theorem test_sra_sign : after (exec (.srai 3 1 4) (task.ws 1 0x8000000000000000)) (fun t => t.rs 3 == 0xF800000000000000) = true := by
  decide
theorem test_div_rounds : after (exec (.div 3 1 2) ((task.ws 1 (-7)).ws 2 2)) (fun t => t.rs 3 == -3) = true := by decide
theorem test_rem_sign : after (exec (.rem 3 1 2) ((task.ws 1 (-7)).ws 2 2)) (fun t => t.rs 3 == -1) = true := by decide
theorem test_div_zero : after (exec (.div 3 1 0) (task.ws 1 9)) (fun t => t.rs 3 == BitVec.allOnes 64) = true := by decide
theorem test_mulh : after (exec (.mulh 3 1 1) (task.ws 1 (-1))) (fun t => t.rs 3 == 0) = true := by decide
theorem test_lih : after (exec (.lih 5 0x1FFFFF) task) (fun t => t.rs 5 == -4096) = true := by decide
theorem test_branch_taken : after (exec (.bne 1 0 0x1FFD) (task.ws 1 1)) (fun t => t.hart.pc == 0x10000 - 12) = true := by decide
theorem test_branch_not_taken : after (exec (.bne 1 0 0x1FFD) task) (fun t => t.hart.pc == 0x10004) = true := by decide
theorem test_jal_links : after (exec (.jal 1 2) task) (fun t => t.rs 1 == 0x10004 && t.hart.pc == 0x10008) = true := by decide
theorem test_store_forwards : after (exec (.sth 2 1 6) (loader.ws 2 0xABCD)) (fun t => t.readBytes (scratchKey 0 0 0x40006) 2 == [0xCD, 0xAB] &&
    t.homeByte (scratchKey 0 0 0x40006) == 0) = true := by decide
theorem test_load_waits : after (exec (.ldb 3 1 0) (loader.writeHomeBytes 0 (scratchKey 0 0 0x40000) [0x80])) (fun t => t.rs 3 == 0 &&
    t.hart.pc == 0x10004 && t.hart.loads.length == 1) = true := by decide
theorem test_load_sign : after (exec (.remoteLoadReturn 0 0 ⟨0, 0⟩) (run (exec (.ldb 3 1 0) (loader.writeHomeBytes 0 (scratchKey 0 0 0x40000) [0x80]))))
    (fun t => t.rs 3 == -128 && t.hart.loads == []) = true := by decide

/-! ### Capabilities (R99–R102, R170–R174; the sequence under R174) -/

theorem test_cap_decodes : scratch.base = 0x40000 ∧ scratch.top = 0x50000 ∧ scratch.perms = 0x2F ∧ scratch.space = 1 := by decide
theorem test_cap_bounds : boundedCap 3 0x23 0x1234567800 0x123A967800 0x1234567800 true = ⟨0x10E2B3C029678000_2300001234567800, true⟩ := by
  decide

/-- c5 of the sequence under R174 after its CANDP. -/
def narrowed : Cap := ⟨0x0042008004018000_0100000000040100, true⟩

theorem test_csetb : after (exec (.csetb 5 5 6 1) ((loader.wc 5 (scratch.move 256)).ws 6 128)) (fun t => (t.rc 5).mask 1 == narrowed) = true := by
  decide
theorem test_load_at_top : after (exec (.ldd 8 5 120) (loader.wc 5 narrowed)) (fun t => t.hart.pc == 0x10004) = true := by decide
theorem test_load_past_top : after (exec (.ldd 9 5 128) (loader.wc 5 narrowed)) (fun t => t.hart.trap == ⟨.capBounds, 0x10000, 0x40180, 4, 0⟩) = true := by
  decide
theorem test_store_needs_st : after (exec (.std 8 5 0) (loader.wc 5 narrowed)) (fun t => t.hart.trap.cause == .capPerm) = true := by decide
theorem test_cinc_in_region : after (exec (.cinc 6 5 10) ((task.wc 5 narrowed).ws 10 0x7FFFFF)) (fun t => (t.rc 6).tag) = true := by decide
theorem test_cinc_leaves_region : after (exec (.cinc 6 5 10) ((task.wc 5 narrowed).ws 10 0x800000)) (fun t => !(t.rc 6).tag) = true := by decide

/-! ### Traps (R359, R362, R364, R365, R370) -/

theorem test_trap_record : after (exec (.trap 2) (task.ws 2 77)) (fun t => t.hart.status == .trapped &&
    t.hart.trap == ⟨.trapInstruction, 0x10000, 77, 4, 0⟩ && t.hart.pc == 0x10000 && t.myCore.traps == [0]) = true := by decide
theorem test_privileged : after (exec (.eret 0) task) (fun t => t.hart.trap.cause == .privileged) = true := by decide
theorem test_firmware_fault : after (exec .brk firmware) (fun t => t.myCore.failed && t.myCore.fwcause == 0x16 && t.myCore.fwpc == 0x10000) = true := by
  decide
theorem test_handler_entry : after (exec (.trapEntry 0 0) (({ task with here := ⟨0, 0, 1⟩ }).takeTrap .breakpoint 0 4)) (fun t =>
    (t.coreAt 0 0).tcause == 0x116 && (t.coreAt 0 0).tpc == 0x10000 && (t.coreAt 0 0).tactive && (t.coreAt 0 0).traps == []) = true := by decide

/-! ### Atomics, counters (R249–R267) -/

theorem test_amoadd : after (exec (.amoadd 3 1 2 0 0 0) ((loader.ws 2 5).writeHomeNat 0 (scratchKey 0 0 0x40000) 4 0xFFFFFFFE)) (fun t =>
    t.rs 3 == -2 && t.homeNat (scratchKey 0 0 0x40000) 8 == 3) = true := by decide
theorem test_amocas_fails : after (exec (.amocas 3 1 4 0 0 1) ((loader.ws 4 1).ws 5 9)) (fun t =>
    t.rs 3 == 0 && t.homeNat (scratchKey 0 0 0x40000) 8 == 0) = true := by decide

/-! ### Vectors (R66, R93, R94, R189–R196; the worked quantisation under R196) -/

theorem test_vadd_last_result : after (exec (.vadd 2 1 1 0) ((run (exec (.vsett 0 0 8) task)).wv 1 (vecOf 32 [3]))) (fun t =>
    lane (t.rv 2) 32 0 == 6 && t.rv 60 == t.rv 2 && lane (t.rv 61) 32 0 == 3) = true := by decide

/-- Row v10 of the worked quantisation: 0.3, −1.1, 0, 2.4, −0.05, 0.7, 1.6, −0.9 in FP32, then zeros. -/
def quantRow : VBits := vecOf 32 [0x3E99999A, 0xBF8CCCCD, 0, 0x4019999A, 0xBD4CCCCD, 0x3F333333, 0x3FCCCCCD, 0xBF666666]

/-- The state of the worked quantisation: v12 holds 0x3E00 in bytes 128–129. -/
def quantState : State := (task.wv 12 (BitVec.ofNat 2048 (0x3E00 * 2 ^ 1024))).wv 10 quantRow

theorem test_vblksc : after (exec (.vblksc 12 10 0 0) quantState) (fun t => lane (t.rv 12) 8 136 == 0x94) = true := by
  decide
theorem test_vqfp4 : after (exec (.vqfp4 12 10 0 0) (run (exec (.vblksc 12 10 0 0) quantState))) (fun t =>
    [0, 1, 3].map (lane (t.rv 12) 8) == [0xD1, 0x70, 0xC6] && vflgSum t.hart.vec.vflg == 3) = true := by decide

end Sys2Proof.Tests
end

