-- ==== Sys2Proof/Tests/Witness.lean ====
section
/-! SUPPORT. For every statement with hypotheses, states and operands that meet them, clause by clause. -/

set_option maxRecDepth 100000
set_option exponentiation.threshold 4096

namespace Sys2Proof.Tests

open Sys2Proof.Machine

/-- The value of an operation that succeeds with a property, or none. -/
def good {α : Type} (r : R α) (p : α → State → Bool) : Bool :=
  match r with
  | .ok a t => p a t
  | _ => false

/-- An operation traps with a cause. -/
def traps {α : Type} (r : R α) (c : Cause) : Bool :=
  match r with
  | .trap e _ _ => e = c
  | _ => false

/-! ### Encodings and the step -/

theorem witness_EncodedInstructionsDecode : encode (.vfma 3 1 2 1 0) ≠ [] ∧ (Instr.vfma 3 1 2 1 0).wellFormed = true := by decide

/-- A package about to issue `ADD s3, s4, s5`. -/
def fetching : State := State.reset.withFetchWord 32 0x04642800

theorem witness_StepRunsTheDecodedInstruction : fetching.agenda = [.issue ⟨0, 0, 0⟩] ∧
    ({ fetching with agenda := [] }).mayIssue ⟨0, 0, 0⟩ = true ∧
    good (({ fetching with agenda := [] }).switchTo ⟨0, 0, 0⟩).fetch (fun p _ => decode p.1 p.2 == some (.add 3 4 5)) = true := by decide

theorem witness_StepRunsTheDecodedInstruction_turn : ({ fetching with agenda := [] }).running = true ∧
    ({ fetching with agenda := [] }).trapDue = none ∧ ({ fetching with agenda := [] }).pick = some ⟨0, 0, 0⟩ ∧
    ({ fetching with agenda := [] }).steps % 2 = 0 := by decide

theorem witness_StepKeepsMemoryCanonical : memCanonical fetching.mem = true ∧ after (step fetching) (fun _ => true) = true := by
  decide

/-! ### Scalars, branches, accesses -/

theorem witness_ScalarInstructionsWriteTheirResult : ∃ f, Claims.scalarOp (.add 3 4 5) = some (3, f) := ⟨_, rfl⟩
theorem witness_ScalarFrame : ∃ f t, Claims.scalarOp (.addi 3 4 5) = some (3, f) ∧ exec (.addi 3 4 5) task = .next t := ⟨_, _, rfl, rfl⟩

theorem witness_DivisionIdentity : task.rs 2 = 0 ∧ ((task.ws 1 0x8000000000000000).ws 2 (-1)).rs 2 = BitVec.allOnes 64 ∧
    ((task.ws 1 0x8000000000000000).ws 2 (-1)).rs 1 = BitVec.ofNat 64 (2 ^ 63) ∧ (task.ws 2 2).rs 2 ≠ 0 := by decide

/-- A task whose c15 covers 0x1_0000 to 0x1_FFFF of the resident space. -/
def coder : State := task.wc 15 (boundedCap 3 0x11 0x10000 0x20000 0x10000 true)

theorem witness_BranchesAndJumps : capChecks coder.who (coder.rc 15) (((coder.ws 1 0x10040).rs 1).toNat + (4 : BitVec 12).toInt) 4 4 .fetch = none ∧
    capChecks coder.who (coder.rc 15) ((coder.rs 0).toNat + (4 : BitVec 12).toInt) 4 4 .fetch = some .capBounds := by decide

theorem witness_AccessChecksInOrder : Cap.null.tag = false ∧ spaceAllows 1 .fetch = false ∧
    permsAllow narrowed .store (needsRemote loader.who narrowed.space 0x40100) = false ∧
    ¬ ((scratch.base : Int) ≤ 0x4FFFC ∧ (0x4FFFC : Int) + 8 ≤ scratch.top) ∧ (0x40001 : Int) % (8 : Nat) ≠ 0 ∧
    ((scratch.base : Int) ≤ 0x4FFF8 ∧ (0x4FFF8 : Int) + 8 ≤ scratch.top ∧ (0x4FFF8 : Int) % (8 : Nat) = 0 ∧
      permsAllow scratch .load (needsRemote loader.who scratch.space 0x4FFF8) = true) := by decide

theorem witness_AccessChecksInOrder_places : loader.place loader.who 1 0x40000 8 = .home (scratchKey 0 0 0x40000) ∧
    loader.place loader.who 1 0 8 = .bad .accessDenied ∧ loader.place loader.who 3 0x10000 8 = .virt 3 0x10000 := by decide

theorem witness_FailedAccessTraps : (∃ c x, Claims.accessOf (loader.wc 5 narrowed) (.ldd 8 5 128) = some (c, x, 8, .load)) ∧
    traps ((loader.wc 5 narrowed).access loader.who narrowed 0x40180 8 8 .load) .capBounds = true := ⟨⟨_, _, rfl⟩, by decide⟩

theorem witness_ScalarLoadsComplete : Claims.scalarLoadOf (.ldd 3 1 0) = some (3, 1, 0, 8, true) ∧
    loader.access loader.who (loader.rc 1) (Claims.effective (loader.rc 1) 0) 8 8 .load = .ok (scratchKey 0 0 0x40000) loader ∧
    loader.lost (scratchKey 0 0 0x40000) = false ∧ loader.badBytes (scratchKey 0 0 0x40000) 8 = [] := ⟨rfl, rfl, by decide, by decide⟩

/-- A load of one unit that waits in the load queue. -/
def waitingLoad (n : Nat) (dest : LoadDest) : LoadRec := ⟨0, 0x10000, 3, n, dest, [⟨0, scratchKey 0 0 0x40000, none⟩]⟩

/-- A loader with that load in its queue. -/
def queued (n : Nat) (dest : LoadDest) : State := loader.mod fun h => { h with loads := [waitingLoad n dest] }

theorem witness_ScalarLoadsComplete_performed : ((queued 8 (.scalar 3 8 true)).hartAt ⟨0, 0, 0⟩).loads = [waitingLoad 8 (.scalar 3 8 true)] ∧
    ((queued 8 (.scalar 3 8 true)).settleFor ⟨0, 0, 0⟩ 0 (scratchKey 0 0 0x40000) 8).badDrawn ⟨0, 0, 0⟩ 0 (scratchKey 0 0 0x40000) 8 = [] := by decide

theorem witness_ScalarStoresComplete : Claims.scalarStoreOf (.std 3 1 0) = some (3, 1, 0, 8) ∧
    loader.access loader.who (loader.rc 1) (Claims.effective (loader.rc 1) 0) 8 8 .store = .ok (scratchKey 0 0 0x40000) loader :=
  ⟨rfl, rfl⟩

theorem witness_StoredBytesReadBack : ∃ t, loader.access loader.who (loader.rc 1) (Claims.effective (loader.rc 1) 0) 8 8 .store =
    .ok (scratchKey 0 0 0x40000) loader ∧ exec (.std 3 1 0) loader = .next t := ⟨_, rfl, rfl⟩

theorem witness_LoadFrame : (∃ t, exec (.ldd 3 1 0) loader = .next t) ∧ loader.isFw = false ∧
    task.access task.who (task.rc 1) (Claims.effective (task.rc 1) 0) 8 8 .load = .trap .capTag 0 task ∧
    keyRegion (scratchKey 0 0 0x40000) ≠ 4 ∧ (queued 8 (.scalar 3 8 true)).settleFor ⟨0, 0, 0⟩ 0 (scratchKey 0 0 0x40000) 8 =
      queued 8 (.scalar 3 8 true) := ⟨⟨_, rfl⟩, by decide, rfl, by decide, rfl⟩

/-! ### Capabilities, atomics, traps -/

theorem witness_CapabilityInstructionsComplete : (∃ f, Claims.capOp (.csetb 5 1 6 1) = some (5, 1, f)) ∧ (∃ f, Claims.capGet (.cgetl 1 3) = some (3, f)) :=
  ⟨⟨_, rfl⟩, ⟨_, rfl⟩⟩

theorem witness_CapabilitiesNeverGrow : (∃ f t, Claims.capOp (.cinci 5 1 1) = some (5, 1, f) ∧ exec (.cinci 5 1 1) loader = .next t) ∧
    after (exec (.cinci 5 1 1) loader) (fun t => (t.rc 5).tag) = true ∧
    after (exec (.csetb 5 1 6 0) (loader.ws 6 128)) (fun t => (t.rc 5).tag) = true := ⟨⟨_, _, rfl, rfl⟩, by decide, by decide⟩

theorem witness_CapabilityLoadsAndStoresComplete :
    loader.access loader.who (loader.rc 1) ((loader.rc 1).cursor + (0 : BitVec 8).toInt * 16) 16 16 .capLoad = .ok (scratchKey 0 0 0x40000) loader ∧
    loader.badBytes (scratchKey 0 0 0x40000) 16 = [] ∧
    ((queued 16 (.cap 3 true)).settleFor ⟨0, 0, 0⟩ 0 (scratchKey 0 0 0x40000) 16).badDrawn ⟨0, 0, 0⟩ 0 (scratchKey 0 0 0x40000) 16 = [] ∧
    loader.access loader.who (loader.rc 1) ((loader.rc 1).cursor + (0 : BitVec 8).toInt * 16) 16 16 (.capStore true true) =
      .ok (scratchKey 0 0 0x40000) loader := ⟨rfl, by decide, by decide, rfl⟩

theorem witness_AtomicsUpdateTheirHome : Claims.amoOf (.amoadd 3 1 2 0 0 1) = some (3, 1, 2, 0, 0, true, 0, false) ∧
    loader.access loader.who (loader.rc 1) ((loader.rc 1).cursor : Int) 8 8 .atomic = .ok (scratchKey 0 0 0x40000) loader ∧
    loader.lost (scratchKey 0 0 0x40000) = false ∧ (Claims.atHome loader 0 0 (scratchKey 0 0 0x40000) 8).badWords (scratchKey 0 0 0x40000) 8 = [] :=
  ⟨rfl, rfl, by decide, by decide⟩

theorem witness_ReductionsEnterTheStoreQueue : Claims.redOf (.redfadd 1 2 1 2) = some (1, 2, 1, 2, false, 10) ∧
    loader.access loader.who (loader.rc 1) ((loader.rc 1).cursor : Int) 4 4 .atomic = .ok (scratchKey 0 0 0x40000) loader := ⟨rfl, rfl⟩

theorem witness_TaskTrapIsTaken : task.isFw = false := by decide
theorem witness_FirmwareFaultIsTaken : firmware.isFw = true := by decide

/-- A core with a task trap pending, one with a sequence trap, one with neither. -/
def trapped : State := task.takeTrap .breakpoint 0 4

/-- A core whose oldest pending trap is a sequence trap. -/
def seqTrapped : State := task.modCore 0 0 fun k => { k with seqTraps := [⟨0, 0, 0x10000, 3, 0⟩] }

theorem witness_HandlerEntryAndReturn : (nextTrap trapped 0 0).isSome = true ∧ (trapped.coreAt 0 0).traps = 0 :: [] ∧
    (seqTrapped.coreAt 0 0).traps = [] ∧ (seqTrapped.coreAt 0 0).seqTraps ≠ [] ∧
    (task.coreAt 0 0).traps = [] ∧ (task.coreAt 0 0).seqTraps = [] ∧ (task.coreAt 0 0).efq = [] := by decide

theorem witness_SupervisorInstructionsNeedSupervisor : Claims.systemInstr (.eret 0) = true ∧ task.isFw = false ∧
    0x800 ≤ (0x800 : BitVec 12).toNat := by decide

theorem witness_TaskInstructionsNeedATask : Claims.taskInstr (.exit 2) = true ∧ firmware.isFw = true := by decide

/-! ### Order, synchronisation, tasks -/

/-- A launch of a chain, at a place in it. -/
def aLaunch (chain index : Nat) : Launch := ⟨chain, index, [], 1, 0, [], 0, [], [], []⟩

/-- A chain of partition 1 that a task started, in a state. -/
def aChain (st : ChainState) : Chain := ⟨1, 0, [], [], 7, none, .task ⟨0, 0, 0⟩ 2 false, st, 3, [], 0, false, false, 0, 0, none, 0, 0, []⟩

/-- The task is of launch 2, and the launch of the record before it still runs. -/
def chained : State :=
  { task with
    hart := { task.hart with task := { task.hart.task with launch := 2 } }
    disp := { task.disp with launches := [(1, aLaunch 9 0), (2, aLaunch 9 1)] } }

/-- A task whose partition has a save slot free and whose slot firmware marked for pre-emption. -/
def marked : State :=
  { task.modCore 0 0 fun k => { k with pmark := 1 } with
    disp := { task.disp with parts := [(1, ⟨List.replicate 56 0 ++ leBytes 4 1 ++ List.replicate 196 0, [], true, 0, 0, [], false⟩)] } }

theorem witness_OrderInstructionsComplete : task.outLoads task.here ≤ (0 : BitVec 5).toNat ∧
    ¬ ((queued 8 (.scalar 3 8 true)).outLoads (queued 8 (.scalar 3 8 true)).here ≤ (0 : BitVec 5).toNat) ∧ (2 : BitVec 2) ≠ 0 ∧
    task.priorLive task.hart.task = false ∧ chained.priorLive chained.hart.task = true ∧
    task.launchLive task.part ((task.rs 5).toNat % 2 ^ 32) = false ∧
    (chained.ws 5 1).launchLive (chained.ws 5 1).part (((chained.ws 5 1).rs 5).toNat % 2 ^ 32) = true ∧
    task.nodeTakes task.here = false ∧ marked.isFw = false ∧ marked.nodeTakes marked.here = true := by decide

theorem witness_CounterInstructionsComplete : (firmware.rs 1).toNat < 2 ^ 11 ∧ firmware.isFw = true ∧ ctrPoison (firmware.counter 0) = false ∧
    (firmware.rs 2).toNat ≤ ctrValue (firmware.counter 0) ∧ ctrValue (firmware.counter 0) < ((firmware.ws 2 1).rs 2).toNat ∧
    ctrPoison ((firmware.signal 0 0 true).counter 0) = true ∧ ¬ ((task.ws 1 2048).rs 1).toNat < 2 ^ 11 := by decide

theorem witness_CounterArithmetic : (1 : Nat) ≠ 0 := by decide

/-- A scratchpad with a barrier of two arrivals, one left. -/
def barriered : State := loader.setBarrier (scratchKey 0 0 0x40000) ⟨2, 1, 5, false, 8⟩

theorem witness_StageBarriersComplete : barriered.isFw = false ∧
    good (barriered.barrierRef (barriered.rc 1) 0) (fun k u => (u.barrierAt k).left ≠ 0 && !(u.barrierAt k).overrun 4 && (u.barrierAt k).phase == 5) = true ∧
    (⟨2, 1, 5, true, 8⟩ : Barrier).overrun 4 = true ∧
    good (loader.barrierRef (loader.rc 1) 0) (fun k u => (u.barrierAt k).left == 0) = true ∧ ((barriered.ws 2 5).rs 2).toNat % 2 ^ 31 = 5 ∧
    (⟨2, 1, 5, true, 8⟩ : Barrier).overrun 5 = true := by decide

theorem witness_BarrierPhaseCompletes : memCanonical loader.mem = true ∧ (⟨2, 0, 2 ^ 31 - 1, false, 0⟩ : Barrier).left = 0 ∧
    (⟨2, 0, 2 ^ 31 - 1, false, 0⟩ : Barrier).phase < 2 ^ 31 ∧ (⟨2, 1, 5, false, 8⟩ : Barrier).left ≠ 0 := by decide

/-- A package with channel 5 of partition 1: four slots, the reserve slot and the take slot in given states. -/
def channelled (rsv take : Nat) : State :=
  (task.setChannel 5 ⟨1, 0, 256, 4, 0, 1, 1, 0, 0, 0, false, none, none, [(0, ⟨rsv, 0⟩), (1, ⟨take, 9⟩)], []⟩).ws 1 5

theorem witness_ChannelInstructionsComplete : (∃ c, (channelled 0 2).chanRef ((channelled 0 2).rs 1) .producer = .ok c (channelled 0 2) ∧
      (c.slot c.rsv).state = 0 ∧ c.waiters = [] ∧ (c.slot c.take).state = 2) ∧
    (∃ c, (channelled 1 3).chanRef ((channelled 1 3).rs 1) .consumer = .ok c (channelled 1 3) ∧
      (c.slot c.rsv).state ≠ 0 ∧ (c.slot c.take).state ≠ 2 ∧ slotIndex (BitVec.ofNat 64 (2 ^ 48)) < c.depth ∧
      (c.slot (slotIndex (BitVec.ofNat 64 (2 ^ 48)))).state = 3 ∧ (c.slot (slotIndex 0)).state = 1) ∧
    (∃ c, (channelled 1 3).chanRef ((channelled 1 3).rs 1) .either = .ok c (channelled 1 3) ∧ 3 < c.depth) ∧
    (∃ c, (channelled 1 3).chanRef ((channelled 1 3).rs 1) .producer = .ok c (channelled 1 3) ∧ 0 < c.depth ∧ (c.slot 0).state = 1 ∧
      (c.slot 1).state ≠ 1 ∧ (channelled 1 3).pushDue 5 0 = false ∧ ((channelled 1 3).enqueue (.act 0 0 0 (.push 5 0))).pushDue 5 0 = true) :=
  ⟨⟨_, rfl, by decide, by decide, by decide⟩, ⟨_, rfl, by decide, by decide, by decide, by decide, by decide⟩, ⟨_, rfl, by decide⟩,
    ⟨_, rfl, by decide, by decide, by decide, by decide, by decide⟩⟩

/-- A task with a LAUNCH under way whose chain is in a state. -/
def launching (st : ChainState) : State :=
  { task with
    hart := { task.hart with task := { task.hart.task with launching := some 4 } }
    disp := { task.disp with chains := [(4, aChain st)] } }

theorem witness_LaunchingCompletes : task.hart.task.launching = none ∧ (task.rs 1).toNat < 2 ^ 48 ∧
    (loader.wc 2 scratch).access (loader.wc 2 scratch).who ((loader.wc 2 scratch).rc 2) 0x40000 64 64 .load =
      .ok (scratchKey 0 0 0x40000) (loader.wc 2 scratch) ∧
    (launching .checking).hart.task.launching = some 4 ∧ (launching .checking).disp.chains.find? 4 = some (aChain .checking) ∧
    (launching .refused).disp.chains.find? 4 = some (aChain .refused) ∧ (launching .complete).disp.chains.find? 4 = some (aChain .complete) ∧
    task.childrenDone task.hart.task = true ∧
    chained.childrenDone { chained.hart.task with spawned := [9] } = false :=
  ⟨by decide, by decide, rfl, by decide, by decide, by decide, by decide, by decide, by decide⟩

/-- A task in constellation 7, its second group slot free. -/
def member : State := task.modTask fun t => { t with groups := setGroup t.groups 0 7 }

theorem witness_ConstellationInstructionsComplete : ((task.ws 1 256).rs 1).toNat > 255 ∧ 7 ∈ groupIds member.hart.task.groups ∧
    9 ∉ groupIds member.hart.task.groups ∧ (groupIds member.hart.task.groups).findIdx? (· = 0) = some 1 ∧
    0 ∉ groupIds (0x0807060504030201 : Word) ∧ (groupIds member.hart.task.groups).findIdx? (· = 7) = some 0 ∧
    (member.modTask fun t => { t with gsync := some (0, 3) }).hart.task.gsync = some (0, 3) ∧ member.hart.task.gsync = none := by decide

theorem witness_TaskEndAndWait : task.jobsOf task.here = [] ∧ (task.endLease task.here).outCopies task.here = 0 ∧ maskOk (task.rs 1) = true ∧
    task.leaseOf task.here = none ∧ task.quiet task.here = true ∧ (task.drainCtx task.here).freeCont task.here.die = some 0 ∧
    (channelled 0 2).waitState (channelled 0 2).hart.task 1 5 0 = .met ∧ (channelled 0 1).waitState (channelled 0 1).hart.task 1 5 0 = .unmet ∧
    (channelled 0 1).waitState (channelled 0 1).hart.task 1 6 0 = .fate .accessDenied 6 ∧
    (queued 8 (.scalar 3 8 true)).quiet task.here = false ∧ task.hart.task.transit = none ∧ (3 : BitVec 5).toNat ≤ 3 := by decide

/-! ### Engines -/

/-- A record whose fields stand at byte offsets as (offset, value) pairs of one byte, zeros elsewhere. -/
def bytesOf (n : Nat) (l : List (Nat × Nat)) : List Byte :=
  (List.range n).map fun i => BitVec.ofNat 8 ((l.find? fun p => p.1 = i).map (·.2) |>.getD 0)

/-- A loader with a record at offset 0 of its region. -/
def carded (bs : List Byte) : State := loader.writeHomeBytes 0 (scratchKey 0 0 0x40000) bs

/-- A copy card of one byte. -/
def oneByte : List Byte := bytesOf 64 [(4, 1), (6, 1), (8, 1), (10, 1)]

theorem witness_CopiesAreAccepted : Claims.copyOf (carded oneByte) (.cpy 1 1 3) = some (0, (carded oneByte).rc 1, (carded oneByte).rc 1, 0, 0, 3) ∧
    good ((carded oneByte).readCard 0 false) (fun c u => c.1 == oneByte && u == carded oneByte) = true ∧ firstBad (cardFields 0 oneByte) = none ∧
    cardCounter (cFlag oneByte 8) (field oneByte 44 2) (carded oneByte) = .ok none (carded oneByte) ∧
    cardBarrier oneByte (carded oneByte) = .ok () (carded oneByte) ∧
    good (checkSide scratch (copySpan oneByte (cSstr oneByte) none) (inCount oneByte 0 * srcBits oneByte (copyConv 0 oneByte none) / 8)
      (byteSize (srcBits oneByte (copyConv 0 oneByte none))) (usedStrides oneByte (cSstr oneByte)) .load (carded oneByte))
      (fun _ u => u == carded oneByte) = true ∧
    Claims.copyRoom (carded oneByte) 0 (cEng oneByte) = true := by
  refine ⟨rfl, by decide, by decide, rfl, rfl, by decide, by decide⟩

/-- A card of a stream of one-byte elements. -/
def byteStream : List Byte := bytesOf 64 [(0, 1), (4, 1), (6, 1), (8, 1), (10, 1)]

/-- A stream bound to that card. -/
def bound : State := loader.wq 2 { Stream.unbound with bound := true, cap := scratch, card := byteStream, dq := [⟨[7], .none, 0, false, false⟩] }

theorem witness_StreamInstructionsComplete : good ((carded byteStream).readCard 0 false) (fun c _ => c.1 == byteStream) = true ∧
    firstBad (streamFields byteStream (carded byteStream).regionLen) = none ∧ ((carded byteStream).rq 2).inflight = [] ∧
    (bound.rq 2).bound = true ∧ (bound.rq 2).inBounds (bound.rs 3) = true ∧ (bound.rq 2).aq.length < 32 ∧
    bound.checkSix bound.who (bound.rq 2).cap ((bound.rq 2).elemAddr (bound.rs 3)) 1 (byteSize (streamBits (bound.rq 2).card)) .load = none ∧
    bound.checkSix bound.who (bound.rq 2).cap ((bound.rq 2).elemAddr (bound.rs 3) + (rawBytes (bound.rq 2).card : Int) - 1) 1 1 .load = none ∧
    (bound.rq 2).dq ≠ [] ∧ (bound.rq 2).popBytes ≤ 8 ∧ (bound.rq 2).inflight = [] ∧ (loader.rq 2).bound = false ∧
    qfmtOk (bound.rq 2) 0 = true ∧ qfmtOk (bound.rq 2) 256 = false := by decide

theorem witness_StreamInstructionsComplete_waits :
    ((bound.wq 2 { bound.rq 2 with inflight := [⟨[7], .none, 0, false, false⟩] }).rq 2).inflight ≠ [] ∧
    32 ≤ ((bound.wq 2 { bound.rq 2 with aq := List.replicate 32 0 }).rq 2).aq.length ∧ (bound.rq 2).inBounds (bound.rs 3) = true ∧
    ((bound.rq 2).convHead ⟨[7], .none, 0, false, false⟩).1 = [7] ∧ (29 : BitVec 5).toNat = 29 := by decide

/-- A job card of one step on FP4S panels. -/
def jobCard : List Byte := bytesOf 128 [(2, 1), (3, 1), (8, 1), (48, 1), (64, 1), (80, 1), (96, 1), (112, 1)]

/-- A task with a lease of two jobs on its array, granted or still to be answered. -/
def leased : State := (carded jobCard).modArray 0 0 fun a => { a with lease := some ⟨0, 0, (0, 0), 2, 2, false⟩ }

/-- A task that waits for its array's lease. -/
def leasing : State := (task.modArray 0 0 fun a => { a with reqs := [⟨0, 0, 2, false, false, none⟩] }).blockOn (.lease 3)

/-- A task with one job of a card, its array's log with one entry of its partition. -/
def jobHeld : State := leased.modLease 0 0 fun c =>
  { c with owner := some (0, 0), jobs := [⟨5, jobCard, 0x40000, 1, 0, 0, (0, 0), 0, false, none, 1, 0, 0, [], [], 0⟩] }

/-- An array with one entry of partition 1 in its log. -/
def jobLogged : State := leased.modArray 0 0 fun a => { a with log := [(1, 7)] }

theorem witness_MatrixInstructionsComplete : leased.leaseOf leased.here = some ⟨0, 0, (0, 0), 2, 2, false⟩ ∧ task.leaseOf task.here = none ∧
    task.leaseWaits task.here = none ∧ ((task.ws 1 64).rs 1).toNat % 2 ^ 7 = 64 ∧ bitOf ((task.ws 1 64).rs 1).toNat 7 = false ∧
    (leasing.arrayAt 0 0).lease = none ∧ (leasing.arrayAt 0 0).next = some ⟨0, 0, 2, false, false, none⟩ ∧
    (leasing.hartAt ⟨0, 0, 0⟩).task.wait = some (.lease 3) ∧ (leasing.leaseWaits leasing.here).isSome = true ∧
    leased.jobsOf leased.here = [] ∧ jobHeld.jobsOf jobHeld.here ≠ [] ∧ ((jobHeld.allJobs jobHeld.here).getLast?.map (·.id)) = some 5 ∧
    good (leased.readRecord 0 128 128) (fun c _ => c == jobCard) = true ∧ firstBad (jobFields jobCard) = none := by decide

theorem witness_MatrixInstructionsComplete_job : good (jobMeridian 0 jobCard 0 leased) (fun _ _ => true) = true ∧
    good (jobRegion jobCard leased) (fun _ _ => true) = true ∧ (jobLogged.arrayAt 0 0).log[0]? = some (1, 7) := by decide

/-- A task with tile 2 of 4 by 4 words of four bytes. -/
def tiled : State := loader.setShape 2 (BitVec.ofNat 64 (4 + 4 * 2 ^ 8))

theorem witness_TileInstructionsComplete : (∃ p t, Claims.tileResult tiled (.tzero 2) = some (p, t) ∧ p) ∧ tiled.shape 2 ≠ 0 ∧ task.shape 2 = 0 ∧
    (∃ p t, Claims.tileResult tiled (.tvrow 2 5 1) = some (p, t)) ∧ (tiled.rs 1).toNat < shapeRows (tiled.shape 2) ∧
    ¬ ((tiled.ws 1 9).rs 1).toNat < shapeRows (tiled.shape 2) := ⟨⟨_, _, rfl, trivial⟩, by decide, by decide, ⟨_, _, rfl⟩, by decide, by decide⟩

theorem witness_TileMemoryCompletes : tiled.shape 2 ≠ 0 ∧ (tiled.rs 3).toNat < shapeRows (tiled.shape 2) ∧
    good (checkElems (tiled.rc 1) (shapeElem (tiled.shape 2)) .load (fun i => ((tiled.rc 1).cursor : Int) + (i % 256 * shapeElem (tiled.shape 2) : Nat))
      (tileElems (tiled.shape 2) [0]) tiled) (fun es u => u == tiled && es.all fun e => !tiled.lost e.2.1) = true ∧
    traps (checkElems (tiled.rc 4) (shapeElem (tiled.shape 2)) .store (fun _ => 0) (tileElems (tiled.shape 2) [0]) tiled) .capTag = true ∧
    (queued 4 (.tile 2 (tiled.shape 2))).badLines ⟨0, 0, 0⟩ 0 (scratchKey 0 0 0x40000) 4 = [] ∧
    (queued 4 (.tile 2 (tiled.shape 2))).lost (scratchKey 0 0 0x40000) = false := by decide

end Sys2Proof.Tests
end

