-- ==== Sys2Proof/Tests/Generation.lean ====
section
/-! SUPPORT. Witnesses for the statements on transit, sequences, tags and the generation instructions. -/

set_option maxRecDepth 100000
set_option exponentiation.threshold 4096

namespace Sys2Proof.Tests

open Sys2Proof.Machine

/-- A partition descriptor with one root of space 3, its bitmaps at 0x1_0000 and four sequences of die 0. -/
def tenantDesc : List Byte :=
  List.replicate 8 0 ++ leBytes 8 0x2003 ++ List.replicate 88 0 ++ leBytes 8 0x10000 ++ List.replicate 80 0 ++ leBytes 4 0x40000 ++
    List.replicate 60 0

/-- A ring of the eight dies, formed. -/
def oneRing : Ring where
  config := 0
  packages := []
  region := 0
  mode := .formed
  image := 0
  manifest := 0
  order := []
  start := 0
  started := false
  sent := []
  slack := 0
  period := 0
  bypassed := []
  stopping := []

/-- Tables that map the first 128 MiB of space 3 to the same resident addresses, and a set bit for group 0. -/
def tables : List (Nat × List Byte) :=
  [(0x2000, leBytes 8 0x4003), (0x4000, leBytes 8 0x3D), (0x10300, [1])]

/-- A loader whose partition has sequences, tables and a launch on an arc of eight dies. -/
def tenant : State :=
  let s := tables.foldl (fun s p => s.writeHomeBytes 0 (residentKey p.1) p.2) loader
  { s with
    polestar := 9
    hart := { s.hart with task := { s.hart.task with arcLen := 8, codeLen := 16 } }
    disp := { s.disp with parts := [(1, ⟨tenantDesc, [], true, 0, 0, [], false⟩)] }
    rings := [(0, oneRing)] }

/-- A tenant with a record at offset 0 of its region. -/
def recorded (bs : List Byte) : State := tenant.writeHomeBytes 0 (scratchKey 0 0 0x40000) bs

/-- A binding record of a transit task with one page. -/
def bindRecord : List Byte := bytesOf 64 [(8, 1)]

/-- A request of the issuing context. -/
def bindRequest : BindReq := ⟨⟨0, 0, 0⟩, 4, bindRecord, 0, [0]⟩

theorem witness_TransitBindingCompletes : (recorded bindRecord).isFw = false ∧
    ((recorded bindRecord).shared.bindReqs.any fun q => q.ctx = (recorded bindRecord).here) = false ∧
    good (transitRecord (tvalWord (.trbind 4 0)) ((recorded bindRecord).rs 0).toNat 64 64 (bindFields 16) (recorded bindRecord))
      (fun r _ => r == bindRecord) = true ∧
    (({ tenant with shared := { tenant.shared with bindReqs := [bindRequest] } } : State).shared.bindReqs.find? fun q => q.ctx = ⟨0, 0, 0⟩) =
      some bindRequest ∧ tenant.coreRuns ⟨0, 0, 0⟩ = true := by decide

/-- A tenant whose slot 0 of die 0 is PRESENT with image 3, tag 4 and fill 5. -/
def slotted : State := (tenant.modSlot 0 0 fun _ => ⟨2, 5, 3, 4, 0, 100, 0, 0, 0, 0, 0, 0, 0, 0, []⟩).ws 1 (BitVec.ofNat 64 (3 + 4 * 2 ^ 16))

theorem witness_TransitInstructionsComplete_slot : Claims.TakesSlot slotted 0 3 4 0 ∧ ∀ i, ¬ Claims.TakesSlot tenant 0 3 4 i := by
  refine ⟨⟨by decide, fun j h => ?_⟩, fun i h => ?_⟩
  · have hj : ∀ j : Fin 6, ((slotted.mslot 0 j).state = 2 ∨ (slotted.mslot 0 j).state = 3) → j = 0 := by decide
    have h0 : j = 0 := congrArg Fin.val (hj ⟨j, h.1⟩ h.2.1)
    subst h0
    exact .inr ⟨rfl, Nat.le_refl _⟩
  · have hi : ∀ j : Fin 6, ¬ ((tenant.mslot 0 j).state = 2 ∨ (tenant.mslot 0 j).state = 3) := by decide
    exact hi ⟨i, h.1.1⟩ h.1.2.1

/-- A context that waits for a key until tick 5. -/
def awaiting : State := tenant.mod fun h => { h with status := .blocked, task := { h.task with keyWait := some (3, 5) } }

/-- The same in a package whose slot 0 of die 0 holds the key. -/
def served : State := (slotted.mod fun h =>
  { h with status := .blocked, task := { h.task with keyWait := some (3, 5), wait := some (.again (.trwait 3 1 2 0)) } })

theorem witness_TransitInstructionsComplete_deadline : awaiting.keySlot ⟨0, 0, 0⟩ = none ∧ awaiting.coreRuns ⟨0, 0, 0⟩ = true ∧
    served.keySlot ⟨0, 0, 0⟩ = some 0 ∧ served.coreRuns ⟨0, 0, 0⟩ = true ∧ 5 ≤ served.polestar := by decide

/-- A transit task on slot 0. -/
def transiting : State := slotted.modTask fun t => { t with transit := some ⟨3, 4, 0, 5, 0, 100, false, []⟩ }

/-- The same with a matrix job that reads the slot. -/
def reading : State :=
  { transiting with eng := { transiting.eng with
    leases := [(0, ⟨[], none, [⟨0, [], 0, 1, 0, 0, (0, 0), 0, true, some ⟨0, 5, [], []⟩, 1, 0, 0, [], [], 0⟩], 1⟩)] } }

theorem witness_TransitInstructionsComplete : slotted.ownsDie slotted.hart.task 0 = true ∧ (slotted.rs 1).toNat < 2 ^ 32 ∧
    slotted.slotFor 0 ((slotted.rs 1).toNat % 2 ^ 16) ((slotted.rs 1).toNat / 2 ^ 16) = some 0 ∧ tenant.slotFor 0 3 4 = none ∧
    (((tenant.ws 2 9).rs 2).toNat ≠ 0 ∧ ((tenant.ws 2 9).rs 2).toNat ≤ (tenant.ws 2 9).polestar) ∧ (tenant.rs 2).toNat = 0 ∧
    awaiting.hart.task.keyWait = some (3, 5) ∧ awaiting.hart.status = .blocked ∧ 5 ≤ awaiting.polestar ∧
    tenant.hart.task.transit = none ∧ transiting.slotReads transiting.here 0 5 = false ∧ reading.slotReads reading.here 0 5 = true := by decide

theorem witness_TransitHoldsComplete : (slotted.ws 1 (BitVec.ofNat 64 (0 + 5 * 2 ^ 8))).ownsDie slotted.hart.task 0 = true ∧
    (slotted.mslot 0 0).state = 2 ∧ (slotted.mslot 0 0).fill % 256 = 5 ∧ slotted.polestar ≤ (slotted.mslot 0 0).deadline ∧
    (slotted.mslot 0 0).holds < 16 ∧ ((slotted.modSlot 0 0 fun m => { m with holds := 16 }).mslot 0 0).holds = 16 ∧ (tenant.mslot 0 0).state = 0 ∧
    (tenant.dieAt 0).ephemeris.find? (tenant.rs 1).toNat = none ∧
    ((tenant.modDie 0 fun d => { d with ephemeris := [(0, 7)] }).dieAt 0).ephemeris.find? (tenant.rs 1).toNat = some 7 := by decide

/-- A tenant whose sequence 1 of die 0 is in a state. -/
def sequenced (st : Nat) : State := (tenant.setSeq (seqKey 0 1) { SeqEntry.free with state := st, part := 1 }).ws 1 1

/-- The operand of TRNEXT for sequence 1 with one row, with or without an input. -/
def nextWord (noin : Bool) : Word := BitVec.ofNat 64 (1 + 0 * 2 ^ 16 + 1 * 2 ^ 32 + if noin then 2 ^ 39 else 0)

theorem witness_SequenceInstructionsComplete : good (seqRef (((sequenced 1).rs 1).toNat % 2 ^ 10) ((sequenced 1).rs 1) (sequenced 1))
      (fun k u => k == seqKey 0 1 && u == sequenced 1) = true ∧
    good (seqRef ((((sequenced 0).ws 1 (nextWord true)).rs 1).toNat % 2 ^ 10) (nextWord true) (sequenced 0)) (fun k _ => k == seqKey 0 1) = true ∧
    ((sequenced 0).seqAt (seqKey 0 1)).state = 0 ∧ ((sequenced 1).seqAt (seqKey 0 1)).state = 1 ∧
    ((sequenced 3).seqAt (seqKey 0 1)).state = 3 ∧ ((sequenced 3).seqAt (seqKey 0 1)).parked = none ∧
    tenant.staleWait 1 (2 ^ 16) = false ∧ tenant.published 1 (2 ^ 16) = false ∧ tenant.staleWait 1 (2 ^ 17) = true ∧
    (tenant.setTag 1 (2 ^ 16) ⟨2, 1, 0, 2, [], [], []⟩).published 1 (2 ^ 16) = true ∧ (tenant.rs 2).toNat ≤ 11 ∧
    tenant.freeSeq 1 0 = some 0 ∧ task.freeSeq 1 0 = none := by decide

/-- A tenant whose handle 0 is in a state of generation 1, with the word of that generation in s1 and the count 1 in s2. -/
def tagged (st : Nat) : State := ((tenant.setTag 1 (2 ^ 16) ⟨st, 1, 0, 2, [0], [], []⟩).ws 1 (2 ^ 16)).ws 2 1

theorem witness_TagInstructionsComplete : ((tagged 0).rs 1).toNat < 2 ^ 32 ∧ ((tagged 0).rs 2).toNat = 1 ∧
    ((tagged 0).tagRec 1 (2 ^ 16 + 0)).nextGen (tagGen (2 ^ 16)) = true ∧ (tagged 0).stalePub 1 (2 ^ 16) = true ∧
    (tagged 1).stalePub 1 (2 ^ 16) = false ∧ ((tagged 2).tagRec 1 (2 ^ 16)).state = 2 ∧ ((tagged 1).tagRec 1 (2 ^ 16)).state ≠ 2 ∧
    (tagged 1).published 1 (2 ^ 16) = false ∧ (tagged 1).staleWait 1 (2 ^ 16) = false ∧ (tagged 2).published 1 (2 ^ 16) = true ∧
    ((tagged 1).ws 1 (2 ^ 17 + 2 ^ 16)).staleWait 1 (2 ^ 17 + 2 ^ 16) = true := by decide

/-- A commit record of one token for sequence 1. -/
def commitRecord : List Byte := bytesOf 64 [(0, 1), (2, 1), (16, 7)]

/-- A sum of one element over group 0. -/
def sumCard : List Byte := bytesOf 64 [(4, 1), (8, 0), (12, 4)]

/-- A watch record of one token. -/
def watchRecord : List Byte := bytesOf 80 [(0, 1), (16, 7)]

theorem witness_GenerationInstructionsComplete : (recorded commitRecord).myCore.seqTraps.length < 16 ∧
    good ((recorded commitRecord).readRecord ((recorded commitRecord).rs 0).toNat 20 16) (fun r _ => field r 2 1 == 1) = true ∧
    good (transitRecord (tvalWord (.tkcommit 4 0)) ((recorded commitRecord).rs 0).toNat (16 + 4 * 1) 16 (fun r => commitFields r ++ tokenFields 1 r)
        (recorded commitRecord))
      (fun r u => field r 0 2 == 1 && u == recorded commitRecord && good (commitCounter r u) (fun c _ => c == none) &&
        good (seqRef (field r 0 2) (BitVec.ofNat 64 (field r 0 2)) u) (fun k _ => k == seqKey 0 1)) = true ∧
    ((tenant.modCore 0 0 fun k => { k with seqTraps := List.replicate 16 ⟨0, 0, 1, 0, 0⟩ }).myCore.seqTraps).length = 16 ∧
    ((tenant.ws 1 1).rs 1).toNat < 2 ^ 10 ∧ (tenant.rs 2).toNat % 2 ^ 32 ≠ 0xFFFFFFFF ∧ tenant.shared.mailbox.length + tenant.tokensDue < 4096 ∧
    bitsOf ((tenant.ws 1 1).rs 1).toNat 19 16 ≤ 9 ∧
    good (transitRecord (tvalWord (.wpset 4 1 0)) 0 80 16 (watchFields 0) (recorded watchRecord)) (fun r _ => r == watchRecord) = true := by decide

theorem witness_GenerationInstructionsComplete_coll : good (transitRecord (tvalWord (.coll 0)) ((recorded sumCard).rs 0).toNat 64 64 collFields (recorded sumCard))
      (fun c u => c == sumCard && u == recorded sumCard) = true ∧ clFlag sumCard 0 = false ∧ clFlag sumCard 1 = false ∧ clFlag sumCard 2 = false ∧
    (recorded sumCard).allocated 1 (6144 + clGroup sumCard) = true ∧
    good (collArray (field sumCard 8 4) (clCount sumCard * clElem sumCard) (clElem sumCard) (recorded sumCard)) (fun _ _ => true) = true ∧
    good (collArray (field sumCard 12 4) (clCount sumCard * clElem sumCard) (clElem sumCard) (recorded sumCard)) (fun _ _ => true) = true := by decide

end Sys2Proof.Tests
end

