-- ==== Sys2Proof/Tests/Steps.lean ====
section
/-! SUPPORT. Witnesses for the statements on the steps of engines, cores and dispatchers. -/

set_option maxRecDepth 100000
set_option exponentiation.threshold 4096

namespace Sys2Proof.Tests

open Sys2Proof.Machine

/-- A command of an engine context for the one-byte card. -/
def aCopy (kind done : Nat) (wait : Option (Nat × Nat)) (state : CmdState) : CopyCmd where
  kind := kind
  seq := 0
  card := oneByte
  cardOff := 0
  idx := []
  src := scratch
  dst := scratch
  pattern := 0
  chan := 5
  region := 0x40000
  part := 1
  task := (0, 0)
  stay := 0
  taken := true
  wait := wait
  signal := none
  tick := 0
  late := false
  meridian := none
  state := state
  done := done
  extra := []
  got := []
  bytes := 0
  flags := 0
  issue := 0
  piece := none
  accepted := 0

/-- A package whose slot 0 of core 0 has one command, and channel 5. -/
def copying (m : CopyCmd) : State :=
  { channelled 0 2 with eng := { (channelled 0 2).eng with copies := [(engKey ⟨0, 0, 0⟩ 0, ⟨[m], 1⟩)] } }

/-- The same, its channel with another context in the line of its reservers. -/
def lining : State :=
  { copying (aCopy 6 0 none .running) with
    shared := { (copying (aCopy 6 0 none .running)).shared with channels := (copying (aCopy 6 0 none .running)).shared.channels.map fun p =>
      (p.1, { p.2 with waiters := [3] }) } }

theorem witness_EngineStepsDoTheirWork_copies : ((copying (aCopy 0 0 none .queued)).copyCtx ⟨0, 0, 0⟩ 0).waiting = [aCopy 0 0 none .queued] ∧
    (copying (aCopy 0 0 none .queued)).commandWait none = .met ∧ (aCopy 0 0 none .queued).taken = true ∧
    ((copying (aCopy 0 0 (some (0, 1)) .queued)).copyCtx ⟨0, 0, 0⟩ 0).waiting = [aCopy 0 0 (some (0, 1)) .queued] ∧
    (copying (aCopy 0 0 (some (0, 1)) .queued)).commandWait (some (0, 1)) = .unmet ∧
    (copying (aCopy 0 1 none .running)).pickCopy ((copying (aCopy 0 1 none .running)).copyCtx ⟨0, 0, 0⟩ 0).running = some (aCopy 0 1 none .running) ∧
    (aCopy 0 1 none .running).moved ((aCopy 0 1 none .running).sink none) = true ∧
    (aCopy 0 0 none .running).moved ((aCopy 0 0 none .running).sink none) = false ∧
    ((copying (aCopy 6 0 none .running)).copyCtx ⟨0, 0, 0⟩ 0).running = [aCopy 6 0 none .running] ∧ kCpyb = 6 ∧
    (copying (aCopy kCpyt 0 none .queued)).timedDue 0 0 0 = [(⟨0, 0, 0⟩, aCopy kCpyt 0 none .queued)] :=
  ⟨by decide, by decide, by decide, by decide, by decide, by decide, by decide, by decide, by decide, by decide, by decide⟩

/-- The same core, its full queue holding back engine 0. -/
def heldBack : State := (copying (aCopy 0 1 none .running)).modCore 0 0 fun k => { k with efqHeld := [⟨.capTag, 0, false, 0, 0, 0, 0, false⟩] }

theorem witness_EngineStepsDoTheirWork_held : (copying (aCopy 0 1 none .running)).engineHeld 0 0 0 = false ∧ heldBack.engineHeld 0 0 0 = true ∧
    task.coreRuns ⟨0, 0, 0⟩ = true := by decide

theorem witness_EngineStepsDoTheirWork_channels : (∃ ch, (copying (aCopy 6 0 none .running)).shared.channels.find? 5 = some ch ∧ ch.poison = false ∧
      ch.mayReserve (lineKey ⟨0, 0, 0⟩ 0) = true ∧ (aCopy 6 0 none .running).moved ((aCopy 6 0 none .running).sink (some ch)) = false ∧
      ({ aCopy 6 0 none .running with piece := some (0, 0) }).moved ((aCopy 6 0 none .running).sink (some ch)) = false ∧
      (aCopy 6 1 none .running).moved ((aCopy 6 1 none .running).sink (some ch)) = true) ∧
    (∃ ch, lining.shared.channels.find? 5 = some ch ∧ ch.poison = false ∧ ch.mayReserve (lineKey ⟨0, 0, 0⟩ 0) = false ∧
      lineKey ⟨0, 0, 0⟩ 0 ∉ ch.waiters) :=
  ⟨⟨_, rfl, by decide, by decide, by decide, by decide, by decide⟩, ⟨_, rfl, by decide, by decide, by decide⟩⟩

/-- A context with a stream that has an address to read. -/
def streaming : State := bound.wq 2 { bound.rq 2 with aq := [0] }

/-- A card of a stream of bit-plane panels of one ring place. -/
def panelCard : List Byte := bytesOf 64 [(0, 1), (3, 129), (4, 1), (6, 1), (8, 1), (10, 1), (36, 1)]

/-- A stream of panels with 32 column runs. -/
def panelled : Stream := { Stream.unbound with bound := true, card := panelCard, runs := List.replicate 32 [] }

/-- A context that waits for the reads in flight of a stream. -/
def draining : State := streaming.blockOn (.drain 2 Stream.unbound)

theorem witness_EngineStepsDoTheirWork_streams : (streaming.rq 2).bound = true ∧ (streaming.rq 2).faulted = false ∧ (streaming.rq 2).room = true ∧
    ((streaming.streamRead ⟨0, 0, 0⟩ 2 (streaming.rq 2) 0).1).isSome = true ∧ (streaming.hartAt ⟨0, 0, 0⟩).task.wait = none ∧
    streaming.engineHeld 0 0 (streaming.rq 2).eng = false ∧ (streaming.rq 2).panelDue = false ∧ panelled.panelDue = true ∧
    (draining.hartAt ⟨0, 0, 0⟩).task.wait = some (.drain 2 Stream.unbound) ∧ (draining.hartAt ⟨0, 0, 0⟩).status = .blocked ∧
    (⟨0, 0, 0⟩ : CtxId) ∈ draining.contexts ∧ draining.coreRuns ⟨0, 0, 0⟩ = true := by decide

/-- An array with one request, a core's lease with one job in a state. -/
def jobbed (card : List Byte) (st pass : Nat) : State :=
  { task with eng := { task.eng with
    arrays := [(0, { Array_.idle with reqs := [⟨0, 0, 1, false, false, none⟩], lease := if st = 0 then none else some ⟨0, 0, (0, 0), 0, 1, false⟩ })]
    leases := [(0, ⟨[], some (0, 0), [⟨0, card, 0x40000, 1, 0, 0, (0, 0), 0, true, none, st, pass, 0, [], [], 0⟩], 1⟩)] } }

/-- A job card that waits for counter 1 to reach a value. -/
def waitCard (thr : Nat) : List Byte := bytesOf 128 [(2, 1), (3, 1), (8, 1), (32, 1), (33, 128), (34, thr), (48, 1), (64, 1), (80, 1), (96, 1), (112, 1)]

/-- A group whose one member is the issuing context, with a command that has not contributed. -/
def grouped (cs : List Contribution) : State :=
  { task with
    shared := { task.shared with groups := [(0, ⟨1, [0], false, cs⟩)] }
    eng := { task.eng with colls := [(0, [⟨sumCard, 0x40000, 1, (0, 0), 0, true, none, none, false, none⟩])] } }

theorem witness_EngineStepsDoTheirWork_others :
    ((jobbed jobCard 0 0).arrayAt 0 0).lease = none ∧ ((jobbed jobCard 0 0).arrayAt 0 0).next = some ⟨0, 0, 1, false, false, none⟩ ∧
    (((jobbed jobCard 1 0).leaseCtx 0 0).head.map (·.state)) = some 1 ∧ (((jobbed jobCard 1 0).arrayAt 0 0).lease.map (·.core)) = some 0 ∧
    bitOf (field jobCard 33 1) 7 = false ∧ bitOf (field (waitCard 1) 33 1) 7 = true ∧ field (waitCard 1) 34 6 = 1 ∧
    ctrPoison ((jobbed (waitCard 0) 1 0).counter 1) = false ∧ ctrValue ((jobbed (waitCard 0) 1 0).counter 1) = 0 ∧
    (((jobbed jobCard 3 1).leaseCtx 0 0).head.map (·.state)) = some 3 ∧ passCount jobCard = 1 ∧
    ((grouped []).collsOf 0).length = 1 ∧ ((grouped []).shared.groups.getD (clGroup sumCard) default).members.findIdx? (fun w =>
      (grouped []).memberKey w = some 0) = some 0 ∧ ((grouped []).shared.groups.getD 0 default).complete = none ∧
    ((grouped []).shared.groups.getD 0 default).dead = false ∧
    (((grouped [⟨0, 0, 1, [0, 0, 0, 0]⟩]).shared.groups.getD 0 default).complete).isSome = true := by decide

/-- A core in its background code, and one that failed with its slots empty. -/
def failedCore : State := ({ task with hart := Hart.fresh } : State).modCore 0 0 fun k => { k with failed := true, wfi := some 1 }

/-- A context that waits at a barrier since tick 0, seen at the watchdog time. -/
def stalled : State :=
  { task.mod fun h => { h with status := .blocked, task := { h.task with wait := some (.barrier 0 0 0), waiting := some 0 } } with polestar := 2 ^ 24 }

/-- A pending store in slot 0. -/
def buffering : State := loader.enqueue (.store 0 0 [(scratchKey 0 0 0x40000, 1)] false false)

/-- A pending reduction in slot 0. -/
def reducing : State := loader.enqueue (.atomic 0 0 0 (scratchKey 0 0 0x40000) 0 false false 1 1 1 0 0x40000)

/-- A context at its NODE with a pre-emption mark and a save slot free. -/
def atNode : State := marked.mod fun h => { h with status := .blocked, task := { h.task with atNode := true } }

theorem witness_CoreAndTaskStepsDoTheirWork_cores : (task.coreAt 0 0).tactive = false ∧ (task.coreAt 0 0).failed = false ∧
    (failedCore.coreAt 0 0).wfi = some 1 ∧ 1 ≤ tenant.polestar ∧ (failedCore.coreAt 0 0).failed = true ∧ (failedCore.coreAt 0 0).retired = false ∧
    (∀ i, i < 4 → failedCore.holds ⟨0, 0, i⟩ = false) ∧ (failedCore.plat.spares.any fun p => p.1 = 0) = false ∧
    (sequenced 4).shared.seqs.find? (seqKey 0 1) = some { SeqEntry.free with state := 4, part := 1 } ∧
    (stalled.hartAt ⟨0, 0, 0⟩).status = .blocked ∧ (stalled.hartAt ⟨0, 0, 0⟩).task.wait = some (.barrier 0 0 0) ∧
    (stalled.hartAt ⟨0, 0, 0⟩).task.waiting = some 0 ∧ stalled.coreRuns ⟨0, 0, 0⟩ = true ∧ (stalled.barrierAt 0).phase = 0 ∧
    0 + stalled.watchdog 1 ≤ stalled.polestar ∧ task.evictable task.here = false ∧
    marked.evictable marked.here = true ∧ atNode.freeSave 1 = some 0 ∧ atNode.nodeTakes atNode.here = true ∧ atNode.quiet atNode.here = true ∧ atNode.coreRuns atNode.here = true ∧
    (buffering.buffer (.task 0 0 0)).length = 1 ∧ ((buffering.buffer (.task 0 0 0)).map (·.isAtomic)) = [false] ∧
    ((buffering.buffer (.task 0 0 0)).all fun p => buffering.mayGo (.task 0 0 0) [] p) = true ∧
    (((reducing.buffer (.task 0 0 0)).map (·.isAtomic)) = [true]) ∧ ((reducing.buffer (.task 0 0 0)).all fun p => reducing.mayGo (.task 0 0 0) [] p) = true ∧
    ((queued 8 (.scalar 3 8 true)).hartAt ⟨0, 0, 0⟩).loads ≠ [] ∧ (task.hartAt ⟨0, 0, 0⟩).loads = [] ∧
    ((task.modCore 0 0 fun k => { k with banks := [⟨none, none, none, none⟩] }).coreAt 0 0).banks[0]? = some ⟨none, none, none, none⟩ := by decide

/-- A partition with core 0 of die 0 and one save slot. -/
def placeable : State :=
  { task with
    hart := Hart.fresh
    disp := { task.disp with parts := [(1, ⟨List.replicate 56 0 ++ leBytes 4 1 ++ List.replicate 52 0 ++ [1, 0] ++ List.replicate 142 0, [], true, 0, 0, [], false⟩)] }
    rings := [(0, oneRing)] }

/-- A context saved for placement. -/
def aSaved (evicted : Bool) : Saved := ⟨{ Hart.fresh with task := task.hart.task }, ⟨0, 0, 0⟩, evicted, false, none, none, 0⟩

/-- A suspended task whose wait is over or not. -/
def aCont (complete : Bool) : Cont := ⟨{ Hart.fresh with task := task.hart.task }, (0, 0), 1, 5, 0, complete, 0, none, 0, 0⟩

/-- A task whose die's pool of continuation records is full. -/
def poolFull : State := { task with disp := { task.disp with conts := (List.range 4096).map fun n => (n, { aCont false with record := n }) } }

theorem witness_TaskEndAndWait_full : (poolFull.drainCtx poolFull.here).freeCont 0 = none := by
  have h : (poolFull.drainCtx poolFull.here).disp = poolFull.disp := rfl
  simp only [State.freeCont, List.find?_eq_none, h]
  intro n hn
  have hm : (n, { aCont false with record := n }) ∈ poolFull.disp.conts := List.mem_map.mpr ⟨n, hn, rfl⟩
  have ha : (poolFull.disp.conts.any fun p => p.2.home.1 = 0 && p.2.record = n) = true := List.any_eq_true.mpr ⟨_, hm, by simp [aCont]⟩
  simp [ha]

/-- A package whose dispatcher has something to place. -/
def placing (d : Dispatch → Dispatch) : State := { placeable with disp := d placeable.disp }

/-- A package whose suspended task 3 waits on the spill record of handle 0. -/
def late : State := task.setTag 1 (2 ^ 16) ⟨1, 1, 0, 2, [], [], [(0, 2 ^ 16, .cont 3)]⟩

theorem witness_CoreAndTaskStepsDoTheirWork_placement :
    (placing fun d => { d with saved := [(3, aSaved true)] }).savedSpot (aSaved true) = some (⟨0, 0, 0⟩, 0) ∧
    (placing fun d => { d with saved := [(3, aSaved true)] }).firstTransit 0 = none ∧
    (placing fun d => { d with saved := [(3, aSaved true)] }).firstSpot 0 = some (.saved 3, ⟨0, 0, 0⟩, 0) ∧
    (placing fun d => { d with conts := [(3, aCont true)] }).firstSpot 0 = some (.cont 3, ⟨0, 0, 0⟩, 0) ∧
    (List.find? (fun p : Nat × Cont => p.2.home = (0, 0) && p.2.record = 0 && (p.2.complete || p.2.fate.isSome))
      (placing fun d => { d with conts := [(3, aCont true)] }).disp.conts) = some (3, aCont true) ∧
    (placing fun d => { d with conts := [(3, aCont true)] }).firstGone 0 = none ∧ (aCont false).complete = false ∧
    (aCont false).fate = none ∧ (channelled 0 2).lateCont 3 (aCont false) = false ∧ late.lateCont 3 { aCont false with kind := 3, object := 2 ^ 16 } = true ∧
    (placing id).timeSet = true ∧ (placing id).gangTurn = none ∧ (placing id).firstTransit 0 = none ∧ (placing id).holdFor 0 = none ∧
    (channelled 0 2).suspendState (aCont false).hart.task 1 5 0 = .met ∧
    (channelled 0 1).suspendState (aCont false).hart.task 1 5 0 = .unmet := by decide

end Sys2Proof.Tests
end

