-- ==== Sys2Proof/Tests/Dispatch.lean ====
section
/-! SUPPORT. Witnesses for the statement on the dispatcher's steps and commands. -/

set_option maxRecDepth 100000
set_option exponentiation.threshold 4096

namespace Sys2Proof.Tests

open Sys2Proof.Machine

/-- A record of one task with one page, on ring 0 for one die. -/
def unitRecord : List Byte := bytesOf 64 [(24, 1), (26, 1), (28, 1), (34, 1), (58, 1)]

/-- A dispatcher with launch 2 of chain 9. -/
def launched : State :=
  placing fun d => { d with launches := [(2, { aLaunch 9 0 with record := unitRecord })], chains := [(9, aChain .running)] }

/-- A transit task of launch 2. -/
def aTransit : TransitTask := ⟨0, 2, ⟨3, 4, 0, 5, 0, 100, false, []⟩, 0, 0, ⟨2, 0, 1, 0, [], 64, 512, 4⟩⟩

/-- Launch 2 gated, its one task's tag of a generation that is retired. -/
def gone : State :=
  placing fun d => { d with
    launches := [(2, { aLaunch 9 0 with record := bytesOf 64 [(24, 1), (26, 1), (28, 1), (34, 1), (39, 4), (46, 1), (58, 1)], tags := [2 ^ 17] })]
    chains := [(9, aChain .running)] }

theorem witness_CoreAndTaskStepsDoTheirWork_pending : launched.firstGone 0 = none ∧ launched.firstTransit 0 = none ∧
    launched.firstSpot 0 = some (.pending 2 0, ⟨0, 0, 0⟩, 0) ∧
    ({ launched with disp := { launched.disp with transits := [aTransit] } } : State).firstTransit 0 = some (aTransit, ⟨0, 0, 0⟩, 0) ∧
    gone.firstGone 0 = some (2, 0) ∧ gone.timeSet = true ∧ launched.gangTurn = none ∧ launched.holdFor 0 = none := by decide

/-- A hardware queue of partition 1 in a state. -/
def aQueue (st : HwState) : HwQueue := ⟨st, 1, 7, 0x20000, 0x30000, 2, 0, 0x31000, 2, 0, 0, none, 0⟩

/-- A package with that hardware queue as number 3 of die 0. -/
def hwQueued (st : HwState) : State := { tenant with disp := { tenant.disp with hwqs := [(hwKey 0 3, aQueue st)] } }

/-- A queue descriptor of software queue 7. -/
def queueDesc : List Byte := bytesOf 64 [(2, 3), (8, 2), (20, 7), (26, 3), (32, 2)]

/-- A tenant with that descriptor at 0x2_0000 of the resident space. -/
def described : State := tenant.writeHomeBytes 0 (residentKey 0x20000) queueDesc

theorem witness_DispatcherStepsDoTheirWork_queues : tenant.portUp 0 = true ∧ tenant.windowOf 0 (56 / 2 ^ 15) = some 1 ∧ (56 : Nat) % 2 ^ 15 / 8 = 7 ∧
    tenant.windowOf 0 1 = none ∧ tenant.plat.ps < 2 ∧ (tenant.latch (queueKey 1 7)).hwq = none ∧
    tenant.headSize (queueKey 1 7) = none ∧
    (((tenant.setLatch (queueKey 1 7) { tenant.latch (queueKey 1 7) with tail := 1 }).latchWake (queueKey 1 7)).latch (queueKey 1 7)).hwq = none ∧
    ((tenant.setLatch (queueKey 1 7) ⟨0, false, false, some 0x20000, none, false⟩).latch (queueKey 1 7)).desc = some 0x20000 ∧
    (hwQueued .idle).disp.hwqs.find? (hwKey 0 3) = some (aQueue .idle) ∧ (hwQueued .fetch).disp.hwqs.find? (hwKey 0 3) = some (aQueue .fetch) ∧
    (hwQueued .fetch).fetchTurn 0 3 (aQueue .fetch) = true ∧ (hwQueued .fetch).fetchTurn 0 4 { aQueue .fetch with prio := 0 } = false ∧
    (hwQueued .check).disp.hwqs.find? (hwKey 0 3) = some (aQueue .check) ∧ tenant.disp.hwqs.find? (hwKey 0 3) = none ∧
    described.readPart 0 1 0x20000 64 = some queueDesc ∧ queueOk queueDesc 7 = true := by decide

/-- A chain of one record under its check. -/
def checkChain : Chain := { aChain .checking with recs := [unitRecord], tags := [[]], status := 0 }

/-- A package with that chain. -/
def checking (c : Chain) : State := { launched with disp := { launched.disp with launches := [], chains := [(9, c)] } }

/-- A launch whose one task ended. -/
def endedLaunch : State :=
  { launched with disp := { launched.disp with launches := [(2, { aLaunch 9 0 with record := unitRecord, next := 1 })] } }

theorem witness_DispatcherStepsDoTheirWork_chains : (checking checkChain).disp.chains.find? 9 = some checkChain ∧ checkChain.state = .checking ∧
    checkChain.status = 0 ∧ checkChain.recs ≠ [] ∧ 0 ∈ (checking checkChain).chainDies checkChain ∧ (checkChain.reports.any fun r => r.1 = 0) = false ∧
    (∀ d ∈ (checking { checkChain with reports := [(0, 0)] }).chainDies { checkChain with reports := [(0, 0)] }, d = 0) ∧ (checking checkChain).timeSet = true ∧
    (checking checkChain).dieTagsStale checkChain 0 = false ∧ gangsOf checkChain.recs = [] ∧
    (checking checkChain).dieTagsStale { checkChain with tags := [[2 ^ 17]] } 0 = true ∧
    (launched.disp.launches.find? 2).isSome = true ∧ (launched.drainChain 9).drained 2 { aLaunch 9 0 with record := unitRecord } = false ∧
    (endedLaunch.drainChain 9).drained 2 { aLaunch 9 0 with record := unitRecord, next := 1 } = true ∧ (endedLaunch.drainChain 9).chainRuns 9 = true ∧ (endedLaunch.chainLaunches 9).length = 1 := by decide

/-- A record of a gang with one task of one page. -/
def gangRecord : List Byte := bytesOf 64 [(24, 1), (26, 1), (28, 1), (31, 1), (34, 1), (37, 1), (38, 2), (58, 1)]

/-- A chain with that record under its check. -/
def gangChain : Chain := { aChain .checking with recs := [gangRecord], tags := [[]], status := 0, first := 0 }

/-- A package with that chain, and its cores open to the partition or not. -/
def ganging (c : Chain) (cores : Bool) : State :=
  { launched with
    polestar := 2 ^ 20
    disp := { launched.disp with launches := [], chains := [(9, c)], parts := if cores then launched.disp.parts else [] } }

/-- The same with the launch of the record numbered and the chain holding back lower placements. -/
def holdingBack : State :=
  let s := ganging { gangChain with reserving := true, first := 7 } true
  { s with disp := { s.disp with launches := [(7, { aLaunch 9 0 with record := gangRecord })] } }

/-- The same, released, with the slot of the gang reserved. -/
def gangHeld : State :=
  let s := ganging { gangChain with state := .running, reserved := true, first := 7 } true
  let s := { s with disp := { s.disp with launches := [(7, { aLaunch 9 0 with record := gangRecord, next := 1 })] } }
  { s with hart := { s.hart with status := .reserved, task := { s.hart.task with launch := 7 } } }

theorem witness_DispatcherStepsDoTheirWork_gangs : gangsOf gangChain.recs ≠ [] ∧ 0 ∈ (ganging gangChain true).chainDies gangChain ∧
    (ganging gangChain true).dieTagsStale gangChain 0 = false ∧ gangChain.reserved = false ∧ gangChain.reserving = false ∧
    (ganging gangChain true).channelsShort 0 1 (gangsOf gangChain.recs) = false ∧ (ganging gangChain true).mayReserve 9 gangChain = true ∧
    (((ganging gangChain true).reserveGangs 9 gangChain).bind fun t => t.disp.chains.find? 9).any (·.reserved) = true ∧
    (ganging gangChain false).reserveGangs 9 gangChain = none ∧ gangChain.since + 2 ^ 20 ≤ (ganging gangChain true).polestar ∧
    ({ ganging gangChain true with disp := { (ganging gangChain true).disp with transits := [aTransit], launches := launched.disp.launches } } : State).mayReserve 9 gangChain = false := by decide

theorem witness_CoreAndTaskStepsDoTheirWork_gangs : (holdingBack.holdFor 0).isSome = true ∧ holdingBack.firstGone 0 = none ∧ holdingBack.gangTurn = none ∧
    holdingBack.firstTransit 0 = none ∧ gangHeld.gangTurn = some 9 ∧ gangHeld.firstGone 0 = none ∧ gangHeld.timeSet = true := by decide

/-- A partition descriptor of partition 5 in the first place of the partition table, ACTIVE or not. -/
def loadable (active : Nat) : State :=
  tenant.writeHomeBytes 0 (residentKey 0) (bytesOf 256 [(0, 5), (3, active), (4, 9), (80, 2)])

theorem witness_DispatcherStepsDoTheirWork_partitions : (loadable 1).descHome 5 = some (residentKey 0) ∧
    descOk ((loadable 1).homeBytes (residentKey 0) 256) = true ∧ (loadable 1).badWords (residentKey 0) 256 = [] ∧
    ((loadable 1).noteHome (residentKey 0) 256).slotTaken 5 (field ((loadable 1).homeBytes (residentKey 0) 256) 4 1) = false ∧
    bitOf (field ((loadable 1).homeBytes (residentKey 0) 256) 3 1) 0 = true ∧ bitOf (field ((loadable 0).homeBytes (residentKey 0) 256) 3 1) 0 = false ∧
    ((loadable 1).disp.parts.filter fun p => p.1 ≠ 0 && p.1 ≠ 5 && p.2.active).length < 64 ∧ (loadable 1).keepsArcs 5 ((loadable 1).homeBytes (residentKey 0) 256) = true ∧
    tenant.descHome 5 = none := by decide

/-- A tenant whose first page of the second 128 MiB is mapped to 0x3_0000. -/
def paged : State :=
  [(0x4008, leBytes 8 0x8003), (0x8000, leBytes 8 0x3003D)].foldl (fun s p => s.writeHomeBytes 0 (residentKey p.1) p.2) tenant

/-- The migration of that page to 0x5_0000. -/
def aMigration : Migration := ⟨1, 2 ^ 27, residentKey 0x8000, 0x3003D, 0x50000, 4⟩

/-- A package with that migration under way. -/
def migrating (busy : Bool) : State :=
  let s := { paged with disp := { paged.disp with migrations := [aMigration] } }
  if busy then s.enqueue (.store 0 0 [(residentKey 0x30008, 1)] false false) else s

theorem witness_DispatcherStepsDoTheirWork_migration : (paged.pageLeaf 1 (2 ^ 27 % 2 ^ 48)).1 = some (residentKey 0x8000, 0x3003D) ∧ (paged.pageLeaf 1 (2 ^ 27 % 2 ^ 48)).2 = paged ∧
    bitOf 0x3003D 6 = false ∧ (paged.physical 1 3 0x50000).isSome = true ∧ (paged.physical 1 3 (0x50000 + 2 ^ 16 - 1)).isSome = true ∧
    (paged.partOf 1).active = true ∧ ((migrating true).disp.migrations.find? fun m => m.part = 1 && m.va = 2 ^ 27 / 2 ^ 16 * 2 ^ 16) = some aMigration ∧
    (migrating true).frameBusy (residentKey (bitsOf aMigration.old 47 12 * 4096)) = true ∧
    (migrating false).frameBusy (residentKey (bitsOf aMigration.old 47 12 * 4096)) = false ∧ (tenant.pageLeaf 1 0).1 = none := by decide

/-- A second partition beside the tenant, its bitmaps at 0x1_8000. -/
def twoTenants : State :=
  { tenant with disp := { tenant.disp with parts := [(1, tenant.partOf 1),
    (2, ⟨List.replicate 8 0 ++ leBytes 8 0x2003 ++ List.replicate 88 0 ++ leBytes 8 0x18000 ++ List.replicate 144 0, [], true, 0, 0, [], false⟩)] } }

/-- A channel record of 64-byte slots, two of them. -/
def chanRecord : List Byte := bytesOf 32 [(12, 2)]

/-- A tenant whose bitmap holds descriptor 6 of die 0, with the record at 0x2_0000. -/
def creatable : State :=
  (tenant.writeHomeBytes 0 (residentKey 0x10100) [0x40]).writeHomeBytes 0 (residentKey 0x20000) chanRecord

/-- A channel granted to two partitions. -/
def granted : Channel := ⟨1, 0, 0, 2, 0, 0, 0, 0, 0, 0, false, none, some (1, 0, 2, 0), [], []⟩

theorem witness_DispatcherStepsDoTheirWork_channels :
    (twoTenants.disp.parts.any fun p => p.1 ≠ 1 && p.1 ≠ 2 && p.2.active && twoTenants.allocated p.1 (chanBit 6)) = false ∧
    twoTenants.shared.channels.find? 6 = none ∧ twoTenants.allocated 1 (chanBit 6) = false ∧ twoTenants.allocated 2 (chanBit 6) = false ∧
    ((tenant.setChannel 6 granted).shared.channels.find? 6) = some granted ∧
    creatable.physical 1 3 0x20000 = some (residentKey 0x20000) ∧ creatable.allocated 1 (chanBit (0 * 512 + 6)) = true ∧
    creatable.badWords (residentKey 0x20000) 32 = [] ∧ chanRecordOk (creatable.homeBytes (residentKey 0x20000) 32) = true ∧
    ((channelled 2 2).shared.channels.find? 5).any (fun c => c.part = 1 && c.grant.isNone && c.gang.isNone && c.count 1 = 0 && c.count 3 = 0) = true := by
  decide

/-- A package with a continuation of die 0, whose image region lies above its pool. -/
def suspended : State := (placing fun d => { d with conts := [(3, aCont true)] }).modDie 0 fun d => { d with imageBase := 0x200000 }

/-- A view of package 0 alone at physical address 0. -/
def viewed : State := tenant.writeHomeBytes 0 (residentKey 0) [1]

theorem witness_DispatcherStepsDoTheirWork_others : viewed.physical 1 3 (field (viewed.partOf 1).desc 40 8) = some (residentKey 0) ∧
    viewed.badWords (residentKey 0) 256 = [] ∧ viewed.viewOk (viewed.homeBytes (residentKey 0) 256) = true ∧
    (placing fun d => { d with coresets := [(1, 0, 1, 4)] }).disp.coresets.contains (1, 0, 1, 4) = true ∧
    (suspended.contAt (keyOff (suspended.contKey 0 0))).map (·.1) = some 3 ∧ suspended.extentReads (aCont true) = true ∧
    suspended.moveCont 3 { aCont true with hart := { Hart.fresh with task := { task.hart.task with scratch := 20000 } } } 0 1 = none ∧
    (suspended.moveCont 3 (aCont true) 0 1).isSome = true := by decide

end Sys2Proof.Tests
end

