-- ==== Sys2Proof/Tests/Rings.lean ====
section
/-! SUPPORT. Witnesses for the statements on rings, the fabric, hosts and power. -/

set_option maxRecDepth 1000000
set_option exponentiation.threshold 4096

namespace Sys2Proof.Tests

open Sys2Proof.Machine

/-- Two segments of the rotation order, homed at positions 0 and 1. -/
def aHome (tag home : Nat) (st : HomeState) : Home := ⟨tag, home, 2304, 0x1000, 0, st⟩

/-- A running ring of two segments. -/
def turning : Ring :=
  { oneRing with mode := .running, started := true, region := 0x10000, packages := [0], part := 1, order := [aHome 7 0 .good, aHome 8 1 .good], sent := [(0, 1)] }

/-- A package with that ring changed. -/
def ringed (f : Ring → Ring) : State := { tenant with rings := [(0, f turning)] }

theorem witness_RingStepsDoTheirWork_emission : turning.emits = true ∧ (ringed id).nextEmission turning = some (0, aHome 7 0 .good, 0) ∧
    ({ turning with started := false }).emits = true ∧ ((turning.order.zipIdx).find? fun (p : Home × Nat) => p.1.turns) = some (aHome 7 0 .good, 0) ∧
    turning.dieAt (ringed id).fabric.self 0 = some 0 ∧ (aHome 7 0 .good).state = .good := by decide

/-- A segment of entry 0 on the link to a position. -/
def aFlight (dest : Nat) (cut : Bool) : Flight := ⟨0, 0, List.replicate 64 0, dest, cut, false⟩

/-- A package with that segment under way. -/
def flying (dest : Nat) (cut : Bool) : State := { ringed id with flights := [(1, aFlight dest cut)] }

theorem witness_RingStepsDoTheirWork_arrival : (flying 1 false).arrives 1 1 = some (aFlight 1 false, turning) ∧
    turning.homeOf (aFlight 1 false).index ≠ some (aFlight 1 false).dest ∧ (flying 0 true).arrives 0 1 = some (aFlight 0 true, turning) ∧
    turning.homeOf (aFlight 0 true).index = some (aFlight 0 true).dest ∧ (flying 0 true).flights.find? 1 = some (aFlight 0 true) := by decide

/-- Header fields of an FP16 segment of one record. -/
def segHead : List Byte := bytesOf 16 [(2, 7), (5, 9), (9, 9), (12, 5), (13, 2), (14, 1)]

/-- The bytes of its header and payload behind the digest. -/
def segRest : List Byte := List.replicate (32 + 2304) 0

/-- The digest of such a segment. -/
def segSum : List Byte := (sha384 (segHead ++ segRest)).take 8

/-- A well-formed segment. -/
def goodSegment : List Byte := segHead ++ List.replicate 8 0 ++ segSum ++ segRest

theorem segSum_bytes : ∃ a b c d e f g h, segSum = [a, b, c, d, e, f, g, h] := by
  have hl : segSum.length = 8 := by simp [segSum, sha384_length]
  match hs : segSum, hl with
  | [a, b, c, d, e, f, g, h], _ => exact ⟨a, b, c, d, e, f, g, h, rfl⟩

theorem witness_RingStepsDoTheirWork_segment : segmentOk goodSegment = true := by
  have hd : segmentDigest goodSegment = segSum := by
    obtain ⟨a, b, c, d, e, f, g, h, hs⟩ := segSum_bytes
    rw [segmentDigest, goodSegment, hs]
    have hc : (segHead ++ List.replicate 8 0 ++ [a, b, c, d, e, f, g, h] ++ segRest).take 16 ++
      (segHead ++ List.replicate 8 0 ++ [a, b, c, d, e, f, g, h] ++ segRest).drop 32 = segHead ++ segRest := rfl
    rw [hc]
    exact hs
  rw [segmentOk, hd, goodSegment]
  obtain ⟨a, b, c, d, e, f, g, h, hs⟩ := segSum_bytes
  rw [hs]
  have hc : ((segHead ++ List.replicate 8 0 ++ [a, b, c, d, e, f, g, h] ++ segRest).drop 24).take 8 = [a, b, c, d, e, f, g, h] := rfl
  rw [hc]
  generalize hb : segHead ++ List.replicate 8 0 ++ [a, b, c, d, e, f, g, h] ++ segRest = bs
  have h1 : field bs 4 4 = 2304 := by rw [← hb]; rfl
  have h2 : field bs 8 4 = 2304 := by rw [← hb]; rfl
  have h3 : field bs 12 1 = 5 := by rw [← hb]; rfl
  have h4 : field bs 13 1 = 2 := by rw [← hb]; rfl
  have h5 : field bs 14 1 = 1 := by rw [← hb]; rfl
  have h6 : field bs 15 1 = 0 := by rw [← hb]; rfl
  have h7 : field bs 32 2 = 0 := by rw [← hb]; rfl
  have h8 : field bs 34 30 = 0 := by rw [← hb]; rfl
  have h9 : bs.length = 2368 := by rw [← hb]; simp [segHead, bytesOf, segRest]
  rw [h1, h2, h3, h4, h5, h6, h7, h8, h9, beq_self_eq_true]
  clear h1 h2 h3 h4 h5 h6 h7 h8 h9 hb hc hd hs
  decide

/-- Slot 0 of die 0 in a state, of a ring that is gone. -/
def slotIn (st : Nat) (bs : List Byte) : State := { task.modSlot 0 0 fun _ => ⟨st, 5, 0, 7, 0, 0, 0, 1, 5, 1, 2304, 9, 0, 0, bs⟩ with polestar := 9 }

theorem witness_RingStepsDoTheirWork_slots : ((slotIn 1 []).mslot 0 0).state = 1 ∧ (slotIn 1 []).ring? ((slotIn 1 []).mslot 0 0).ring = none ∧
    segmentOk ((slotIn 1 []).mslot 0 0).incoming = false ∧ ((slotIn 4 []).mslot 0 0).retireAt ≤ (slotIn 4 []).polestar ∧
    ((slotIn 3 []).mslot 0 0).deadline < (slotIn 3 []).polestar := by decide

/-- One entry of a manifest: the segment at 0x1000 of the host, its home at position 0. -/
def manifestEntry : List Byte := bytesOf 16 [(0, 7), (5, 9), (9, 16)]

/-- A host's memory with the segment of tag 7 at 0x1000 and 4,096 entries for it after it. -/
def imaged (f : Ring → Ring) : State :=
  (ringed f).writeHomeBytes 0 (hostKey 0 0x1000) (goodSegment ++ (List.replicate 4096 manifestEntry).flatten)

theorem ringed_memOk (f : Ring → Ring) : (ringed f).memOk := by
  have h : memCanonical tenant.mem = true := by decide
  exact h

theorem goodSegment_length : goodSegment.length = 2368 := by simp [goodSegment, segHead, segRest, segSum, bytesOf, sha384_length]

/-- The entries that a run of copies of one entry holds at its places. -/
theorem flatten_replicate_entry (e : List Byte) (he : e.length = 16) : ∀ n i, i < n → (((List.replicate n e).flatten).drop (16 * i)).take 16 = e := by
  intro n
  induction n with
  | zero => intro i hi; omega
  | succ n ih =>
    intro i hi
    rw [List.replicate_succ, List.flatten_cons]
    cases i with
    | zero => rw [← he]; simp
    | succ i =>
      have h := ih i (by omega)
      rw [show 16 * (i + 1) = e.length + 16 * i by omega, List.drop_length_add_append]
      exact h

theorem imaged_segment (f : Ring → Ring) : (imaged f).homeBytes (hostKey 0 0x1000) 2368 = goodSegment := by
  have h := State.homeBytes_written (ringed_memOk f) 0 (hostKey 0 0x1000) 0 2368 (goodSegment ++ (List.replicate 4096 manifestEntry).flatten)
    (by simp [goodSegment_length])
  rw [Nat.add_zero] at h
  rw [imaged, h, List.drop_zero, ← goodSegment_length, List.take_left]

theorem imaged_entry (f : Ring → Ring) (i : Nat) (hi : i < 4096) : (imaged f).homeBytes (hostKey 0 (6464 + 16 * i)) 16 = manifestEntry := by
  have hl : ((List.replicate 4096 manifestEntry).flatten).length = 65536 := by simp [manifestEntry, bytesOf]
  have h := State.homeBytes_written (ringed_memOk f) 0 (hostKey 0 0x1000) (2368 + 16 * i) 16
    (goodSegment ++ (List.replicate 4096 manifestEntry).flatten) (by rw [List.length_append, goodSegment_length, hl]; omega)
  have hk : hostKey 0 (6464 + 16 * i) = hostKey 0 0x1000 + (2368 + 16 * i) := by simp only [hostKey, locKey]; omega
  rw [imaged, hk, h, ← goodSegment_length, List.drop_length_add_append]
  exact flatten_replicate_entry manifestEntry (by simp [manifestEntry, bytesOf]) 4096 i hi

theorem imaged_readSegment (f : Ring → Ring) (r : Ring) (hp : (imaged f).imagePort r = some 0) :
    (imaged f).readSegment r 0 7 2304 0x1000 = some goodSegment := by
  have hb : (imaged f).badWords (hostKey 0 0x1000) (64 + 2304) = [] := rfl
  have h1 : field goodSegment 0 2 = 0 := rfl
  have h2 : field goodSegment 2 2 = 7 := rfl
  have h3 : field goodSegment 4 4 = 2304 := rfl
  simp only [State.readSegment, hp, imaged_segment f, hb, witness_RingStepsDoTheirWork_segment, h1, h2, h3]
  rfl

theorem homedBytes_append (order : List Home) (h : Home) (h0 : h.home = 0) (hs : h.state = .good) :
    homedBytes (order ++ [h]) 0 = max (homedBytes order 0) (h.off + h.size) := by
  simp [homedBytes, h0, hs]

theorem imaged_readManifest (f : Ring → Ring) (r : Ring) (hp : (imaged f).imagePort r = some 0) (hz : 0 < r.size) :
    ∀ (l : List Nat) (order : List Home) (segs : List (Home × List Byte)),
      (∀ a ∈ l, ∃ i, i < 4096 ∧ a = 6464 + 16 * i) → homedBytes order 0 + 2368 * l.length ≤ r.region →
      ∃ o g, (imaged f).readManifest r 0 0 l order segs = some (o, g) := by
  intro l
  induction l with
  | nil => intro order segs _ _; exact ⟨_, _, rfl⟩
  | cons a t ih =>
    intro order segs ha hr
    obtain ⟨i, hi, rfl⟩ := ha a (List.mem_cons_self ..)
    have he := imaged_entry f i hi
    have hb : (imaged f).badWords (hostKey 0 (6464 + 16 * i)) 16 = [] := rfl
    have e0 : field manifestEntry 0 2 = 7 := rfl
    have e1 : field manifestEntry 2 2 = 0 := rfl
    have e2 : field manifestEntry 4 4 = 2304 := rfl
    have e3 : field manifestEntry 8 8 = 0x1000 := rfl
    rw [List.length_cons] at hr
    have hs := imaged_readSegment f r hp
    have hc : (r.size ≤ 0) = False := by simp; omega
    have hd : (r.region < homedBytes order 0 + 2368) = False := by simp; omega
    simp only [State.readManifest, he, hb, e0, e1, e2, e3, hs, Home.size, hc, hd]
    apply ih
    · intro a h; exact ha a (List.mem_cons_of_mem _ h)
    · rw [homedBytes_append _ _ rfl rfl]; simp only [Home.size]; rw [Nat.max_eq_right (by omega)]; omega

theorem witness_RingStepsDoTheirWork_repair : (imaged fun r => { r with order := [aHome 7 0 .lost] }).imagePort turning = some 0 ∧
    (imaged id).readSegment turning turning.image 7 (aHome 7 0 .lost).cbytes (aHome 7 0 .lost).host = some goodSegment ∧
    ({ turning with order := [aHome 7 0 .restoring] } : Ring).entryOf 7 .restoring = some 0 ∧
    ({ turning with order := [aHome 7 0 .lost] } : Ring).entryOf 7 .lost = some 0 ∧
    (imaged id).reloader { turning with order := [aHome 7 0 .lost] } (aHome 7 0 .lost) = some (imaged id).fabric.self ∧
    ({ turning with order := [aHome 7 0 .lost] } : Ring).order[0]? = some (aHome 7 0 .lost) ∧
    ({ turning with order := [aHome 7 0 .lost] } : Ring).roomFor (aHome 7 0 .lost) = some 7 ∧ turning.dieAt 0 7 = some 7 :=
  ⟨rfl, imaged_readSegment id turning rfl, by decide, by decide, rfl, rfl, by decide, by decide⟩

/-- The ring with a region for 4,096 segments. -/
def roomy : Ring := { turning with region := 0x1000000 }

theorem witness_RingStepsDoTheirWork_load : (imaged id).imagePort roomy = some 0 ∧ ∃ order segs, (imaged id).readManifest roomy 0 0 ((List.range
    ((Config.freeWord (imaged id).steps).toNat % 4096 + 1)).map fun i => 6464 + 16 * i) [] [] = some (order, segs) := by
  refine ⟨rfl, imaged_readManifest id roomy rfl (by decide) _ [] [] ?_ ?_⟩
  · intro a h
    obtain ⟨i, hi, rfl⟩ := List.mem_map.mp h
    exact ⟨i, by have := List.mem_range.mp hi; omega, rfl⟩
  · simp only [List.length_map, List.length_range]
    show 0 + 2368 * ((Config.freeWord (imaged id).steps).toNat % 4096 + 1) ≤ 0x1000000
    omega

/-- A package with partition 1, no page mapped, and no ring. -/
def ringless : State := { placeable with rings := [] }

theorem witness_RingStepsDoTheirWork_commands : ringless.ring? 0 = none ∧ ringPackagesOk ringless.fabric.self 0 [0] = true ∧
    ringless.isFirst turning = true ∧ ringless.owns 0 1 = true ∧ ringless.isFirst oneRing = false ∧
    (ringless.rings.any fun (p : Nat × Ring) => (p.2.dies 0).any (oneRing.dies 0).contains) = false ∧
    ringless.mapsRegion (oneRing.dies ringless.fabric.self) 0 = false ∧ 0 ≤ turning.slackBound ∧ (ringed id).ring? 0 = some turning ∧ turning.mode = .running ∧
    (ringed id).isFirst turning = true ∧ (ringed id).owns 0 1 = true ∧ (ringed id).allHome 0 { turning with stopping := [(⟨0, 4, 1⟩, 0)] } = true := by decide

/-- Package 1 with one live port to package 0. -/
def ported : State :=
  { task with
    polestar := 2 ^ 24
    fabric := { task.fabric with self := 1, ports := [(2, ⟨0, true, 0, 0, [], List.replicate 12 64⟩)], admitted := [0, 1] } }

/-- A ring of packages 0 and 1, one of them bypassed. -/
def spanning (gone : Nat) : Ring :=
  { turning with config := 3, packages := [0, 1], mode := .degraded, bypassed := (List.range 8).map fun d => 8 * gone + d }

theorem witness_RingStepsDoTheirWork_members : (spanning 0).place 0 = some 0 ∧
    (((List.range 8).map fun d => 8 * 0 + d).all (spanning 0).bypassed.contains) = true ∧ turning.bypassed.contains 1 = false ∧
    (List.find? (fun p => (spanning 1).granted p < 12 && ((spanning 1).lanes.getD p (0, 0)).2 ≤ task.polestar) (spanning 1).bypassedPlaces) = some 1 ∧
    ({ spanning 1 with lanes := [(1, (Nat.min 0 12, 2 ^ 24))] } : Ring).granted 1 = (spanning 1).granted 1 ∧
    ({ spanning 1 with lanes := [(1, (Nat.min 3 12, 2 ^ 24))] } : Ring).granted 1 ≠ (spanning 1).granted 1 ∧
    ported.silentLong { turning with silent := [(1, 0)] } 1 = true ∧ ported.silentLong turning 1 = false ∧ (1 : Nat) < turning.size ∧
    (spanning 0).mode = .degraded := by decide

theorem witness_FabricHostAndPowerStepsDoTheirWork_fabric : ported.fabric.timeSent + 2 ^ 16 ≤ ported.polestar ∧ ported.plat.ps < 2 ∧
    ported.fabric.isLive 2 = true ∧ (ported.hear 2).fabric.timePort = some 2 ∧ (ported.hear 2).fabric.aligned = false ∧
    ported.fabric.ports.find? 2 = some ⟨0, true, 0, 0, [], List.replicate 12 64⟩ ∧ 0 + 17500 ≤ ported.polestar ∧ ported.fabric.deadLinks.contains (ported.fabric.self, 0) = false ∧
    ({ ported with fabric := { ported.fabric with deadLinks := [(1, 0)] } } : State).fabric.deadLinks.contains (1, 0) = true ∧
    (ported.hear 2).disp.nextLaunch = 1 ∧ (ported.hear 2).polestar ≤ 2 ^ 25 ∧
    ({ ported with disp := { ported.disp with nextLaunch := 5 } } : State).disp.nextLaunch ≠ 1 ∧ (ported.hear 2).fabric.seen.contains (1, 0) = false ∧ ported.fabric.redrawn + 2 ^ 24 ≤ ported.polestar ∧
    (ported.fabric.performed.find? fun x => x.1 = 1 && x.2.1 = 0) = none := by decide

/-- A tenant with waiting token records and a ring in host 0's memory. -/
def framing : State :=
  { tenant with
    polestar := 20000
    shared := { tenant.shared with mailbox := [⟨1, 0, 7, 0⟩] }
    streams := [(1, ⟨0, 0x1000, 2, 0x800, 0, 0, [], 0⟩)] }

theorem witness_FabricHostAndPowerStepsDoTheirWork_hosts : tenant.owns 0 1 = true ∧ tenant.groupBusy 3 = false ∧ ([0, 2 ^ 17].all memberOk) = true ∧
    tenant.portUp 0 = true ∧ field (tenant.partOf 1).desc 2 1 = 0 ∧ powerIn 2 2 4096 = true ∧ (framing.partOf 1).orphaned = false ∧
    (framing.stream 1).count ≠ 0 ∧ framing.frameDue 1 = true ∧ (framing.holdTokens 1).portUp 0 = true ∧
    ((framing.holdTokens 1).stream 1).fseq < ((framing.holdTokens 1).stream 1).head + 2 ∧ (framing.stream 1).head ≤ 0 := by decide

theorem witness_FabricHostAndPowerStepsDoTheirWork_members : (([0, 2 ^ 17] : List Nat).all fun w => tenant.isMember 1 (w % 2 ^ 10)) = false ∧
    (([0, 2 ^ 17] : List Nat).all fun w => ({ tenant with disp := { tenant.disp with parts := [(1, { tenant.partOf 1 with view := [1] })] } } : State).isMember 1
      (w % 2 ^ 10)) = true := by decide

/-- A package both hosts of which ask for a power state. -/
def asked (st : Nat) : State := { task with hart := Hart.fresh, ports := [(0, ⟨true, st, 70, 0, [], 0⟩), (1, ⟨true, st, 70, 0, [], 0⟩)] }

theorem witness_FabricHostAndPowerStepsDoTheirWork_power : 2 ≤ (asked 2).powerTarget ∧ (asked 0).powerTarget < 2 ∧ (asked 2).plat.ps < 2 ∧
    (asked 2).enginesIdle = true ∧ (∀ c ∈ (asked 2).contexts, c.slot < 4 → ((asked 2).hartAt c).status ≠ .ready) ∧
    ({ asked 0 with plat := { (asked 0).plat with ps := 2, wakeAt := some 0 } } : State).plat.wakeAt = some 0 ∧ (5 : Nat) ∉ task.bad := by decide

/-- The platform's image passes its check or fails it, whatever the signature scheme says (log 13). -/
theorem witness_FabricHostAndPowerStepsDoTheirWork_boot : task.plat.secure = true ∨ task.plat.secure = false := by
  cases task.plat.secure <;> simp

end Sys2Proof.Tests
end

