-- ==== Sys2Proof/Tests/Vector.lean ====
section
/-! SUPPORT. Witnesses for the statements on vectors, control registers and system instructions. -/

set_option maxRecDepth 100000
set_option exponentiation.threshold 4096

namespace Sys2Proof.Tests

open Sys2Proof.Machine

theorem witness_VectorInstructionsComplete : (∃ f, Claims.vecOp (.vfadd 3 1 2 0 0) = some (isWideFp, f)) ∧
    isWideFp task.vt = true ∧ (∃ f, Claims.vecOp (.vadd 3 1 2 0) = some (isIntType, f)) ∧ isIntType task.vt = false ∧
    Claims.vecRule (.vscans 3 1 0 0) = some (reducible, 3, none) ∧ (Instr.vscans 3 1 0 0).wellFormed = true ∧ reducible task.vt = true ∧
    (∃ allowed, Claims.vecRule (.vspc 3 1 2 4) = some (allowed, 3, some 4)) ∧ task.vt ≠ (2 : BitVec 4).toNat :=
  ⟨⟨_, rfl⟩, by decide, ⟨_, rfl⟩, by decide, rfl, by decide, by decide, ⟨_, rfl⟩, by decide⟩

/-- A task whose mask k1 takes no lane and k2 takes lane 0 alone. -/
def maskedTask : State := (task.wk 1 0).wk 2 1

theorem witness_LanesOfAResult : (0 : Nat) < 2048 / 32 ∧ (maskedTask.rk 2).getLsbD 0 = true ∧ (maskedTask.rk 2).getLsbD 1 = false ∧
    (∀ i, i < 64 → (maskedTask.rk 1).getLsbD i = false) := ⟨by decide, by decide, by decide, fun i _ => by simp [maskedTask, State.rk, State.wk, vget_set]⟩

theorem witness_VectorFrame : isWideFp task.vt = true ∧ (∃ t, exec (.vfadd 3 1 2 0 0) task = .next t) ∧
    (∃ t, exec (.vrev 3 1 0) task = .next t) := ⟨by decide, ⟨_, rfl⟩, ⟨_, rfl⟩⟩

/-- A loader whose mask k2 takes lane 0 alone and k1 none. -/
def gatherer : State := (loader.wk 1 0).wk 2 1

theorem witness_VectorMemoryCompletes : (∃ f, Claims.vecLoad gatherer (.vld 3 1 0 2) = some (anyType, 3, 1, 2, f)) ∧
    (∃ f, Claims.vecStore gatherer (.vst 3 1 0 2) = some (anyType, 3, 1, 2, f, false)) ∧
    (∃ f, Claims.vecStore gatherer (.vsctadd 3 4 1 0 2) = some (scatterable, 3, 1, 2, f, true)) ∧ anyType gatherer.vt = true ∧
    good (checkElems (gatherer.rc 1) (elemBytes gatherer.vt) .load (fun i => ((gatherer.rc 1).cursor : Int) + (i : Nat)) (gatherer.elems 2) gatherer)
      (fun es u => u == gatherer && es.length == 1 && es.all fun e => !u.lost e.2.1) = true ∧
    good (checkElems (gatherer.rc 1) (elemBytes gatherer.vt) .atomic (fun i => ((gatherer.rc 1).cursor : Int) + (i : Nat)) (gatherer.elems 2) gatherer)
      (fun es _ => es.length == 1) = true ∧
    good (checkElems (gatherer.rc 1) (elemBytes gatherer.vt) .store (fun _ => 0) (gatherer.elems 1) gatherer) (fun es _ => es == []) = true ∧
    traps (checkElems (gatherer.rc 4) (elemBytes gatherer.vt) .store (fun _ => 0) (gatherer.elems 2) gatherer) .capTag = true ∧
    (queued 4 (.vector 3 4)).badLines ⟨0, 0, 0⟩ 0 (scratchKey 0 0 0x40000) 4 = [] ∧ (queued 4 (.vector 3 4)).lost (scratchKey 0 0 0x40000) = false :=
  ⟨⟨_, rfl⟩, ⟨_, rfl⟩, ⟨_, rfl⟩, by decide, by decide, by decide, by decide, by decide, by decide, by decide⟩

/-- A firmware context in its handler, slot 1 of its core HELD, with a capability to the resident space. -/
def handler : State :=
  (((({ tenant with disp := { tenant.disp with parts := [(0, tenant.partOf 1), (1, tenant.partOf 1)] } } : State).modHart ⟨0, 0, 1⟩ fun h => { h with status := .held }).modCore 0 0 fun k => { k with tactive := true }).switchTo ⟨0, 0, 4⟩).wc 2
    (boundedCap 3 0x6F 0 0x1000000 0x20000 true)

/-- The same outside its handler. -/
def background : State := handler.modCore 0 0 fun k => { k with tactive := false }

theorem witness_ControlAndSystemComplete : Claims.ctlNow handler 0x805 = some (handler.fwCtl 0x805 |>.getD 0) ∧ Claims.ctlNow handler 0x7FF = none ∧
    Claims.ctlNew handler 0 (.ctlwr 3 1 0x805) = some (3, 0x805, handler.rs 1) ∧
    (handler.rs 1).toNat = 0 ∧ handler.isFw = true ∧ handler.myCore.tactive = true ∧ background.myCore.tactive = false ∧
    ((handler.ws 1 0x10100).rs 1).toNat = 0 + 1 * 2 ^ 8 + 2 ^ 16 ∧ handler.isHeld ⟨0, 0, 1⟩ = true ∧ (handler.hartAt ⟨0, 0, 1⟩).quar = [] ∧
    bitsOf handler.myCore.tcause.toNat 11 10 = 0 ∧ ((handler.ws 1 2).rs 1) = 2 ∧ (handler.rs 2).toNat % 4 ≠ 3 := by decide

theorem witness_ControlAndSystemComplete_registers : ctlMask 0x7FF = none ∧
    ctlMask 0x805 = some 0x1FF ∧ handler.ctlValid 0x805 (2 &&& 0x1FF) = true ∧ handler.ctlValid 0x805 (0 &&& 0x1FF) = false := by decide

theorem witness_ControlAndSystemComplete_images : ((handler.ws 1 1).rs 1).toNat < 2 ^ 14 ∧ bitsOf ((handler.ws 1 1).rs 1).toNat 7 2 = 0 ∧
    imageCap (handler.rc 2) 1 true = true ∧ imageCap (handler.rc 2) 1 false = true ∧ handler.isHeld ⟨0, 0, 2⟩ = false ∧
    good (State.imageKeys (handler.rc 2) .store ((handler.imagePieces ⟨0, 0, 1⟩ 0x101).map fun p => (p.off, p.bytes.length)) handler)
      (fun _ u => u == handler) = true ∧
    (handler.hartAt ⟨0, 0, 2⟩).status = .empty ∧ bitOf 1 8 = false ∧ (tenant.hartAt ⟨0, 0, 0⟩).status = .ready ∧
    good (State.imageRead (handler.rc 2) (loadOffs 1 (handler.hartAt ⟨0, 0, 1⟩).tile.dirty) handler) (fun _ u => u == handler) = true := by decide

end Sys2Proof.Tests
end

section
/-! PROOFS. Every meaning answers a next state. -/

namespace Sys2Proof.Machine

/-! ### Every meaning answers a next state -/

/-- A meaning goes on: it answers a next state, neither a fault nor a refusal. -/
def GoesOn (r : Res) : Prop := ∃ t, r = .next t

theorem goesOn_next (t : State) : GoesOn (.next t) := ⟨t, rfl⟩

/-- An instruction that advances, traps or waits goes on. -/
theorem goesOn_finish (n : Nat) (s : State) (r : R Unit) : GoesOn (finish n s r) := finish_next n s r

/-- An instruction that waits on an object goes on. -/
theorem goesOn_finishWait (s : State) (r : R Wait) : GoesOn (finishWait s r) := by cases r <;> exact goesOn_next _

/-- A supervisor instruction goes on if it does at supervisor level: at task level it traps (R370). -/
theorem goesOn_systemOp (word : Word) (s : State) {r : State → Res} (h : ∀ s, GoesOn (r s)) : GoesOn (systemOp word s r) := by
  unfold systemOp
  split
  · exact h s
  · exact goesOn_next _

/-- A host command goes on: it is reported done or failed. -/
theorem goesOn_command (ctr : Nat) (s : State) (r : Option State) : GoesOn (command ctr s r) := by
  cases r <;> exact goesOn_next _

/-- A mailbox command goes on: its slot gets a reply. -/
theorem goesOn_mailbox (port : Nat) (valid : Bool) (s : State) (r : Option State) : GoesOn (mailbox port valid s r) := by
  cases valid
  · exact goesOn_next _
  · cases r <;> exact goesOn_next _

/-- A ring command goes on, performed or failed. -/
theorem goesOn_ringCommand (r : Option Ring) (valid : Bool) (m : Mail) (s : State) (act : Option State) :
    GoesOn (ringCommand r valid m s act) := by
  simp only [ringCommand]
  repeat' first | exact goesOn_next _ | split

/-- A pop or peek of a stream goes on: it traps, waits for an element or takes one. -/
theorem goesOn_popStream (word : Word) (q : QReg) (small : Bool) (s : State) (f : List Byte → Stream → State → State) :
    GoesOn (popStream word q small s f) := by
  simp only [popStream]
  repeat' first | exact goesOn_next _ | split

/-- LAUNCH and SPAWN go on: they trap, wait for the check of their chain or end with its result. -/
theorem goesOn_launchOp (word : Word) (d a : SReg) (spawn : Bool) (s : State) : GoesOn (launchOp word d a spawn s) := by
  simp only [launchOp]
  repeat' first | exact goesOn_next _ | split

theorem execQpops_goesOn (d : SReg) (q : QReg) (s : State) : GoesOn (execQpops d q s) := by
  unfold execQpops
  exact goesOn_popStream _ _ _ _ _

theorem execQpopv_goesOn (v : BitVec 5) (q : QReg) (w : BitVec 1) (s : State) : GoesOn (execQpopv v q w s) := by
  unfold execQpopv
  exact goesOn_popStream _ _ _ _ _

theorem execQpeek_goesOn (d : SReg) (q : QReg) (s : State) : GoesOn (execQpeek d q s) := by
  unfold execQpeek
  exact goesOn_popStream _ _ _ _ _

/-! #### Supervisor instructions

Of a meaning that looks at what it finds, each branch is a next state: descending its conditions and matches reaches one. -/

theorem execEret_goesOn (a : SReg) (s : State) : GoesOn (execEret a s) := by
  simp only [execEret]
  refine goesOn_systemOp _ _ fun s => ?_
  repeat' first | exact goesOn_next _ | split

theorem execWfi_goesOn (a : SReg) (s : State) : GoesOn (execWfi a s) := by
  simp only [execWfi]
  refine goesOn_systemOp _ _ fun s => ?_
  repeat' first | exact goesOn_next _ | split

theorem execTlbinv_goesOn (a b : SReg) (sf : BitVec 3) (s : State) : GoesOn (execTlbinv a b sf s) := by
  simp only [execTlbinv]
  refine goesOn_systemOp _ _ fun s => ?_
  repeat' first | exact goesOn_next _ | split

theorem execQuardr_goesOn (d a : SReg) (s : State) : GoesOn (execQuardr d a s) := by
  simp only [execQuardr]
  refine goesOn_systemOp _ _ fun s => ?_
  repeat' first | exact goesOn_next _ | split

theorem execCtxsv_goesOn (d a : SReg) (cb : CReg) (s : State) : GoesOn (execCtxsv d a cb s) := by
  simp only [execCtxsv]
  refine goesOn_systemOp _ _ fun s => ?_
  repeat' first | exact goesOn_next _ | exact goesOn_finish _ _ _ | split

theorem execCtxld_goesOn (d a : SReg) (cb : CReg) (s : State) : GoesOn (execCtxld d a cb s) := by
  simp only [execCtxld]
  refine goesOn_systemOp _ _ fun s => ?_
  repeat' first | exact goesOn_next _ | exact goesOn_finish _ _ _ | split

/-! #### Instructions with ends of their own -/

theorem execJalr_goesOn (d a : SReg) (imm : BitVec 12) (s : State) : GoesOn (execJalr d a imm s) := by
  simp only [execJalr]
  repeat' first | exact goesOn_next _ | split

theorem execWaitvis_goesOn (a : SReg) (r : BitVec 2) (s : State) : GoesOn (execWaitvis a r s) := by
  simp only [execWaitvis]
  repeat' first | exact goesOn_next _ | split

theorem execNode_goesOn (s : State) : GoesOn (execNode s) := by
  simp only [execNode]
  repeat' first | exact goesOn_next _ | split

theorem execGsync_goesOn (a : SReg) (sf : BitVec 3) (s : State) : GoesOn (execGsync a sf s) := by
  simp only [execGsync]
  repeat' first | exact goesOn_next _ | split

theorem execExit_goesOn (r : BitVec 2) (s : State) : GoesOn (execExit r s) := by
  simp only [execExit]
  repeat' first | exact goesOn_next _ | split

theorem execSuspend_goesOn (k a b : BitVec 5) (sf : BitVec 3) (r : BitVec 2) (s : State) : GoesOn (execSuspend k a b sf r s) := by
  simp only [execSuspend]
  repeat' first | exact goesOn_next _ | split

theorem execTrbind_goesOn (d b : SReg) (s : State) : GoesOn (execTrbind d b s) := by
  simp only [execTrbind]
  repeat' first | exact goesOn_next _ | split

theorem execTrwait_goesOn (cd : CReg) (a b : SReg) (r : BitVec 2) (s : State) : GoesOn (execTrwait cd a b r s) := by
  simp only [execTrwait]
  repeat' first | exact goesOn_next _ | split

/-! #### Traps, waits and the firmware contexts -/

theorem execTrapEntry_goesOn (die core : Nat) (s : State) : GoesOn (execTrapEntry die core s) := by
  simp only [execTrapEntry]
  repeat' first | exact goesOn_next _ | split

theorem execRemoteLoadReturn_goesOn (die core : Nat) (u : LoadUnit) (s : State) : GoesOn (execRemoteLoadReturn die core u s) := by
  simp only [execRemoteLoadReturn]
  repeat' first | exact goesOn_next _ | split

theorem execWfiDeadline_goesOn (die core : Nat) (s : State) : GoesOn (execWfiDeadline die core s) := by
  simp only [execWfiDeadline]
  repeat' first | exact goesOn_next _ | split

theorem execFirmwareContextRestart_goesOn (die core pc : Nat) (s : State) : GoesOn (execFirmwareContextRestart die core pc s) := by
  simp only [execFirmwareContextRestart]
  repeat' first | exact goesOn_next _ | split

theorem execTrwaitDeadline_goesOn (die core slot : Nat) (s : State) : GoesOn (execTrwaitDeadline die core slot s) := by
  simp only [execTrwaitDeadline]
  repeat' first | exact goesOn_next _ | split

theorem execTrbindDecision_goesOn (die core slot : Nat) (s : State) : GoesOn (execTrbindDecision die core slot s) := by
  simp only [execTrbindDecision]
  repeat' first | exact goesOn_next _ | split

theorem execBarrierWatchdog_goesOn (die core slot : Nat) (s : State) : GoesOn (execBarrierWatchdog die core slot s) := by
  simp only [execBarrierWatchdog]
  repeat' first | exact goesOn_next _ | split

/-! #### Engines: streams, copies, arrays, collectives -/

theorem execStreamReadIssue_goesOn (die core slot q : Nat) (s : State) : GoesOn (execStreamReadIssue die core slot q s) := by
  simp only [execStreamReadIssue]
  repeat' first | exact goesOn_next _ | split

theorem execStreamElementArrival_goesOn (die core slot q : Nat) (s : State) : GoesOn (execStreamElementArrival die core slot q s) := by
  simp only [execStreamElementArrival]
  repeat' first | exact goesOn_next _ | split

theorem execCopyStart_goesOn (die core slot eng : Nat) (s : State) : GoesOn (execCopyStart die core slot eng s) := by
  simp only [execCopyStart]
  repeat' first | exact goesOn_next _ | split

theorem execCopyComplete_goesOn (die core slot eng : Nat) (s : State) : GoesOn (execCopyComplete die core slot eng s) := by
  simp only [execCopyComplete]
  repeat' first | exact goesOn_next _ | split

theorem execCpytRelease_goesOn (die core eng : Nat) (s : State) : GoesOn (execCpytRelease die core eng s) := by
  simp only [execCpytRelease]
  repeat' first | exact goesOn_next _ | split

theorem execCpybSlotReserve_goesOn (die core slot eng : Nat) (s : State) : GoesOn (execCpybSlotReserve die core slot eng s) := by
  simp only [execCpybSlotReserve]
  repeat' first | exact goesOn_next _ | split

theorem execMatrixLeaseGrant_goesOn (die cl : Nat) (s : State) : GoesOn (execMatrixLeaseGrant die cl s) := by
  simp only [execMatrixLeaseGrant]
  repeat' first | exact goesOn_next _ | split

theorem execMatrixJobStart_goesOn (die core : Nat) (s : State) : GoesOn (execMatrixJobStart die core s) := by
  simp only [execMatrixJobStart]
  repeat' first | exact goesOn_next _ | split

theorem execMatrixJobComplete_goesOn (die core : Nat) (s : State) : GoesOn (execMatrixJobComplete die core s) := by
  simp only [execMatrixJobComplete]
  repeat' first | exact goesOn_next _ | split

theorem execCollContribution_goesOn (die core slot : Nat) (s : State) : GoesOn (execCollContribution die core slot s) := by
  simp only [execCollContribution]
  repeat' first | exact goesOn_next _ | split

/-! #### Dispatchers: queues, chains, placement and the end of tasks -/

theorem execQueueEntryFetch_goesOn (die hwq : Nat) (s : State) : GoesOn (execQueueEntryFetch die hwq s) := by
  simp only [execQueueEntryFetch]
  repeat' first | exact goesOn_next _ | split

theorem execPrestartReport_goesOn (chain die : Nat) (s : State) : GoesOn (execPrestartReport chain die s) := by
  simp only [execPrestartReport]
  repeat' first | exact goesOn_next _ | split

theorem execStartRelease_goesOn (chain : Nat) (s : State) : GoesOn (execStartRelease chain s) := by
  simp only [execStartRelease]
  repeat' first | exact goesOn_next _ | split

theorem execGangReserveTimeout_goesOn (chain : Nat) (s : State) : GoesOn (execGangReserveTimeout chain s) := by
  simp only [execGangReserveTimeout]
  repeat' first | exact goesOn_next _ | split

theorem execDoorbell_goesOn (port offset value : Nat) (s : State) : GoesOn (execDoorbell port offset value s) := by
  simp only [execDoorbell]
  repeat' first | exact goesOn_next _ | split

theorem execTaskPlacement_goesOn (die : Nat) (s : State) : GoesOn (execTaskPlacement die s) := by
  simp only [execTaskPlacement]
  repeat' first | exact goesOn_next _ | split

theorem execBankSwap_goesOn (die core pair : Nat) (s : State) : GoesOn (execBankSwap die core pair s) := by
  simp only [execBankSwap]
  repeat' first | exact goesOn_next _ | split

theorem execNodePreemption_goesOn (die core slot : Nat) (s : State) : GoesOn (execNodePreemption die core slot s) := by
  simp only [execNodePreemption]
  repeat' first | exact goesOn_next _ | split

theorem execSuspendWaitComplete_goesOn (cont : Nat) (s : State) : GoesOn (execSuspendWaitComplete cont s) := by
  simp only [execSuspendWaitComplete]
  repeat' first | exact goesOn_next _ | split

theorem execKernelComplete_goesOn (launch : Nat) (s : State) : GoesOn (execKernelComplete launch s) := by
  simp only [execKernelComplete]
  repeat' first | exact goesOn_next _ | split

theorem execLaunchKill_goesOn (launch : Nat) (s : State) : GoesOn (execLaunchKill launch s) := by
  simp only [execLaunchKill]
  repeat' first | exact goesOn_next _ | split

theorem execTaskKill_goesOn (die core : Nat) (target : KillTarget) (s : State) : GoesOn (execTaskKill die core target s) := by
  simp only [execTaskKill]
  repeat' first | exact goesOn_next _ | split

theorem execCheadWrite_goesOn (part qid value : Nat) (s : State) : GoesOn (execCheadWrite part qid value s) := by
  simp only [execCheadWrite]
  repeat' first | exact goesOn_next _ | split

theorem execForcedEviction_goesOn (die core slot : Nat) (s : State) : GoesOn (execForcedEviction die core slot s) := by
  simp only [execForcedEviction]
  repeat' first | exact goesOn_next _ | split

theorem execEvictionRestore_goesOn (saved : Nat) (s : State) : GoesOn (execEvictionRestore saved s) := by
  simp only [execEvictionRestore]
  repeat' first | exact goesOn_next _ | split

theorem execCoreError_goesOn (die core : Nat) (s : State) : GoesOn (execCoreError die core s) := by
  simp only [execCoreError]
  repeat' first | exact goesOn_next _ | split

theorem execSpareSubstitution_goesOn (die core : Nat) (s : State) : GoesOn (execSpareSubstitution die core s) := by
  simp only [execSpareSubstitution]
  repeat' first | exact goesOn_next _ | split

/-! #### Partition commands and what they leave running -/

theorem execUnmap_goesOn (die hwq ctr : Nat) (s : State) : GoesOn (execUnmap die hwq ctr s) := by
  simp only [execUnmap]
  repeat' first | exact goesOn_next _ | exact goesOn_command _ _ _ | split

theorem execPload_goesOn (part ctr : Nat) (s : State) : GoesOn (execPload part ctr s) := by
  simp only [execPload]
  repeat' first | exact goesOn_next _ | exact goesOn_command _ _ _ | split

theorem execMigrate_goesOn (part va pa ctr : Nat) (s : State) : GoesOn (execMigrate part va pa ctr s) := by
  simp only [execMigrate]
  repeat' first | exact goesOn_next _ | exact goesOn_command _ _ _ | split

theorem execMigrateComplete_goesOn (part va : Nat) (s : State) : GoesOn (execMigrateComplete part va s) := by
  simp only [execMigrateComplete]
  repeat' first | exact goesOn_next _ | exact goesOn_command _ _ _ | split

theorem execCoreset_goesOn (part die mask ctr : Nat) (s : State) : GoesOn (execCoreset part die mask ctr s) := by
  simp only [execCoreset]
  repeat' first | exact goesOn_next _ | exact goesOn_command _ _ _ | split

theorem execMovecont_goesOn (part rec core ctr : Nat) (s : State) : GoesOn (execMovecont part rec core ctr s) := by
  simp only [execMovecont]
  repeat' first | exact goesOn_next _ | exact goesOn_command _ _ _ | split

theorem execAlmset_goesOn (part ctr : Nat) (s : State) : GoesOn (execAlmset part ctr s) := by
  simp only [execAlmset]
  repeat' first | exact goesOn_next _ | exact goesOn_command _ _ _ | split

theorem execChcreate_goesOn (part die desc pa ctr : Nat) (s : State) : GoesOn (execChcreate part die desc pa ctr s) := by
  simp only [execChcreate]
  repeat' first | exact goesOn_next _ | exact goesOn_command _ _ _ | split

/-! #### Rings -/

theorem execSegmentEmission_goesOn (ring : Nat) (s : State) : GoesOn (execSegmentEmission ring s) := by
  simp only [execSegmentEmission]
  repeat' first | exact goesOn_next _ | split

theorem execFirstEmission_goesOn (ring : Nat) (s : State) : GoesOn (execFirstEmission ring s) := by
  simp only [execFirstEmission]
  repeat' first | exact goesOn_next _ | split

theorem execSegmentArrival_goesOn (die seg : Nat) (s : State) : GoesOn (execSegmentArrival die seg s) := by
  simp only [execSegmentArrival]
  repeat' first | exact goesOn_next _ | split

theorem execExpansionCheck_goesOn (die slot : Nat) (s : State) : GoesOn (execExpansionCheck die slot s) := by
  simp only [execExpansionCheck]
  repeat' first | exact goesOn_next _ | split

theorem execOriginReturnCheck_goesOn (seg : Nat) (s : State) : GoesOn (execOriginReturnCheck seg s) := by
  simp only [execOriginReturnCheck]
  repeat' first | exact goesOn_next _ | split

theorem execHomeCopyRestore_goesOn (ring tag : Nat) (s : State) : GoesOn (execHomeCopyRestore ring tag s) := by
  simp only [execHomeCopyRestore]
  repeat' first | exact goesOn_next _ | split

theorem execSlotRetire_goesOn (die slot : Nat) (s : State) : GoesOn (execSlotRetire die slot s) := by
  simp only [execSlotRetire]
  repeat' first | exact goesOn_next _ | split

theorem execSlackExpiry_goesOn (die slot : Nat) (s : State) : GoesOn (execSlackExpiry die slot s) := by
  simp only [execSlackExpiry]
  repeat' first | exact goesOn_next _ | split

theorem execRstop_goesOn (ring : Nat) (mail : Mail) (s : State) : GoesOn (execRstop ring mail s) := by
  simp only [execRstop]
  repeat' first | exact goesOn_next _ | exact goesOn_ringCommand _ _ _ _ _ | split

theorem execRstopComplete_goesOn (ring : Nat) (s : State) : GoesOn (execRstopComplete ring s) := by
  simp only [execRstopComplete]
  repeat' first | exact goesOn_next _ | split

theorem execRingLinkDead_goesOn (ring position : Nat) (s : State) : GoesOn (execRingLinkDead ring position s) := by
  simp only [execRingLinkDead]
  repeat' first | exact goesOn_next _ | split

theorem execMissingSegmentReload_goesOn (ring tag : Nat) (s : State) : GoesOn (execMissingSegmentReload ring tag s) := by
  simp only [execMissingSegmentReload]
  repeat' first | exact goesOn_next _ | split

theorem execBypassLaneRequest_goesOn (ring granted : Nat) (s : State) : GoesOn (execBypassLaneRequest ring granted s) := by
  simp only [execBypassLaneRequest]
  repeat' first | exact goesOn_next _ | split

/-! #### Fabric, host ports and power -/

theorem execTimeFlitSend_goesOn (s : State) : GoesOn (execTimeFlitSend s) := by
  simp only [execTimeFlitSend]
  repeat' first | exact goesOn_next _ | split

theorem execTimeFlitReceive_goesOn (port time delay : Nat) (s : State) : GoesOn (execTimeFlitReceive port time delay s) := by
  simp only [execTimeFlitReceive]
  repeat' first | exact goesOn_next _ | split

theorem execHeartbeat_goesOn (port : Nat) (s : State) : GoesOn (execHeartbeat port s) := by
  simp only [execHeartbeat]
  repeat' first | exact goesOn_next _ | split

theorem execFabricLinkDead_goesOn (port : Nat) (s : State) : GoesOn (execFabricLinkDead port s) := by
  simp only [execFabricLinkDead]
  repeat' first | exact goesOn_next _ | split

theorem execEclipseNotice_goesOn (port silent reporter rport kind stamp nseq : Nat) (s : State) :
    GoesOn (execEclipseNotice port silent reporter rport kind stamp nseq s) := by
  simp only [execEclipseNotice]
  repeat' first | exact goesOn_next _ | split

theorem execRouteRedraw_goesOn (draws : List Nat) (s : State) : GoesOn (execRouteRedraw draws s) := by
  simp only [execRouteRedraw]
  repeat' first | exact goesOn_next _ | split

theorem execFabricRequest_goesOn (source seqno loc : Nat) (req : FabricReq) (s : State) :
    GoesOn (execFabricRequest source seqno loc req s) := by
  simp only [execFabricRequest]
  repeat' first | exact goesOn_next _ | split

theorem execFabricResponse_goesOn (ack : FabricAck) (s : State) : GoesOn (execFabricResponse ack s) := by
  simp only [execFabricResponse]
  repeat' first | exact goesOn_next _ | split

theorem execFabricAdmission_goesOn (package port master : Nat) (s : State) : GoesOn (execFabricAdmission package port master s) := by
  simp only [execFabricAdmission]
  repeat' first | exact goesOn_next _ | split

theorem execLinkLevelReplay_goesOn (port : Nat) (s : State) : GoesOn (execLinkLevelReplay port s) := by
  simp only [execLinkLevelReplay]
  repeat' first | exact goesOn_next _ | split

theorem execTokenFrameClose_goesOn (part : Nat) (s : State) : GoesOn (execTokenFrameClose part s) := by
  simp only [execTokenFrameClose]
  repeat' first | exact goesOn_next _ | split

theorem execTsHeadWrite_goesOn (part head : Nat) (s : State) : GoesOn (execTsHeadWrite part head s) := by
  simp only [execTsHeadWrite]
  repeat' first | exact goesOn_next _ | split

theorem execReadRoutingEntry_goesOn (port index : Nat) (s : State) : GoesOn (execReadRoutingEntry port index s) := by
  simp only [execReadRoutingEntry]
  repeat' first | exact goesOn_next _ | split

theorem execPcieLinkDown_goesOn (port : Nat) (s : State) : GoesOn (execPcieLinkDown port s) := by
  simp only [execPcieLinkDown]
  repeat' first | exact goesOn_next _ | split

theorem execPcieLinkUp_goesOn (port : Nat) (s : State) : GoesOn (execPcieLinkUp port s) := by
  simp only [execPcieLinkUp]
  repeat' first | exact goesOn_next _ | split

theorem execPatrolScrub_goesOn (word : Nat) (s : State) : GoesOn (execPatrolScrub word s) := by
  simp only [execPatrolScrub]
  repeat' first | exact goesOn_next _ | split

theorem execPowerRequest_goesOn (port state freq : Nat) (s : State) : GoesOn (execPowerRequest port state freq s) := by
  simp only [execPowerRequest]
  repeat' first | exact goesOn_next _ | split

theorem execPowerStateEntry_goesOn (s : State) : GoesOn (execPowerStateEntry s) := by
  simp only [execPowerStateEntry]
  repeat' first | exact goesOn_next _ | split

theorem execPowerStateExit_goesOn (s : State) : GoesOn (execPowerStateExit s) := by
  simp only [execPowerStateExit]
  repeat' first | exact goesOn_next _ | split

theorem execFreezeReadout_goesOn (s : State) : GoesOn (execFreezeReadout s) := by
  simp only [execFreezeReadout]
  repeat' first | exact goesOn_next _ | split

theorem execReset_goesOn (s : State) : GoesOn (execReset s) := by
  simp only [execReset]
  repeat' first | exact goesOn_next _ | split

/-! #### All of them -/

/-- Whatever the instruction or device step and whatever the state, its meaning answers a next state. -/
theorem exec_goesOn (i : Instr) (s : State) : GoesOn (exec i s) := by
  cases i
  -- meanings that are a next state as they stand
  case add | sub | and | or | xor | andn | sll | srl | sra | ror | slt | sltu | min | max | minu | maxu | mul | mulh | mulhu | div | divu
    | rem | remu | clz | ctz | popc | addi | andi | ori | xori | slli | srli | srai | slti | sltiu | lih | addpc | liw | addiw | beq | bne
    | blt | bge | bltu | bgeu | jal | cmov | cinc | cinci | csetb | candp | cgetb | cgetl | cgetc | cgetp | cgett | syncq | fence | nop |
    trap | brk | ifence | illegalInstruction | pmarkWrite | efqResume | efqAbort | seqclrStop | seqclrWait | storePerformAtHome |
    atomicPerformAtHome | collDelivery | spillScan | droopStretch | freeze | attestationReport =>
    exact goesOn_next _
  -- instructions that advance, trap or wait as their checks say
  case ldb | ldh | ldw | ldd | ldbu | ldhu | ldwu | stb | sth | stw | std | cldc | cstc | waitc | amoadd | amoand | amoor | amoxor |
    amomin | amomax | amominu | amomaxu | amoswp | amocas | amofadd | amofmin | amofmax | amobfadd2 | redadd | redand | redor | redxor |
    redmin | redmax | redminu | redmaxu | redfadd | redfmin | redfmax | redbfadd2 | ctrsig | ctrrd | barinit | bararv | barxb | bartest |
    chpush | chrel | chstat | awaitch | gjoin | gleave | yield | hintnext | self | cpy | cpyt | cpyg | cpys | cpyc | cpyf | cpyb | qaddr |
    qstat | qfmt | mfree | mjob | mstat | mdrain | merrrd | tcfg | tzero | tldrow | tstrow | tld | tst | trowv | tcolv | tvrow | tvcol |
    ttrans | tmma | trel | trinfo | trdone | trhold | trskip | trnext | trqry | tagdecl | tagpub | tagqry | tagret | coll | tkcommit |
    tkput | wpset | wpclr | wprd | seqst | vfadd | vfsub | vfmul | vfma | vfms | vfnma | vfnms | vfmin | vfmax | vfminm | vfmaxm | vfabs |
    vfneg | vfsgnj | vfdiv | vfsqrt | vfrcp | vfrsq | vfexp2 | vflog2 | vftanh | vfceq | vfcne | vfclt | vfcle | vfcun | vceq | vcne |
    vclt | vcle | vcltu | vcleu | vadd | vsub | vadds | vsubs | vmul | vmulh | vmulhu | vmin | vmax | vminu | vmaxu | vabs | vand | vor |
    vxor | vandn | vnot | vsll | vsrl | vsra | vpopc | vclz | vcvt | vcvtsat | vqfp4 | vdqfp4 | vqfp8 | vblksc | vbndsc | vperm | vslideup
    | vslidedn | vziplo | vziphi | vrev | vcompr | vexpnd | vsel | vrsum | vrmax | vrmin | vrmaxi | vrmini | vscans | vrand | vror | vtopk
    | vspc | vspx | vbpt | vbpu | vld | vst | vlds | vsts | vgth | vsct | vsctadd | vldb | kand | kor | kxor | knot | kpop | kfirst | kset
    | kmov | vsett | vmvs | vmve | vins | vid | vrng | vgumb | vflgrd | vflgclr | vmov | ctlrd | ctlwr | ctlset | ctlclr =>
    exact goesOn_finish _ _ _
  -- instructions that wait on an object
  case ctrwait | barwait | chrsv | chawait | qbind | qdrain | mlease | tagwait =>
    exact goesOn_finishWait _ _
  -- commands, which answer done or failed
  case map | destroy | grant | revoke | chfree =>
    exact goesOn_command _ _ _
  case groupset | groupclr | ownerset | tsring =>
    exact goesOn_mailbox _ _ _ _
  case rform | rload | rstart | rslack | rjoin =>
    exact goesOn_ringCommand _ _ _ _ _
  -- supervisor instructions
  case halt => exact goesOn_systemOp _ _ fun _ => goesOn_next _
  case eret => exact execEret_goesOn ..
  case wfi => exact execWfi_goesOn ..
  case tlbinv => exact execTlbinv_goesOn ..
  case quardr => exact execQuardr_goesOn ..
  case ctxsv => exact execCtxsv_goesOn ..
  case ctxld => exact execCtxld_goesOn ..
  -- pops of a stream, LAUNCH and SPAWN
  case qpops => exact execQpops_goesOn ..
  case qpopv => exact execQpopv_goesOn ..
  case qpeek => exact execQpeek_goesOn ..
  case launch | spawn => exact goesOn_launchOp _ _ _ _ _
  -- meanings that branch on what they find
  case jalr => exact execJalr_goesOn ..
  case waitvis => exact execWaitvis_goesOn ..
  case node => exact execNode_goesOn ..
  case gsync => exact execGsync_goesOn ..
  case exit => exact execExit_goesOn ..
  case suspend => exact execSuspend_goesOn ..
  case trbind => exact execTrbind_goesOn ..
  case trwait => exact execTrwait_goesOn ..
  case trapEntry => exact execTrapEntry_goesOn ..
  case remoteLoadReturn => exact execRemoteLoadReturn_goesOn ..
  case wfiDeadline => exact execWfiDeadline_goesOn ..
  case firmwareContextRestart => exact execFirmwareContextRestart_goesOn ..
  case trwaitDeadline => exact execTrwaitDeadline_goesOn ..
  case trbindDecision => exact execTrbindDecision_goesOn ..
  case barrierWatchdog => exact execBarrierWatchdog_goesOn ..
  case streamReadIssue => exact execStreamReadIssue_goesOn ..
  case streamElementArrival => exact execStreamElementArrival_goesOn ..
  case copyStart => exact execCopyStart_goesOn ..
  case copyComplete => exact execCopyComplete_goesOn ..
  case cpytRelease => exact execCpytRelease_goesOn ..
  case cpybSlotReserve => exact execCpybSlotReserve_goesOn ..
  case matrixLeaseGrant => exact execMatrixLeaseGrant_goesOn ..
  case matrixJobStart => exact execMatrixJobStart_goesOn ..
  case matrixJobComplete => exact execMatrixJobComplete_goesOn ..
  case collContribution => exact execCollContribution_goesOn ..
  case queueEntryFetch => exact execQueueEntryFetch_goesOn ..
  case prestartReport => exact execPrestartReport_goesOn ..
  case startRelease => exact execStartRelease_goesOn ..
  case gangReserveTimeout => exact execGangReserveTimeout_goesOn ..
  case doorbell => exact execDoorbell_goesOn ..
  case taskPlacement => exact execTaskPlacement_goesOn ..
  case bankSwap => exact execBankSwap_goesOn ..
  case nodePreemption => exact execNodePreemption_goesOn ..
  case suspendWaitComplete => exact execSuspendWaitComplete_goesOn ..
  case kernelComplete => exact execKernelComplete_goesOn ..
  case launchKill => exact execLaunchKill_goesOn ..
  case taskKill => exact execTaskKill_goesOn ..
  case cheadWrite => exact execCheadWrite_goesOn ..
  case forcedEviction => exact execForcedEviction_goesOn ..
  case evictionRestore => exact execEvictionRestore_goesOn ..
  case coreError => exact execCoreError_goesOn ..
  case spareSubstitution => exact execSpareSubstitution_goesOn ..
  case unmap => exact execUnmap_goesOn ..
  case pload => exact execPload_goesOn ..
  case migrate => exact execMigrate_goesOn ..
  case migrateComplete => exact execMigrateComplete_goesOn ..
  case coreset => exact execCoreset_goesOn ..
  case movecont => exact execMovecont_goesOn ..
  case almset => exact execAlmset_goesOn ..
  case chcreate => exact execChcreate_goesOn ..
  case segmentEmission => exact execSegmentEmission_goesOn ..
  case firstEmission => exact execFirstEmission_goesOn ..
  case segmentArrival => exact execSegmentArrival_goesOn ..
  case expansionCheck => exact execExpansionCheck_goesOn ..
  case originReturnCheck => exact execOriginReturnCheck_goesOn ..
  case homeCopyRestore => exact execHomeCopyRestore_goesOn ..
  case slotRetire => exact execSlotRetire_goesOn ..
  case slackExpiry => exact execSlackExpiry_goesOn ..
  case rstop => exact execRstop_goesOn ..
  case rstopComplete => exact execRstopComplete_goesOn ..
  case ringLinkDead => exact execRingLinkDead_goesOn ..
  case missingSegmentReload => exact execMissingSegmentReload_goesOn ..
  case bypassLaneRequest => exact execBypassLaneRequest_goesOn ..
  case timeFlitSend => exact execTimeFlitSend_goesOn ..
  case timeFlitReceive => exact execTimeFlitReceive_goesOn ..
  case heartbeat => exact execHeartbeat_goesOn ..
  case fabricLinkDead => exact execFabricLinkDead_goesOn ..
  case eclipseNotice => exact execEclipseNotice_goesOn ..
  case routeRedraw => exact execRouteRedraw_goesOn ..
  case fabricRequest => exact execFabricRequest_goesOn ..
  case fabricResponse => exact execFabricResponse_goesOn ..
  case fabricAdmission => exact execFabricAdmission_goesOn ..
  case linkLevelReplay => exact execLinkLevelReplay_goesOn ..
  case tokenFrameClose => exact execTokenFrameClose_goesOn ..
  case tsHeadWrite => exact execTsHeadWrite_goesOn ..
  case readRoutingEntry => exact execReadRoutingEntry_goesOn ..
  case pcieLinkDown => exact execPcieLinkDown_goesOn ..
  case pcieLinkUp => exact execPcieLinkUp_goesOn ..
  case patrolScrub => exact execPatrolScrub_goesOn ..
  case powerRequest => exact execPowerRequest_goesOn ..
  case powerStateEntry => exact execPowerStateEntry_goesOn ..
  case powerStateExit => exact execPowerStateExit_goesOn ..
  case freezeReadout => exact execFreezeReadout_goesOn ..
  case reset => exact execReset_goesOn ..

/-- Settles O7, by the cases of the instruction: each meaning ends by an operation that goes on, or each of its branches is a
next state. -/
theorem everyInstructionGoesOn : Obligations.EveryInstructionGoesOn := exec_goesOn

end Sys2Proof.Machine
end

section
/-! PROOFS. What stays when only the issuing context changes; scalar arithmetic; a step that issues. -/

namespace Sys2Proof.Machine

/-! ### When only a context's own data differs -/

theorem sameScalars_of {s t : State} (h : t.hart.s = s.hart.s) : SameScalars s t := fun r => by simp [State.rs, h]
theorem sameCaps_of {s t : State} (h : t.hart.c = s.hart.c) : SameCaps s t := fun r => by simp [State.rc, h]
theorem sameVectors_of {s t : State} (h : t.hart.vec = s.hart.vec) : SameVectors s t := by simp [SameVectors, State.rv, h]
theorem sameMasks_of {s t : State} (h : t.hart.vec = s.hart.vec) : SameMasks s t := fun r => by simp [State.rk, h]

/-- Every register of the issuing context reads as before. -/
def SameRegisters (s t : State) : Prop := SameScalars s t ∧ SameCaps s t ∧ SameVectors s t ∧ SameMasks s t ∧ SameTiles s t

theorem sameRegisters_of {s t : State} (hs : t.hart.s = s.hart.s) (hc : t.hart.c = s.hart.c) (hv : t.hart.vec = s.hart.vec)
    (ht : t.hart.tile = s.hart.tile) (hq : t.hart.q = s.hart.q) : SameRegisters s t :=
  ⟨sameScalars_of hs, sameCaps_of hc, sameVectors_of hv, sameMasks_of hv, ht, hq⟩

theorem OnlyHere.here {s t : State} (h : OnlyHere s t) : t.here = s.here := by rw [h]

theorem OnlyHere.dieByte {s t : State} (h : OnlyHere s t) (d k : Nat) : t.dieByte d k = s.dieByte d k := by rw [h]; rfl

theorem OnlyHere.homeByte {s t : State} (h : OnlyHere s t) (k : Nat) : t.homeByte k = s.homeByte k := by rw [h]; rfl

/-- A context that keeps its store queue reads memory as before when nothing outside it has changed. -/
theorem OnlyHere.sameMemory {s t : State} (h : OnlyHere s t) (hq : t.hart.stores = s.hart.stores) : SameMemory s t := by
  unfold OnlyHere at h
  rw [h]
  refine ⟨fun k => ?_, fun k => rfl, fun k => ?_⟩
  · simp only [State.readByte, hq]; rfl
  · simp only [State.readTag, hq]; rfl

/-! ### A write of a scalar register -/

theorem State.ws_hart (s : State) (d : SReg) (v : Word) :
    (s.ws d v).hart = { s.hart with s := if d = 0 then s.hart.s else s.hart.s.set d.toNat v d.isLt } := by
  unfold State.ws; split <;> simp [*]

theorem onlyHere_ws_advance (s : State) (d : SReg) (v : Word) (n : Nat) : OnlyHere s ((s.ws d v).advance n) := by
  unfold OnlyHere State.ws; split <;> rfl

/-- A scalar result changes its destination and the PC, and nothing else that an instruction can see. -/
theorem frame_ws_advance (s : State) (d : SReg) (v : Word) (n : Nat) (t : State) (ht : t = (s.ws d v).advance n) :
    OnlyHere s t ∧ SameScalarsBut d s t ∧ SameCaps s t ∧ SameVectors s t ∧ SameMasks s t ∧ SameTiles s t ∧ SameMemory s t ∧
      t.hart.pc = s.hart.pc + BitVec.ofNat 64 n := by
  subst ht
  have hh := s.ws_hart d v
  have here := onlyHere_ws_advance s d v n
  refine ⟨here, fun r hr => ?_, sameCaps_of ?_, sameVectors_of ?_, sameMasks_of ?_, ⟨?_, ?_⟩, here.sameMemory ?_, ?_⟩
  · exact (State.rs_ws s d r v).trans (if_neg fun e => hr e.1)
  all_goals simp [hh]

/-- A scalar arithmetic instruction writes some value to its destination and moves past its words. -/
theorem exec_scalarOp {i : Instr} {d : SReg} {f : State → Word} (h : Claims.scalarOp i = some (d, f)) (s : State) :
    ∃ v, exec i s = .next ((s.ws d v).advance (4 * (encode i).length)) := by
  unfold Claims.scalarOp at h
  split at h
  all_goals cases h
  all_goals exact ⟨_, rfl⟩

/-- Settles O12: the result is one register write and a new PC. -/
theorem scalarFrame : Obligations.ScalarFrame := by
  intro i d f hf s t ht
  obtain ⟨v, hv⟩ := exec_scalarOp hf s
  rw [hv] at ht
  cases ht
  exact frame_ws_advance s d v _ _ rfl

/-! ### A step that issues -/

/-- Settles O3: the agenda's issue and the model's own turn both issue the context, and issuing fetches and runs. -/
theorem stepRunsTheDecodedInstruction : Obligations.StepRunsTheDecodedInstruction := by
  intro s u v c hc hv
  have hstep : step s = u.issueFrom c := by
    rcases hc with ⟨rest, hag, rfl, hmay⟩ | ⟨hag, hrun, hdue, hpick, hturn, rfl⟩
    · simp only [step, hag, State.take, hmay, if_true]
    · simp only [State.running, Bool.and_eq_true, Bool.not_eq_true', decide_eq_true_eq] at hrun
      obtain ⟨⟨⟨hboot, hhalt⟩, hfroz⟩, hps⟩ := hrun
      simp [step, hag, State.proceed, hboot, hhalt, hfroz, hdue, hpick, hturn, Nat.not_le.2 hps]
  rw [hstep]
  subst hv
  refine ⟨fun w x t hf => ⟨fun i hi => ?_, fun hn => ?_⟩, fun e y t hf => ?_⟩
  · simp only [State.issueFrom, hf, hi]
  · simp only [State.issueFrom, hf, hn]
  · simp only [State.issueFrom, hf]; rfl

end Sys2Proof.Machine
end

section
/-! PROOFS. Accesses: a failed check ends the instruction, what a scalar store leaves to be read, what a scalar load changes. -/

namespace Sys2Proof.Machine

/-! ### A failed check ends an instruction -/

/-- The end of an instruction is its check's, if that fails: the check's trap, or its wait. -/
def PassesOn (s : State) (r : R Nat) (res : Res) : Prop :=
  (∀ e v t, r = .trap e v t → res = .next (t.takeTrap e v 4)) ∧ (r = .wait → res = .next s.block)

/-- An instruction that binds what it does to a check passes on the check's failure. -/
theorem passesOn_bind (s : State) (r : R Nat) (f : Nat → State → R Unit) : PassesOn s r (finish 4 s (r.bind f)) :=
  ⟨fun _ _ _ hr => by rw [hr]; rfl, fun hr => by rw [hr]; rfl⟩

/-- A scalar load is the load of its row of the table (R166). -/
theorem exec_scalarLoadOf {i : Instr} {d : SReg} {c : CReg} {imm : BitVec 13} {n : Nat} {signed : Bool}
    (h : Claims.scalarLoadOf i = some (d, c, imm, n, signed)) (s : State) :
    exec i s = finish 4 s (s.load (s.rc c) (Claims.effective (s.rc c) imm) n .load (.scalar d n signed)) := by
  unfold Claims.scalarLoadOf at h
  split at h
  all_goals cases h
  all_goals rfl

/-- A scalar store is the store of its row of the table (R166). -/
theorem exec_scalarStoreOf {i : Instr} {d : SReg} {c : CReg} {imm : BitVec 13} {n : Nat}
    (h : Claims.scalarStoreOf i = some (d, c, imm, n)) (s : State) :
    exec i s = finish 4 s (s.store (s.rc c) (Claims.effective (s.rc c) imm) n (s.rs d).toNat) := by
  unfold Claims.scalarStoreOf at h
  split at h
  all_goals cases h
  all_goals rfl

theorem passesOn_scalarLoad {i : Instr} {d : SReg} {c : CReg} {imm : BitVec 13} {n : Nat} {signed : Bool}
    (h : Claims.scalarLoadOf i = some (d, c, imm, n, signed)) (s : State) :
    PassesOn s (s.access s.who (s.rc c) (Claims.effective (s.rc c) imm) n n .load) (exec i s) :=
  exec_scalarLoadOf h s ▸ passesOn_bind _ _ _

theorem passesOn_scalarStore {i : Instr} {d : SReg} {c : CReg} {imm : BitVec 13} {n : Nat}
    (h : Claims.scalarStoreOf i = some (d, c, imm, n)) (s : State) :
    PassesOn s (s.access s.who (s.rc c) (Claims.effective (s.rc c) imm) n n .store) (exec i s) :=
  exec_scalarStoreOf h s ▸ passesOn_bind _ _ _

/-- Bytes of an atomic (R249). -/
def widthBytes (wide : Bool) : Nat := if wide then 8 else 4

theorem widthBytes_eq (w : BitVec 1) : (if w = 1 then 8 else 4) = widthBytes (w == 1) := by simp [widthBytes]

/-- A returning atomic passes on the failure of its check (R249). -/
theorem passesOn_atomicReturn (d : SReg) (c : CReg) (sf : BitVec 3) (r : BitVec 2) (wide fp : Bool) (new : Nat → Option Nat) (s : State) :
    PassesOn s (s.access s.who (s.rc c) (s.rc c).cursor (widthBytes wide) (widthBytes wide) .atomic)
      (atomicReturn d c sf r wide fp new s) :=
  passesOn_bind _ _ _

/-- A reduction passes on the failure of its check (R249). -/
theorem passesOn_atomicReduce (c : CReg) (b : SReg) (sf : BitVec 3) (r : BitVec 2) (wide : Bool) (op : Nat) (s : State) :
    PassesOn s (s.access s.who (s.rc c) (s.rc c).cursor (widthBytes wide) (widthBytes wide) .atomic)
      (atomicReduce c b sf r wide op s) :=
  passesOn_bind _ _ _

/-- Every instruction with an access in the table passes on the failure of its check. -/
theorem passesOn_accessOf {i : Instr} {s : State} {c : Cap} {x : Int} {n : Nat} {k : Kind}
    (h : Claims.accessOf s i = some (c, x, n, k)) : PassesOn s (s.access s.who c x n n k) (exec i s) := by
  unfold Claims.accessOf at h
  split at h
  -- CLDC and CSTC
  iterate 2 cases h; exact passesOn_bind _ _ _
  -- returning atomics of either width, then reductions of either width
  iterate 10 cases h; rw [widthBytes_eq]; simp only [exec]; exact passesOn_atomicReturn ..
  iterate 8 cases h; rw [widthBytes_eq]; simp only [exec]; exact passesOn_atomicReduce ..
  -- the floating-point forms, of four bytes
  iterate 4 cases h; simp only [exec]; exact passesOn_atomicReturn _ _ _ _ false ..
  iterate 4 cases h; simp only [exec]; exact passesOn_atomicReduce _ _ _ _ false ..
  -- scalar loads and stores
  split at h
  case h_1 hl => cases h; exact passesOn_scalarLoad hl s
  case h_2 hs => cases h; exact passesOn_scalarStore hs s
  case h_3 => cases h

/-- Settles O16: every instruction of the table checks its access before anything else. -/
theorem failedAccessTraps : Obligations.FailedAccessTraps := fun _ _ _ _ _ _ h => passesOn_accessOf h

/-! ### Little-endian bytes -/

@[simp] theorem leBytes_length (n x : Nat) : (leBytes n x).length = n := by
  induction n generalizing x with
  | zero => rfl
  | succ n ih => simp [leBytes, ih]

/-- Byte `j` of a number in little-endian order. -/
theorem leBytes_getElem (n x : Nat) {j : Nat} (hj : j < (leBytes n x).length) :
    (leBytes n x)[j] = BitVec.ofNat 8 (x / 2 ^ (8 * j)) := by
  induction n generalizing x j with
  | zero => simp [leBytes] at hj
  | succ n ih =>
    cases j with
    | zero => simp [leBytes, ← BitVec.toNat_inj]
    | succ j =>
      have h2 : x / 2 ^ (8 * (j + 1)) = x / 256 / 2 ^ (8 * j) := by
        rw [Nat.div_div_eq_div_mul, Nat.mul_add, Nat.pow_add]; norm_num [Nat.mul_comm]
      simp only [leBytes, List.getElem_cons_succ]
      rw [ih, h2]

/-! ### A store at the end of a store queue -/

/-- The cell of an address inside a run. -/
theorem find_cellsAt_inside (k : Nat) (bs : List Byte) {j : Nat} (hj : j < bs.length) :
    (cellsAt k bs).find? (fun c => c.1 = k + j) = some (k + j, bs[j]) := by
  induction bs generalizing k j with
  | nil => simp at hj
  | cons b t ih =>
    cases j with
    | zero => simp [cellsAt]
    | succ j =>
      have := ih (k + 1) (j := j) (by simpa using hj)
      simp only [show k + 1 + j = k + (j + 1) by omega] at this
      simpa [cellsAt] using this

/-- No cell of a run has an address outside it. -/
theorem find_cellsAt_outside (k : Nat) (bs : List Byte) {a : Nat} (ha : a < k ∨ k + bs.length ≤ a) :
    (cellsAt k bs).find? (fun c => c.1 = a) = none := by
  rw [List.find?_eq_none]
  intro c hc
  obtain ⟨j, hj, rfl⟩ := (mem_cellsAt k bs c).1 hc
  simp only [decide_eq_true_eq]
  omega

theorem newestByte_append (q : List Pending) (p : Pending) (k : Nat) :
    newestByte (q ++ [p]) k = (p.byte? k).or (newestByte q k) := by
  simp only [newestByte, List.foldl_append, List.foldl_cons, List.foldl_nil]
  cases p.byte? k <;> rfl

theorem newestByte_append_store_inside (q : List Pending) (ord ctx k : Nat) (bs : List Byte) (tag tile : Bool) {j : Nat}
    (hj : j < bs.length) : newestByte (q ++ [.store ord ctx (cellsAt k bs) tag tile]) (k + j) = some bs[j] := by
  simp [newestByte_append, Pending.byte?, find_cellsAt_inside k bs hj]

theorem newestByte_append_store_outside (q : List Pending) (ord ctx k : Nat) (bs : List Byte) (tag tile : Bool) {a : Nat}
    (ha : a < k ∨ k + bs.length ≤ a) : newestByte (q ++ [.store ord ctx (cellsAt k bs) tag tile]) a = newestByte q a := by
  simp [newestByte_append, Pending.byte?, find_cellsAt_outside k bs ha]

/-- A store gives the granules it touches its own tag. -/
theorem newestTag_append_store (q : List Pending) (ord ctx k : Nat) (bs : List Byte) (tag tile : Bool) {j : Nat} (hj : j < bs.length) :
    newestTag (q ++ [.store ord ctx (cellsAt k bs) tag tile]) ((k + j) / 16) = some tag := by
  have touched : (cellsAt k bs).any (fun c => c.1 / 16 = (k + j) / 16) = true :=
    List.any_eq_true.2 ⟨_, (mem_cellsAt k bs _).2 ⟨j, hj, rfl⟩, by simp⟩
  simp only [newestTag, List.foldl_append, List.foldl_cons, List.foldl_nil, touched, if_true]

/-! ### A scalar store -/

/-- The state after a scalar store at `k` that completes: its bytes at the end of the store queue, the PC past it. -/
def State.stored (s : State) (space k : Nat) (bs : List Byte) : State :=
  ((s.enqueueStore (cellsAt k bs) false false).storeEffect space).advance 4

/-- A scalar store whose access passes leaves its bytes in the store queue (R119, R166). -/
theorem exec_scalarStore_passed {i : Instr} {d : SReg} {c : CReg} {imm : BitVec 13} {n : Nat}
    (h : Claims.scalarStoreOf i = some (d, c, imm, n)) {s : State} {k : Nat}
    (ha : s.access s.who (s.rc c) (Claims.effective (s.rc c) imm) n n .store = .ok k s) :
    exec i s = .next (s.stored (s.rc c).space k (leBytes n (s.rs d).toNat)) := by
  rw [exec_scalarStoreOf h, State.store, ha]
  rfl

theorem stored_stores (s : State) (space k : Nat) (bs : List Byte) : (s.stored space k bs).hart.stores =
    s.hart.stores ++ [.store s.hart.issued s.here.key (cellsAt k bs) false false] := by
  unfold State.stored State.storeEffect; split <;> rfl

theorem onlyHere_stored (s : State) (space k : Nat) (bs : List Byte) : OnlyHere s (s.stored space k bs) := by
  unfold OnlyHere State.stored State.storeEffect; split <;> rfl

theorem sameRegisters_stored (s : State) (space k : Nat) (bs : List Byte) : SameRegisters s (s.stored space k bs) := by
  apply sameRegisters_of
  all_goals unfold State.stored State.storeEffect; split <;> rfl

/-! ### Reading what was stored -/

theorem readByte_stored_inside (s : State) (space k : Nat) (bs : List Byte) {j : Nat} (hj : j < bs.length) :
    (s.stored space k bs).readByte (k + j) = bs[j] := by
  simp only [State.readByte, stored_stores, newestByte_append_store_inside _ _ _ _ _ _ _ hj]

theorem readByte_stored_outside (s : State) (space k : Nat) (bs : List Byte) {a : Nat} (ha : a < k ∨ k + bs.length ≤ a) :
    (s.stored space k bs).readByte a = s.readByte a := by
  have here := onlyHere_stored s space k bs
  simp only [State.readByte, stored_stores, newestByte_append_store_outside _ _ _ _ _ _ _ ha, here.dieByte, here.here]

theorem readTag_stored (s : State) (space k : Nat) (bs : List Byte) {j : Nat} (hj : j < bs.length) :
    (s.stored space k bs).readTag (k + j) = false := by
  simp only [State.readTag, stored_stores, newestTag_append_store _ _ _ _ _ _ _ hj]

/-- A load of a younger instruction forwards from the store (R119). -/
theorem queueByte_stored (s : State) (space k : Nat) (bs : List Byte) {m j : Nat} (hm : s.hart.issued < m) (hj : j < bs.length) :
    (s.stored space k bs).queueByte (s.stored space k bs).here m (k + j) = bs[j] := by
  have older : (s.stored space k bs).olderStores (s.stored space k bs).here m =
      s.hart.stores.filter (fun p => p.ord < m) ++ [.store s.hart.issued s.here.key (cellsAt k bs) false false] := by
    simp only [State.olderStores, State.hartAt_here, stored_stores, List.filter_append]
    congr 1
    simp [Pending.ord, hm]
  simp only [State.queueByte, older, newestByte_append_store_inside _ _ _ _ _ _ _ hj]

/-- Settles O19: the store queue forwards the bytes of its newest entry, and the rest is read where it was. -/
theorem storedBytesReadBack : Obligations.StoredBytesReadBack := by
  intro i d c imm n hi s t k ha ht
  rw [exec_scalarStore_passed hi ha] at ht
  cases ht
  have hn := leBytes_length n (s.rs d).toNat
  have here := onlyHere_stored s (s.rc c).space k (leBytes n (s.rs d).toNat)
  refine ⟨fun j hj => ?_, fun a h => ?_, fun j hj => ?_, fun m j hm hj => ?_, here.homeByte, here, sameRegisters_stored ..⟩
  · rw [readByte_stored_inside _ _ _ _ (hn.symm ▸ hj), leBytes_getElem]
  · exact readByte_stored_outside _ _ _ _ (hn.symm ▸ h)
  · exact readTag_stored _ _ _ _ (hn.symm ▸ hj)
  · rw [queueByte_stored _ _ _ _ hm (hn.symm ▸ hj), leBytes_getElem]

/-! ### A scalar load -/

/-- A scalar load whose access passes at a home that is there, with no bad word in its way, joins the load queue (R119, R166). -/
theorem exec_scalarLoad_passed {i : Instr} {d : SReg} {c : CReg} {imm : BitVec 13} {n : Nat} {signed : Bool}
    (h : Claims.scalarLoadOf i = some (d, c, imm, n, signed)) {s : State} {k : Nat}
    (ha : s.access s.who (s.rc c) (Claims.effective (s.rc c) imm) n n .load = .ok k s) (hl : s.lost k = false) (hb : s.badBytes k n = []) :
    exec i s = .next ((s.queueLoad (s.rc c).space n (.scalar d n signed) [(0, k)]).advance 4) := by
  rw [exec_scalarLoadOf h, State.load, ha]
  simp only [R.bind_ok, hl, hb, finish_ok, Bool.false_eq_true, if_false]

theorem sameRegisters_queueLoad (s : State) (space n : Nat) (dest : LoadDest) (elems : List (Nat × Nat)) :
    SameRegisters s ((s.queueLoad space n dest elems).advance 4) :=
  sameRegisters_of rfl rfl rfl rfl rfl

theorem onlyHere_queueLoad (s : State) (space n : Nat) (dest : LoadDest) (elems : List (Nat × Nat)) :
    OnlyHere s ((s.queueLoad space n dest elems).advance 4) := rfl

/-- A task trap changes no register (R77, R364). -/
theorem sameRegisters_taskTrap {s : State} (hf : s.isFw = false) (e : Cause) (v : Word) (n : Nat) :
    SameRegisters s (s.takeTrap e v n) := by
  have hh := (congrArg State.hart (takeTrap_task hf e v n)).trans (trapContext_here s e v n)
  exact sameRegisters_of (by rw [hh]) (by rw [hh]) (by rw [hh]) (by rw [hh]) (by rw [hh])

/-! ### The oldest load performed -/

@[simp] theorem State.hartAt_mod_here (s : State) (f : Hart → Hart) : (s.mod f).hartAt s.here = f s.hart := (s.mod f).hartAt_here

@[simp] theorem State.modHart_mod_here (s : State) (f g : Hart → Hart) : (s.mod f).modHart s.here g = s.mod fun h => g (f h) :=
  (s.mod f).modHart_self g

/-- The issuing task has performed its oldest load, a scalar one: its register has a value `v`, the load is gone from the queue and the
mark of what it forwarded from has moved (R119, R166). -/
def State.received (s : State) (d : SReg) (v : Word) (forwarded : Nat) (rest : List LoadRec) : State :=
  s.mod fun h => { h with s := if d = 0 then h.s else h.s.set d.toNat v d.isLt, forwarded := forwarded, loads := rest }

/-- A scalar load that is the oldest of the issuing task, with nothing to settle before it and no bad word in its way, gives its
register a value and leaves the load queue. -/
theorem performUnit_scalar {s : State} {r : LoadRec} {rest : List LoadRec} {k n : Nat} {d : SReg} {signed : Bool}
    (hq : s.hart.loads = r :: rest) (he : r.elems = [⟨0, k, none⟩]) (hd : r.dest = .scalar d n signed) (hn : r.n = n)
    (hk : keyRegion k ≠ 4) (hs : s.settleFor s.here r.ord k n = s) (hb : s.badDrawn s.here r.ord k n = []) :
    ∃ v f, s.performUnit s.here 0 = s.received d v f rest := by
  have home : s.refused k = false := by simp [State.refused, hk]
  subst hn
  simp only [State.performUnit, State.hartAt_here, hq, he, List.length_cons, List.length_nil, zero_add, Order.lt_one_iff, getElem?_pos,
    List.getElem_cons_zero, hd, Bool.false_eq_true, ↓reduceIte, hk, decide_false, hs, Bool.false_and, hb, decide_true, home, Bool.not_false,
    Bool.and_self, List.modify_zero_cons, State.modHart_self, State.hartAt_mod_here, List.all_cons, Option.isSome_some, List.all_nil,
    Hart.receive, LoadRec.value, List.find?_cons_of_pos, Option.bind_some, Option.getD_some, State.modHart_mod_here, State.received]
  exact ⟨_, _, rfl⟩

theorem onlyHere_received (s : State) (d : SReg) (v : Word) (f : Nat) (rest : List LoadRec) : OnlyHere s (s.received d v f rest) := rfl

theorem rs_received (s : State) (d r : SReg) (v : Word) (f : Nat) (rest : List LoadRec) :
    (s.received d v f rest).rs r = (s.ws d v).rs r := by
  simp [State.rs, State.received, State.ws_hart]

/-- Settles O20: a load that completes only joins the load queue, and performed it writes its register; a failed check is a task
trap, which keeps every register. -/
theorem loadFrame : Obligations.LoadFrame := by
  refine ⟨fun i d c imm n signed hi s t ht => ⟨fun k ha hl hb => ?_, fun e v ha hf => ?_⟩, ?_⟩
  · rw [exec_scalarLoad_passed hi ha hl hb] at ht
    cases ht
    have here := onlyHere_queueLoad s (s.rc c).space n (.scalar d n signed) [(0, k)]
    obtain ⟨hs, hc, hv, hm, htl⟩ := sameRegisters_queueLoad s (s.rc c).space n (.scalar d n signed) [(0, k)]
    exact ⟨hs, hc, hv, hm, htl, here.sameMemory rfl, here, ⟨_, rfl⟩, rfl⟩
  · have trap := (passesOn_scalarLoad hi s).1 e v s ha
    rw [ht] at trap
    cases trap
    obtain ⟨hs, hc, hv, hm, htl⟩ := sameRegisters_taskTrap hf e v 4
    exact ⟨hs, hc, hv, hm, htl, takeTrap_mem ..⟩
  · rintro s r rest k n d signed hq he hd hn hk hs hb t rfl
    obtain ⟨v, f, h⟩ := performUnit_scalar hq he hd hn hk hs hb
    rw [h]
    have here := onlyHere_received s d v f rest
    refine ⟨fun x hx => ?_, sameCaps_of rfl, sameVectors_of rfl, sameMasks_of rfl, ⟨rfl, rfl⟩, here.sameMemory rfl, here, rfl, rfl,
      rfl⟩
    exact (rs_received s d x v f rest).trans ((State.rs_ws s d x v).trans (if_neg fun e => hx e.1))

end Sys2Proof.Machine
end

section
/-! PROOFS. The rings of a package: which operations leave them, and what the steps of a ring and the ring commands do. -/

namespace Sys2Proof.Machine

/-! ### Accesses, signals and waits leave the rings

A load that is performed may drain buffers, wake tasks and post faults; none of that reaches a ring (R115–R121, R261). -/

/-- A run of changes that each leave the rings leaves them. -/
theorem foldl_rings {α : Type} {f : State → α → State} (h : ∀ s a, (f s a).rings = s.rings) (l : List α) (s : State) :
    (l.foldl f s).rings = s.rings := by
  induction l generalizing s with
  | nil => rfl
  | cons a t ih => rw [List.foldl_cons, ih, h]

@[simp] theorem State.logError_rings (s : State) (a : Reader) (c w : Nat) : (s.logError a c w).rings = s.rings := rfl

@[simp] theorem State.logErrors_rings (s : State) (a : Reader) (c : Nat) (l : List Nat) : (s.logErrors a c l).rings = s.rings :=
  foldl_rings (fun t w => t.logError_rings a c w) _ _

@[simp] theorem State.writeHome_rings (s : State) (n : Nat) (cs : List Host.Cell) (b : Bool) : (s.writeHome n cs b).rings = s.rings :=
  foldl_rings (fun t w => t.logError_rings .home n w) _ _

@[simp] theorem State.writeHomeBytes_rings (s : State) (n k : Nat) (bs : List Byte) : (s.writeHomeBytes n k bs).rings = s.rings :=
  s.writeHome_rings _ _ _

@[simp] theorem State.writeHomeNat_rings (s : State) (c k n x : Nat) : (s.writeHomeNat c k n x).rings = s.rings :=
  s.writeHome_rings _ _ _

@[simp] theorem State.countRefusal_rings (s : State) : s.countRefusal.rings = s.rings := rfl

@[simp] theorem State.atomicHome_rings (s : State) (c l op : Nat) (w v : Bool) (x : Nat) : (s.atomicHome c l op w v x).rings = s.rings := by
  simp only [State.atomicHome]
  repeat' split
  all_goals simp

@[simp] theorem State.postFault_rings (s : State) (c : CtxId) (op : Nat) (w v : Bool) (x : Word) (sp p l : Nat) (a : Word) (e : Nat) :
    (s.postFault c op w v x sp p l a e).rings = s.rings := by
  simp only [State.postFault]
  split <;> simp

@[simp] theorem State.sendRequest_rings (s : State) (k : Nat) (w : Sought) (t : List Bool) (bs : List Byte) :
    (s.sendRequest k w t bs).rings = s.rings := by
  simp only [State.sendRequest]
  split <;> rfl

@[simp] theorem State.sendLoad_rings (s : State) (k : Nat) : (s.sendLoad k).rings = s.rings := by
  simp [State.sendLoad, apply_ite State.rings]

@[simp] theorem State.sendStore_rings (s : State) (cs : List Host.Cell) (b : Bool) : (s.sendStore cs b).rings = s.rings := by
  refine foldl_rings (fun t l => ?_) _ _
  dsimp only
  split <;> simp

@[simp] theorem State.storeHome_rings (s : State) (c : Nat) (cs : List Host.Cell) (b : Bool) : (s.storeHome c cs b).rings = s.rings := by
  simp only [State.storeHome]
  repeat' split
  all_goals simp

@[simp] theorem State.reduceHome_rings (s : State) (c : CtxId) (k op : Nat) (w v : Bool) (x : Word) (sp p l : Nat) (a : Word) :
    (s.reduceHome c k op w v x sp p l a).rings = s.rings := by
  simp [State.reduceHome, apply_ite State.rings]

@[simp] theorem State.performAtHome_rings (s : State) (p : Pending) : (s.performAtHome p).rings = s.rings := by
  cases p with
  | store => simp [State.performAtHome]
  | atomic =>
    simp only [State.performAtHome]
    repeat' split
    all_goals simp
  | act => rfl

@[simp] theorem State.leaveOutbound_rings (s : State) (p : Pending) : (s.leaveOutbound p).rings = s.rings := by
  cases p with
  | store => simp [State.leaveOutbound, apply_ite State.rings]
  | atomic => simp [State.leaveOutbound, apply_ite State.rings]
  | act => rfl

@[simp] theorem State.drainOutboundTo_rings (s : State) (d : Nat) (f : Pending → Bool) : (s.drainOutboundTo d f).rings = s.rings :=
  foldl_rings State.leaveOutbound_rings _ _

@[simp] theorem State.drainEgressTo_rings (s : State) (f : Pending → Bool) : (s.drainEgressTo f).rings = s.rings :=
  foldl_rings State.performAtHome_rings _ _

@[simp] theorem State.releaseFrom_rings (s : State) (d n : Nat) : (s.releaseFrom d n).rings = s.rings := by
  simp [State.releaseFrom, State.drainOutbound, State.drainEgress, apply_ite State.rings]

@[simp] theorem State.settleAtomics_rings (s : State) (d k n : Nat) : (s.settleAtomics d k n).rings = s.rings := by
  simp [State.settleAtomics, apply_ite State.rings]

@[simp] theorem State.landAtomics_rings (s : State) (c : CtxId) (n : Nat) : (s.landAtomics c n).rings = s.rings := by
  simp [State.landAtomics, apply_ite State.rings]

@[simp] theorem State.trapContext_rings (s : State) (c : CtxId) (e : Cause) (v : Word) (n : Nat) :
    (s.trapContext c e v n).rings = s.rings := by
  simp [State.trapContext]

@[simp] theorem State.trapAt_rings (s : State) (c : CtxId) (e : Cause) (v : Word) (n : Nat) : (s.trapAt c e v n).rings = s.rings := by
  simp [State.trapAt, State.firmwareFault, apply_ite State.rings]

@[simp] theorem State.complete_rings (s : State) (c : CtxId) (d : SReg) (v : Word) : (s.complete c d v).rings = s.rings :=
  s.modHart_rings _ _

@[simp] theorem State.holdAt_rings (s : State) (c : CtxId) (h i : Nat) (b : Bool) : (s.holdAt c h i b).rings = s.rings :=
  s.modHart_rings _ _

@[simp] theorem State.chReserve_rings (s : State) (h k : Nat) (c : Channel) : (s.chReserve h k c).rings = s.rings := rfl

@[simp] theorem State.chTake_rings (s : State) (h : Nat) (c : Channel) : (s.chTake h c).rings = s.rings := rfl

@[simp] theorem State.tryWait_rings (s : State) (c : CtxId) : (s.tryWait c).rings = s.rings := by
  simp only [State.tryWait]
  repeat' split
  all_goals simp

@[simp] theorem State.resumeOn_rings (s : State) (f : Cont → Bool) : (s.resumeOn f).rings = s.rings := rfl

@[simp] theorem State.wakeOn_rings (s : State) (f : Wait → Bool) (g : Cont → Bool) : (s.wakeOn f g).rings = s.rings :=
  foldl_rings State.tryWait_rings _ _

@[simp] theorem State.noteHead_rings (s : State) (q : Nat) (l : Latch) : (s.noteHead q l).rings = s.rings := by
  simp only [State.noteHead]
  repeat' split
  all_goals simp

@[simp] theorem State.latchWake_rings (s : State) (q : Nat) : (s.latchWake q).rings = s.rings := by
  simp only [State.latchWake]
  repeat' split
  all_goals rfl

@[simp] theorem State.counterWake_rings (s : State) (k : Nat) : (s.counterWake k).rings = s.rings :=
  (foldl_rings (fun t (p : Nat × Latch) => t.latchWake_rings p.1) _ _).trans
    (foldl_rings (fun t (p : Nat × Latch) => t.noteHead_rings p.1 p.2) _ _)

@[simp] theorem State.signal_rings (s : State) (k n : Nat) (b : Bool) : (s.signal k n b).rings = s.rings := by
  simp [State.signal]

@[simp] theorem State.serveChannel_rings (s : State) (h : Nat) : (s.serveChannel h).rings = s.rings :=
  (foldl_rings State.tryWait_rings _ _).trans (foldl_rings State.tryWait_rings _ _)

@[simp] theorem State.pushSlot_rings (s : State) (h i : Nat) : (s.pushSlot h i).rings = s.rings := by
  simp only [State.pushSlot, State.fillSlot]
  repeat' split
  all_goals simp

@[simp] theorem State.accept_rings (s : State) (c : CtxId) (a : Act) : (s.accept c a).rings = s.rings := by
  cases a with
  | signal => exact s.signal_rings _ _ _
  | push => exact s.pushSlot_rings _ _
  | copy | job | coll | token | fence => rfl

@[simp] theorem State.leaveQueue_rings (s : State) (p : Pending) : (s.leaveQueue p).rings = s.rings := by
  cases p with
  | store => simp [State.leaveQueue, apply_ite State.rings]
  | atomic => simp [State.leaveQueue, apply_ite State.rings]
  | act => simp [State.leaveQueue]

@[simp] theorem State.leaveNext_rings (s : State) (c : CtxId) (p : Pending) : (s.leaveNext c p).rings = s.rings := by
  simp [State.leaveNext, apply_ite State.rings]

@[simp] theorem State.drainBefore_rings (s : State) (c : CtxId) (n : Nat) : (s.drainBefore c n).rings = s.rings :=
  (foldl_rings (fun t p => t.leaveNext_rings c p) _ _).trans (s.modHart_rings _ _)

@[simp] theorem State.settleFor_rings (s : State) (c : CtxId) (o k n : Nat) : (s.settleFor c o k n).rings = s.rings := by
  simp [State.settleFor, apply_ite State.rings]

@[simp] theorem State.performUnit_rings (s : State) (c : CtxId) (i : Nat) : (s.performUnit c i).rings = s.rings := by
  have received : ∀ u : State, (match (u.hartAt c).loads with
      | r :: rest => if r.elems.all fun e => e.got.isSome then u.modHart c fun h => { h.receive r with loads := rest } else u
      | [] => u).rings = u.rings := by
    intro u
    repeat' split
    all_goals simp
  unfold State.performUnit
  split
  · rfl
  · refine (received _).trans ?_
    split
    · simp only [apply_ite State.rings, State.modHart_rings, State.logErrors_rings, State.countRefusal_rings, State.sendLoad_rings,
        State.settleFor_rings, ite_self]
    · rfl

@[simp] theorem State.performOldest_rings (s : State) (c : CtxId) : (s.performOldest c).rings = s.rings := by
  simp only [State.performOldest]
  repeat' split
  · rfl
  · exact s.performUnit_rings _ _
  · exact foldl_rings (fun t i => t.performUnit_rings c i) _ _

@[simp] theorem State.performLoads_rings (s : State) (c : CtxId) : (s.performLoads c).rings = s.rings :=
  foldl_rings (fun t _ => t.performOldest_rings c) _ _

@[simp] theorem State.settleSlot_rings (s : State) (d i : Nat) : (s.settleSlot d i).rings = s.rings :=
  foldl_rings State.performLoads_rings _ _

/-! ### Emission (R15, R18, R419) -/

theorem execSegmentEmission_next {s : State} {ring i d : Nat} {r : Ring} {h : Home} (hr : s.ring? ring = some r) (he : r.emits = true)
    (hs : r.started = true) (hn : s.nextEmission r = some (i, h, d)) : execSegmentEmission ring s = .next (s.emit ring i h d) := by
  simp [execSegmentEmission, hr, he, hs, hn]

section
variable {s : State} {ring i : Nat} {r : Ring} {h : Home}
variable (hr : s.ring? ring = some r) (he : r.emits = true) (hs : r.started = false) (ht : r.start ≤ s.polestar)
  (hf : ((r.order.zipIdx).find? fun (p : Home × Nat) => p.1.turns) = some (h, i))
include hr he hs ht hf

/-- The first emission waits while the home copy is being restored (R454). -/
theorem execFirstEmission_waits (hg : h.state ≠ .good) : execFirstEmission ring s = .next s := by
  simp [execFirstEmission, hr, he, hs, Nat.not_lt.mpr ht, hf, hg]

theorem execFirstEmission_emits {d : Nat} (hg : h.state = .good) (hd : r.dieAt s.fabric.self h.home = some d) :
    execFirstEmission ring s = .next ((s.setRing ring { r with started := true }).emit ring i h d) := by
  simp [execFirstEmission, hr, he, hs, Nat.not_lt.mpr ht, hf, hg, hd]

end

/-- The segment of a home copy as it departs: the bytes with DEPART stamped, cut off if a word of them is bad (R12, R113). -/
def State.departing (s : State) (ring i : Nat) (h : Home) (die : Nat) : Flight :=
  let k := residentKey (die * 2 ^ 30 + (s.dieAt die).imageBase + h.off)
  ⟨ring, i, (s.homeBytes k h.size).take 16 ++ leBytes 8 s.polestar ++ (s.homeBytes k h.size).drop 24, 0, !(s.badWords k h.size).isEmpty, false⟩

theorem emit_sound (s : State) (ring i die : Nat) (h : Home)
    (hb : s.badWords (residentKey (die * 2 ^ 30 + (s.dieAt die).imageBase + h.off)) h.size = []) :
    s.emit ring i h die =
      ((s.receive die ring (s.departing ring i h die)).passOn ring h.home (s.departing ring i h die)).settleRing ring := by
  simp only [State.emit, State.departing, hb]
  rfl

/-! ### Arrival, the check at home, expansion (R18–R20, R23) -/

section
variable {s : State} {die seg : Nat} {f : Flight} {r : Ring} (ha : s.arrives die seg = some (f, r))
include ha

theorem execSegmentArrival_passesOn (hh : r.homeOf f.index ≠ some f.dest) : execSegmentArrival die seg s =
    .next ((((s.dropFlight seg).receive die f.ring f).passOn f.ring f.dest f).settleRing f.ring) := by
  simp [execSegmentArrival, ha, hh]

section
variable (hd : die < 8) (hfirst : ∀ d, d < die → s.arrives d seg = none)
include hd hfirst

/-- A segment reaches the first die at which it arrives. -/
theorem findSome_arrives : ((List.range 8).findSome? fun d => (s.arrives d seg).map fun x => (d, x.2)) = some (die, r) := by
  refine List.findSome?_eq_some_iff.mpr ⟨List.range die, die, (List.range 8).drop (die + 1), ?_, by simp [ha], ?_⟩
  · interval_cases die <;> rfl
  · intro d h
    simp [hfirst d (List.mem_range.mp h)]

/-- A segment back at its home is dropped, and counted as an error unless it is whole and passes its check. -/
theorem execOriginReturnCheck_home (hf : s.flights.find? seg = some f) (hh : r.homeOf f.index = some f.dest) :
    execOriginReturnCheck seg s = .next (if f.cut || !segmentOk f.bytes then
      (s.dropFlight seg).integrityError die (field f.bytes 0 2) (field f.bytes 2 2) else s.dropFlight seg) := by
  simp only [execOriginReturnCheck, hf, findSome_arrives ha hd hfirst, hh, ne_eq, not_true_eq_false, if_false]
  exact (apply_ite Host.Outcome.next _ _ _).symm

end
end

/-- What the payload of an arriving segment expands to, with the number of malformed groups of it (R19, R453). -/
def MSlot.expansion (m : MSlot) : List Byte × Nat := expandPayload m.fmt (field m.incoming 13 1) m.planes (m.incoming.drop 64)

/-- The expanded bytes of an arriving segment in their slot (R19). -/
def State.expandInto (s : State) (die slot : Nat) : State :=
  (s.settleSlot die slot).writeHomeBytes 0 (meridianKey die slot 0) (s.mslot die slot).expansion.1

/-- A segment that passed its check is PRESENT in its slot, before its transit is launched (R19, R20, R420). -/
def State.expanded (s : State) (die slot : Nat) : State :=
  let m := s.mslot die slot
  let u := s.expandInto die slot
  (u.modSlot die slot fun m =>
    { m with state := 2, present := u.polestar, deadline := u.polestar + (s.dieAt die).slack, incoming := [] }).modDie die fun d =>
    { d with malformed := d.malformed + m.expansion.2, ephemeris := d.ephemeris.insert (segKey m.image m.tag) (u.polestar + d.period) }

@[simp] theorem State.modSlot_rings (s : State) (d i : Nat) (f : MSlot → MSlot) : (s.modSlot d i f).rings = s.rings := rfl

@[simp] theorem State.modSlot_mem (s : State) (d i : Nat) (f : MSlot → MSlot) : (s.modSlot d i f).mem = s.mem := rfl

@[simp] theorem State.mslot_modSlot (s : State) (d i : Nat) (f : MSlot → MSlot) : (s.modSlot d i f).mslot d i = f (s.mslot d i) := by
  simp [State.mslot, State.modSlot]

@[simp] theorem State.mslot_modDie (s : State) (d e i : Nat) (f : Die → Die) : (s.modDie d f).mslot e i = s.mslot e i := rfl

@[simp] theorem State.expanded_rings (s : State) (die slot : Nat) : (s.expanded die slot).rings = s.rings := by
  simp [State.expanded, State.expandInto]

@[simp] theorem State.expanded_mem (s : State) (die slot : Nat) : (s.expanded die slot).mem = (s.expandInto die slot).mem := by
  simp only [State.expanded, State.modDie_mem, State.modSlot_mem]

theorem State.mslot_expanded (s : State) (die slot : Nat) : (s.expanded die slot).mslot die slot =
    { (s.expandInto die slot).mslot die slot with
      state := 2, present := (s.expandInto die slot).polestar, deadline := (s.expandInto die slot).polestar + (s.dieAt die).slack
      incoming := [] } := by
  simp [State.expanded]

section
variable {s : State} {die slot : Nat} (hm : (s.mslot die slot).state = 1) (hr : s.ring? (s.mslot die slot).ring = none)
include hm hr

theorem execExpansionCheck_present (hok : segmentOk (s.mslot die slot).incoming = true) :
    execExpansionCheck die slot s = .next ((s.expanded die slot).selectTransits die slot false) := by
  have gone : (s.expanded die slot).ring? (s.mslot die slot).ring = none := by
    simpa [State.ring?] using hr
  simp only [execExpansionCheck, hm, hok, ne_eq, not_true_eq_false, if_false, if_true]
  split
  · next r h => exact absurd (gone.symm.trans h) (by simp)
  · rfl

theorem execExpansionCheck_retiring (hbad : segmentOk (s.mslot die slot).incoming = false) :
    execExpansionCheck die slot s = .next ((s.modSlot die slot fun m =>
      { m with state := 4, retireAt := s.polestar + 16, incoming := [] }).integrityError die (s.mslot die slot).image (s.mslot die slot).tag) := by
  simp only [execExpansionCheck, hm, hbad, ne_eq, not_true_eq_false, if_false, Bool.false_eq_true]
  split
  · rfl
  · next r h => exact absurd (hr.symm.trans h) (by simp)

end

/-! ### Slots (R20, R21) -/

theorem execSlotRetire_empties {s : State} {die slot : Nat} (hm : (s.mslot die slot).state = 4) (ht : (s.mslot die slot).retireAt ≤ s.polestar) :
    execSlotRetire die slot s = .next (s.modSlot die slot fun m => { m with state := 0 }) := by
  simp [execSlotRetire, hm, ht]

theorem execSlackExpiry_ends {s : State} {die slot : Nat} (hm : (s.mslot die slot).state = 3) (ht : (s.mslot die slot).deadline < s.polestar) :
    execSlackExpiry die slot s = .next (s.modSlot die slot fun m => { m with state := 2, holds := 0 }) := by
  simp [execSlackExpiry, hm, ht]

/-! ### Repair of the home copies (R426, R454) -/

section
variable {s : State} {ring tag d i : Nat} {r : Ring} {h : Home} {bs : List Byte} (hr : s.ring? ring = some r)
  (hp : (s.imagePort r).isSome = true) (hb : s.readSegment r r.image tag h.cbytes h.host = some bs) (ho : r.order[i]? = some h)
include hr hp hb ho

theorem execHomeCopyRestore_good (he : r.entryOf tag .restoring = some i) (hd : r.dieAt s.fabric.self h.home = some d) :
    execHomeCopyRestore ring tag s = .next (((s.writeSegment d h.off bs).setRing ring
      (r.modHome i fun h => { h with state := .good })).notify (.restored r.image tag true)) := by
  obtain ⟨p, hp⟩ := Option.isSome_iff_exists.mp hp
  simp [execHomeCopyRestore, hr, he, ho, hd, hp, hb]

theorem execMissingSegmentReload_good {q : Nat} (he : r.entryOf tag .lost = some i) (hl : s.reloader r h = some s.fabric.self)
    (hq : r.roomFor h = some q) (hd : r.dieAt s.fabric.self q = some d) :
    execMissingSegmentReload ring tag s = .next ((((s.writeSegment d (homedBytes r.order q) bs).setRing ring (r.modHome i fun h =>
      { h with home := q, off := homedBytes r.order q, state := .good })).rewriteRing ring).settleRing ring) := by
  obtain ⟨p, hp⟩ := Option.isSome_iff_exists.mp hp
  simp [execMissingSegmentReload, State.placeLost, hr, he, ho, hl, hp, hb, hq, hd]

end

/-! ### Ring commands (R417) -/

/-- A valid ring command of a host that may give it, on a ring that lets it act, acts and is reported. -/
theorem ringCommand_done {r : Ring} {m : Mail} {s : State} (t : State) (ho : s.isFirst r = true → s.owns m.port m.part = true) :
    ringCommand (some r) true m s (some t) = .next (t.ringDone r m) := by
  cases hf : s.isFirst r <;> simp [ringCommand, hf, ho]

/-- A command for no ring fails: invalid with a field out of range, else failed. -/
theorem ringCommand_none (valid : Bool) (m : Mail) (s : State) :
    ringCommand none valid m s none = .next (s.ringFails m (if valid then 1 else 2)) := by
  cases valid <;> simp [ringCommand]

/-- The ring that an RFORM forms: no image, nothing started (R417). -/
def Ring.fresh (config : Nat) (packages : List Nat) (region part : Nat) : Ring :=
  { config := config, packages := packages, region := region, mode := .formed, image := 0, manifest := 0, order := [], start := 0
    started := false, sent := [], slack := 0, period := 0, bypassed := [], stopping := [], part := part }

theorem execRform_done {s : State} {ring config region : Nat} {packages : List Nat} {mail : Mail} {r : Ring}
    (hr : r = Ring.fresh config packages region mail.part) (hn : ring < 256) (hc : config ≤ 3) (hp : ∀ p ∈ packages, p ≤ 992)
    (hg : s.ring? ring = none) (hk : ringPackagesOk s.fabric.self config packages = true) (ha : region % 2 ^ 16 = 0)
    (hs : region ≤ Config.residentBytes) (ho : s.isFirst r = true → s.owns mail.port mail.part = true)
    (ht : (s.rings.any fun (p : Nat × Ring) => (p.2.dies s.fabric.self).any (r.dies s.fabric.self).contains) = false)
    (hm : s.mapsRegion (r.dies s.fabric.self) region = false) :
    execRform ring config packages region mail s = .next (((s.setRegion r).setRing ring r).ringDone r mail) := by
  have valid : (decide (ring < 256) && decide (config ≤ 3) && (packages.all fun p => decide (p ≤ 992)) && decide (region % 2 ^ 16 = 0)) = true := by
    rw [decide_eq_true hn, decide_eq_true hc, decide_eq_true ha]
    simpa using hp
  subst hr
  simp only [Ring.fresh] at ht hm
  simp only [execRform, valid, hg, hk, ht, hm, Nat.not_lt.mpr hs, Option.isSome_none, Bool.not_true, Bool.or_false, decide_false,
    Bool.false_eq_true, if_false]
  exact ringCommand_done _ ho

/-- The home copies of a manifest's segments written on the dies of this package (R418). -/
def State.writeHomed (s : State) (r : Ring) (segs : List (Home × List Byte)) : State :=
  segs.foldl (fun s x =>
    match r.dieAt s.fabric.self x.1.home with
    | some d => s.writeSegment d x.1.off x.2
    | none => s) s

/-- The ring that an RSTART starts (R419, R420). -/
def Ring.startedAt (r : Ring) (tick slack : Nat) : Ring :=
  { r with mode := .running, start := tick, started := false, sent := [], slack := slack, period := r.cycle }

/-- Slack limit, PERIOD and ephemeris of a ring on its dies of this package as an RSTART writes them (R420). -/
def State.announce (s : State) (q : Ring) : State :=
  (q.dies s.fabric.self).foldl (fun s d => s.modDie d fun x =>
    { x with slack := q.slack, period := q.period, ephemeris := q.firstEphemeris ((q.posOf s.fabric.self d).getD 0) x.ephemeris }) s

/-- The positions of the dies of a place of a ring of packages (R415). -/
def placeDies (p : Nat) : List Nat := (List.range 8).map fun d => 8 * p + d

/-- A ring with the bypass of a place reversed (R427). -/
def Ring.rejoined (r : Ring) (p : Nat) : Ring :=
  { r with
    bypassed := r.bypassed.filter fun x => !(placeDies p).contains x
    order := r.order.map fun h => if h.state = .absent then { h with state := .lost } else h
    lanes := r.lanes.erase p, silent := r.silent.filter fun x => !(placeDies p).contains x.1 }

section
variable {s : State} {ring : Nat} {mail : Mail} {r : Ring} (hn : ring < 256) (hr : s.ring? ring = some r)
  (ho : s.isFirst r = true → s.owns mail.port mail.part = true)
include hn hr ho

theorem execRload_done {image manifest p : Nat} {order : List Home} {segs : List (Home × List Byte)} {q : Ring}
    (hq : q = { r with part := mail.part }) (hi : image < 2 ^ 16) (hmode : r.mode = .formed ∨ r.mode = .loaded) (hp : s.imagePort q = some p)
    (hman : s.readManifest q image p ((List.range ((Config.freeWord s.steps).toNat % 4096 + 1)).map fun i => manifest + 16 * i) [] [] =
      some (order, segs)) :
    execRload ring image manifest mail s = .next (((s.writeHomed q segs).setRing ring { q with
      mode := .loaded, image := image, manifest := manifest, order := order, started := false, sent := [] }).ringDone q mail) := by
  subst hq
  have mayLoad : (decide (r.mode ≠ .formed) && decide (r.mode ≠ .loaded)) = false := by
    rcases hmode with h | h <;> simp [h]
  simp only [execRload, hr, Option.map_some, hp, hman, hn, hi, mayLoad, decide_true, Bool.and_true, Bool.false_eq_true, if_false]
  exact ringCommand_done _ ho

theorem execRstart_done {tick slack : Nat} (hmode : r.mode = .loaded) (ht : s.polestar + 2 ^ 20 ≤ tick) (hs : slack ≤ r.slackBound) :
    execRstart ring tick slack mail s = .next ((((s.announce (r.startedAt tick slack)).setRing ring (r.startedAt tick slack)).settleRing
      ring).ringDone r mail) := by
  simp only [execRstart, hr, hn, hmode, Nat.not_lt.mpr ht, Nat.not_lt.mpr hs, ne_eq, not_true_eq_false, decide_true, decide_false, Bool.or_self,
    Bool.false_eq_true, if_false]
  exact ringCommand_done _ ho

theorem execRslack_done {slack : Nat} (hmode : r.mode = .running ∨ r.mode = .degraded) (hs : slack ≤ r.slackBound) :
    execRslack ring slack mail s = .next ((((r.dies s.fabric.self).foldl (fun s d => s.modDie d fun x => { x with slack := slack }) s).setRing ring
      { r with slack := slack }).ringDone r mail) := by
  have turns : (decide (r.mode = .running) || decide (r.mode = .degraded)) = true := by simpa using hmode
  simp only [execRslack, hr, hn, turns, Nat.not_lt.mpr hs, decide_true, decide_false, Bool.not_true, Bool.or_self, Bool.false_eq_true, if_false]
  exact ringCommand_done _ ho

omit hn in
theorem execRstop_stops (hf : r.mode ≠ .formed) (hl : r.mode ≠ .loaded) :
    execRstop ring mail s = .next ((if s.isFirst r = true then s.takeCommand mail.port else s).setRing ring { r with
      stopping := r.stopping ++ [(mail, (s.portAt mail.port).slot)], quiet := if r.stopping = [] then [] else r.quiet }) := by
  have own : (s.isFirst r && !s.owns mail.port mail.part) = false := by
    cases h : s.isFirst r <;> simp [h, ho]
  simp [execRstop, hr, hf, hl, own]

theorem execRjoin_done {p : Nat} (hp : r.place s.fabric.self = some p) (hself : s.fabric.self ≤ 992) (hmode : r.mode = .degraded)
    (hc : r.config = 3) (hb : (placeDies p).all r.bypassed.contains = true) (ha : s.fabric.aligned = true) :
    execRjoin ring s.fabric.self mail s =
      .next ((((s.setRing ring (r.rejoined p)).rewriteRing ring).settleRing ring).ringDone r mail) := by
  have ready : (decide (r.mode ≠ .degraded) || decide (r.config ≠ 3) || !(placeDies p).all r.bypassed.contains || !s.fabric.aligned) = false := by
    simp [hmode, hc, hb, ha]
  rw [placeDies] at ready
  simp only [execRjoin, hr, hp, hn, hself, ready, decide_true, if_true, Bool.and_true, Bool.false_eq_true, if_false]
  exact ringCommand_done _ ho

end

/-! ### The end of a stop, loss and bypass (R417, R424, R425) -/

section
variable {s : State} {ring : Nat} {r : Ring} (hr : s.ring? ring = some r)
include hr

theorem execRstopComplete_loaded {mail : Mail} {slot : Nat} (hs : r.stopping = [(mail, slot)]) (hh : s.allHome ring r = true)
    (hm : r.mode ≠ .broken) : execRstopComplete ring s = .next ((s.setRing ring { r with
      started := false, sent := [], stopping := [], quiet := [], mode := .loaded }).ringStopped r mail slot) := by
  simp [execRstopComplete, hr, hs, hh, hm]

theorem execRingLinkDead_heard {pos : Nat} (hs : s.silentLong r pos = false) : execRingLinkDead ring pos s = .next s := by
  simp [execRingLinkDead, hr, hs]

/-- The next package bypassed that may ask for lanes gets those granted; PERIOD is rewritten when their number changes (R425). -/
theorem execBypassLaneRequest_grants {n p : Nat} {q : Ring}
    (hp : (r.bypassedPlaces.find? fun p => r.granted p < 12 && (r.lanes.getD p (0, 0)).2 ≤ s.polestar) = some p)
    (hq : q = { r with lanes := r.lanes.insert p (Nat.min n 12, s.polestar + 2 ^ 24) }) :
    execBypassLaneRequest ring n s =
      .next (if q.granted p = r.granted p then s.setRing ring q else (s.setRing ring q).rewriteRing ring) := by
  subst hq
  simp only [execBypassLaneRequest, hr, hp]

end

/-- A ring that has lost positions: they are bypassed, and what was homed there is lost (R416, R424, R426). -/
def Ring.without (r : Ring) (lost : List Nat) : Ring :=
  let q : Ring := { r with
    bypassed := lost.foldl setInsert r.bypassed
    order := r.order.map fun h => if lost.contains h.home && h.turns then { h with state := .lost } else h }
  { q with mode := if q.spanned then .degraded else .broken }

theorem Ring.without_mode (r : Ring) (lost : List Nat) : (r.without lost).mode = .degraded ∧ (r.without lost).spanned = true ∨
    (r.without lost).mode = .broken ∧ (r.without lost).spanned = false := by
  have hs : (r.without lost).mode = if (r.without lost).spanned then .degraded else .broken := rfl
  cases h : (r.without lost).spanned <;> simp [hs, h]

/-- The package when the member at a position of a ring is lost: MISSING tags, segments cut off, and the sequences of a die of its own
(R424, R426). -/
def State.loseMember (s : State) (ring : Nat) (r : Ring) (pos : Nat) : State :=
  let lost := s.lostPositions r pos
  let q := r.without lost
  let gone := r.order.filter fun h => lost.contains h.home && h.turns
  let u := ((s.setRing ring q).markMissing q (gone.map (·.tag))).redirect ring q lost
  match r.dieAt u.fabric.self pos with
  | some d => u.loseSequences d
  | none => u

@[simp] theorem State.markMissing_rings (s : State) (r : Ring) (l : List Nat) : (s.markMissing r l).rings = s.rings :=
  foldl_rings (fun t d => t.modDie_rings d _) _ _

@[simp] theorem State.redirect_rings (s : State) (n : Nat) (r : Ring) (l : List Nat) : (s.redirect n r l).rings = s.rings := rfl

@[simp] theorem State.loseSequences_rings (s : State) (d : Nat) : (s.loseSequences d).rings = s.rings :=
  foldl_rings (fun t i => by split <;> rfl) _ _

theorem ring_loseMember (s : State) (ring : Nat) (r : Ring) (pos : Nat) :
    (s.loseMember ring r pos).ring? ring = some (r.without (s.lostPositions r pos)) := by
  simp only [State.loseMember, State.ring?]
  split <;> simp

theorem execRingLinkDead_bypasses {s : State} {ring pos : Nat} {r : Ring} (hr : s.ring? ring = some r)
    (hm : r.mode = .running ∨ r.mode = .degraded) (hp : pos < r.size) (hb : r.bypassed.contains pos = false) (hs : s.silentLong r pos = true) :
    execRingLinkDead ring pos s = .next ((s.loseMember ring r pos).rewriteRing ring) := by
  have turns : (decide (r.mode = .running) || decide (r.mode = .degraded)) = true := by simpa using hm
  simp only [execRingLinkDead, hr, turns, hb, hs, Nat.not_le.mpr hp, decide_false, Bool.not_true, Bool.or_self, Bool.false_eq_true, if_false]
  rfl

/-! ### Commands for no ring (R417, R441) -/

section
variable {s : State} {ring : Nat} (hr : s.ring? ring = none) (mail : Mail)
include hr

theorem execRload_none {image : Nat} (hi : image < 2 ^ 16) (manifest : Nat) :
    execRload ring image manifest mail s = .next (s.ringFails mail (if ring < 256 then 1 else 2)) := by
  simp only [execRload, hr, hi, Option.map_none, ringCommand_none, decide_true, Bool.and_true, decide_eq_true_eq]

theorem execRstart_none (tick slack : Nat) :
    execRstart ring tick slack mail s = .next (s.ringFails mail (if ring < 256 then 1 else 2)) := by
  simp [execRstart, hr, ringCommand_none]

theorem execRslack_none (slack : Nat) : execRslack ring slack mail s = .next (s.ringFails mail (if ring < 256 then 1 else 2)) := by
  simp [execRslack, hr, ringCommand_none]

theorem execRstop_none : execRstop ring mail s = .next (s.ringFails mail (if ring < 256 then 1 else 2)) := by
  simp [execRstop, hr, ringCommand_none]

theorem execRjoin_none {package : Nat} (hp : package ≤ 992) :
    execRjoin ring package mail s = .next (s.ringFails mail (if ring < 256 then 1 else 2)) := by
  simp [execRjoin, hr, hp, ringCommand_none]

end

/-- Settles O59, by the equation of each step and each command under its conditions. Two clauses need more than that: a slot becomes
PRESENT after loads of it were performed, and a dead link loses sequences, and neither changes which rings there are. -/
theorem ringStepsDoTheirWork : Obligations.RingStepsDoTheirWork := by
  refine ⟨?emission, ?emit, ?arrival, ?expansion, ?slots, ?repair, ?form, ?commands, ?later, ?none⟩
  case emission =>
    exact fun s ring r hr he => ⟨fun i h d hs hn => execSegmentEmission_next hr he hs hn,
      fun i h hs ht hf => ⟨execFirstEmission_waits hr he hs ht hf, fun d hg hd => execFirstEmission_emits hr he hs ht hf hg hd⟩⟩
  case emit =>
    exact fun s ring i die h => ⟨s.departing ring i h die, rfl, emit_sound s ring i die h⟩
  case arrival =>
    refine fun s die seg f r ha => ⟨execSegmentArrival_passesOn ha, fun hh hfirst hd hf => ?_⟩
    have home := execOriginReturnCheck_home ha hd hfirst hf hh
    exact ⟨fun hc hok => home.trans (by simp [hc, hok]), fun hbad => home.trans (by simp [hbad])⟩
  case expansion =>
    refine fun s die slot hm hr => ⟨fun hok => ?_, execExpansionCheck_retiring hm hr⟩
    refine ⟨s.expandInto die slot, s.expanded die slot, execExpansionCheck_present hm hr hok, s.expanded_mem die slot, rfl, ?_⟩
    simp [State.mslot_expanded]
  case slots =>
    exact fun s die slot => ⟨execSlotRetire_empties, execSlackExpiry_ends⟩
  case repair =>
    exact fun s ring tag d i r h bs hr hp hb ho => ⟨execHomeCopyRestore_good hr hp hb ho, fun q => execMissingSegmentReload_good hr hp hb ho⟩
  case form =>
    exact fun s ring config region packages mail hn hc hp hg hk ha hs r hr => execRform_done hr hn hc hp hg hk ha hs
  case commands =>
    refine fun s ring mail r hn hr ho => ⟨?load, ?start, fun slack => execRslack_done hn hr ho, execRstop_stops hr ho, ?join⟩
    case load =>
      exact fun image manifest p order segs q hq hi hmode hp hman => ⟨_, execRload_done hn hr ho hq hi hmode hp hman⟩
    case start =>
      exact fun tick slack hmode ht hs => ⟨_, execRstart_done hn hr ho hmode ht hs⟩
    case join =>
      exact fun p hp hself hmode hc hb ha => ⟨r.rejoined p, execRjoin_done hn hr ho hp hself hmode hc hb ha, rfl⟩
  case later =>
    refine fun s ring r hr => ⟨fun mail slot => execRstopComplete_loaded hr, ?dead, fun n p q hp hq => ?lanes⟩
    case dead =>
      exact fun pos hm hp hb => ⟨execRingLinkDead_heard hr, fun hs => ⟨_, _, execRingLinkDead_bypasses hr hm hp hb hs,
        ring_loseMember s ring r pos, rfl, r.without_mode _⟩⟩
    case lanes =>
      have grants := execBypassLaneRequest_grants (n := n) hr hp hq
      exact ⟨fun h => grants.trans (by simp [h]), fun h => grants.trans (by simp [h])⟩
  case none =>
    rintro s i ring mail hr (⟨image, m, hi, rfl⟩ | ⟨t, l, rfl⟩ | ⟨l, rfl⟩ | rfl | ⟨p, hp, rfl⟩)
    · exact execRload_none hr mail hi m
    · exact execRstart_none hr mail t l
    · exact execRslack_none hr mail l
    · exact execRstop_none hr mail
    · exact execRjoin_none hr mail hp

end Sys2Proof.Machine
end

section
/-! PROOFS. The reset state; the instructions that launch chains, end or suspend their task, or tell it where it runs. -/

namespace Sys2Proof.Machine

/-! ### The reset state -/

/-- A core of the reset state has the supervisor registers of reset (R363). -/
theorem coreAt_reset (d k : Nat) : State.reset.coreAt d k = Core.reset := rfl

/-- Every scalar register of the reset state reads 0 (log 4). -/
theorem rs_reset (r : SReg) : State.reset.rs r = 0 := by
  unfold State.rs
  split
  · rfl
  · exact Vector.getElem_replicate r.toFin.isLt

/-- Settles O4: each value is one of the reset state's fields. -/
theorem resetState : Obligations.ResetState :=
  ⟨rfl, rfl, rfl, fun d k => coreAt_reset d k ▸ ⟨rfl, rfl, rfl, rfl, rfl⟩, rfl, rs_reset, rfl, rfl, rfl, rfl, rfl⟩

/-! ### LAUNCH, SPAWN and AWAITCH (R34, R272, R273) -/

/-- The end of a LAUNCH or SPAWN whose chain has a status: it no longer launches, and its register has the status (R272). -/
def State.launchEnds (s : State) (d : SReg) (v : Nat) : State :=
  ((s.modTask fun t => { t with launching := none }).ws d (BitVec.ofNat 64 v)).advance 4

section
variable {s : State} (word : Word) (d a : SReg) (spawn : Bool) (hf : s.isFw = false)
include hf

/-- The first attempt submits the chain after a release at pkg. -/
theorem launchOp_submits {k : Nat} (hl : s.hart.task.launching = none) (hx : (s.rs a).toNat < 2 ^ 48)
    (ha : s.access s.who (s.rc 2) (s.rs a).toNat 64 64 .load = .ok k s) :
    launchOp word d a spawn s = .next ((s.release 2).submit (s.rs a).toNat spawn).block := by
  simp only [launchOp, taskOnly_task hf, hl, Nat.div_eq_of_lt hx, ha, ne_eq, not_true_eq_false, if_false]

variable {n : Nat} {c : Chain} (hl : s.hart.task.launching = some n) (hc : s.disp.chains.find? n = some c)
include hl hc

/-- A later attempt waits while the chain is being checked. -/
theorem launchOp_waits (h : c.state = .checking) : launchOp word d a spawn s = .next s.block := by
  simp only [launchOp, taskOnly_task hf, hl, hc, h, if_true]

/-- A refused or aborted chain is dropped and gives its status. -/
theorem launchOp_refused (h : c.state = .refused ∨ c.state = .aborted) :
    launchOp word d a spawn s = .next ((s.dropChain n).launchEnds d c.status) := by
  rcases h with h | h
  all_goals simp [launchOp, taskOnly_task hf, hl, hc, h, State.launchEnds]

/-- An accepted chain gives its first launch id; SPAWN keeps it as a child. -/
theorem launchOp_accepted (hk : c.state ≠ .checking) (hr : c.state ≠ .refused) (ha : c.state ≠ .aborted) :
    launchOp word d a spawn s = .next ((if spawn then s.modTask fun t => { t with spawned := t.spawned ++ [n] }
      else if c.state = .complete then s.dropChain n else s).launchEnds d (c.first * 2 ^ 32)) := by
  simp [launchOp, taskOnly_task hf, hl, hc, hk, hr, ha, State.launchEnds]

end

/-- AWAITCH with every child ended performs what the dies hold and gives its children's result. -/
theorem execAwaitch_ends {s u : State} (d : SReg) (hf : s.isFw = false) (hd : s.childrenDone s.hart.task = true)
    (hu : u = (List.range 8).foldl State.drainOutbound s) :
    execAwaitch d s = .next ((((u.dropAwaited s.hart.task.spawned).modTask fun t => { t with spawned := [] }).ws d
      (BitVec.ofNat 64 (u.childResult s.hart.task))).advance 4) := by
  simp only [execAwaitch, taskOnly_task hf, hd, hu, if_true, finish_ok]

theorem execAwaitch_waits {s : State} (d : SReg) (hf : s.isFw = false) (hd : s.childrenDone s.hart.task = false) :
    execAwaitch d s = .next s.block := by
  simp only [execAwaitch, taskOnly_task hf, hd, Bool.false_eq_true, if_false, finish_wait]

/-- Settles O38, by what LAUNCH and SPAWN do in common at each state of the chain, and by AWAITCH's two ends. -/
theorem launchingCompletes : Obligations.LaunchingCompletes := by
  refine ⟨?first, ?later, ?await⟩
  case first =>
    exact fun s d a r k hf hl hx ha => ⟨launchOp_submits _ d a false hf hl hx ha, launchOp_submits _ d a true hf hl hx ha⟩
  case later =>
    refine fun s d a r n c hf hl hc => ⟨fun h => ?waits, fun h i hi => ?refused, fun hk hr ha => ?accepted⟩
    case waits => exact ⟨launchOp_waits _ d a false hf hl hc h, launchOp_waits _ d a true hf hl hc h⟩
    case refused =>
      rcases hi with rfl | rfl
      · exact launchOp_refused _ d a false hf hl hc h
      · exact launchOp_refused _ d a true hf hl hc h
    case accepted =>
      exact ⟨launchOp_accepted _ d a false hf hl hc hk hr ha, launchOp_accepted _ d a true hf hl hc hk hr ha⟩
  case await =>
    exact fun s d hf => ⟨fun hd u hu => execAwaitch_ends d hf hd hu, execAwaitch_waits d hf⟩

/-! ### EXIT (R275) -/

section
variable {s : State} (r : BitVec 2) (hf : s.isFw = false)
include hf

theorem execExit_waitsForJobs (hj : s.jobsOf s.here ≠ []) : execExit r s = .next s.block := by
  simp only [execExit, taskOnly_task hf, if_pos hj]

variable {u : State} (hj : s.jobsOf s.here = []) (hu : u = s.endLease s.here)
include hj hu

theorem execExit_waitsForCopies (hc : u.outCopies u.here ≠ 0) : execExit r s = .next u.block := by
  subst hu
  simp only [execExit, taskOnly_task hf, hj, ne_eq, not_true_eq_false, if_false, if_pos hc]

theorem execExit_ends (hc : u.outCopies u.here = 0) {v w : State} (hv : v = u.dropHeld u.hart.task.heldChans)
    (hw : w = (v.modTask fun t => { t with heldChans := [] }).drainStores v.here) :
    execExit r s = .next ((w.drainOutboundTo w.here.die Pending.isStore).taskEnds w.here 0) := by
  subst hu hv hw
  simp only [execExit, taskOnly_task hf, hj, hc, ne_eq, not_true_eq_false, if_false]

end

/-! ### SUSPEND (R51, R57, R276) -/

section
variable {s : State} {k a b : BitVec 5} (sc : BitVec 3) (r : BitVec 2) (hf : s.isFw = false) (hk : k.toNat ≤ 5)
  (hb : ¬(k.toNat = 0 ∧ b = 31)) (hz : ¬(k.toNat = 4 ∧ b ≠ 0)) (hm : maskOk (s.rs a) = true) (hl : s.leaseOf s.here = none)

include hk hb hz in
/-- The kind and the register of a SUSPEND pass its first check. -/
theorem suspendKind_passes :
    (decide (5 < k.toNat) || (decide (k.toNat = 0) && decide (b = 31)) || (decide (k.toNat = 4) && decide (b ≠ 0))) = false := by
  simp only [Bool.or_eq_false_iff, decide_eq_false_iff_not, Nat.not_lt, ← Bool.decide_and]
  exact ⟨⟨hk, hb⟩, hz⟩

include hf hk hb hz hm hl

theorem execSuspend_met (hw : s.waitState s.hart.task k.toNat (s.rs b) (s.rs (b + 1)) = .met) :
    execSuspend k a b sc r s = .next (s.advance 4) := by
  simp only [execSuspend, taskOnly_task hf, suspendKind_passes hk hb hz, hm, hl, hw, Bool.not_true, Option.isSome_none, Bool.false_eq_true,
    if_false]

theorem execSuspend_fate {e : Cause} {x : Word} (hw : s.waitState s.hart.task k.toNat (s.rs b) (s.rs (b + 1)) = .fate e x) :
    execSuspend k a b sc r s = .next (s.takeTrap e x 4) := by
  simp only [execSuspend, taskOnly_task hf, suspendKind_passes hk hb hz, hm, hl, hw, Bool.not_true, Option.isSome_none, Bool.false_eq_true,
    if_false]

theorem execSuspend_unmet (hw : s.waitState s.hart.task k.toNat (s.rs b) (s.rs (b + 1)) = .unmet) : execSuspend k a b sc r s =
    .next ((s.blockOn (.suspend (s.rs a) k.toNat (s.rs b) (s.rs (b + 1)) sc.toNat)).trySuspend s.here) := by
  simp only [execSuspend, taskOnly_task hf, suspendKind_passes hk hb hz, hm, hl, hw, Bool.not_true, Option.isSome_none, Bool.false_eq_true,
    if_false]

end

section
variable {s : State} {c : CtxId} {m : Word} {kind : Nat} {x thr : Word} {sc : Nat}
  (hw : (s.hartAt c).task.wait = some (.suspend m kind x thr sc))
include hw

/-- A context that waits to be suspended and has nothing outstanding leaves its slot to a free record. -/
theorem trySuspend_suspends (hq : s.quiet c = true) {n : Nat} (hn : (s.drainCtx c).freeCont c.die = some n) :
    s.trySuspend c = (s.drainCtx c).suspendTask c m kind x thr n := by
  simp only [State.trySuspend, hw, hq, hn, Bool.not_true, Bool.false_eq_true, if_false]

/-- Without a free record it stays on the wait. -/
theorem trySuspend_stays (hq : s.quiet c = true) (hn : (s.drainCtx c).freeCont c.die = none) : s.trySuspend c =
    (s.drainCtx c).modHart c fun h => { h with task := { h.task with wait := some (.stay kind x thr) } } := by
  simp only [State.trySuspend, hw, hq, hn, Bool.not_true, Bool.false_eq_true, if_false]

theorem trySuspend_waits (hq : s.quiet c = false) : s.trySuspend c = s := by
  simp only [State.trySuspend, hw, hq, Bool.not_false, if_true]

end

/-! ### HINTNEXT and SELF (R41, R277) -/

/-- An early swap changes a pair of the record that has an allowed shadow and no older record, and no other (R41). -/
theorem hinted_eq (s : State) (l : Nat) (p : BankPair) :
    (if p.active = some l then p.hint (Claims.hintOk s p) else p) = Claims.hinted s l p := by
  have shadow : Claims.hintOk s p = true → p.shadow.isSome = true := by
    cases h : p.shadow <;> simp [Claims.hintOk, h]
  by_cases ha : p.active = some l <;> by_cases ho : p.older = none <;> by_cases hk : Claims.hintOk s p = true
  all_goals simp_all [Claims.hinted, BankPair.hint]

/-- HINTNEXT of a task that is no transit task changes the bank pairs of its core as R41 says. -/
theorem execHintnext_swaps {s : State} (hf : s.isFw = false) (ht : s.hart.task.transit.isSome = false) : execHintnext s =
    .next ((s.modMyCore fun k => { k with banks := k.banks.map (Claims.hinted s s.hart.task.launch) }).advance 4) := by
  simp only [execHintnext, taskOnly_task hf, ht, Bool.false_eq_true, if_false, finish_ok]
  refine congrArg (fun f : BankPair → BankPair =>
    Host.Outcome.next ((s.modMyCore fun k => { k with banks := k.banks.map f }).advance 4)) (funext fun p => ?_)
  rw [← hinted_eq, Claims.hintOk]
  cases p.shadow with
  | none => rfl
  | some l => cases h : s.disp.launches.find? l <;> simp [h]

theorem execHintnext_transit {s : State} (hf : s.isFw = false) (ht : s.hart.task.transit.isSome = true) :
    execHintnext s = .next (s.advance 4) := by
  simp only [execHintnext, taskOnly_task hf, ht, if_true, finish_ok]

/-- SELF writes the word of its selector. -/
theorem execSelf_writes {s : State} (d : SReg) {l : BitVec 5} (hf : s.isFw = false) (hl : l.toNat ≤ 3) :
    execSelf d l s = .next ((s.ws d (BitVec.ofNat 64 (s.selfWord l.toNat))).advance 4) := by
  simp only [execSelf, taskOnly_task hf, Nat.not_lt.2 hl, if_false, finish_ok]

/-- The word of selector 2: the arc, and the place of the die in its ring. -/
theorem selfWord_arc (s : State) : s.selfWord 2 = s.hart.task.arcFirst + s.hart.task.arcLen * 2 ^ 16 +
    ((s.ring? s.hart.task.ring).bind fun r => r.posOf s.fabric.self s.here.die).getD 0 * 2 ^ 32 + s.hart.task.ring * 2 ^ 48 := by
  cases h : s.ring? s.hart.task.ring <;> simp [State.selfWord, h]

/-- The word of selector 3: one bit each for a transit task, a gang, a gated launch and children that run. -/
theorem selfWord_flags (s : State) : s.selfWord 3 = s.hart.task.transit.isSome.toNat + 2 * s.hart.task.gang.toNat +
    4 * s.hart.task.gated.toNat + 8 * (!s.childrenDone s.hart.task).toNat := by
  have bit : ∀ (b : Bool) (n : Nat), (if b = true then n else 0) = n * b.toNat := fun b n => by cases b <;> simp
  have unset : ∀ b : Bool, (if b = true then 0 else 8) = 8 * (!b).toNat := fun b => by cases b <;> rfl
  simp [State.selfWord, bit, unset]

theorem execSelf_traps {s : State} (d : SReg) {l : BitVec 5} (hf : s.isFw = false) (hl : 3 < l.toNat) :
    execSelf d l s = .next (s.takeTrap .illegal (tvalWord (.self d l)) 4) := by
  simp only [execSelf, taskOnly_task hf, hl, if_true, finish_trap]

/-- Settles O40, by the ends of EXIT and SUSPEND, the swap of HINTNEXT and the words of SELF. -/
theorem taskEndAndWait : Obligations.TaskEndAndWait := by
  refine ⟨?exit, ?suspend, ?yield, ?hintnext, ?self⟩
  case exit =>
    exact fun s r hf => ⟨execExit_waitsForJobs r hf, fun hj u hu => ⟨execExit_waitsForCopies r hf hj hu,
      fun hc v w => execExit_ends r hf hj hu hc⟩⟩
  case suspend =>
    refine fun s k a b sc r hf hk hb hz hm hl => ⟨execSuspend_met sc r hf hk hb hz hm hl,
      fun e x => execSuspend_fate sc r hf hk hb hz hm hl, ?unmet⟩
    rintro hw u v rfl rfl
    have waiting : ∀ w, ((s.blockOn w).hartAt s.here).task.wait = some w := fun w => by simp
    refine ⟨fun hq n hn => ?record, fun hq hn => ?none, fun hq => ?busy⟩
    all_goals refine (execSuspend_unmet sc r hf hk hb hz hm hl hw).trans (congrArg Host.Outcome.next ?_)
    case record => exact trySuspend_suspends (waiting _) hq hn
    case none => exact trySuspend_stays (waiting _) hq hn
    case busy => exact trySuspend_waits (waiting _) hq
  case yield =>
    intro s hf
    exact congrArg (finish 4 s) (taskOnly_task hf _ _)
  case hintnext =>
    intro s hf
    split
    next ht => exact execHintnext_transit hf ht
    next ht => exact execHintnext_swaps hf (Bool.eq_false_iff.2 ht)
  case self =>
    refine fun s d l hf t ht => ⟨?core, ?extents, ?arc, ?flags, execSelf_traps d hf⟩
    all_goals rintro rfl
    all_goals subst ht
    case core => exact execSelf_writes d hf (by decide)
    case extents => exact execSelf_writes d hf (by decide)
    case arc =>
      rintro pos rfl
      exact selfWord_arc s ▸ execSelf_writes d hf (by decide)
    case flags => exact selfWord_flags s ▸ execSelf_writes d hf (by decide)

end Sys2Proof.Machine
end

section
/-! PROOFS. The steps of cores and tasks: handlers, buffers, kills, evictions and placement. -/

namespace Sys2Proof.Machine

/-! ### Firmware contexts and failed cores (R362, R365, R372, R445) -/

section
variable {s : State} {d k : Nat}

theorem execTrapEntry_enters (ha : (s.coreAt d k).tactive = false) (hf : (s.coreAt d k).failed = false) :
    execTrapEntry d k s = .next (s.enterHandler d k (s.hartAt (fwOf d k)).pc) := by
  simp [execTrapEntry, ha, hf]

theorem execWfiDeadline_wakes {x : Nat} (hw : (s.coreAt d k).wfi = some x) (hx : x ≠ 0) (hp : x ≤ s.polestar) :
    execWfiDeadline d k s = .next (s.modCore d k fun c => { c with wfi := none }) := by
  simp [execWfiDeadline, hw, hx, hp, State.wakeCore]

/-- A core error loses what its slots hold, and then marks and reports the core failed. -/
theorem execCoreError_reports (hf : (s.coreAt d k).failed = false) (hr : (s.coreAt d k).retired = false) :
    ∃ u : State, execCoreError d k s = .next ((u.modCore d k fun c => { c with failed := true }).notify (.coreFailed d k)).reapChains := by
  simp only [execCoreError, hf, hr, Bool.or_self, Bool.false_eq_true, if_false]
  exact ⟨_, rfl⟩

section
variable (hf : (s.coreAt d k).failed = true) (hr : (s.coreAt d k).retired = false)
include hf hr

/-- The failed context of a core runs again at `pc`, outside its handler. -/
theorem execFirmwareContextRestart_runs (pc : Nat) : ∃ t, execFirmwareContextRestart d k pc s = .next t ∧
    (t.coreAt d k).failed = false ∧ (t.coreAt d k).tactive = false ∧ (t.hartAt (fwOf d k)).pc = BitVec.ofNat 64 pc := by
  simp only [execFirmwareContextRestart, hf, hr, Bool.not_true, Bool.or_self, Bool.false_eq_true, if_false]
  exact ⟨_, rfl, by simp [State.coreAt], by simp [State.coreAt], by simp⟩

variable (he : ∀ i, i < 4 → s.holds ⟨d, k, i⟩ = false)
include he

omit hf hr in
theorem slots_empty : ((List.range 4).all fun i => !s.holds ⟨d, k, i⟩) = true := by
  simpa using fun i hi => he i hi

theorem execSpareSubstitution_retires (hs : (s.plat.spares.any fun p => p.1 = d) = true) :
    execSpareSubstitution d k s = .next (s.modCore d k fun c => { c with retired := true }) := by
  simp only [execSpareSubstitution, hf, hr, slots_empty he, hs, Bool.not_true, Bool.or_self, Bool.false_eq_true, if_false, if_true]

theorem execSpareSubstitution_substitutes (hs : (s.plat.spares.any fun p => p.1 = d) = false) : ∃ t,
    execSpareSubstitution d k s = .next t ∧ t.plat.spares = s.plat.spares ++ [(d, k)] ∧ t.plat.closed = s.plat.closed ++ [(d, k)] := by
  simp only [execSpareSubstitution, hf, hr, slots_empty he, hs, Bool.not_true, Bool.or_self, Bool.false_eq_true, if_false]
  exact ⟨_, rfl, by simp, by simp⟩

end
end

/-! ### SEQCLR (R374) -/

/-- SEQCLR of a TRAPPED sequence rewrites its entry. -/
theorem find_clearSeq {s : State} {d q : Nat} {e : SeqEntry} (he : s.shared.seqs.find? (seqKey d q) = some e) (ht : e.state = 4)
    (wait : Bool) : (s.clearSeq d q wait).shared.seqs.find? (seqKey d q) =
      some (if wait then { e with state := 0, input := none } else { e with state := 3 }) := by
  simp only [State.clearSeq, he, ht, if_true, SMap.find_insert_same]

/-! ### Loads that return, kills, evictions, the watchdog and pre-emption (R31, R114, R266, R391, R392) -/

section
variable {s : State} {d k i : Nat} {c : CtxId} (hc : c = ⟨d, k, i⟩)
include hc

theorem execRemoteLoadReturn_idle (e : Nat) (hl : (s.hartAt c).loads = []) : execRemoteLoadReturn d k ⟨i, e⟩ s = .next s := by
  subst hc
  simp only [execRemoteLoadReturn, hl]

theorem execRemoteLoadReturn_performs {r : LoadRec} {rest : List LoadRec} (e : Nat) (hl : (s.hartAt c).loads = r :: rest) :
    execRemoteLoadReturn d k ⟨i, e⟩ s = .next (if e < r.elems.length then s.performUnit c e else s.performOldest c) := by
  subst hc
  simp only [execRemoteLoadReturn, hl]

section
variable (hi : i < 4)
include hi

theorem execTaskKill_slot (hs : (s.hartAt c).status = .trapped ∨ (s.hartAt c).status = .blocked ∨ (s.hartAt c).status = .held) (tr : Bool) :
    execTaskKill d k (.slot i tr) s =
      .next ((s.abortLaunch (s.hartAt c).task).taskEnds c ((s.hartAt c).endCause tr)).reapChains := by
  subst hc
  simp [execTaskKill, hi, or_assoc, hs]

theorem execForcedEviction_evicts (he : s.evictable c = true) :
    execForcedEviction d k i s = .next ((s.evictGroup c).foldl State.evictOne s) := by
  subst hc
  simp [execForcedEviction, hi, he]

theorem execBarrierWatchdog_stalls {b w y : Nat} {x : Word} (hw : (s.hartAt c).task.wait = some (.barrier b w x))
    (hy : (s.hartAt c).task.waiting = some y) (hs : (s.hartAt c).status = .blocked) (hr : s.coreRuns c = true)
    (hb : (s.barrierAt b).phase = w) (hp : y + s.watchdog (s.hartAt c).task.part ≤ s.polestar) :
    execBarrierWatchdog d k i s = .next (s.trapContext c .barrierStall x 4) := by
  subst hc
  simp [execBarrierWatchdog, hi, hw, hy, hs, hr, hb, hp]

end

/-- A task that waits at its NODE with nothing outstanding is saved as it stands there, and its slot is free. -/
theorem execNodePreemption_saves {j : Nat} (hj : s.freeSave (s.hartAt c).task.part = some j) (hs : (s.hartAt c).status = .blocked)
    (hn : (s.hartAt c).task.atNode = true) (ht : s.nodeTakes c = true) (hq : s.quiet c = true) (hr : s.coreRuns c = true) :
    ∃ (u : State) (v : Saved), execNodePreemption d k i s = .next (State.keepSaved (u.setHart c Hart.fresh) v) ∧
      v.hart = (s.hartAt c).nodeImage ∧ v.left = c ∧ v.evicted = false := by
  subst hc
  simp only [execNodePreemption, hj, hs, hn, ht, hq, hr, decide_true, Bool.and_self, if_true]
  exact ⟨_, _, rfl, rfl, rfl, rfl⟩

end

theorem execTaskKill_record {s : State} {d k n m : Nat} {v : Cont}
    (hf : List.find? (fun p : Nat × Cont => p.2.home = (d, k) && p.2.record = n && (p.2.complete || p.2.fate.isSome)) s.disp.conts = some (m, v)) :
    execTaskKill d k (.record n) s = .next (s.killCont m v (v.hart.endCause false)).reapChains := by
  simp only [execTaskKill, hf]

/-! ### Buffers (R115, R119, R250) -/

/-- An entry of a buffer that is of the kind and may go leaves the others as they stand. -/
theorem goFrom_advances {s : State} {b : BufId} {p : Pending} {older newer : List Pending} (kind : Pending → Bool)
    (hb : s.buffer b = older ++ p :: newer) (hg : s.mayGo b older p = true) (hk : kind p = true) :
    s.goFrom b older.length kind = s.advanceBuffer b p (older ++ newer) := by
  simp [State.goFrom, hb, hg, hk, List.drop_append, List.drop_eq_nil_of_le]

/-! ### Suspended, saved and pending tasks (R52, R276, R387, R392) -/

section
variable {s : State} {n : Nat} {v : Cont} (hv : s.disp.conts.find? n = some v)
include hv

theorem execSuspendWaitComplete_unmet (hw : s.suspendState v.hart.task v.kind v.object v.threshold = .unmet) :
    execSuspendWaitComplete n s = .next s := by
  simp only [execSuspendWaitComplete, hv, hw, ite_self]

variable (hc : v.complete = false) (hf : v.fate = none)
include hc hf

theorem execSuspendWaitComplete_late (hl : s.lateCont n v = true) : execSuspendWaitComplete n s = .next s := by
  simp only [execSuspendWaitComplete, hv, hc, hf, hl, Option.isSome_none, Bool.or_true, if_true]

theorem execSuspendWaitComplete_met (hl : s.lateCont n v = false)
    (hw : s.suspendState v.hart.task v.kind v.object v.threshold = .met) : execSuspendWaitComplete n s =
      .next ({ s with disp := { s.disp with
        conts := s.disp.conts.insert n { v with complete := true, since := s.steps, fate := none } } } : State).reapRevoked := by
  simp only [execSuspendWaitComplete, hv, hc, hf, hl, hw, Option.isSome_none, Bool.or_self, Bool.false_eq_true, if_false, Option.isNone_none]

end

theorem execEvictionRestore_restores {s : State} {n o o2 : Nat} {v : Saved} {c c2 : CtxId} (hv : s.disp.saved.find? n = some v)
    (he : v.evicted = true) (hs : s.savedSpot v = some (c, o)) (ht : s.firstTransit c.die = none)
    (hf : s.firstSpot c.die = some (.saved n, c2, o2)) : execEvictionRestore n s = .next (s.restoreEvicted n v c o) := by
  simp only [execEvictionRestore, hv, he, hs, ht, hf, Bool.not_true, Bool.false_eq_true, if_false, if_true]

theorem execTaskPlacement_untimed {s : State} (die : Nat) (ht : s.timeSet = false) : execTaskPlacement die s = .next s := by
  simp only [execTaskPlacement, ht, Bool.not_false, if_true]

section
variable {s : State} {die : Nat} (ht : s.timeSet = true)
include ht

theorem execTaskPlacement_gone {l i : Nat} (hg : s.firstGone die = some (l, i)) :
    execTaskPlacement die s = .next (s.failPending l i Cause.tagStale.code) := by
  simp only [execTaskPlacement, ht, hg, Bool.not_true, Bool.false_eq_true, if_false]

variable (hg : s.firstGone die = none)
include hg

theorem execTaskPlacement_gang {n : Nat} (hn : s.gangTurn = some n) : execTaskPlacement die s = .next (s.startReserved n) := by
  simp only [execTaskPlacement, ht, hg, hn, Bool.not_true, Bool.false_eq_true, if_false]

variable (hn : s.gangTurn = none)
include hn

theorem execTaskPlacement_transit {q : TransitTask} {o : Nat} {c : CtxId} (hq : s.firstTransit die = some (q, c, o)) :
    execTaskPlacement die s = .next (s.startTransit q c o) := by
  simp only [execTaskPlacement, ht, hg, hn, hq, Bool.not_true, Bool.false_eq_true, if_false]

variable (hq : s.firstTransit die = none)
include hq

theorem execTaskPlacement_holds {t : State} (hh : s.holdFor die = some t) : execTaskPlacement die s = .next t := by
  simp only [execTaskPlacement, ht, hg, hn, hq, hh, Bool.not_true, Bool.false_eq_true, if_false]

variable (hh : s.holdFor die = none) {i o : Nat} {c : CtxId}
include hh

theorem execTaskPlacement_pending {l : Nat} (hs : s.firstSpot die = some (.pending l i, c, o)) :
    execTaskPlacement die s = .next (s.startTask l i c o .ready) := by
  simp only [execTaskPlacement, ht, hg, hn, hq, hh, hs, Bool.not_true, Bool.false_eq_true, if_false]

theorem execTaskPlacement_cont {v : Cont} (hs : s.firstSpot die = some (.cont i, c, o)) (hv : s.disp.conts.find? i = some v) :
    execTaskPlacement die s = .next (s.resumeCont i v c o) := by
  simp only [execTaskPlacement, ht, hg, hn, hq, hh, hs, hv, Bool.not_true, Bool.false_eq_true, if_false]

theorem execTaskPlacement_saved {v : Saved} (hs : s.firstSpot die = some (.saved i, c, o)) (hv : s.disp.saved.find? i = some v)
    (he : v.evicted = false) : execTaskPlacement die s = .next (s.resumeSaved i v c o) := by
  simp only [execTaskPlacement, ht, hg, hn, hq, hh, hs, hv, he, Bool.not_true, Bool.false_eq_true, if_false]

end

theorem execBankSwap_swaps {s : State} {d k n : Nat} {p : BankPair} (hp : (s.coreAt d k).banks[n]? = some p) : execBankSwap d k n s =
    .next (s.modCore d k fun c =>
      { c with banks := (s.coreAt d k).banks.take n ++ (s.swapPair d k p).toList ++ (s.coreAt d k).banks.drop (n + 1) }) := by
  simp only [execBankSwap, hp]

/-- Settles O57, by the equation of each step under its conditions. -/
theorem coreAndTaskStepsDoTheirWork : Obligations.CoreAndTaskStepsDoTheirWork := by
  refine ⟨?core, ?seqclr, ?slots, ?buffers, ?suspended, ?evicted, ?untimed, ?placement, ?banks⟩
  case core =>
    refine fun s d k => ⟨execTrapEntry_enters, fun m => rfl, rfl, rfl, fun x => execWfiDeadline_wakes, execFirmwareContextRestart_runs,
      fun hf hr he => ⟨execSpareSubstitution_retires hf hr he, execSpareSubstitution_substitutes hf hr he⟩, fun hf hr => ?error⟩
    obtain ⟨u, hu⟩ := execCoreError_reports hf hr
    exact ⟨_, u, hu, rfl⟩
  case seqclr =>
    intro s d q e hq he ht
    simp only [exec, execSeqclrStop, execSeqclrWait, Nat.mod_eq_of_lt hq]
    exact ⟨⟨_, rfl, find_clearSeq he ht false⟩, ⟨_, rfl, find_clearSeq he ht true⟩⟩
  case slots =>
    exact fun s d k i c hc hi => ⟨execRemoteLoadReturn_idle hc, fun r rest => execRemoteLoadReturn_performs hc, execTaskKill_slot hc hi,
      fun n m v => execTaskKill_record, execForcedEviction_evicts hc hi, fun b w x y => execBarrierWatchdog_stalls hc hi,
      fun j => execNodePreemption_saves hc⟩
  case buffers =>
    rintro s b n p older newer hb rfl hg
    exact ⟨fun ha => congrArg Host.Outcome.next (goFrom_advances (fun p => !p.isAtomic) hb hg (by simp [ha])),
      fun ha => congrArg Host.Outcome.next (goFrom_advances Pending.isAtomic hb hg ha)⟩
  case suspended =>
    exact fun s n v hv hc hf => ⟨execSuspendWaitComplete_late hv hc hf, execSuspendWaitComplete_met hv hc hf,
      execSuspendWaitComplete_unmet hv⟩
  case evicted =>
    exact fun s n v c c2 o o2 => execEvictionRestore_restores
  case untimed =>
    exact fun s die => execTaskPlacement_untimed die
  case placement =>
    exact fun s die o c ht => ⟨fun l i => execTaskPlacement_gone ht, fun hg n => execTaskPlacement_gang ht hg,
      fun hg hn => ⟨fun q => execTaskPlacement_transit ht hg hn, fun hq t => execTaskPlacement_holds ht hg hn hq⟩,
      fun hg hn hq hh => ⟨fun l i => execTaskPlacement_pending ht hg hn hq hh, fun i v => execTaskPlacement_cont ht hg hn hq hh,
        fun i v => execTaskPlacement_saved ht hg hn hq hh⟩⟩
  case banks =>
    exact fun s d k n p => execBankSwap_swaps

end Sys2Proof.Machine
end

section
/-! PROOFS. The steps of the dispatchers: doorbells, queues, chains, and the commands on partitions, pages, cores and channels. -/

namespace Sys2Proof.Machine

/-! ### What writes and chain states leave of the dispatchers -/

/-- A run of changes that each leave the dispatchers leaves them. -/
theorem foldl_disp {α : Type} {f : State → α → State} (h : ∀ s a, (f s a).disp = s.disp) (l : List α) (s : State) :
    (l.foldl f s).disp = s.disp := by
  induction l generalizing s with
  | nil => rfl
  | cons a t ih => rw [List.foldl_cons, ih, h]

@[simp] theorem State.logError_disp (s : State) (a : Reader) (c w : Nat) : (s.logError a c w).disp = s.disp := rfl

@[simp] theorem State.writeHome_disp (s : State) (n : Nat) (cs : List Host.Cell) (b : Bool) : (s.writeHome n cs b).disp = s.disp :=
  foldl_disp (fun t w => t.logError_disp .home n w) _ _

@[simp] theorem State.writeHomeBytes_disp (s : State) (n k : Nat) (bs : List Byte) : (s.writeHomeBytes n k bs).disp = s.disp :=
  s.writeHome_disp _ _ _

@[simp] theorem State.writeHomeNat_disp (s : State) (c k n x : Nat) : (s.writeHomeNat c k n x).disp = s.disp := s.writeHome_disp _ _ _

@[simp] theorem State.writePart_disp (s : State) (d p va : Nat) (bs : List Byte) : (s.writePart d p va bs).disp = s.disp := by
  unfold State.writePart
  split <;> simp

@[simp] theorem State.noteHome_disp (s : State) (k n : Nat) : (s.noteHome k n).disp = s.disp :=
  foldl_disp (fun t w => t.logError_disp .dispatcher 0 w) _ _

@[simp] theorem State.writeHomeNat_mem (s : State) (c k n x : Nat) :
    (s.writeHomeNat c k n x).mem = memSetAll s.mem (cellsAt k (leBytes n x)) :=
  s.writeHome_mem _ _ _

@[simp] theorem State.moveWaits_mem (s : State) (old new : Nat) : (s.moveWaits old new).mem = s.mem := rfl

@[simp] theorem State.modChain_launches (s : State) (n : Nat) (f : Chain → Chain) : (s.modChain n f).disp.launches = s.disp.launches := by
  unfold State.modChain
  split <;> rfl

@[simp] theorem State.launch_drainChain (s : State) (n m : Nat) : (s.drainChain n).launch? m = s.launch? m := by
  unfold State.drainChain State.launch?
  split
  · split <;> simp
  · rfl

/-! ### Doorbells (R378, R381) -/

section
variable {s u : State} {port offset v part q : Nat} (hp : s.portUp port = true) (ho : offset < 2 ^ 21) (ha : offset % 8 = 0)
  (hw : s.windowOf port (offset / 2 ^ 15) = some part) (hq : q = queueKey part (offset % 2 ^ 15 / 8))
include hp ho ha hw hq

/-- A tail that the ring has no room for is counted in the descriptor. -/
theorem execDoorbell_counts {h n : Nat} (hs : s.headSize q = some (h, n)) (hn : n < (v % 2 ^ 32 + 2 ^ 32 - h % 2 ^ 32) % 2 ^ 32) :
    execDoorbell port offset v s = .next (s.writeDesc part 232 8 (field (s.partOf part).desc 232 8 + 1)) := by
  subst hq
  simp only [execDoorbell, hp, ho, ha, hw, hs, Nat.not_le.2 hn, decide_true, decide_false, Bool.and_self, Bool.not_false, if_true]

variable (hr : s.headSize q = none ∨ ∃ h n, s.headSize q = some (h, n) ∧ (v % 2 ^ 32 + 2 ^ 32 - h % 2 ^ 32) % 2 ^ 32 ≤ n)
  (hu : u = (s.setLatch q { s.latch q with tail := v % 2 ^ 32 }).latchWake q)
include hr hu

/-- A tail with room moves and wakes its queue; a package asleep starts to wake, else the queue's hardware is woken. -/
theorem execDoorbell_moves : execDoorbell port offset v s =
    .next (if 2 ≤ u.plat.ps then u.startWake else (u.latch q).hwq.elim u u.wakeHwq) := by
  subst hq
  rcases hr with hr | ⟨h, n, hr, hn⟩
  case' inl =>
    simp only [execDoorbell, hp, ho, ha, hw, hr, ← hu, decide_true, Bool.and_self, Bool.not_true, Bool.false_eq_true, if_true, if_false]
  case' inr =>
    simp only [execDoorbell, hp, ho, ha, hw, hr, hn, ← hu, decide_true, Bool.and_self, Bool.not_true, Bool.false_eq_true, if_true, if_false]
  all_goals
    split
    · rfl
    · cases (u.latch (queueKey part (offset % 2 ^ 15 / 8))).hwq <;> rfl

end

theorem execDoorbell_outside {s : State} {port offset : Nat} (v : Nat)
    (h : s.portUp port = false ∨ 2 ^ 21 ≤ offset ∨ offset % 8 ≠ 0 ∨ s.windowOf port (offset / 2 ^ 15) = none) :
    execDoorbell port offset v s = .next s := by
  have outside : (if s.portUp port && offset < 2 ^ 21 && offset % 8 = 0 then s.windowOf port (offset / 2 ^ 15) else none) = none := by
    rcases h with h | h | h | h
    · simp [h]
    · simp [Nat.not_lt.2 h, -Nat.reducePow]
    · simp [h]
    · simp [h, -Nat.reducePow]
  simp only [execDoorbell, outside]

/-! ### Completion rings and hardware queues (R376, R382, R385) -/

theorem execCheadWrite_writes {s : State} {part qid d : Nat} (v : Nat) (hd : (s.latch (queueKey part qid)).desc = some d) :
    ∃ t, execCheadWrite part qid v s = .next t ∧ (s.disp.chains = [] → t = s.writePart 0 part (d + 40) (leBytes 4 v)) := by
  simp only [execCheadWrite, hd]
  exact ⟨_, rfl, fun h => by rw [State.writePart_disp, h]; rfl⟩

section
variable {s : State} {die hwq : Nat} {w : HwQueue} (hw : s.disp.hwqs.find? (hwKey die hwq) = some w)
include hw

theorem execQueueEntryFetch_idle (hs : w.state = .idle) : execQueueEntryFetch die hwq s = .next (s.wakeHwq (hwKey die hwq)) := by
  simp only [execQueueEntryFetch, hw, hs, if_true]

variable (hs : w.state = .fetch)
include hs

theorem execQueueEntryFetch_fetches (ht : s.fetchTurn die hwq w = true) : execQueueEntryFetch die hwq s =
    .next ((State.noteRead { s with disp := { s.disp with lastHwq := s.disp.lastHwq.insert die hwq } } die w.part
      (w.ring + 16 * (w.head % Nat.max 1 w.size)) 16).fetchEntry (hwKey die hwq) w) := by
  simp [execQueueEntryFetch, hw, hs, ht]

theorem execQueueEntryFetch_waits (ht : s.fetchTurn die hwq w = false) : execQueueEntryFetch die hwq s = .next s := by
  simp [execQueueEntryFetch, hw, hs, ht]

end

/-! ### Chains: reports, release, and gangs that wait (R34, R36, R49, R384, R388) -/

/-- The chain as it is when it starts to run: its launch ids given out, its gated gangs joined to their tags, its reservations started. -/
def State.released (s : State) (n : Nat) (c : Chain) : State :=
  let t := (if c.first = 0 then s.numberLaunches n c else s).modChain n fun c =>
    { c with state := .running, since := s.steps, reserving := false }
  ((t.chainLaunches n).foldl (fun t p => t.joinGated p.1) t).startReserved n

section
variable {s : State} {n : Nat} {c : Chain} (hc : s.disp.chains.find? n = some c) (hk : c.state = .checking) (hz : c.status = 0)
include hc hk hz

section
variable (hr : c.recs ≠ []) {die : Nat} (hd : die ∈ s.chainDies c) (hn : (c.reports.any fun r => r.1 = die) = false)
include hr hd hn

theorem execPrestartReport_stale (ht : s.dieTagsStale c die = true) :
    execPrestartReport n die s = .next (s.refuseChain n c 3 .refused) := by
  simp [execPrestartReport, hc, hk, hz, hr, hd, hn, ht]

variable (ht : s.dieTagsStale c die = false)
include ht

/-- A chain without gangs, or with its gangs reserved, only gets the report. -/
theorem execPrestartReport_reports (hg : c.reserved = true ∨ gangsOf c.recs = []) :
    execPrestartReport n die s = .next (s.modChain n fun c => { c with reports := c.reports ++ [(die, 0)] }) := by
  rcases hg with hg | hg
  · simp [execPrestartReport, hc, hk, hz, hr, hd, hn, ht, hg]
  · simp [execPrestartReport, hc, hk, hz, hr, hd, hn, ht, hg]

variable (hv : c.reserved = false) (hg : gangsOf c.recs ≠ [])
include hv hg

theorem execPrestartReport_short (hs : s.channelsShort c.die c.part (gangsOf c.recs) = true) :
    execPrestartReport n die s = .next (s.refuseChain n c 5 .refused) := by
  simp [execPrestartReport, hc, hk, hz, hr, hd, hn, ht, hv, hg, hs]

variable (hs : s.channelsShort c.die c.part (gangsOf c.recs) = false)
include hs

theorem execPrestartReport_waits (hw : s.mayReserve n c = false ∨ s.reserveGangs n c = none) : execPrestartReport n die s = .next s := by
  rcases hw with hw | hw
  · simp [execPrestartReport, hc, hk, hz, hr, hd, hn, ht, hv, hg, hs, hw]
  · simp [execPrestartReport, hc, hk, hz, hr, hd, hn, ht, hv, hg, hs, hw]

theorem execPrestartReport_reserves (hm : s.mayReserve n c = true) {t : State} (hw : s.reserveGangs n c = some t) :
    execPrestartReport n die s = .next (if (t.disp.chains.find? n).any fun c => c.reserved then
      t.modChain n fun c => { c with reports := c.reports ++ [(die, 0)] } else t) := by
  simp [execPrestartReport, hc, hk, hz, hr, hd, hn, ht, hv, hg, hs, hm, hw]

end

omit hk hz in
theorem execStartRelease_untimed (ht : s.timeSet = false) : execStartRelease n s = .next s := by
  simp [execStartRelease, hc, ht]

/-- A chain that every one of its dies has passed runs, and the hardware queue of a host's chain leaves its check. -/
theorem execStartRelease_releases (hr : c.recs ≠ []) (ht : s.timeSet = true)
    (ha : ∀ d ∈ s.chainDies c, (c.reports.any fun r => r.1 = d) = true) : execStartRelease n s =
    .next (match c.source with
      | .host _ h _ _ => (s.released n c).leaveCheck h
      | .task .. => s.released n c) := by
  have passed : ((s.chainDies c).all fun d => c.reports.any fun r => r.1 = d) = true := List.all_eq_true.2 ha
  simp only [execStartRelease, hc, hk, hz, hr, ht, passed, State.released, ne_eq, not_true_eq_false, decide_false, Bool.not_true, Bool.or_self,
    Bool.false_eq_true, if_false]
  cases c.source <;> rfl

theorem execGangReserveTimeout_holdsBack (hg : gangsOf c.recs ≠ []) (hv : c.reserved = false) (hb : c.reserving = false)
    (hp : c.since + 2 ^ 20 ≤ s.polestar) : execGangReserveTimeout n s =
    .next ((if c.first = 0 then s.numberLaunches n c else s).modChain n fun c => { c with reserving := true }) := by
  simp only [execGangReserveTimeout, hc, hk, hz, hg, hv, hb, hp, ne_eq, not_false_eq_true, decide_true, Bool.not_false, Bool.and_self, if_true]

end

/-! ### Kernels (R43, R384, R385) -/

section
variable {s : State} {n : Nat} {l : Launch} (hl : s.disp.launches.find? n = some l)
include hl

theorem execLaunchKill_kills : execLaunchKill n s = .next (s.killChain l.chain) := by
  simp only [execLaunchKill, State.launch?, hl]

variable {u : State} (hu : u = s.drainChain l.chain)
include hu

/-- A drained kernel of a chain that runs completes, and its chain if it is the last. -/
theorem execKernelComplete_eq : execKernelComplete n s =
    .next ((if u.chainRuns l.chain && u.drained n l then u.completeKernel n l else u).completeChain l.chain) := by
  have found : s.launch? n = some l := hl
  subst hu
  simp only [execKernelComplete, State.chainOfLaunch, found, State.launch_drainChain]

theorem execKernelComplete_completes (hr : u.chainRuns l.chain = true) (hd : u.drained n l = true) :
    execKernelComplete n s = .next ((u.completeKernel n l).completeChain l.chain) := by
  simp [execKernelComplete_eq hl hu, hr, hd]

theorem execKernelComplete_undrained (hd : u.drained n l = false) : execKernelComplete n s = .next (u.completeChain l.chain) := by
  simp [execKernelComplete_eq hl hu, hd]

end

/-! ### Queue commands (R379, R380, R382, R386) -/

/-- A command that is done signals its counter by 1 (R379, R410). -/
theorem command_some (ctr : Nat) (s t : State) : command ctr s (some t) = .next (t.signal (ctrKey ctr) 1 false) := rfl

/-- A command that fails gives a notice and poisons its counter (R410, log 57). -/
theorem command_none (ctr : Nat) (s : State) : command ctr s none = .next ((s.notify (.commandFailed ctr)).signal (ctrKey ctr) 0 true) := rfl

theorem execMap_maps {s : State} {die hwq part qid addr : Nat} (ctr : Nat) {d : List Byte} (hd : die < 8) (hh : hwq < 64)
    (hf : s.disp.hwqs.find? (hwKey die hwq) = none) (hl : (s.latch (queueKey part qid)).hwq = none) (ha : addr % 64 = 0) (hb : addr < 2 ^ 48)
    (hr : (s.noteRead die part addr 64).readPart die part addr 64 = some d) (hq : queueOk d qid = true) :
    ∃ (u : State) (w : HwQueue), execMap die hwq part qid addr ctr s =
      .next (State.signal (u.setHwq (hwKey die hwq) w) (ctrKey ctr) 1 false) ∧
      w.part = part ∧ w.qid = qid ∧ w.head = field d 12 4 ∧ (w.state = .idle ∨ w.state = .fetch) := by
  simp only [execMap, hf, hl, ha, hr, hq, Nat.not_le.2 hd, Nat.not_le.2 hh, Nat.not_le.2 hb, ne_eq, not_true_eq_false, decide_false,
    Option.isSome_none, Bool.or_self, Bool.not_true, Bool.false_eq_true, if_false, command_some]
  exact ⟨_, _, rfl, rfl, rfl, rfl, ite_eq_or_eq _ _ _⟩

section
variable {s : State} {die hwq : Nat} (ctr : Nat) {w : HwQueue} (hw : s.disp.hwqs.find? (hwKey die hwq) = some w) (hs : w.state ≠ .unmapping)
  {u : State} (hu : u = s.setLatch (queueKey w.part w.qid) { s.latch (queueKey w.part w.qid) with hold := true, noticed := false })
include hw hs hu

theorem execUnmap_waits (hc : w.state = .check) :
    execUnmap die hwq ctr s = .next (u.setHwq (hwKey die hwq) { w with state := .unmapping, unmapCtr := ctr }) := by
  subst hu
  simp only [execUnmap, hw, if_neg hs, if_pos hc]

theorem execUnmap_finishes (hc : w.state ≠ .check) : execUnmap die hwq ctr s = .next (u.finishUnmap (hwKey die hwq) w ctr) := by
  subst hu
  simp only [execUnmap, hw, if_neg hs, if_neg hc]

end

theorem execDestroy_clears {s : State} {part qid : Nat} (ctr : Nat) (hq : qid < 4096) (hm : (s.latch (queueKey part qid)).hwq = none) :
    ∃ u : State, execDestroy part qid ctr s = .next (State.signal u (ctrKey ctr) 1 false) ∧ u.disp.latches.find? (queueKey part qid) = none := by
  simp only [execDestroy, hm, Nat.not_le.2 hq, decide_false, Option.isSome_none, Bool.or_self, Bool.false_eq_true, if_false, command_some]
  exact ⟨_, rfl, SMap.find_erase_same _ _⟩

/-! ### Partitions, pages, cores and continuations (R406, R410–R412) -/

section
variable {s u : State} {part k : Nat} (ctr : Nat) {d : List Byte} (hh : s.descHome part = some k) (hd : d = s.homeBytes k 256)
  (hu : u = s.noteHome k 256) (ho : descOk d = true) (hb : u.badWords k 256 = []) (ht : part ≠ 0 → u.slotTaken part (field d 4 1) = false)
include hh hd hu ho hb ht

omit hh hd hu in
/-- A descriptor in form, of a slot that is free and with no bad word, passes the first check of PLOAD. -/
theorem ploadCheck_passes : (!descOk d || (decide (part ≠ 0) && u.slotTaken part (field d 4 1)) || decide (u.badWords k 256 ≠ [])) = false := by
  by_cases hp : part = 0
  · simp [ho, hb, hp]
  · simp [ho, hb, ht hp]

theorem execPload_removes (ha : bitOf (field d 3 1) 0 = false) :
    execPload part ctr s = .next ((u.removePartition part).signal (ctrKey ctr) 1 false) := by
  have passes := ploadCheck_passes ho hb ht
  subst hd hu
  simp only [execPload, hh, passes, ha, Bool.not_false, Bool.false_eq_true, if_false, if_true, command_some]

theorem execPload_loads (ha : bitOf (field d 3 1) 0 = true)
    (hf : part = 0 ∨ (s.disp.parts.filter fun p => p.1 ≠ 0 && p.1 ≠ part && p.2.active).length < 64) (hk : u.keepsArcs part d = true)
    {v : State} (hv : v = { u with disp := { u.disp with
      latches := u.placedLatches
      parts := u.disp.parts.insert part { u.partOf part with desc := d, active := true } } }) : execPload part ctr s =
    .next ((if (u.partOf part).active = true then v else v.writeView part).signal (ctrKey ctr) 1 false) := by
  have passes := ploadCheck_passes ho hb ht
  have room : (decide (64 ≤ (u.disp.parts.filter fun p => p.1 ≠ 0 && p.1 ≠ part && p.2.active).length) && decide (part ≠ 0)) = false := by
    rw [hu, State.noteHome_disp]
    rcases hf with hf | hf
    · simp [hf]
    · rw [decide_eq_false (Nat.not_le.2 hf), Bool.false_and]
  subst hd hv
  simp only [execPload, hh, ← hu, passes, ha, room, hk, Bool.not_true, Bool.or_self, Bool.false_eq_true, if_false, command_some]
  cases (u.partOf part).active <;> rfl

end

/-- A page that no migration holds gets MIG in its leaf, and waits to be copied. -/
theorem execMigrate_migrates {s u : State} {part va pa k e : Nat} (ctr : Nat) (hl : s.pageLeaf part (va % 2 ^ 48) = (some (k, e), u))
    (hm : bitOf e 6 = false) (ha : pa % 2 ^ 16 = 0) (h1 : (s.physical part 3 pa).isSome = true) (h2 : (s.physical part 3 (pa + 2 ^ 16 - 1)).isSome = true)
    (hp : (u.partOf part).active = true) (hv : va < 2 ^ 48) :
    ∃ t, execMigrate part va pa ctr s = .next t ∧ t.mem = (u.writeHomeNat 0 k 8 (e + 64)).mem ∧
      t.disp.migrations = u.disp.migrations ++ [⟨part, va / 2 ^ 16 * 2 ^ 16, k, e, pa, ctr⟩] := by
  simp only [execMigrate, hl, hm, ha, h1, h2, hp, Nat.not_le.2 hv, decide_true, decide_false, Bool.and_self, Bool.not_true, Bool.or_self,
    Bool.false_eq_true, if_false]
  exact ⟨_, rfl, rfl, by rw [State.writeHomeNat_disp]⟩

section
variable {s : State} {part va : Nat} {m : Migration}
  (hm : (s.disp.migrations.find? fun m => m.part = part && m.va = va / 2 ^ 16 * 2 ^ 16) = some m)
include hm

theorem execMigrateComplete_waits (hb : s.frameBusy (residentKey (bitsOf m.old 47 12 * 4096)) = true) :
    execMigrateComplete part va s = .next s := by
  simp only [execMigrateComplete, hm, hb, if_true]

/-- A page that nothing is under way to moves to its new frame, and its leaf names that. -/
theorem execMigrateComplete_moves (hb : s.frameBusy (residentKey (bitsOf m.old 47 12 * 4096)) = false) : ∃ u : State,
    execMigrateComplete part va s = .next (State.signal u (ctrKey m.ctr) 1 false) ∧
      u.mem = ((s.copyFrame (residentKey (bitsOf m.old 47 12 * 4096)) (residentKey m.new)).writeHomeNat 0 m.leaf 8
        (m.old - bitsOf m.old 47 12 * 4096 + m.new)).mem ∧ m ∉ u.disp.migrations := by
  simp only [execMigrateComplete, hm, hb, Bool.false_eq_true, if_false]
  exact ⟨_, rfl, by simp, by simp⟩

end

theorem execCoreset_works {s : State} {part die mask ctr : Nat} (h : s.disp.coresets.contains (part, die, mask, ctr) = true) :
    execCoreset part die mask ctr s = .next (s.workCoreset (part, die, mask, ctr)) := by
  simp only [execCoreset, h, if_true]

section
variable {s t : State} {part n rec core ctr : Nat} {v : Cont}
  (ht : t = { s with disp := { s.disp with moveconts := s.disp.moveconts.filter (· ≠ (part, rec, core, ctr)) } })
  (hr : t.contAt rec = some (n, v)) (hp : v.hart.task.part = part) (hc : core < 128) (he : t.extentReads v = true)
include ht hr hp hc he

theorem execMovecont_moves {u : State} (hm : t.moveCont n v (core / 16) (core % 16) = some u) :
    execMovecont part rec core ctr s = .next (u.signal (ctrKey ctr) 1 false) := by
  simp only [execMovecont, ← ht, hr, hp, he, hm, Nat.not_le.2 hc, ne_eq, not_true_eq_false, decide_false, Bool.not_true, Bool.or_self,
    Bool.false_eq_true, if_false, command_some]

theorem execMovecont_waits (hm : t.moveCont n v (core / 16) (core % 16) = none) : execMovecont part rec core ctr s =
    .next { t with disp := { t.disp with moveconts := t.disp.moveconts ++ [(part, rec, core, ctr)] } } := by
  subst ht
  simp only [execMovecont, hr, hp, he, hm, Nat.not_le.2 hc, ne_eq, not_true_eq_false, decide_false, Bool.not_true, Bool.or_self,
    Bool.false_eq_true, if_false]

end

/-! ### Almanac views and channels (R410, R412–R414) -/

theorem execAlmset_loads {s u : State} {part k : Nat} (ctr : Nat) (hp : (s.partOf part).active = true)
    (hk : s.physical part 3 (field (s.partOf part).desc 40 8) = some k) (hu : u = s.noteHome k 256) (hb : u.badWords k 256 = [])
    (hv : u.viewOk (u.homeBytes k 256) = true) : execAlmset part ctr s =
    .next (State.signal { u with disp := { u.disp with
      parts := u.disp.parts.insert part { u.partOf part with view := u.homeBytes k 256 } } } (ctrKey ctr) 1 false) := by
  subst hu
  simp only [execAlmset, hp, hk, hb, hv, ne_eq, not_true_eq_false, decide_false, Bool.not_true, Bool.or_self, Bool.false_eq_true, if_true,
    if_false, command_some]

theorem execGrant_grants {s : State} {h pp pb cp cb : Nat} (ctr : Nat) (hh : h < 4096) (hp : (s.partOf pp).active = true)
    (hc : (s.partOf cp).active = true) (hne : pp ≠ cp)
    (ht : (s.disp.parts.any fun p => p.1 ≠ pp && p.1 ≠ cp && p.2.active && s.allocated p.1 (chanBit h)) = false)
    (hf : s.shared.channels.find? h = none) (hap : s.allocated pp (chanBit h) = false) (hac : s.allocated cp (chanBit h) = false) :
    ∃ c : Channel, execGrant h pp pb cp cb ctr s =
      .next ((((s.setChannel h c).setAllocated pp (chanBit h) true).setAllocated cp (chanBit h) true).signal (ctrKey ctr) 1 false) ∧
      c.grant = some (pp, pb % 2 ^ 48, cp, cb % 2 ^ 48) ∧ c.poison = false := by
  simp only [execGrant, hh, hp, hc, hne, ht, hf, hap, hac, ne_eq, not_false_eq_true, decide_true, Option.isNone_none, Bool.not_false,
    Bool.and_self, Bool.not_true, Bool.false_eq_true, if_false, command_some]
  exact ⟨_, rfl, rfl, rfl⟩

theorem execRevoke_revokes {s : State} {h : Nat} (ctr : Nat) {c : Channel} (hf : s.shared.channels.find? h = some c)
    (hg : c.grant.isSome = true) : execRevoke h ctr s = .next ((s.poisonChannel h).reapRevoked.signal (ctrKey ctr) 1 false) := by
  simp only [execRevoke, hf, Option.isNone_eq_false_iff.2 hg, Bool.false_eq_true, if_false, command_some]

theorem execChcreate_creates {s u : State} {part die desc pa k : Nat} (ctr : Nat) (ha : pa % 32 = 0) (hk : s.physical part 3 pa = some k)
    (hd : die < 8) (hc : desc < 512) (hu : u = s.noteHome k 32) (hp : (u.partOf part).active = true)
    (hal : u.allocated part (chanBit (die * 512 + desc)) = true) (hf : u.shared.channels.find? (die * 512 + desc) = none)
    (hb : u.badWords k 32 = []) (hr : chanRecordOk (u.homeBytes k 32) = true) : ∃ c : Channel, execChcreate part die desc pa ctr s =
      .next ((u.setChannel (die * 512 + desc) c).signal (ctrKey ctr) 1 false) ∧ c.part = part ∧ c.depth = field (u.homeBytes k 32) 12 2 ∧
      c.slots = [] ∧ c.poison = false := by
  subst hu
  simp only [execChcreate, ha, hk, hp, hal, hf, hb, hr, Nat.not_le.2 hd, Nat.not_le.2 hc, ne_eq, not_true_eq_false, decide_false,
    Option.isSome_none, Bool.not_true, Bool.or_self, Bool.false_eq_true, if_true, if_false, command_some]
  exact ⟨_, rfl, rfl, rfl, rfl, rfl⟩

theorem execChfree_frees {s : State} {part die desc : Nat} (ctr : Nat) {c : Channel}
    (hf : s.shared.channels.find? (die * 512 + desc) = some c) (hp : c.part = part) (hg : c.grant = none) (h1 : c.count 1 = 0)
    (h3 : c.count 3 = 0) : execChfree part die desc ctr s =
    .next (State.signal { s with shared := { s.shared with channels := s.shared.channels.erase (die * 512 + desc) } } (ctrKey ctr) 1 false) := by
  simp only [execChfree, hf, hp, hg, h1, h3, ne_eq, not_true_eq_false, decide_false, Option.isSome_none, Bool.or_self, Bool.false_eq_true,
    if_false, command_some]

/-! ### Commands whose target does not exist (R410) -/

theorem execUnmap_none {s : State} {die hwq : Nat} (ctr : Nat) (h : s.disp.hwqs.find? (hwKey die hwq) = none) :
    execUnmap die hwq ctr s = command ctr s none := by
  simp only [execUnmap, h]

theorem execMovecont_none {s : State} {part rec core ctr : Nat} (h : s.contAt rec = none)
    (hq : (part, rec, core, ctr) ∉ s.disp.moveconts) : execMovecont part rec core ctr s = command ctr s none := by
  have kept : s.disp.moveconts.filter (· ≠ (part, rec, core, ctr)) = s.disp.moveconts :=
    List.filter_eq_self.2 fun q hm => decide_eq_true fun e => hq (e ▸ hm)
  simp only [execMovecont, kept, h]

theorem execRevoke_none {s : State} {h : Nat} (ctr : Nat) (hf : s.shared.channels.find? h = none) :
    execRevoke h ctr s = command ctr s none := by
  simp only [execRevoke, hf]

theorem execPload_none {s : State} {part : Nat} (ctr : Nat) (h : s.descHome part = none) : execPload part ctr s = command ctr s none := by
  simp only [execPload, h]

theorem execMigrate_none {s : State} {part va : Nat} (pa ctr : Nat) (h : s.pageLeaf part (va % 2 ^ 48) = (none, s)) :
    execMigrate part va pa ctr s = command ctr s none := by
  simp only [execMigrate, h]

theorem execCoreset_none {s : State} {part die mask ctr : Nat} (h : s.disp.coresets.contains (part, die, mask, ctr) = false) (hd : 8 ≤ die) :
    execCoreset part die mask ctr s = command ctr s none := by
  simp only [execCoreset, h, hd, decide_true, Bool.or_true, Bool.true_or, Bool.false_eq_true, if_true, if_false]

theorem execChfree_none {s : State} (part : Nat) {die desc : Nat} (ctr : Nat) (h : s.shared.channels.find? (die * 512 + desc) = none) :
    execChfree part die desc ctr s = command ctr s none := by
  simp only [execChfree, h]

theorem execMap_none {die : Nat} (hwq part qid addr ctr : Nat) (s : State) (hd : 8 ≤ die) :
    execMap die hwq part qid addr ctr s = command ctr s none := by
  simp only [execMap, hd, decide_true, Bool.true_or, if_true]

theorem execDestroy_none (part : Nat) {qid : Nat} (ctr : Nat) (s : State) (hq : 4096 ≤ qid) :
    execDestroy part qid ctr s = command ctr s none := by
  simp only [execDestroy, hq, decide_true, Bool.true_or, if_true]

theorem execAlmset_none {s : State} {part : Nat} (ctr : Nat) (h : (s.partOf part).active = false) :
    execAlmset part ctr s = command ctr s none := by
  simp only [execAlmset, h, Bool.false_eq_true, if_false]

theorem execGrant_none {h : Nat} (pp pb cp cb ctr : Nat) (s : State) (hh : 4096 ≤ h) :
    execGrant h pp pb cp cb ctr s = command ctr s none := by
  simp only [execGrant, Nat.not_lt.2 hh, decide_false, Bool.false_and, Bool.not_false, if_true]

theorem execChcreate_none (part die desc : Nat) {pa : Nat} (ctr : Nat) (s : State) (ha : pa % 32 ≠ 0) :
    execChcreate part die desc pa ctr s = command ctr s none := by
  simp only [execChcreate, if_neg ha]

/-- Settles O58, by the equation of each step and each command under its conditions; a command without its target is `command` with no
state to go on to. -/
theorem dispatcherStepsDoTheirWork : Obligations.DispatcherStepsDoTheirWork := by
  refine ⟨?doorbell, ?outside, ?chead, ?fetch, ?chain, ?launch, ?map, ?unmap, ?destroy, ?pload, ?migrate, ?moved, ?coreset,
    ?movecont, ?grant, ?revoke, ?almset, ?chcreate, ?chfree, ?none⟩
  case doorbell =>
    refine fun s u port offset v part q hp ho ha hw hq hu => ⟨fun hr => ?moves, fun h n => execDoorbell_counts hp ho ha hw hq⟩
    have moves : exec (.doorbell port offset v) s = _ := execDoorbell_moves hp ho ha hw hq hr hu
    exact ⟨fun hs => by rw [moves, if_pos hs], fun hs hm => by rw [moves, if_neg (Nat.not_le.2 hs), hm, Option.elim_none],
      fun hs h hm => by rw [moves, if_neg (Nat.not_le.2 hs), hm, Option.elim_some]⟩
  case outside => exact fun s port offset v => execDoorbell_outside v
  case chead => exact fun s part qid v d => execCheadWrite_writes v
  case fetch =>
    exact fun s die hwq w hw => ⟨execQueueEntryFetch_idle hw, execQueueEntryFetch_fetches hw, execQueueEntryFetch_waits hw⟩
  case chain =>
    refine fun s n die c hc hk hz => ⟨fun hr hd hn => ⟨execPrestartReport_stale hc hk hz hr hd hn, fun ht report hreport => ?report⟩,
      fun _ => execStartRelease_untimed hc, fun hr ht ha t u v h1 h2 h3 => ?release, execGangReserveTimeout_holdsBack hc hk hz⟩
    case report =>
      subst hreport
      exact ⟨execPrestartReport_reports hc hk hz hr hd hn ht, fun hv hg => ⟨execPrestartReport_short hc hk hz hr hd hn ht hv hg,
        fun hs => ⟨execPrestartReport_waits hc hk hz hr hd hn ht hv hg hs,
          fun hm t => execPrestartReport_reserves hc hk hz hr hd hn ht hv hg hs hm⟩⟩⟩
    case release =>
      subst h1 h2 h3
      refine (execStartRelease_releases hc hk hz hr ht ha).trans ?_
      cases c.source <;> rfl
  case launch =>
    exact fun s n l hl => ⟨execLaunchKill_kills hl, fun u hu => ⟨execKernelComplete_completes hl hu, execKernelComplete_undrained hl hu⟩⟩
  case map => exact fun s die hwq part qid addr ctr d => execMap_maps ctr
  case unmap => exact fun s die hwq ctr w hw hs u hu => ⟨execUnmap_waits ctr hw hs hu, execUnmap_finishes ctr hw hs hu⟩
  case destroy => exact fun s part qid ctr => execDestroy_clears ctr
  case pload =>
    exact fun s u part ctr k d hh hd hu ho hb ht => ⟨execPload_removes ctr hh hd hu ho hb ht,
      fun ha hf hk v => execPload_loads ctr hh hd hu ho hb ht ha hf hk⟩
  case migrate => exact fun s u part va pa ctr k e => execMigrate_migrates ctr
  case moved => exact fun s part va m hm => ⟨execMigrateComplete_waits hm, execMigrateComplete_moves hm⟩
  case coreset => exact fun s part die mask ctr => execCoreset_works
  case movecont =>
    exact fun s t part n rec core ctr v ht hr hp hc he => ⟨fun u => execMovecont_moves ht hr hp hc he, execMovecont_waits ht hr hp hc he⟩
  case grant => exact fun s h pp pb cp cb ctr => execGrant_grants ctr
  case revoke => exact fun s h ctr c => execRevoke_revokes ctr
  case almset => exact fun s u part ctr k => execAlmset_loads ctr
  case chcreate => exact fun s u part die desc pa ctr k => execChcreate_creates ctr
  case chfree => exact fun s part die desc ctr c => execChfree_frees ctr
  case none =>
    intro s i ctr hi
    rw [← command_none]
    rcases hi with ⟨d, q, rfl, h⟩ | ⟨p, n, k, rfl, h, hq⟩ | ⟨h, rfl, hf⟩ | ⟨p, rfl, h⟩ | ⟨p, va, pa, rfl, h⟩ | ⟨p, d, m, rfl, h, hd⟩ |
      ⟨p, d, c, rfl, h⟩ | ⟨d, q, p, k, a, rfl, hd⟩ | ⟨p, q, rfl, hq⟩ | ⟨p, rfl, h⟩ | ⟨h, a, b, c, d, rfl, hh⟩ | ⟨p, d, c, a, rfl, ha⟩
    · exact execUnmap_none ctr h
    · exact execMovecont_none h hq
    · exact execRevoke_none ctr hf
    · exact execPload_none ctr h
    · exact execMigrate_none pa ctr h
    · exact execCoreset_none h hd
    · exact execChfree_none p ctr h
    · exact execMap_none q p k a ctr s hd
    · exact execDestroy_none p ctr s hq
    · exact execAlmset_none ctr h
    · exact execGrant_none a b c d ctr s hh
    · exact execChcreate_none p d c ctr s ha

end Sys2Proof.Machine
end

section
/-! PROOFS. Registers: the hard-wired ones, and what each file reads after a write. -/

namespace Sys2Proof.Machine

/-! ### The hard-wired registers -/

@[simp] theorem State.ws_zero (s : State) (v : Word) : s.ws 0 v = s := rfl
@[simp] theorem State.wc_zero (s : State) (v : Cap) : s.wc 0 v = s := rfl
@[simp] theorem State.wk_zero (s : State) (v : KBits) : s.wk 0 v = s := rfl

/-- Settles O9: a read of number 0 gives the constant, and a write to it is discarded. -/
theorem hardwiredRegisters : Obligations.HardwiredRegisters :=
  ⟨fun s => ⟨s.rs_zero, s.rc_zero, s.rk_zero⟩, State.ws_zero, State.wc_zero, State.wk_zero⟩

/-! ### A vector result -/

/-- A main or operand register after a result: its destination holds it, every other is as before (R66). -/
theorem State.rv_wv_below (s : State) (d : VReg) (x : VBits) {r : VReg} (hr : r.toNat < 60) :
    (s.wv d x).rv r = if r = d then x else s.rv r := by
  have shifted : (((((s.hart.vec.v.set 63 s.hart.vec.v[62]).set 62 s.hart.vec.v[61]).set 61 s.hart.vec.v[60]).set 60 x).get r.toFin) =
      s.rv r := by
    have hv : r.toFin.val = r.toNat := rfl
    simp only [vget_set, hv]
    rw [if_neg (by omega), if_neg (by omega), if_neg (by omega), if_neg (by omega)]
    rfl
  show (s.hart.vec.result d x).v.get r.toFin = _
  unfold VecRegs.result
  by_cases hd : d.toNat < 60
  · simp only [if_pos hd, vget_set, shifted]
    exact if_congr (by rw [← BitVec.toNat_inj]; exact eq_comm) rfl rfl
  · simp only [if_neg hd, shifted]
    rw [if_neg fun h : r = d => hd (h ▸ hr)]

/-- The last-result file after a result: n0 holds it, and each next name what the one before it held (R66). -/
theorem State.rv_wv_last (s : State) (d : VReg) (x : VBits) {r : VReg} (hr : 60 ≤ r.toNat) :
    (s.wv d x).rv r = if r = 60 then x else s.rv (r - 1) := by
  have kept : (s.hart.vec.result d x).v.get r.toFin =
      (((((s.hart.vec.v.set 63 s.hart.vec.v[62]).set 62 s.hart.vec.v[61]).set 61 s.hart.vec.v[60]).set 60 x).get r.toFin) := by
    have hv : r.toFin.val = r.toNat := rfl
    unfold VecRegs.result
    by_cases hd : d.toNat < 60
    · simp only [if_pos hd]
      rw [vget_set, if_neg (by omega)]
    · simp only [if_neg hd]
  show (s.hart.vec.result d x).v.get r.toFin = _
  rw [kept]
  have names : r = 60 ∨ r = 61 ∨ r = 62 ∨ r = 63 := by bv_omega
  rcases names with rfl | rfl | rfl | rfl <;> simp only [vget_set] <;> rfl

@[simp] theorem State.rv_wv_n0 (s : State) (d : VReg) (x : VBits) : (s.wv d x).rv 60 = x := s.rv_wv_last d x (by decide)

/-- Settles O10: each file by its own read-after-write lemma. -/
theorem registerFilesReadBack : Obligations.RegisterFilesReadBack :=
  ⟨State.rs_ws, State.rc_wc, State.rk_wk, fun s d x => ⟨s.rv_wv_n0 d x, s.rv_wv_last d x (r := 61) (by decide),
    s.rv_wv_last d x (r := 62) (by decide), s.rv_wv_last d x (r := 63) (by decide), fun _ hr => s.rv_wv_below d x hr⟩⟩

end Sys2Proof.Machine
end

section
/-! PROOFS. Lanes of a vector and of a mask, and what an element-wise result and a compare hold in each (R65, R182, R186). -/

namespace Sys2Proof.Machine

/-! ### A vector from its lanes -/

/-- Lane `i` of a number made of lanes. -/
theorem ofLanes_lane (w : Nat) (l : List Nat) {i : Nat} (hi : i < l.length) :
    ofLanes w l / 2 ^ (w * i) % 2 ^ w = l[i] % 2 ^ w := by
  induction l generalizing i with
  | nil => simp at hi
  | cons a t ih =>
    have hp : 0 < 2 ^ w := Nat.two_pow_pos w
    cases i with
    | zero => simp [ofLanes]
    | succ i =>
      have rest : (a % 2 ^ w + 2 ^ w * ofLanes w t) / 2 ^ w = ofLanes w t := by
        rw [Nat.add_mul_div_left _ _ hp, Nat.div_eq_of_lt (Nat.mod_lt _ hp), Nat.zero_add]
      rw [ofLanes, Nat.mul_succ, Nat.add_comm (w * i), Nat.pow_add, ← Nat.div_div_eq_div_mul, rest]
      exact ih (by simpa using hi)

/-- The low lanes of a number, put together again. -/
theorem ofLanes_range (w x n : Nat) : ofLanes w ((List.range n).map fun i => x / 2 ^ (w * i) % 2 ^ w) = x % 2 ^ (w * n) := by
  induction n generalizing x with
  | zero => simp [ofLanes, Nat.mod_one]
  | succ n ih =>
    have next : ∀ i, x / 2 ^ (w * (i + 1)) = x / 2 ^ w / 2 ^ (w * i) := fun i => by
      rw [Nat.div_div_eq_div_mul, ← Nat.pow_add, Nat.mul_succ, Nat.add_comm]
    rw [List.range_succ_eq_map, List.map_cons, List.map_map, Nat.mul_succ, Nat.add_comm, Nat.pow_add, Nat.mod_mul, ← ih]
    simp [ofLanes, Function.comp_def, next]

/-- A lane that fits into a vector of `m` bits is the lane of the number the vector was cut from. -/
theorem lane_ofNat (n : Nat) {w i m : Nat} (h : w * i + w ≤ m) :
    (BitVec.ofNat m n).toNat / 2 ^ (w * i) % 2 ^ w = n / 2 ^ (w * i) % 2 ^ w := by
  rw [BitVec.toNat_ofNat, ← Nat.sub_add_cancel (Nat.le_of_add_right_le h), Nat.pow_add, Nat.mul_comm, Nat.mod_mul_right_div_self,
    Nat.mod_mod_of_dvd _ (Nat.pow_dvd_pow 2 (Nat.le_sub_of_add_le' h))]

theorem lane_vecOf {w i : Nat} (f : Nat → Nat) (hi : i < 2048 / w) :
    lane (vecOf w ((List.range (2048 / w)).map f)) w i = f i % 2 ^ w := by
  have fits : w * i + w ≤ 2048 := Nat.mul_succ w i ▸ (Nat.mul_le_mul_left w hi).trans (Nat.mul_div_le 2048 w)
  refine (lane_ofNat _ fits).trans ((ofLanes_lane w _ (by simpa using hi)).trans ?_)
  simp

/-- A masked lane keeps the old value, an unmasked one takes the new (R182). -/
theorem lane_masked (k : KBits) (old : VBits) {w i : Nat} (f : Nat → Nat) (hi : i < 2048 / w) :
    lane (masked k old w f) w i = if k.getLsbD i then f i % 2 ^ w else lane old w i := by
  rw [masked, lane_vecOf _ hi]
  split
  · rfl
  · exact Nat.mod_mod _ _

/-- With every lane masked the old vector stands. -/
theorem masked_none {k : KBits} (old : VBits) {w : Nat} (f : Nat → Nat) (hw : w ∣ 2048)
    (hk : ∀ i, i < 2048 / w → k.getLsbD i = false) : masked k old w f = old := by
  have lanes : ((List.range (2048 / w)).map fun i => if k.getLsbD i then f i else lane old w i) =
      (List.range (2048 / w)).map fun i => old.toNat / 2 ^ (w * i) % 2 ^ w :=
    List.map_congr_left fun i hi => by simp [hk i (List.mem_range.1 hi), lane]
  rw [masked, vecOf, lanes, ofLanes_range, Nat.mul_div_cancel' hw, Nat.mod_eq_of_lt old.isLt, BitVec.ofNat_toNat,
    BitVec.setWidth_eq]

/-- Lanes without flags accrue none. -/
theorem laneFlags_zero (w : Nat) {fs : List Flags5} (h : ∀ f ∈ fs, f = 0) : laneFlags w fs = 0 := by
  have step : ∀ l : List (Flags5 × Nat), (∀ p ∈ l, p.1 = 0) →
      l.foldl (fun acc p => if p.1 = 0 then acc else acc ||| flagWord (p.2 * w / 32) p.1) (0 : BitVec 320) = 0 := by
    intro l hl
    induction l with
    | nil => rfl
    | cons p t ih =>
      rw [List.foldl_cons, if_pos (hl p (by simp))]
      exact ih fun q hq => hl q (List.mem_cons_of_mem _ hq)
  exact step _ fun p hp => h _ (List.fst_mem_of_mem_zipIdx hp)

/-! ### Results of an element-wise form and of a compare -/

/-- The result of an element-wise form is its values under the governing mask (R182). -/
theorem State.elementwise_n0 (s : State) (w : Nat) (d : VReg) (k : KReg) (nf : Bool) (f : Nat → Nat × Flags5) :
    (s.elementwise w d k nf f).rv 60 = masked (s.rk k) (s.rv d) w fun i => (f i).1 := by
  unfold State.elementwise masked
  rw [State.rv_wv_n0, List.map_map]
  congr 2
  exact funext fun i => apply_ite Prod.fst ((s.rk k).getLsbD i = true) _ _

theorem State.accrue_zero (s : State) (nf : Bool) : s.accrue nf 0 = s := by
  unfold State.accrue
  split
  · rfl
  · simp [State.mod]

/-- With every lane masked an element-wise form raises no flag (R182). -/
theorem State.elementwise_vflg (s : State) (w : Nat) (d : VReg) {k : KReg} (nf : Bool) (f : Nat → Nat × Flags5)
    (hk : ∀ i, i < 2048 / w → (s.rk k).getLsbD i = false) :
    (s.elementwise w d k nf f).hart.vec.vflg = s.hart.vec.vflg := by
  unfold State.elementwise
  simp only
  rw [laneFlags_zero, State.accrue_zero]
  · rfl
  · simp only [List.map_map, List.mem_map, List.mem_range, Function.comp_apply]
    rintro _ ⟨i, hi, rfl⟩
    simp [hk i hi]

/-- Bit `i` of a mask made of truth values. -/
theorem testBit_ofLanes_one (l : List Bool) (i : Nat) :
    (ofLanes 1 (l.map fun b => if b then 1 else 0)).testBit i = (l[i]?).getD false := by
  induction l generalizing i with
  | nil => simp [ofLanes]
  | cons b t ih =>
    have bit : ofLanes 1 ((b :: t).map fun b => if b then 1 else 0) = Nat.bit b (ofLanes 1 (t.map fun b => if b then 1 else 0)) := by
      cases b <;> simp [ofLanes, Nat.bit, Nat.add_comm]
    rw [bit]
    cases i with
    | zero => simp
    | succ i => simpa [Nat.testBit_bit_succ] using ih i

/-- Bits of a compare's mask: an unmasked lane's truth, a masked lane's old bit, none at and above the lane count (R67, R186). -/
theorem State.getLsbD_compare (s : State) {w : Nat} {d : KReg} (k : KReg) (nf : Bool) (f : Nat → Bool × Flags5) (hw : 4 ≤ w) (hd : d ≠ 0)
    (i : Nat) : ((s.compare w d k nf f).rk d).getLsbD i =
      (decide (i < 2048 / w) && if (s.rk k).getLsbD i then (f i).1 else (s.rk d).getLsbD i) := by
  have lanes : 2048 / w ≤ 512 := Nat.div_le_div_left hw (by decide)
  unfold State.compare
  rw [State.rk_wk, if_pos ⟨rfl, hd⟩, BitVec.getLsbD_ofNat]
  have truth := testBit_ofLanes_one ((List.range (2048 / w)).map fun i => if (s.rk k).getLsbD i then (f i).1 else (s.rk d).getLsbD i) i
  simp only [List.map_map, Function.comp_def] at truth ⊢
  simp only [apply_ite Prod.fst] at truth ⊢
  rw [truth]
  by_cases hi : i < 2048 / w
  · simp [hi, hi.trans_le lanes]
  · simp [hi]

/-- Settles O52: the lane facts at the widths of the element types, each of at least four bits and a divisor of 2048. -/
theorem lanesOfAResult : Obligations.LanesOfAResult := by
  have divides : ∀ {w : Nat}, w = 4 ∨ w = 8 ∨ w = 16 ∨ w = 32 → w ∣ 2048 := by rintro w (rfl | rfl | rfl | rfl) <;> decide
  refine ⟨fun s w d k nf f _ i hi => ?_, fun s w d k nf f hw hk => ⟨s.elementwise_vflg w d nf f hk, ?_⟩,
    fun s w d k nf f hw hd i => s.getLsbD_compare k nf f (by omega) hd i, fun k old w f _ i hi => lane_masked k old f hi⟩
  · rw [State.elementwise_n0, lane_masked _ _ _ hi]
  · rw [State.elementwise_n0, masked_none _ _ (divides hw) hk]

end Sys2Proof.Machine
end

section
/-! PROOFS. What an instruction with one vector result leaves unchanged (R66, R180, R182). -/

namespace Sys2Proof.Machine

/-! ### Answers that hold one vector result -/

/-- An answer whose state differs in the flags, one vector result and the PC (R66, R74). -/
def ResultIn (s : State) (d : VReg) (r : Res) : Prop :=
  ∃ (nf : Bool) (fl : BitVec 320) (x : VBits), r = .next (((s.accrue nf fl).wv d x).advance 4)

section
variable {s : State} (hf : s.isFw = false) {allowed : Nat → Bool} (ha : allowed s.vt = true)
include hf ha

theorem vectorOp_allowed (word : Word) (t : State) : vectorOp word allowed s t = .next (t.advance 4) := by
  rw [vectorOp, taskOnly_task hf, if_pos ha, finish_ok]

/-- A vector operation in an allowed type that accrues flags and produces a result. -/
theorem resultIn_flags (word : Word) (nf : Bool) (fl : BitVec 320) (d : VReg) (x : VBits) :
    ResultIn s d (vectorOp word allowed s ((s.accrue nf fl).wv d x)) :=
  ⟨nf, fl, x, vectorOp_allowed hf ha _ _⟩

/-- A vector operation in an allowed type that only produces a result. -/
theorem resultIn_move (word : Word) (d : VReg) (x : VBits) : ResultIn s d (vectorOp word allowed s (s.wv d x)) :=
  resultIn_flags hf ha word true 0 d x

theorem resultIn_vectorInt (word : Word) (d a b : VReg) (k : KReg) (f : Nat → Nat → Nat → Nat) :
    ResultIn s d (vectorInt word allowed d a b k f s) :=
  resultIn_flags hf ha word _ _ d _

end

theorem resultIn_vectorFp {s : State} (hf : s.isFw = false) (ht : isWideFp s.vt = true) (word : Word) (d a b : VReg) (k : KReg) (nf : Bool)
    (f : Fmt → Nat → Nat → Nat → Nat → Nat × Flags5) : ResultIn s d (vectorFp word d a b k nf f s) :=
  resultIn_flags hf ht word _ _ d _

/-- The conversion, ranking, sparsity and noise forms of the table (R189–R196, R206, R207, R211, R216). -/
theorem resultIn_vecRule {i : Instr} {allowed : Nat → Bool} {d : VReg} (h : Claims.vecRule i = some (allowed, d, none)) {s : State}
    (hf : s.isFw = false) (ha : allowed s.vt = true) : ResultIn s d (exec i s) := by
  unfold Claims.vecRule at h
  split at h
  -- VCVT, VCVTSAT and VDQFP4, whose types depend on the operands
  case h_1 t _ _ _ | h_2 t _ _ _ =>
    cases h
    simp only [exec]
    exact resultIn_flags (allowed := fun v => decide (v ≠ t.toNat)) hf ha ..
  case h_8 =>
    cases h
    simp only [exec]
    exact resultIn_flags (allowed := fun v => decide (v = 5)) hf ha ..
  all_goals cases h
  all_goals
    simp only [exec]
    exact resultIn_flags hf ha ..

/-- Floating-point arithmetic (R183, R184). -/
theorem resultIn_vectorFpForm {i : Instr} {d a b : VReg} {k : KReg} {n : BitVec 1}
    (hi : i = .vfadd d a b k n ∨ i = .vfsub d a b k n ∨ i = .vfmul d a b k n ∨ i = .vfma d a b k n ∨ i = .vfms d a b k n ∨
      i = .vfnma d a b k n ∨ i = .vfnms d a b k n ∨ i = .vfmin d a b k n ∨ i = .vfmax d a b k n ∨ i = .vfminm d a b k n ∨
      i = .vfmaxm d a b k n ∨ i = .vfdiv d a b k n) {s : State} (hf : s.isFw = false) (ht : isWideFp s.vt = true) :
    ResultIn s d (exec i s) := by
  rcases hi with rfl | rfl | rfl | rfl | rfl | rfl | rfl | rfl | rfl | rfl | rfl | rfl
  all_goals simp only [exec]; exact resultIn_vectorFp hf ht ..

/-- Integer arithmetic and shifts (R187, R188). -/
theorem resultIn_vectorIntForm {i : Instr} {d a b : VReg} {k : KReg}
    (hi : i = .vadd d a b k ∨ i = .vsub d a b k ∨ i = .vadds d a b k ∨ i = .vsubs d a b k ∨ i = .vmul d a b k ∨
      i = .vmulh d a b k ∨ i = .vmulhu d a b k ∨ i = .vmin d a b k ∨ i = .vmax d a b k ∨ i = .vsll d a b k ∨ i = .vsrl d a b k ∨
      i = .vsra d a b k) {s : State} (hf : s.isFw = false) (ht : isIntType s.vt = true) :
    ResultIn s d (exec i s) := by
  rcases hi with rfl | rfl | rfl | rfl | rfl | rfl | rfl | rfl | rfl | rfl | rfl | rfl
  all_goals simp only [exec]; exact resultIn_vectorInt hf ht ..

/-- Lane movement, selection, compression and bit planes (R202, R203, R212, R214). -/
theorem resultIn_vectorMoveForm {i : Instr} {d a b : VReg} {k : KReg}
    (hi : i = .vperm d a b k ∨ i = .vslideup d a b k ∨ i = .vslidedn d a b k ∨ i = .vsel d a b k ∨ i = .vmov d a k ∨
      i = .vrev d a k ∨ i = .vcompr d a k ∨ i = .vexpnd d a k ∨ i = .vbpt d a ∨ i = .vbpu d a) {s : State} (hf : s.isFw = false) :
    ResultIn s d (exec i s) := by
  rcases hi with rfl | rfl | rfl | rfl | rfl | rfl | rfl | rfl | rfl | rfl
  all_goals simp only [exec]
  all_goals exact resultIn_move hf (allowed := anyType) rfl ..

/-! ### What such an answer leaves unchanged -/

@[simp] theorem VecRegs.result_k (q : VecRegs) (d : VReg) (x : VBits) : (q.result d x).k = q.k := rfl
@[simp] theorem VecRegs.result_vtype (q : VecRegs) (d : VReg) (x : VBits) : (q.result d x).vtype = q.vtype := rfl
@[simp] theorem VecRegs.result_vrm (q : VecRegs) (d : VReg) (x : VBits) : (q.result d x).vrm = q.vrm := rfl

theorem State.accrue_hart (s : State) (nf : Bool) (f : BitVec 320) : (s.accrue nf f).hart =
    { s.hart with vec := { s.hart.vec with vflg := if nf then s.hart.vec.vflg else s.hart.vec.vflg ||| f } } := by
  unfold State.accrue; split <;> simp [*]

theorem State.rv_accrue (s : State) (nf : Bool) (f : BitVec 320) (r : VReg) : (s.accrue nf f).rv r = s.rv r := by
  rw [State.rv, State.accrue_hart]; rfl

/-- A vector result changes its destination, the last-result file, the flags and the PC, and nothing else. -/
theorem frame_result {s t : State} {d : VReg} (h : ResultIn s d (.next t)) :
    OnlyHere s t ∧ SameScalars s t ∧ SameCaps s t ∧ SameMasks s t ∧ SameTiles s t ∧ SameMemory s t ∧
      (∀ r : VReg, r.toNat < 60 → r ≠ d → t.rv r = s.rv r) ∧ t.rv 61 = s.rv 60 ∧ t.hart.vec.vtype = s.hart.vec.vtype ∧
      t.hart.vec.vrm = s.hart.vec.vrm ∧ t.hart.pc = s.hart.pc + 4 := by
  obtain ⟨nf, fl, x, h⟩ := h
  cases h
  have here : OnlyHere s (((s.accrue nf fl).wv d x).advance 4) := by unfold OnlyHere State.accrue; split <;> rfl
  refine ⟨here, sameScalars_of ?_, sameCaps_of ?_, fun r => ?_, ⟨?_, ?_⟩, here.sameMemory ?_, fun r hr hd => ?_, ?_, ?_, ?_, ?_⟩
  case refine_7 =>
    exact ((s.accrue nf fl).rv_wv_below d x hr).trans ((if_neg hd).trans (s.rv_accrue nf fl r))
  case refine_8 =>
    exact ((s.accrue nf fl).rv_wv_last d x (r := 61) (by decide)).trans (s.rv_accrue nf fl 60)
  case refine_3 => simp only [State.rk, State.advance_hart, State.wv_hart, State.accrue_hart, VecRegs.result_k]
  all_goals simp only [State.advance_hart, State.wv_hart, State.accrue_hart, VecRegs.result_vtype, VecRegs.result_vrm]
  rfl

/-- Settles O53: each form named answers one vector result, and such an answer leaves the rest. -/
theorem vectorFrame : Obligations.VectorFrame := by
  intro i d s t hi hf ht
  refine frame_result (ht ▸ ?_)
  rcases hi with ⟨allowed, hrule, ha, -⟩ | ⟨a, b, k, n, hi, ha⟩ | ⟨a, b, k, hi, ha⟩ | ⟨a, b, k, hi⟩
  · exact resultIn_vecRule hrule hf ha
  · exact resultIn_vectorFpForm hi hf ha
  · exact resultIn_vectorIntForm hi hf ha
  · exact resultIn_vectorMoveForm hi hf

end Sys2Proof.Machine
end

section
/-! PROOFS. Stream registers: their binding and draining, addresses, pops and formats (R292–R296). -/

namespace Sys2Proof.Machine

/-! ### A stream register -/

theorem State.rq_wq (s : State) (q p : QReg) (z : Stream) : (s.wq q z).rq p = if p = q then z else s.rq p := by
  refine (vget_set _ _ q.isLt _ _).trans (if_congr ?_ rfl rfl)
  rw [← BitVec.toNat_inj]
  exact eq_comm

theorem onStream_bound {α : Type} {s : State} {q : QReg} (hf : s.isFw = false) (hb : (s.rq q).bound = true) (word : Word) (r : R α) :
    onStream word q s r = r := by
  rw [onStream, taskOnly_task hf, if_pos hb]

theorem onStream_unbound {α : Type} {s : State} {q : QReg} (hf : s.isFw = false) (hb : (s.rq q).bound = false) (word : Word) (r : R α) :
    onStream word q s r = .trap .streamUnbound (BitVec.ofNat 64 q.toNat) s := by
  rw [onStream, taskOnly_task hf, hb, if_neg Bool.false_ne_true]

/-- The stream without its head element is the one that the table gives. -/
theorem pop_eq_afterPop {z : Stream} {e : QElem} {rest : List QElem} (hd : z.dq = e :: rest) (fl : Flags5) :
    { z with cvf := z.cvf ||| fl }.pop = Claims.afterPop z rest fl := by
  simp only [Stream.pop, Claims.afterPop, hd, List.tail_cons]
  rfl

/-! ### Draining (R293, R296) -/

/-- The state in which a context waits for a stream's reads in flight, its queues dropped, to make it another. -/
def State.draining (s : State) (q : QReg) (z : Stream) : State :=
  ((s.dropStreamFaults s.here q.toNat).wq q (s.rq q).drained).blockOn (.drain q z)

theorem rq_draining (s : State) (q p : QReg) (z : Stream) : (s.draining q z).rq p = if p = q then (s.rq q).drained else s.rq p :=
  State.rq_wq (s.dropStreamFaults s.here q.toNat) q p _

theorem inflight_draining (s : State) (q : QReg) (z : Stream) :
    ((s.draining q z).hart.q.get q.toFin).inflight = (s.rq q).inflight := by
  have drained : ((s.draining q z).rq q).inflight = (s.rq q).drained.inflight := by rw [rq_draining, if_pos rfl]
  exact drained

/-- The stream is made the other and the context goes on. -/
def State.drainEnds (s : State) (q : QReg) (z : Stream) : State :=
  ((s.draining q z).wq q z).mod fun h => h.goOn (h.pc + 4)

/-- With reads in flight the context waits. -/
theorem finishWait_drain_waits {s : State} {q : QReg} (hq : (s.rq q).inflight ≠ []) (u : State) (z : Stream) :
    finishWait u (drainStream q z s) = .next (s.draining q z) := by
  have hv : ((s.draining q z).hart.q.get q.toFin).inflight ≠ [] := inflight_draining s q z ▸ hq
  show Host.Outcome.next ((s.draining q z).tryWait (s.draining q z).here) = _
  have hw : (s.draining q z).hart.task.wait = some (.drain q z) := rfl
  simp only [State.tryWait, State.hartAt_here, hw, if_neg hv]

/-- With no read in flight the stream is the other at once. -/
theorem finishWait_drain_ends {s : State} {q : QReg} (hq : (s.rq q).inflight = []) (u : State) (z : Stream) :
    finishWait u (drainStream q z s) = .next (s.drainEnds q z) := by
  have hv : ((s.draining q z).hart.q.get q.toFin).inflight = [] := (inflight_draining s q z).trans hq
  show Host.Outcome.next ((s.draining q z).tryWait (s.draining q z).here) = _
  have hw : (s.draining q z).hart.task.wait = some (.drain q z) := rfl
  simp only [State.tryWait, State.hartAt_here, hw, if_pos hv, State.modHart_self, State.complete, State.modHart_mod_here, if_true]
  rfl

theorem rq_drainEnds (s : State) (q p : QReg) (z : Stream) : (s.drainEnds q z).rq p = if p = q then z else s.rq p := by
  refine (State.rq_wq (s.draining q z) q p z).trans ?_
  rw [rq_draining]
  split <;> rfl

/-- Draining leaves memory as a task reads it. -/
theorem sameMemory_drainEnds (s : State) (q : QReg) (z : Stream) : SameMemory s (s.drainEnds q z) :=
  ⟨fun _ => rfl, fun _ => rfl, fun _ => rfl⟩

/-! ### QBIND, QDRAIN and QADDR -/

/-- QBIND with a good card drains the register into the stream the card binds (R293). -/
theorem execQbind_drains {s u : State} {c : CReg} {q : QReg} {b : SReg} {card : List Byte} {idx : List Nat} (hf : s.isFw = false)
    (hr : s.readCard (s.rs b).toNat false = .ok (card, idx) u) (hc : firstBad (streamFields card u.regionLen) = none) :
    execQbind c q b s = finishWait s (drainStream q
      { Stream.unbound with
        bound := true, cap := u.rc c, card := card, sink := BitVec.ofNat 16 (cDfmt card),
        src := BitVec.ofNat 16 (cStype card + if wEn (cDfmt card) then 2 ^ 15 else 0) } u) := by
  simp only [execQbind, taskOnly_task hf, hr, R.bind_ok, checkFields, hc]

section
variable {s : State} {q : QReg} (hf : s.isFw = false) (hb : (s.rq q).bound = true)
include hf hb

theorem execQdrain_drains : execQdrain q s = finishWait s (drainStream q Stream.unbound s) := by
  rw [execQdrain, onStream_bound hf hb]

/-- QADDR of an address that is out of the bound, or whose lowest and highest bytes pass, queues it (R294). -/
theorem execQaddr_queues {b : SReg}
    (hx : (s.rq q).inBounds (s.rs b) = false ∨
      (s.checkSix s.who (s.rq q).cap ((s.rq q).elemAddr (s.rs b)) 1 (byteSize (streamBits (s.rq q).card)) .load = none ∧
        s.checkSix s.who (s.rq q).cap ((s.rq q).elemAddr (s.rs b) + (rawBytes (s.rq q).card : Int) - 1) 1 1 .load = none))
    (hq : (s.rq q).aq.length < 32) :
    execQaddr q b s = .next ((s.wq q { s.rq q with aq := (s.rq q).aq ++ [s.rs b] }).advance 4) := by
  rw [execQaddr, onStream_bound hf hb, if_neg (Nat.not_le.2 hq)]
  rcases hx with hout | ⟨hlow, hhigh⟩
  · simp only [hout, Bool.false_eq_true, if_false, finish_ok]
  · simp only [hlow, hhigh, Option.map_none, ite_self, finish_ok]

theorem execQaddr_waits (b : SReg) (hq : 32 ≤ (s.rq q).aq.length) : execQaddr q b s = .next s.block := by
  rw [execQaddr, onStream_bound hf hb, if_pos hq, finish_wait]

/-! ### QSTAT and QFMT -/

theorem execQstat_reads (d : SReg) : execQstat d q s = .next ((s.ws d (s.rq q).status).advance 4) := by
  rw [execQstat, onStream_bound hf hb, finish_ok]

theorem execQfmt_writes {b : SReg} (hx : qfmtOk (s.rq q) (s.rs b).toNat = true) : execQfmt q b s =
    .next ((s.wq q { s.rq q with src := (s.rs b).extractLsb' 0 16, sink := (s.rs b).extractLsb' 16 16 }).advance 4) := by
  rw [execQfmt, onStream_bound hf hb, if_pos hx, finish_ok]

theorem execQfmt_traps {b : SReg} (hx : qfmtOk (s.rq q) (s.rs b).toNat = false) :
    execQfmt q b s = .next (s.takeTrap .illegal (s.rs b) 4) := by
  rw [execQfmt, onStream_bound hf hb, hx, if_neg Bool.false_ne_true, finish_trap]

/-! ### Pops (R294, R295) -/

/-- A pop of an unmarked head element goes on with its bytes, the flags of the conversion accrued. -/
theorem popStream_takes {small : Bool} (hs : small = true → (s.rq q).popBytes ≤ 8) {e : QElem} {rest : List QElem} {bs : List Byte}
    {fl : Flags5} (hd : (s.rq q).dq = e :: rest) (hc : (s.rq q).convHead e = (bs, fl)) (hm : e.mark = .none) (word : Word)
    (f : List Byte → Stream → State → State) :
    popStream word q small s f = .next ((f bs { s.rq q with cvf := (s.rq q).cvf ||| fl } s).advance 4) := by
  have fits : (small && decide (8 < (s.rq q).popBytes)) = false := by
    cases small
    · rfl
    · simpa using hs rfl
  simp only [popStream, onStream_bound hf hb, fits, hd, hm, hc, Bool.false_eq_true, if_false, ne_eq, not_true_eq_false]

theorem popStream_marked {e : QElem} {rest : List QElem} (hd : (s.rq q).dq = e :: rest) (hm : e.mark ≠ .none) (word : Word)
    (f : List Byte → Stream → State → State) : popStream word q false s f = .next (s.takeTrap e.mark e.addr 4) := by
  simp only [popStream, onStream_bound hf hb, hd, Bool.false_and, Bool.false_eq_true, if_false, if_pos hm]

/-- A pop of an empty queue stays at its instruction, the task READY (R295). -/
theorem popStream_empty (hd : (s.rq q).dq = []) (word : Word) (f : List Byte → Stream → State → State) :
    popStream word q false s f = .next s := by
  simp only [popStream, onStream_bound hf hb, hd, Bool.false_and, Bool.false_eq_true, if_false]

section
variable {e : QElem} {rest : List QElem} {bs : List Byte} {fl : Flags5} (hd : (s.rq q).dq = e :: rest)
  (hc : (s.rq q).convHead e = (bs, fl)) (hm : e.mark = .none)
include hd hc hm

theorem execQpops_takes (d : SReg) (hs : (s.rq q).popBytes ≤ 8) : execQpops d q s =
    .next (((s.wq q (Claims.afterPop (s.rq q) rest fl)).ws d ((s.rq q).word bs)).advance 4) := by
  rw [execQpops, popStream_takes hf hb (fun _ => hs) hd hc hm, pop_eq_afterPop hd]
  rfl

theorem execQpeek_reads (d : SReg) (hs : (s.rq q).popBytes ≤ 8) : execQpeek d q s =
    .next (((s.wq q { s.rq q with cvf := (s.rq q).cvf ||| fl }).ws d ((s.rq q).word bs)).advance 4) := by
  rw [execQpeek, popStream_takes hf hb (fun _ => hs) hd hc hm]
  rfl

theorem execQpopv_takes (v : BitVec 5) (w : BitVec 1) : execQpopv v q w s =
    .next (((s.wq q (Claims.afterPop (s.rq q) rest fl)).wv (w ++ v) (BitVec.ofNat 2048 (leNat bs))).advance 4) := by
  rw [execQpopv, popStream_takes hf hb (fun h => absurd h Bool.false_ne_true) hd hc hm, pop_eq_afterPop hd]

end

theorem execQpopv_marked {e : QElem} {rest : List QElem} (hd : (s.rq q).dq = e :: rest) (hm : e.mark ≠ .none) (v : BitVec 5)
    (w : BitVec 1) : execQpopv v q w s = .next (s.takeTrap e.mark e.addr 4) := popStream_marked hf hb hd hm _ _

theorem execQpopv_empty (hd : (s.rq q).dq = []) (v : BitVec 5) (w : BitVec 1) : execQpopv v q w s = .next s :=
  popStream_empty hf hb hd _ _

end

/-- On an unbound stream each of them traps (R292). -/
theorem exec_unboundStream {s : State} {i : Instr} {d b : SReg} {q : QReg} {v : BitVec 5} {w : BitVec 1} (hf : s.isFw = false)
    (hb : (s.rq q).bound = false)
    (hi : i = .qaddr q b ∨ i = .qpops d q ∨ i = .qpopv v q w ∨ i = .qpeek d q ∨ i = .qstat d q ∨ i = .qdrain q ∨ i = .qfmt q b) :
    exec i s = .next (s.takeTrap .streamUnbound (BitVec.ofNat 64 q.toNat) 4) := by
  rcases hi with rfl | rfl | rfl | rfl | rfl | rfl | rfl
  all_goals
    simp only [exec, execQaddr, execQpops, execQpopv, execQpeek, execQstat, execQdrain, execQfmt, popStream, onStream_unbound hf hb,
      finish_trap, finishWait_trap]

/-! ### The word of a QPOPV (R64, R148) -/

/-- A short word whose fields name an instruction that is not well formed decodes to none (R148). -/
theorem decode_illFormed {w mj : Nat} {i : Instr} (x : Nat) (hj : w / 2 ^ 26 = mj) (hm : mj < 63) (h : decFields mj w = some i)
    (hw : i.wellFormed = false) : decode w x = none := by
  have short : isLong w = false := by unfold isLong; rw [hj]; exact decide_eq_false (by omega)
  unfold decode decodeWord
  rw [short, hj, h]
  simp [hw]

/-- n1, n2 and n3 are no destination of a QPOPV (R64). -/
theorem decode_qpopv_lastResult {v : BitVec 5} (hv : 29 ≤ v.toNat) (q : QReg) :
    decode ((encode (.qpopv v q 1)).headD 0) 0 = none := by
  have hv5 : v.toNat < 2 ^ 5 := v.isLt
  have hq : q.toNat < 8 := q.isLt
  have cut : ∀ w, decFields 0x11 w = cutFX w dec11 := fun _ => rfl
  have outside : (Instr.qpopv v q 1).wellFormed = false := by
    simp only [Instr.wellFormed, vdOk, BitVec.ult, BitVec.toNat_append, decide_eq_false_iff_not, Nat.not_lt]
    exact Nat.le_trans (show 61 ≤ 1 <<< 5 + v.toNat by omega) (Nat.le_of_eq (Nat.shiftLeft_add_eq_or_of_lt hv5 1))
  show decode (encFX 0x11 v.toNat q.toNat 1 3 0 0) 0 = none
  refine decode_illFormed (mj := 0x11) 0 ?_ (by decide) ?_ outside
  · simp only [encFX]; omega
  · have fields : cutFX (encFX 0x11 v.toNat q.toNat 1 3 0 0) dec11 = dec11 v.toNat q.toNat 1 3 0 0 := by
      simp only [cutFX, encFX]; congr 1 <;> omega
    rw [cut, fields]
    simp [dec11, bv, hq]

/-- Settles O42: each instruction by its ends on a bound stream, the drains by the wait that they start. -/
theorem streamInstructionsComplete : Obligations.StreamInstructionsComplete := by
  refine ⟨?_, ?_, fun s i d b q v w hf hb hi => exec_unboundStream hf hb hi, fun v q hv => decode_qpopv_lastResult hv q⟩
  · rintro s u c q b card idx hf hr hc z rfl v rfl
    have bind : exec (.qbind c q b) s = _ := execQbind_drains (c := c) (q := q) hf hr hc
    refine ⟨fun hq => ?_, fun hq => bind.trans (finishWait_drain_waits hq s _)⟩
    refine ⟨_, bind.trans (finishWait_drain_ends hq s _), ?_, rfl, rfl, fun p hp => ?_, sameScalars_of rfl, sameCaps_of rfl,
      sameVectors_of rfl, sameMasks_of rfl, sameMemory_drainEnds ..⟩
    · rw [rq_drainEnds, if_pos rfl]
    · rw [rq_drainEnds, if_neg hp]
  · intro s d b q v w hf hb
    refine ⟨execQaddr_queues hf hb, execQaddr_waits hf hb b, fun e rest bs fl hd hc => ⟨fun hm hs => ?_, fun hm => ?_, fun hm => ?_⟩,
      fun hd => execQpopv_empty hf hb hd v w, execQstat_reads hf hb d, fun hq => ?_, fun hq => ?_, execQfmt_writes hf hb,
      execQfmt_traps hf hb⟩
    · exact ⟨execQpops_takes hf hb hd hc hm d hs, execQpeek_reads hf hb hd hc hm d hs⟩
    · exact execQpopv_takes hf hb hd hc hm v w
    · exact execQpopv_marked hf hb hd hm v w
    · refine ⟨_, (execQdrain_drains hf hb).trans (finishWait_drain_ends hq s _), ?_, rfl, rfl, fun p hp => ?_⟩
      · rw [rq_drainEnds, if_pos rfl]
      · rw [rq_drainEnds, if_neg hp]
    · exact (execQdrain_drains hf hb).trans (finishWait_drain_waits hq s _)

end Sys2Proof.Machine
end

section
/-! PROOFS. Control registers and the instructions of the firmware context (R72, R73, R175, R363, R370–R372). -/

namespace Sys2Proof.Machine

/-! ### Control registers (R73, R175) -/

/-- A number that is listed at the context's level gives its value. -/
theorem ctlValue_listed {s : State} {n : Nat} {v : Word} (h : Claims.ctlNow s n = some v) (word : Word) : ctlValue word n s = .ok v s := by
  unfold Claims.ctlNow at h
  unfold ctlValue
  split at h
  · next hf => simp only [if_pos hf, h]
  · split at h
    · next hf hn => simp only [if_neg hf, if_neg (Nat.not_le.2 hn), h]
    · cases h

theorem ctlValue_unlisted {s : State} {n : Nat} (h : Claims.ctlNow s n = none) (hn : s.isFw = true ∨ n < 0x800) (word : Word) :
    ctlValue word n s = .trap .illegal word s := by
  unfold Claims.ctlNow at h
  unfold ctlValue
  split at h
  · next hf => simp only [if_pos hf, h]
  · next hf =>
    have hn : n < 0x800 := hn.resolve_left hf
    rw [if_pos hn] at h
    simp only [if_neg hf, if_neg (Nat.not_le.2 hn), h]

/-- CTLWR, CTLSET and CTLCLR are the write of the value that the table gives. -/
theorem exec_ctlNew {s : State} {i : Instr} {d : SReg} {r : BitVec 12} {old new : Word} (h : Claims.ctlNew s old i = some (d, r, new)) :
    ∃ f : Word → Word, f old = new ∧ exec i s = ctlWrite (tvalWord i) d r.toNat f s := by
  unfold Claims.ctlNew at h
  split at h
  case h_4 => cases h
  all_goals
    cases h
    exact ⟨_, rfl, rfl⟩

section
variable {s : State} {n : Nat} {old : Word} (h : Claims.ctlNow s n = some old) (word : Word) (d : SReg) (f : Word → Word)
include h

theorem ctlWrite_readOnly (hm : ctlMask n = none) : ctlWrite word d n f s = .next (s.takeTrap .illegal word 4) := by
  simp only [ctlWrite, ctlValue_listed h, R.bind_ok, hm, finish_trap]

theorem ctlWrite_valid {m : Word} (hm : ctlMask n = some m) (hv : s.ctlValid n (f old &&& m) = true) :
    ctlWrite word d n f s = .next (((s.writeCtl n (f old &&& m)).ws d old).advance 4) := by
  simp only [ctlWrite, ctlValue_listed h, R.bind_ok, hm, if_pos hv, finish_ok]

theorem ctlWrite_invalid {m : Word} (hm : ctlMask n = some m) (hv : s.ctlValid n (f old &&& m) = false) :
    ctlWrite word d n f s = .next (s.takeTrap .illegal (f old &&& m) 4) := by
  simp only [ctlWrite, ctlValue_listed h, R.bind_ok, hm, hv, Bool.false_eq_true, if_false, finish_trap]

end

theorem execCtlrd_reads {s : State} {r : BitVec 12} {v : Word} (h : Claims.ctlNow s r.toNat = some v) (d : SReg) : execCtlrd d r s =
    .next (((if r = 0x031 then s.modTask fun t => { t with cyclesRead := v.toNat } else s).ws d v).advance 4) := by
  have number : r.toNat = 0x031 ↔ r = 0x031 := by rw [← BitVec.toNat_inj]; rfl
  simp only [execCtlrd, ctlValue_listed h, R.bind_ok, number, finish_ok]
  rfl

theorem execCtlrd_traps {s : State} {r : BitVec 12} (h : Claims.ctlNow s r.toNat = none) (hn : s.isFw = true ∨ r.toNat < 0x800) (d : SReg) :
    execCtlrd d r s = .next (s.takeTrap .illegal (tvalWord (.ctlrd d r)) 4) := by
  simp only [execCtlrd, ctlValue_unlisted h hn, R.bind_trap, finish_trap]
  rfl

/-! ### ERET (R371) -/

theorem systemOp_fw {s : State} (hf : s.isFw = true) (word : Word) (r : State → Res) : systemOp word s r = r s := if_pos hf

/-- The fields of a selector word of ERET: ACT, SLOT and STAY, no other bit set. -/
theorem eret_fields {x act slot : Nat} {stay : Bool} (ha : act < 4) (hs : slot < 4)
    (hx : x = act + slot * 2 ^ 8 + (if stay then 2 ^ 16 else 0)) :
    x % 4 = act ∧ x / 2 ^ 8 % 4 = slot ∧ bitOf x 16 = stay ∧ x - act - slot * 2 ^ 8 - x / 2 ^ 16 % 2 * 2 ^ 16 = 0 := by
  unfold bitOf
  cases stay
  · simp only [Bool.false_eq_true, if_false, decide_eq_false_iff_not] at hx ⊢; omega
  · simp only [if_true, decide_eq_true_eq] at hx ⊢; omega

/-- The state in which ERET resumes a slot: older stores performed, nothing fetched ahead (R177, R371). -/
def State.readyToReturn (s : State) : State := (s.release 1).mod fun h => { h with ahead := [] }

/-- The state after ERET's action on its slot, if it has one (R371). -/
def State.eretActs (s : State) (acts : Bool) (c : CtxId) (skip : Bool) : State :=
  if acts then s.readyToReturn.resumeSlot c skip else s.readyToReturn

section
variable {s : State} {a : SReg} (hf : s.isFw = true)
include hf

/-- ERET with a valid selector whose slot, if it acts on one, is HELD with its quarantine delivered, and which stays or ends a handler. -/
theorem execEret_passes {act slot : Nat} {stay acts : Bool} (hact : act < 3) (hslot : slot < 4)
    (hx : (s.rs a).toNat = act + slot * 2 ^ 8 + (if stay then 2 ^ 16 else 0)) {c : CtxId} (hc : c = ⟨s.here.die, s.here.core, slot⟩)
    (hacts : ((decide (bitsOf s.myCore.tcause.toNat 11 10 = 0) || !(!stay && s.myCore.tactive)) && decide (act ≠ 2)) = acts)
    (hheld : (acts && (!s.isHeld c || (s.hartAt c).undelivered)) = false) (hend : (!stay && !s.myCore.tactive) = false) :
    execEret a s = .next (if stay then (s.eretActs acts c (act = 1)).advance 4 else
      ((s.eretActs acts c (act = 1)).advance 4).leaveHandler (s.eretActs acts c (act = 1)).here.die
        (s.eretActs acts c (act = 1)).here.core) := by
  obtain ⟨fact, fslot, fstay, frest⟩ := eret_fields (by omega) hslot hx
  subst hc
  rw [execEret, systemOp_fw hf]
  simp only [frest, fact, fslot, fstay, hacts, hheld, hend, Nat.ne_of_lt hact, ne_eq, not_true_eq_false, decide_false, Bool.or_false,
    Bool.false_eq_true, if_false]
  rfl

/-- ERET that resumes a slot, with STAY or from a handler of KIND 0 (R371). -/
theorem execEret_resumes {slot : Nat} {skip stay : Bool} (hslot : slot < 4)
    (hx : (s.rs a).toNat = (if skip then 1 else 0) + slot * 2 ^ 8 + (if stay then 2 ^ 16 else 0)) {c : CtxId}
    (hc : c = ⟨s.here.die, s.here.core, slot⟩) (hh : s.isHeld c = true) (hq : (s.hartAt c).undelivered = false)
    (he : stay = false → s.myCore.tactive = true ∧ bitsOf s.myCore.tcause.toNat 11 10 = 0) :
    execEret a s = .next (if stay then (s.readyToReturn.resumeSlot c skip).advance 4 else
      ((s.readyToReturn.resumeSlot c skip).advance 4).leaveHandler (s.readyToReturn.resumeSlot c skip).here.die
        (s.readyToReturn.resumeSlot c skip).here.core) := by
  have acts : ((decide (bitsOf s.myCore.tcause.toNat 11 10 = 0) || !(!stay && s.myCore.tactive)) &&
      decide ((if skip then 1 else 0) ≠ 2)) = true := by
    cases stay
    · cases skip <;> simp [(he rfl).2]
    · cases skip <;> simp
  have ends : (!stay && !s.myCore.tactive) = false := by
    cases stay
    · simp [(he rfl).1]
    · rfl
  have skips : decide ((if skip then 1 else 0) = 1) = skip := by cases skip <;> rfl
  have passes := execEret_passes hf (by split <;> decide) hslot hx hc acts (by simp [hh, hq]) ends
  rwa [skips] at passes

/-- ERET that resumes none leaves the handler (R371). -/
theorem execEret_leaves (hx : s.rs a = 2) (ht : s.myCore.tactive = true) :
    execEret a s = .next ((s.readyToReturn.advance 4).leaveHandler s.readyToReturn.here.die s.readyToReturn.here.core) := by
  have passes := execEret_passes hf (act := 2) (slot := 0) (stay := false) (acts := false) (by decide) (by decide) (by rw [hx]; rfl) rfl
    (by simp) rfl (by simp [ht])
  rwa [if_neg Bool.false_ne_true] at passes

/-! ### WFI, HALT, TLBINV and QUARDR (R372) -/

theorem execWfi_waits (ht : s.myCore.tactive = false) :
    execWfi a s = .next ((s.modMyCore fun k => { k with wfi := some (s.rs a).toNat }).advance 4) := by
  rw [execWfi, systemOp_fw hf, if_neg (by simp [ht])]

theorem execWfi_traps (ht : s.myCore.tactive = true) : execWfi a s = .next (s.takeTrap .illegal (tvalWord (.wfi a)) 4) := by
  rw [execWfi, systemOp_fw hf, if_pos ht]
  rfl

theorem execHalt_faults : execHalt a s = .next (s.firmwareFault s.here.die s.here.core 0 s.hart.pc (s.rs a &&& 0xFF)) := by
  rw [execHalt, systemOp_fw hf]

theorem execTlbinv_removes {b : SReg} (sc : BitVec 3) (hk : (s.rs b).toNat % 4 ≠ 3) {u : State}
    (hu : u = { s with disp := { s.disp with
      xcache := s.disp.xcache.filter fun e => !(e.inScope s.here sc.toNat &&
        e.covered ((s.rs b).toNat % 4) (bitsOf (s.rs b).toNat 27 16) ((s.rs a).toNat % 2 ^ 48)) } }) :
    execTlbinv a b sc s = .next ((u.drainDies (if 2 ≤ sc.toNat then List.range 8 else [s.here.die])).advance 4) := by
  subst hu
  rw [execTlbinv, systemOp_fw hf, if_neg hk]

/-- QUARDR delivers the quarantine of a HELD slot and counts it (R372, R393). -/
theorem execQuardr_delivers {c : CtxId} (hx : (s.rs a).toNat < 4) (hc : c = ⟨s.here.die, s.here.core, (s.rs a).toNat⟩)
    (hh : s.isHeld c = true) (d : SReg) : execQuardr d a s = .next ((((s.performLoads c).deliverQuar c).ws d (BitVec.ofNat 64
      (((((s.performLoads c).hartAt c).quar.filter ((s.performLoads c).hartAt c).quarInside).length +
          (((s.performLoads c).hartAt c).q.toList.map fun z => z.diverted.length).sum) % 2 ^ 32 +
        (((s.performLoads c).hartAt c).quar.length -
          (((s.performLoads c).hartAt c).quar.filter ((s.performLoads c).hartAt c).quarInside).length) % 2 ^ 32 * 2 ^ 32))).advance 4) := by
  subst hc
  simp only [execQuardr, systemOp_fw hf, Nat.mod_eq_of_lt hx, hh, Bool.not_true, Bool.or_false, decide_eq_true_eq, if_neg (Nat.not_le.2 hx)]

end

/-! ### Context images (R372, R375) -/

/-- A selector with no bit outside its fields passes the first check of CTXSV and CTXLD. -/
theorem imageSelector_passes {x : Nat} (hx : x < 2 ^ 14) (hz : bitsOf x 7 2 = 0) :
    (decide (x / 2 ^ 14 ≠ 0) || decide (bitsOf x 7 2 ≠ 0)) = false := by
  rw [Nat.div_eq_of_lt hx, hz]; rfl

/-- The checks of a slot's status by CTXLD: in use, and empty with no CORE section selected. -/
theorem slotInUse_true {st : SlotStatus} (h : st = .ready ∨ st = .blocked ∨ st = .reserved) :
    (decide (st = .ready) || decide (st = .blocked) || decide (st = .reserved)) = true := by
  rcases h with rfl | rfl | rfl <;> rfl

theorem slotInUse_false {st : SlotStatus} (h : st = .trapped ∨ st = .held ∨ st = .empty) :
    (decide (st = .ready) || decide (st = .blocked) || decide (st = .reserved)) = false := by
  rcases h with rfl | rfl | rfl <;> rfl

theorem slotLacksCore_false {st : SlotStatus} {core : Bool} (h : st ≠ .empty ∨ core = true) : (decide (st = .empty) && !core) = false := by
  rcases h with h | rfl
  · rw [decide_eq_false h, Bool.false_and]
  · exact Bool.and_false _

section
variable {s : State} {a : SReg} {cb : CReg} {c : CtxId} (hf : s.isFw = true)
  (hx : (s.rs a).toNat < 2 ^ 14) (hz : bitsOf (s.rs a).toNat 7 2 = 0) (hc : c = ⟨s.here.die, s.here.core, (s.rs a).toNat % 4⟩)
include hf hx hz hc

section
variable (hi : imageCap (s.rc cb) (s.rs a).toNat true = true)
include hi

theorem execCtxsv_notHeld (hh : s.isHeld c = false) (d : SReg) : execCtxsv d a cb s = .next ((s.ws d 1).advance 4) := by
  subst hc
  simp only [execCtxsv, systemOp_fw hf, imageSelector_passes hx hz, hi, hh, Bool.not_true, Bool.not_false, Bool.false_eq_true, if_false, if_true]

theorem execCtxsv_saves (hh : s.isHeld c = true) {v u w : State} {keys : List Nat} (hv : v = s.drainStores c)
    (hk : State.imageKeys (s.rc cb) .store ((v.imagePieces c (s.rs a).toNat).map fun p => (p.off, p.bytes.length)) v = .ok keys u)
    (hw : w = (keys.zip (v.imagePieces c (s.rs a).toNat)).foldl (fun t p => t.enqueueStore (cellsAt p.1 p.2.bytes) p.2.tag false) u)
    (d : SReg) : execCtxsv d a cb s =
      .next (((if bitOf (s.rs a).toNat 12 = true then w.keepSnaps (w.allJobs c) else w).ws d 0).advance 4) := by
  subst hc hv hw
  simp only [execCtxsv, systemOp_fw hf, imageSelector_passes hx hz, hi, hh, hk, Bool.not_true, Bool.false_eq_true, if_false, R.bind_ok, finish_ok]

end

section
variable (hi : imageCap (s.rc cb) (s.rs a).toNat false = true)
include hi

theorem execCtxld_inUse (hh : (s.hartAt c).status = .ready ∨ (s.hartAt c).status = .blocked ∨ (s.hartAt c).status = .reserved) (d : SReg) :
    execCtxld d a cb s = .next ((s.ws d 1).advance 4) := by
  have present : (s.hartAt c).status ≠ .empty := by rcases hh with hh | hh | hh <;> rw [hh] <;> decide
  subst hc
  simp only [execCtxld, systemOp_fw hf, imageSelector_passes hx hz, hi, slotLacksCore_false (.inl present), slotInUse_true hh,
    Bool.not_true, Bool.false_eq_true, if_false, if_true]

theorem execCtxld_noCore (hh : (s.hartAt c).status = .empty) (hb : bitOf (s.rs a).toNat 8 = false) (d : SReg) :
    execCtxld d a cb s = .next ((s.ws d 2).advance 4) := by
  subst hc
  simp only [execCtxld, systemOp_fw hf, imageSelector_passes hx hz, hi, hh, hb, decide_true, Bool.not_false, Bool.and_self, Bool.not_true,
    Bool.false_eq_true, if_false, if_true]

theorem execCtxld_loads (hh : (s.hartAt c).status = .trapped ∨ (s.hartAt c).status = .held ∨
      ((s.hartAt c).status = .empty ∧ bitOf (s.rs a).toNat 8 = true)) {core l : List (Nat × List Byte × List Bool)} {u v : State}
    (hu : State.imageRead (s.rc cb) (if bitOf (s.rs a).toNat 8 = true then imageOffs 0 1024 else []) s = .ok core u)
    (hv : State.imageRead (s.rc cb) (loadOffs (s.rs a).toNat (if bitOf (s.rs a).toNat 8 = true
      then ((s.hartAt c).tile.reshape (imageBytes core 0 1024)).dirty else (s.hartAt c).tile.dirty)) u = .ok l v) (d : SReg) :
    execCtxld d a cb s = .next ((((v.drainStores c).loadImage c (s.rs a).toNat l).ws d 0).advance 4) := by
  have given : (s.hartAt c).status ≠ .empty ∨ bitOf (s.rs a).toNat 8 = true := by
    rcases hh with hh | hh | ⟨-, hb⟩
    · exact .inl (by rw [hh]; decide)
    · exact .inl (by rw [hh]; decide)
    · exact .inr hb
  subst hc
  simp only [execCtxld, systemOp_fw hf, imageSelector_passes hx hz, hi, slotLacksCore_false given,
    slotInUse_false (hh.imp_right fun h => h.imp_right And.left), hu, hv, Bool.not_true, Bool.false_eq_true, if_false, R.bind_ok, finish_ok]

end

end

/-- Settles O55: control registers by their check and write, the system instructions by their ends at supervisor level. -/
theorem controlAndSystemComplete : Obligations.ControlAndSystemComplete := by
  refine ⟨fun s d r v h => execCtlrd_reads h d, fun s d r h hn => execCtlrd_traps h hn d, ?_, ?_, ?_, ?_, ?_, ?_, ?_⟩
  · intro s i d r old new h hi
    obtain ⟨f, rfl, he⟩ := exec_ctlNew hi
    rw [he]
    exact ⟨ctlWrite_readOnly h _ d f, fun m hm => ⟨ctlWrite_valid h _ d f hm, ctlWrite_invalid h _ d f hm⟩⟩
  · rintro s a hf slot skip stay hs hx c hc hh hq u rfl
    refine ⟨fun hst => ?_, fun hst ht hk => ?_⟩
    · subst hst
      have stays := execEret_resumes hf hs hx hc hh hq fun h => absurd h.symm Bool.false_ne_true
      rw [if_pos rfl] at stays
      exact stays
    · subst hst
      have leaves := execEret_resumes hf hs hx hc hh hq fun _ => ⟨ht, hk⟩
      rw [if_neg Bool.false_ne_true] at leaves
      exact leaves
  · rintro s a hf hx ht u rfl
    exact execEret_leaves hf hx ht
  · exact fun s a hf => ⟨execWfi_waits hf, execWfi_traps hf, execHalt_faults hf⟩
  · exact fun s a b sc hf hk u hu => execTlbinv_removes hf sc hk hu
  · intro s d a cb hf hx hz c hc
    exact ⟨fun hi => ⟨fun hh => execCtxsv_notHeld hf hx hz hc hi hh d,
        fun hh v keys u hv hk w hw => execCtxsv_saves hf hx hz hc hi hh hv hk hw d⟩,
      fun hi => ⟨fun hh => execCtxld_inUse hf hx hz hc hi hh d, fun hh hb => execCtxld_noCore hf hx hz hc hi hh hb d,
        fun hh core u l v hu hv => execCtxld_loads hf hx hz hc hi hh hu hv d⟩⟩
  · rintro s d a c hf hx hc hh v l rfl rfl
    exact execQuardr_delivers hf hx hc hh d

end Sys2Proof.Machine
end

section
/-! PROOFS. The checks of an access, capability results, and loads, stores and their queues: what an access that passes puts into a
queue, and what the oldest load of a context does when its last unit is performed. -/

namespace Sys2Proof.Machine

/-- Settles O5: the reset state lists no memory. -/
theorem resetMemoryCanonical : Obligations.ResetMemoryCanonical := rfl

/-! ### The checks of an access (R105) -/

/-- A translation that finds a location changes nothing (R402). -/
theorem translate_ok {s t : State} {die core part space va : Nat} {k : Option Kind} {v : Word} {j : Nat}
    (h : s.translate die core part space va k v = .ok j t) : t = s := by
  unfold State.translate at h
  split at h
  case h_4 =>
    split at h
    · exact (R.ok.inj h).2.symm
    · cases h
  all_goals cases h

section
variable {s : State} {w : Who} {c : Cap} {x : Int} {n al : Nat} {k : Kind}

/-- A failed check of steps 1 to 5 ends the access. -/
theorem access_fails {e : Cause} (h : capChecks w c x n al k = some e) : s.access w c x n al k = .trap e (tv x) s := by
  rw [State.access, h]

variable (h : capChecks w c x n al k = none)
include h

/-- After steps 1 to 5 the space may refuse the location. -/
theorem access_bad {e : Cause} (hp : s.place w c.space x.toNat n = .bad e) : s.access w c x n al k = .trap e (tv x) s := by
  simp only [State.access, h, hp]

/-- After steps 1 to 5 the space may answer the location. -/
theorem access_home {j : Nat} (hp : s.place w c.space x.toNat n = .home j) : s.access w c x n al k = .ok j s := by
  simp only [State.access, h, hp]

/-- After steps 1 to 5 an address of a translated space is translated. -/
theorem access_virt {sp va : Nat} (hp : s.place w c.space x.toNat n = .virt sp va) :
    s.access w c x n al k = s.translate w.die w.core w.xpart sp va (some k) (tv x) := by
  simp only [State.access, h, hp]

omit h

/-- An access that passes changes nothing. -/
theorem access_ok {j : Nat} {t : State} (h : s.access w c x n al k = .ok j t) : t = s := by
  unfold State.access at h
  split at h
  · cases h
  · split at h
    · exact (R.ok.inj h).2.symm
    · cases h
    · exact translate_ok h

end

/-- Settles O15: the checks are made one after the other, and what they leave to the space is answered by its location. -/
theorem accessChecksInOrder : Obligations.AccessChecksInOrder := by
  intro s w c x n al k
  refine ⟨fun ht => access_fails ?_, fun ht hs => access_fails ?_, fun ht hs hp => access_fails ?_, fun ht hs hp hb => access_fails ?_,
    fun ht hs hp hb hc ha => access_fails ?_, fun ht hs hp hb hc ha => ?_, fun j t h => access_ok h⟩
  · simp [capChecks, ht]
  · simp [capChecks, ht, hs]
  · simp [capChecks, ht, hs, hp]
  · have out : ((c.base : Int) ≤ x && x + n ≤ c.top) = false := by rw [← Bool.decide_and]; exact decide_eq_false hb
    simp [capChecks, ht, hs, hp, out]
  · simp [capChecks, ht, hs, hp, hb, hc, ha]
  · have passed : capChecks w c x n al k = none := by simp [capChecks, ht, hs, hp, hb, hc, ha]
    exact ⟨fun e => access_bad passed, fun j => access_home passed, fun sp va => access_virt passed⟩

/-! ### Capability instructions (R170–R173) -/

/-- Settles O21: each row of the two tables is one register write and a new PC. -/
theorem capabilityInstructionsComplete : Obligations.CapabilityInstructionsComplete := by
  refine ⟨fun i d a f h s => ?_, fun i b f h s => ?_⟩
  · unfold Claims.capOp at h
    split at h
    all_goals cases h
    all_goals rfl
  · unfold Claims.capGet at h
    split at h
    all_goals cases h
    all_goals rfl

/-! ### Scalar and capability accesses that pass (R119, R166, R174) -/

/-- Settles O18: a store whose access passes leaves one entry in the store queue. -/
theorem scalarStoresComplete : Obligations.ScalarStoresComplete :=
  fun _ _ _ _ _ hi _ _ ha => exec_scalarStore_passed hi ha

/-- A load whose access passes at a home that is there, with no bad word in its way, joins the load queue. -/
theorem load_passed {s : State} {c : Cap} {x : Int} {n k : Nat} {kind : Kind} (dest : LoadDest)
    (ha : s.access s.who c x n n kind = .ok k s) (hl : s.lost k = false) (hb : s.badBytes k n = []) :
    s.load c x n kind dest = .ok () (s.queueLoad c.space n dest [(0, k)]) := by
  simp only [State.load, ha, R.bind_ok, hl, hb, Bool.false_eq_true, if_false]

/-! ### A unit of a load is performed (R113, R114, R116, R119) -/

/-- The state with another fabric. -/
def State.withFabric (s : State) (f : Fabric) : State := { s with fabric := f }

/-- A load of elements, whose uncorrectable lines read as zeros (R113). -/
def LoadRec.wide (r : LoadRec) : Bool :=
  match r.dest with
  | .scalar .. | .cap .. => false
  | .vector .. | .tile .. => true

/-- A load with the value of one of its units. -/
def LoadRec.got (r : LoadRec) (i v : Nat) : LoadRec := { r with elems := r.elems.modify i fun e => { e with got := some v } }

/-- The uncorrectable words that a unit of a load meets (R112, R113). -/
def State.unitBad (s : State) (c : CtxId) (r : LoadRec) (k : Nat) : List Nat :=
  if r.wide then s.badLines c r.ord k r.n else s.badDrawn c r.ord k r.n

/-- A unit of a load whose bytes lie in another package is asked of its home (R432). -/
def State.unitAsked (s : State) (c : CtxId) (r : LoadRec) (k : Nat) : State :=
  if keyRegion k = 4 && s.drawn c r.ord k r.n ≠ [] then s.sendLoad k else s

/-- What a unit of a load finds wrong is counted and logged (R112, R113, R403, R437). -/
def State.unitNoted (s : State) (c : CtxId) (r : LoadRec) (k : Nat) : State :=
  let bad := s.unitBad c r k
  let s := if s.refused k then s.countRefusal else s
  if bad = [] && !(r.wide && s.lost k) then s
  else (s.logErrors (if r.wide then .vector else .task) c.core bad).modHart c fun h => { h with task := { h.task with derr := h.task.derr || r.wide } }

/-- The instructions before a load that it forwards from, at a location. -/
def State.unitForwards (s : State) (c : CtxId) (r : LoadRec) (k : Nat) : List Nat :=
  ((s.olderStores c r.ord).filter fun p : Pending => p.keys.any fun j => k ≤ j && j < k + r.n).map fun p : Pending => p.ord + 1

/-- The oldest load of a context leaves its queue once all its units are performed. -/
def State.retireOldest (s : State) (c : CtxId) : State :=
  match (s.hartAt c).loads with
  | r :: rest => if r.elems.all fun e => e.got.isSome then s.modHart c fun h => { h.receive r with loads := rest } else s
  | [] => s

section
variable {s : State} {c : CtxId} {r : LoadRec} {rest : List LoadRec}

/-- A unit performed, in its stages. -/
theorem performUnit_eq {i n k : Nat} (hq : (s.hartAt c).loads = r :: rest) (he : r.elems[i]? = some ⟨n, k, none⟩) {u v : State}
    (hu : u = (s.settleFor c r.ord k r.n).unitAsked c r k) (hv : v = u.unitNoted c r k) :
    s.performUnit c i = (v.modHart c fun h =>
      { h with forwarded := (v.unitForwards c r k).foldl Nat.max h.forwarded, loads := r.got i (u.unitValue c r k) :: rest }).retireOldest c := by
  subst hv hu
  unfold State.performUnit
  rw [hq]
  dsimp only
  rw [he]
  rfl

/-- A load whose last unit has its value leaves the queue, with its result in the registers. -/
theorem retireOldest_all (hq : (s.hartAt c).loads = r :: rest) (ha : (r.elems.all fun e => e.got.isSome) = true) :
    s.retireOldest c = s.modHart c fun h => { h.receive r with loads := rest } := by
  unfold State.retireOldest
  rw [hq]
  exact if_pos ha

end

section
variable (s : State) (c : CtxId) (r : LoadRec) (k : Nat)

/-- Asking a home changes the fabric, not who is lost (R432). -/
theorem State.unitAsked_fabric : ∃ f : Fabric, s.unitAsked c r k = s.withFabric f ∧ f.eclipsed = s.fabric.eclipsed := by
  unfold State.unitAsked State.sendLoad State.sendRequest
  split
  · split
    · exact ⟨s.fabric, rfl, rfl⟩
    · split
      · exact ⟨s.fabric, rfl, rfl⟩
      · exact ⟨_, rfl, rfl⟩
  · exact ⟨s.fabric, rfl, rfl⟩

variable {f : Fabric} (he : f.eclipsed = s.fabric.eclipsed)
include he

theorem State.lost_withFabric : (s.withFabric f).lost k = s.lost k := by
  unfold State.lost State.withFabric
  dsimp only
  rw [he]
  rfl

theorem State.unitValue_withFabric : (s.withFabric f).unitValue c r k = s.unitValue c r k := by
  unfold State.unitValue
  rw [s.lost_withFabric k he]
  rfl

/-- A unit that finds nothing wrong notes at most a refusal. -/
theorem State.unitNoted_clean (hb : s.unitBad c r k = []) (hl : (r.wide && s.lost k) = false) :
    ∃ g : Fabric, (s.withFabric f).unitNoted c r k = s.withFabric g := by
  have bad : (s.withFabric f).unitBad c r k = [] := hb
  have lost : (r.wide && (s.withFabric f).lost k) = false := by rw [s.lost_withFabric k he]; exact hl
  have quiet : ∀ b : Bool, b = false → (decide (([] : List Nat) = []) && !b) = true := fun b hb => hb ▸ rfl
  unfold State.unitNoted
  dsimp only
  rw [bad]
  split
  · exact ⟨_, if_pos (quiet _ lost)⟩
  · exact ⟨_, if_pos (quiet _ lost)⟩

end

section
variable {s u : State} {c : CtxId} {r r2 : LoadRec} {rest : List LoadRec} {i n k : Nat} (hq : (s.hartAt c).loads = r :: rest)
  (he : r.elems[i]? = some ⟨n, k, none⟩) (hu : u = s.settleFor c r.ord k r.n) (hb : u.unitBad c r k = [])
  (hl : (r.wide && u.lost k) = false) (hr : r2 = r.got i (u.unitValue c r k)) (ha : (r2.elems.all fun e => e.got.isSome) = true)
include hq he hu hb hl hr ha

/-- The last unit of the oldest load of a context finds nothing wrong: what waits in its way is settled, the unit has its value there, and
the load leaves the queue with its result. -/
theorem performUnit_last : ∃ m : Nat, (s.performUnit c i).mem = u.mem ∧ (s.performUnit c i).hartAt c =
    { ({ u.hartAt c with forwarded := m, loads := r2 :: rest } : Hart).receive r2 with loads := rest } := by
  obtain ⟨f, hf, hecl⟩ := u.unitAsked_fabric c r k
  obtain ⟨g, hg⟩ := u.unitNoted_clean c r k hecl hb hl
  have value := u.unitValue_withFabric c r k hecl
  rw [performUnit_eq hq he (hf ▸ hu ▸ rfl) hg.symm, value, ← hr, retireOldest_all (by rw [State.hartAt_modHart]) ha]
  simp only [State.modHart_mem, State.hartAt_modHart]
  exact ⟨_, rfl, rfl⟩

end

/-! ### What a unit reads -/

/-- Little-endian bytes stay below the power of their count. -/
theorem leNat_lt (bs : List Byte) : leNat bs < 2 ^ (8 * bs.length) := by
  induction bs with
  | nil => simp [leNat]
  | cons b t ih =>
    have hb : b.toNat < 256 := b.isLt
    simp only [leNat, List.length_cons, Nat.mul_add, Nat.pow_add]
    omega

@[simp] theorem upFrom_length (a n : Nat) : (upFrom a n).length = n := by simp [upFrom]

/-- No byte of a run lies in an uncorrectable line if the run meets none (R113). -/
theorem State.badLines_one {s : State} {c : CtxId} {o k n j : Nat} (hb : s.badLines c o k n = []) (hj : j ∈ upFrom k n) :
    s.badLines c o j 1 = [] := by
  unfold State.badLines at hb ⊢
  split
  · rfl
  · next hs =>
    rw [if_neg hs, List.filter_eq_nil_iff] at hb
    rw [List.filter_eq_nil_iff]
    intro w hw bad
    refine hb w hw ?_
    obtain ⟨x, hx, hl⟩ := List.any_eq_true.1 bad
    obtain ⟨hmem, hd⟩ := List.mem_filter.1 hx
    have hxj : x = j := by simpa [upFrom] using hmem
    exact List.any_eq_true.2 ⟨x, List.mem_filter.2 ⟨hxj ▸ hj, hd⟩, hl⟩

/-- An element in no uncorrectable line of a target that is there reads its bytes (R113). -/
theorem State.unitValue_wide {s : State} {c : CtxId} {r : LoadRec} {k : Nat} (hw : r.wide = true) (hb : s.badLines c r.ord k r.n = [])
    (hl : s.lost k = false) : s.unitValue c r k = leNat ((upFrom k r.n).map (s.queueByte c r.ord)) := by
  have bytes : ((upFrom k r.n).map fun j => if s.badLines c r.ord j 1 = [] then s.queueByte c r.ord j else 0) =
      (upFrom k r.n).map (s.queueByte c r.ord) :=
    List.map_congr_left fun j hj => if_pos (State.badLines_one hb hj)
  cases hd : r.dest with
  | scalar | cap => simp [LoadRec.wide, hd] at hw
  | vector | tile => simp only [State.unitValue, hd, hl, bytes, Bool.false_eq_true, if_false]

/-! ### Loads that return (R114, R116, R119, R168) -/

section
variable {s u : State} {die core slot : Nat} {c : CtxId} {r : LoadRec} {rest : List LoadRec} (hc : c = ⟨die, core, slot⟩)
  (hq : (s.hartAt c).loads = r :: rest)
include hc hq

/-- A load of one unit returns: it finds nothing wrong and has its value. -/
theorem execRemoteLoadReturn_one {k : Nat} (he : r.elems = [⟨0, k, none⟩]) (hu : u = s.settleFor c r.ord k r.n)
    (hb : u.badDrawn c r.ord k r.n = []) (hw : r.wide = false) : ∃ (t : State) (m : Nat) (r2 : LoadRec),
      exec (.remoteLoadReturn die core ⟨slot, 0⟩) s = .next t ∧ t.mem = u.mem ∧ r2.dest = r.dest ∧
      r2.value 0 = some (u.unitValue c r k) ∧
      t.hartAt c = { ({ u.hartAt c with forwarded := m, loads := r2 :: rest } : Hart).receive r2 with loads := rest } := by
  have bad : u.unitBad c r k = [] := by rw [State.unitBad, hw]; exact hb
  have got : r.got 0 (u.unitValue c r k) = { r with elems := [⟨0, k, some (u.unitValue c r k)⟩] } := by simp [LoadRec.got, he]
  obtain ⟨m, hm, hh⟩ := performUnit_last hq (i := 0) (by rw [he]; rfl) hu bad (by rw [hw]; rfl) rfl (by rw [got]; rfl)
  refine ⟨_, m, r.got 0 (u.unitValue c r k), (execRemoteLoadReturn_performs hc 0 hq).trans ?_, hm, rfl, by rw [got]; rfl, hh⟩
  rw [if_pos (by rw [he]; exact Nat.one_pos)]

/-- The last element of a load of elements returns: it finds nothing wrong and has its bytes. -/
theorem execRemoteLoadReturn_wide {i n k : Nat} {r2 : LoadRec} (he : r.elems[i]? = some ⟨n, k, none⟩) (hw : r.wide = true)
    (hu : u = s.settleFor c r.ord k r.n) (hb : u.badLines c r.ord k r.n = []) (hl : u.lost k = false)
    (hr : r2 = r.got i (leNat ((upFrom k r.n).map (u.queueByte c r.ord)))) (ha : (r2.elems.all fun e => e.got.isSome) = true) :
    ∃ (t : State) (m : Nat), exec (.remoteLoadReturn die core ⟨slot, i⟩) s = .next t ∧
      t.hartAt c = { ({ u.hartAt c with forwarded := m, loads := r2 :: rest } : Hart).receive r2 with loads := rest } := by
  have bad : u.unitBad c r k = [] := by rw [State.unitBad, hw]; exact hb
  rw [← State.unitValue_wide hw hb hl] at hr
  obtain ⟨m, -, hh⟩ := performUnit_last hq he hu bad (by rw [hl, Bool.and_false]) hr ha
  refine ⟨_, m, (execRemoteLoadReturn_performs hc i hq).trans ?_, hh⟩
  rw [if_pos (List.getElem?_eq_some_iff.1 he).1]

end

@[simp] theorem Hart.receive_pc (h : Hart) (r : LoadRec) : (h.receive r).pc = h.pc := by unfold Hart.receive; split <;> rfl

/-- Settles O17: a load that passes joins the queue, and returning it gives its register the bytes that it reads. -/
theorem scalarLoadsComplete : Obligations.ScalarLoadsComplete := by
  refine ⟨fun i d c imm n signed hi s k ha hl hb => exec_scalarLoad_passed hi ha hl hb, ?_⟩
  rintro s u die core slot k c r rest d n signed hc hq he hd rfl hu hb x rfl
  obtain ⟨t, m, r2, ht, hm, hd2, hv, hh⟩ := execRemoteLoadReturn_one hc hq he hu hb (by rw [LoadRec.wide, hd])
  have value : u.unitValue c r k = leNat ((upFrom k r.n).map (u.queueByte c r.ord)) := by rw [State.unitValue, hd]
  refine ⟨t, ht, by rw [hh], by rw [hh, Hart.receive_pc], hm, fun h0 => ?_⟩
  rw [hh]
  simp only [Hart.receive, hd2.trans hd, hv, value, Option.getD_some, if_neg h0]
  exact (vget_set _ _ _ _ _).trans (if_pos rfl)

/-- The bits of sixteen bytes with a tag above them (R107). -/
theorem ofNat_tagged {x : Nat} (hx : x < 2 ^ 128) (b : Bool) :
    BitVec.ofNat 128 (x + if b then 2 ^ 128 else 0) = BitVec.ofNat 128 x ∧ bitOf (x + if b then 2 ^ 128 else 0) 128 = b := by
  cases b
  · refine ⟨rfl, ?_⟩
    simp only [bitOf, Bool.false_eq_true, if_false, Nat.add_zero, Nat.div_eq_of_lt hx]
    rfl
  · refine ⟨by apply BitVec.eq_of_toNat_eq; simp, ?_⟩
    simp only [bitOf, if_true, Nat.add_div_right _ (Nat.two_pow_pos 128), Nat.div_eq_of_lt hx]
    rfl

/-- Settles O23: CLDC and CSTC are an access of sixteen bytes, and a capability that returns has the bytes and the tag read. -/
theorem capabilityLoadsAndStoresComplete : Obligations.CapabilityLoadsAndStoresComplete := by
  refine ⟨fun s d a imm k ha hl hb => ?_, ?_, fun s d a imm k ha => ?_⟩
  · show finish 4 s (s.load (s.rc a) (capAddr (s.rc a) imm) 16 .capLoad _) = _
    unfold capAddr
    rw [load_passed _ ha hl hb]
    rfl
  · intro s u die core slot k c r rest d keep hc hq he hd hn hu hb
    rw [← hn] at hu hb
    obtain ⟨t, m, r2, ht, -, hd2, hv, hh⟩ := execRemoteLoadReturn_one hc hq he hu hb (by rw [LoadRec.wide, hd])
    have value : u.unitValue c r k = leNat ((upFrom k 16).map (u.queueByte c r.ord)) + if u.queueTag c r.ord k then 2 ^ 128 else 0 := by
      rw [State.unitValue, hd, hn]
    have bound : leNat ((upFrom k 16).map (u.queueByte c r.ord)) < 2 ^ 128 := by
      simpa using leNat_lt ((upFrom k 16).map (u.queueByte c r.ord))
    obtain ⟨bits, tag⟩ := ofNat_tagged bound (u.queueTag c r.ord k)
    refine ⟨t, ht, by rw [hh], fun h0 => ?_⟩
    rw [hh]
    simp only [Hart.receive, hd2.trans hd, hv, value, Option.getD_some, if_neg h0, bits, tag]
    exact (vget_set _ _ _ _ _).trans (if_pos rfl)
  · show finish 4 s ((s.access s.who (s.rc a) (capAddr (s.rc a) imm) 16 16 _).bind _) = _
    unfold capAddr
    rw [ha]
    rfl

end Sys2Proof.Machine
end

section
/-! PROOFS. The loads and stores of tiles and vectors. What is settled before a load leaves the tiles of every context; elements that pass
enter the queues; the last element of a load writes its register. -/

namespace Sys2Proof.Machine

/-! ### Performing accesses at their homes leaves every context (R115–R117) -/

/-- A run of changes that each leave a context leaves it. -/
theorem foldl_hartAt {α : Type} {f : State → α → State} {e : CtxId} (h : ∀ s a, (f s a).hartAt e = s.hartAt e) (l : List α) (s : State) :
    (l.foldl f s).hartAt e = s.hartAt e := by
  induction l generalizing s with
  | nil => rfl
  | cons a t ih => rw [List.foldl_cons, ih, h]

section
variable (s : State) (e : CtxId)

@[simp] theorem State.logErrors_hartAt (a : Reader) (c : Nat) (l : List Nat) : (s.logErrors a c l).hartAt e = s.hartAt e :=
  foldl_hartAt (f := fun t w => t.logError a c w) (fun _ _ => rfl) _ _

@[simp] theorem State.writeHome_hartAt (n : Nat) (cs : List Host.Cell) (b : Bool) : (s.writeHome n cs b).hartAt e = s.hartAt e :=
  foldl_hartAt (f := fun t w => t.logError .home n w) (fun _ _ => rfl) _ _

@[simp] theorem State.writeHomeBytes_hartAt (n k : Nat) (bs : List Byte) : (s.writeHomeBytes n k bs).hartAt e = s.hartAt e :=
  s.writeHome_hartAt e _ _ _

@[simp] theorem State.writeHomeNat_hartAt (c k n x : Nat) : (s.writeHomeNat c k n x).hartAt e = s.hartAt e := s.writeHome_hartAt e _ _ _

@[simp] theorem State.countRefusal_hartAt : s.countRefusal.hartAt e = s.hartAt e := rfl

@[simp] theorem State.logError_hartAt (a : Reader) (c w : Nat) : (s.logError a c w).hartAt e = s.hartAt e := rfl

@[simp] theorem State.modDie_hartAt (d : Nat) (f : Die → Die) : (s.modDie d f).hartAt e = s.hartAt e := rfl

@[simp] theorem State.atomicHome_hartAt (c l op : Nat) (w v : Bool) (x : Nat) : (s.atomicHome c l op w v x).hartAt e = s.hartAt e := by
  simp only [State.atomicHome]
  repeat' split
  all_goals simp

@[simp] theorem State.postFault_hartAt (c : CtxId) (op : Nat) (w v : Bool) (x : Word) (sp p l : Nat) (a : Word) (n : Nat) :
    (s.postFault c op w v x sp p l a n).hartAt e = s.hartAt e := by
  simp only [State.postFault]
  split
  · rw [State.writeHomeBytes_hartAt]; rfl
  · rfl

@[simp] theorem State.sendRequest_hartAt (k : Nat) (w : Sought) (t : List Bool) (bs : List Byte) :
    (s.sendRequest k w t bs).hartAt e = s.hartAt e := by
  unfold State.sendRequest
  split <;> rfl

@[simp] theorem State.sendStore_hartAt (cs : List Host.Cell) (b : Bool) : (s.sendStore cs b).hartAt e = s.hartAt e := by
  refine foldl_hartAt (fun t l => ?_) _ _
  dsimp only
  split <;> simp

@[simp] theorem State.storeHome_hartAt (c : Nat) (cs : List Host.Cell) (b : Bool) : (s.storeHome c cs b).hartAt e = s.hartAt e := by
  have fabric : ∀ (t : State) (f : Fabric), ({ t with fabric := f } : State).hartAt e = t.hartAt e := fun _ _ => rfl
  unfold State.storeHome
  dsimp only
  repeat' split
  all_goals simp only [fabric, State.countRefusal_hartAt, State.writeHome_hartAt, State.sendStore_hartAt]

@[simp] theorem State.reduceHome_hartAt (c : CtxId) (k op : Nat) (w v : Bool) (x : Word) (sp p l : Nat) (a : Word) :
    (s.reduceHome c k op w v x sp p l a).hartAt e = s.hartAt e := by
  unfold State.reduceHome
  repeat' split
  all_goals simp

@[simp] theorem State.performAtHome_hartAt (p : Pending) : (s.performAtHome p).hartAt e = s.hartAt e := by
  unfold State.performAtHome
  dsimp only
  repeat' split
  all_goals simp

@[simp] theorem State.leaveOutbound_hartAt (p : Pending) : (s.leaveOutbound p).hartAt e = s.hartAt e := by
  have queued : ∀ (t : State) (q : List Pending), ({ t with egress := q } : State).hartAt e = t.hartAt e := fun _ _ => rfl
  unfold State.leaveOutbound
  dsimp only
  repeat' split
  all_goals simp only [queued, State.performAtHome_hartAt]

@[simp] theorem State.drainOutboundTo_hartAt (d : Nat) (f : Pending → Bool) : (s.drainOutboundTo d f).hartAt e = s.hartAt e :=
  foldl_hartAt (fun t p => t.leaveOutbound_hartAt e p) _ _

@[simp] theorem State.drainEgressTo_hartAt (f : Pending → Bool) : (s.drainEgressTo f).hartAt e = s.hartAt e :=
  foldl_hartAt (fun t p => t.performAtHome_hartAt e p) _ _

@[simp] theorem State.releaseFrom_hartAt (d n : Nat) : (s.releaseFrom d n).hartAt e = s.hartAt e := by
  unfold State.releaseFrom State.drainOutbound State.drainEgress
  dsimp only
  repeat' split
  all_goals simp

@[simp] theorem State.settleAtomics_hartAt (d k n : Nat) : (s.settleAtomics d k n).hartAt e = s.hartAt e := by
  unfold State.settleAtomics
  dsimp only
  repeat' split
  all_goals simp

@[simp] theorem State.landAtomics_hartAt (c : CtxId) (n : Nat) : (s.landAtomics c n).hartAt e = s.hartAt e := by
  unfold State.landAtomics
  dsimp only
  repeat' split
  all_goals simp

end

/-! ### What an entry of a store queue does leaves every tile (R119, R121, R261) -/

/-- A change of a context that keeps its tiles keeps those of every context. -/
theorem State.modHart_tile (s : State) (e c : CtxId) {f : Hart → Hart} (h : ∀ x, (f x).tile = x.tile) :
    ((s.modHart c f).hartAt e).tile = (s.hartAt e).tile := by
  unfold State.modHart State.setHart
  by_cases hc : c = s.here
  · subst hc
    by_cases he : e = s.here
    · simp [State.hartAt, he, h]
    · simp [State.hartAt, he]
  · by_cases he : e = s.here
    · simp [State.hartAt, hc, he]
    · by_cases hk : c.key = e.key
      · simp [State.hartAt, hc, he, hk, h]
      · simp [State.hartAt, hc, he, SMap.getD_insert_other _ _ _ hk]

/-- A run of changes that each leave a context's tiles leaves them. -/
theorem foldl_tile {α : Type} {f : State → α → State} {e : CtxId} (h : ∀ s a, ((f s a).hartAt e).tile = (s.hartAt e).tile) (l : List α)
    (s : State) : ((l.foldl f s).hartAt e).tile = (s.hartAt e).tile := by
  induction l generalizing s with
  | nil => rfl
  | cons a t ih => rw [List.foldl_cons, ih, h]

section
variable (s : State) (e : CtxId)

@[simp] theorem State.trapAt_tile (c : CtxId) (x : Cause) (v : Word) (n : Nat) : ((s.trapAt c x v n).hartAt e).tile = (s.hartAt e).tile := by
  unfold State.trapAt
  split
  · rfl
  · exact s.modHart_tile e c (f := fun h => { h with status := .trapped, trap := ⟨x, h.pc, v, n, s.polestar⟩, task := h.task.issued })
      fun _ => rfl

@[simp] theorem State.complete_tile (c : CtxId) (d : SReg) (v : Word) : ((s.complete c d v).hartAt e).tile = (s.hartAt e).tile :=
  s.modHart_tile e c fun _ => rfl

@[simp] theorem State.holdAt_tile (c : CtxId) (h i : Nat) (b : Bool) : ((s.holdAt c h i b).hartAt e).tile = (s.hartAt e).tile :=
  s.modHart_tile e c fun _ => rfl

@[simp] theorem State.chReserve_hartAt (h k : Nat) (c : Channel) : (s.chReserve h k c).hartAt e = s.hartAt e := rfl

@[simp] theorem State.chTake_hartAt (h : Nat) (c : Channel) : (s.chTake h c).hartAt e = s.hartAt e := rfl

@[simp] theorem State.tryWait_tile (c : CtxId) : ((s.tryWait c).hartAt e).tile = (s.hartAt e).tile := by
  have drained : ∀ (q : QReg) (z : Stream), ((s.modHart c fun h => { h with q := h.q.set q.toNat z q.isLt }).hartAt e).tile = (s.hartAt e).tile :=
    fun q z => s.modHart_tile e c fun _ => rfl
  unfold State.tryWait
  dsimp only
  repeat' split
  all_goals simp [drained]

@[simp] theorem State.resumeOn_hartAt (f : Cont → Bool) : (s.resumeOn f).hartAt e = s.hartAt e := rfl

@[simp] theorem State.wakeOn_tile (f : Wait → Bool) (g : Cont → Bool) : ((s.wakeOn f g).hartAt e).tile = (s.hartAt e).tile :=
  foldl_tile (fun t c => t.tryWait_tile e c) _ _

@[simp] theorem State.noteHead_hartAt (q : Nat) (l : Latch) : (s.noteHead q l).hartAt e = s.hartAt e := by
  unfold State.noteHead
  dsimp only
  repeat' split
  all_goals simp

@[simp] theorem State.latchWake_hartAt (q : Nat) : (s.latchWake q).hartAt e = s.hartAt e := by
  unfold State.latchWake
  dsimp only
  repeat' split
  all_goals rfl

@[simp] theorem State.counterWake_hartAt (k : Nat) : (s.counterWake k).hartAt e = s.hartAt e :=
  (foldl_hartAt (f := fun t (p : Nat × Latch) => t.latchWake p.1) (fun t p => t.latchWake_hartAt e p.1) _ _).trans
    (foldl_hartAt (f := fun t (p : Nat × Latch) => t.noteHead p.1 p.2) (fun t p => t.noteHead_hartAt e p.1 p.2) _ _)

@[simp] theorem State.signal_tile (k n : Nat) (b : Bool) : ((s.signal k n b).hartAt e).tile = (s.hartAt e).tile := by
  unfold State.signal
  rw [State.wakeOn_tile, State.counterWake_hartAt]
  rfl

@[simp] theorem State.serveChannel_tile (h : Nat) : ((s.serveChannel h).hartAt e).tile = (s.hartAt e).tile :=
  (foldl_tile (fun t c => t.tryWait_tile e c) _ _).trans (foldl_tile (fun t c => t.tryWait_tile e c) _ _)

@[simp] theorem State.pushSlot_tile (h i : Nat) : ((s.pushSlot h i).hartAt e).tile = (s.hartAt e).tile := by
  unfold State.pushSlot State.fillSlot
  repeat' split
  · exact State.serveChannel_tile _ e h
  all_goals rfl

@[simp] theorem State.accept_tile (c : CtxId) (a : Act) : ((s.accept c a).hartAt e).tile = (s.hartAt e).tile := by
  cases a with
  | signal => exact s.signal_tile e _ _ _
  | push => exact s.pushSlot_tile e _ _
  | copy | job | coll | token | fence => rfl

@[simp] theorem State.leaveQueue_tile (p : Pending) : ((s.leaveQueue p).hartAt e).tile = (s.hartAt e).tile := by
  unfold State.leaveQueue
  dsimp only
  repeat' split
  all_goals simp

@[simp] theorem State.leaveNext_tile (c : CtxId) (p : Pending) : ((s.leaveNext c p).hartAt e).tile = (s.hartAt e).tile := by
  unfold State.leaveNext
  split
  all_goals simp

@[simp] theorem State.drainBefore_tile (c : CtxId) (n : Nat) : ((s.drainBefore c n).hartAt e).tile = (s.hartAt e).tile :=
  (foldl_tile (fun t p => t.leaveNext_tile e c p) _ _).trans (s.modHart_tile e c fun _ => rfl)

/-- What is settled before a load reads leaves every tile. -/
@[simp] theorem State.settleFor_tile (c : CtxId) (o k n : Nat) : ((s.settleFor c o k n).hartAt e).tile = (s.hartAt e).tile := by
  unfold State.settleFor
  dsimp only
  split
  all_goals simp

end

/-! ### Loads and stores of tiles (R223, R224, R226) -/

/-- A tile instruction of a task whose tiles are configured does what it is for. -/
theorem tileOp_configured {s : State} (hf : s.isFw = false) {names : List TReg} (hs : ∀ t ∈ names, s.shape t ≠ 0) {ok : Bool}
    (hk : ok = true) (word : Word) (r : R Unit) : tileOp word names ok s r = finish 4 s r := by
  have configured : ((List.range 8).find? fun n => names.any fun t => t.toNat = n && s.shape t = 0) = none := by
    rw [List.find?_eq_none]
    intro n _ bad
    obtain ⟨t, ht, hz⟩ := List.any_eq_true.1 bad
    exact hs t ht (of_decide_eq_true (Bool.and_eq_true_iff.1 hz).2)
  unfold tileOp
  rw [taskOnly_task hf, configured, hk]
  rfl

section
variable {s : State} (hf : s.isFw = false) {d : TReg} (hs : s.shape d ≠ 0) {c : CReg} {rows : List Nat} {ok : Bool} (hk : ok = true)
  {addr : Nat → Int} (word : Word)
include hf hs hk

/-- A tile load whose elements pass enters the load queue. -/
theorem tileLoad_passes {es : List (Nat × Nat × Int)} (h : checkElems (s.rc c) (shapeElem (s.shape d)) .load
      (fun i => addr (i / 256) + (i % 256 * shapeElem (s.shape d) : Nat)) (tileElems (s.shape d) rows) s = .ok es s) :
    tileLoad word d c rows ok addr s =
      .next ((s.queueLoad (s.rc c).space (shapeElem (s.shape d)) (.tile d (s.shape d)) (es.map fun e => (e.1, e.2.1))).advance 4) := by
  unfold tileLoad
  dsimp only
  rw [tileOp_configured hf (List.forall_mem_singleton.2 hs) hk, h]
  rfl

/-- A tile load traps with its first element that fails. -/
theorem tileLoad_fails {e : Cause} {v : Word} {t : State} (h : checkElems (s.rc c) (shapeElem (s.shape d)) .load
      (fun i => addr (i / 256) + (i % 256 * shapeElem (s.shape d) : Nat)) (tileElems (s.shape d) rows) s = .trap e v t) :
    tileLoad word d c rows ok addr s = .next (t.takeTrap e v 4) := by
  unfold tileLoad
  dsimp only
  rw [tileOp_configured hf (List.forall_mem_singleton.2 hs) hk, h]
  rfl

/-- A tile store whose elements pass puts them into the store queue. -/
theorem tileStore_passes {es : List (Nat × Nat × Int)} (h : checkElems (s.rc c) (shapeElem (s.shape d)) .store
      (fun i => addr (i / 256) + (i % 256 * shapeElem (s.shape d) : Nat)) (tileElems (s.shape d) rows) s = .ok es s) :
    tileStore word d c rows ok addr s = .next (((es.foldl (fun t e => t.enqueueStore (cellsAt e.2.1 (leBytes (shapeElem (s.shape d))
      (s.tileElem d (e.1 / 256) (e.1 % 256)))) false true) s).storeEffect (s.rc c).space).advance 4) := by
  unfold tileStore
  dsimp only
  rw [tileOp_configured hf (List.forall_mem_singleton.2 hs) hk, h]
  rfl

/-- A tile store traps with its first element that fails. -/
theorem tileStore_fails {e : Cause} {v : Word} {t : State} (h : checkElems (s.rc c) (shapeElem (s.shape d)) .store
      (fun i => addr (i / 256) + (i % 256 * shapeElem (s.shape d) : Nat)) (tileElems (s.shape d) rows) s = .trap e v t) :
    tileStore word d c rows ok addr s = .next (t.takeTrap e v 4) := by
  unfold tileStore
  dsimp only
  rw [tileOp_configured hf (List.forall_mem_singleton.2 hs) hk, h]
  rfl

/-- A pair of tile forms: the load and the store of the same rows. -/
theorem tileForms {ld st : Instr} {word2 : Word} (hl : exec ld s = tileLoad word d c rows ok addr s)
    (hst : exec st s = tileStore word2 d c rows ok addr s) {els : Nat → Int}
    (he : els = fun i => addr (i / 256) + (i % 256 * shapeElem (s.shape d) : Nat)) :
    (∀ es, checkElems (s.rc c) (shapeElem (s.shape d)) .load els (tileElems (s.shape d) rows) s = .ok es s → exec ld s =
      .next ((s.queueLoad (s.rc c).space (shapeElem (s.shape d)) (.tile d (s.shape d)) (es.map fun e => (e.1, e.2.1))).advance 4)) ∧
    (∀ es, checkElems (s.rc c) (shapeElem (s.shape d)) .store els (tileElems (s.shape d) rows) s = .ok es s → exec st s =
      .next (((es.foldl (fun t e => t.enqueueStore (cellsAt e.2.1 (leBytes (shapeElem (s.shape d))
        (s.tileElem d (e.1 / 256) (e.1 % 256)))) false true) s).storeEffect (s.rc c).space).advance 4)) ∧
    ∀ k e v t, (k = Kind.load ∨ k = Kind.store) → checkElems (s.rc c) (shapeElem (s.shape d)) k els (tileElems (s.shape d) rows) s =
      .trap e v t → exec (if k = Kind.load then ld else st) s = .next (t.takeTrap e v 4) := by
  subst he
  refine ⟨fun es h => hl.trans (tileLoad_passes hf hs hk _ h), fun es h => hst.trans (tileStore_passes hf hs hk _ h), ?_⟩
  rintro k e v t (rfl | rfl) h
  · exact hl.trans (tileLoad_fails hf hs hk _ h)
  · exact hst.trans (tileStore_fails hf hs hk _ h)

end

/-- Settles O45: the rows' elements are checked and queued together, and the last element that returns writes the tile, which nothing
before it has changed. -/
theorem tileMemoryCompletes : Obligations.TileMemoryCompletes := by
  refine ⟨fun s d c b hf hs rows addr ld st hi => ?_, ?_⟩
  · rcases hi with ⟨rfl, rfl, rfl, hr, rfl⟩ | ⟨rfl, rfl, rfl, rfl⟩
    · exact tileForms (addr := fun _ => ((s.rc c).cursor : Int)) hf hs (decide_eq_true hr) _ rfl rfl rfl
    · exact tileForms (addr := fun r => ((s.rc c).cursor : Int) + (r : Int) * (s.rs b).toInt) hf hs rfl _ rfl rfl rfl
  · intro s u die core slot i n k c r r2 rest d sh hc hq he hd hu hb hl hr ha
    have dest : r2.dest = .tile d sh := by rw [hr]; exact hd
    obtain ⟨t, m, ht, hh⟩ := execRemoteLoadReturn_wide hc hq he (by rw [LoadRec.wide, hd]) hu hb hl hr ha
    have tile : (u.hartAt c).tile = (s.hartAt c).tile := by rw [hu]; exact s.settleFor_tile c c _ _ _
    refine ⟨t, ht, by rw [hh], ?_⟩
    rw [hh]
    simp only [Hart.receive, dest, tile]

/-! ### Loads and stores of vectors (R200, R217–R220) -/

section
variable {s : State} (hf : s.isFw = false) {allowed : Nat → Bool} {d : VReg} {c : CReg} {k : KReg} {addr : Nat → Int} (word : Word)
include hf

theorem vectorLoad_illegal (ha : allowed s.vt = false) : vectorLoad word allowed d c k addr s = .next (s.takeTrap .illegal word 4) := by
  unfold vectorLoad
  dsimp only
  rw [taskOnly_task hf, ha]
  rfl

theorem vectorStore_illegal (ha : allowed s.vt = false) : vectorStore word allowed d c k addr s = .next (s.takeTrap .illegal word 4) := by
  unfold vectorStore
  dsimp only
  rw [taskOnly_task hf, ha]
  rfl

variable (ha : allowed s.vt = true)
include ha

/-- A vector load traps with its first element that fails. -/
theorem vectorLoad_fails {e : Cause} {v : Word} {t : State}
    (h : checkElems (s.rc c) (elemBytes s.vt) .load addr (s.elems k) s = .trap e v t) :
    vectorLoad word allowed d c k addr s = .next (t.takeTrap e v 4) := by
  unfold vectorLoad
  dsimp only
  rw [taskOnly_task hf, ha, h]
  rfl

/-- A vector load whose elements pass enters the load queue. -/
theorem vectorLoad_passes {es : List (Nat × Nat × Int)}
    (h : checkElems (s.rc c) (elemBytes s.vt) .load addr (s.elems k) s = .ok es s) : vectorLoad word allowed d c k addr s =
      .next ((s.queueLoad (s.rc c).space (elemBytes s.vt) (.vector d (elemBytes s.vt)) (es.map fun e => (e.1, e.2.1))).advance 4) := by
  unfold vectorLoad
  dsimp only
  rw [taskOnly_task hf, ha, h]
  rfl

/-- A vector store traps with its first element that fails. -/
theorem vectorStore_fails {e : Cause} {v : Word} {t : State}
    (h : checkElems (s.rc c) (elemBytes s.vt) .store addr (s.elems k) s = .trap e v t) :
    vectorStore word allowed d c k addr s = .next (t.takeTrap e v 4) := by
  unfold vectorStore
  dsimp only
  rw [taskOnly_task hf, ha, h]
  rfl

/-- A vector store whose elements pass puts them into the store queue. -/
theorem vectorStore_passes {es : List (Nat × Nat × Int)}
    (h : checkElems (s.rc c) (elemBytes s.vt) .store addr (s.elems k) s = .ok es s) : vectorStore word allowed d c k addr s =
      .next ((if es = [] then s else (es.foldl (fun t e => t.enqueueStore (cellsAt e.2.1 (leBytes (elemBytes s.vt)
        (lane (s.rv d) (8 * elemBytes s.vt) e.1))) false false) s).storeEffect (s.rc c).space).advance 4) := by
  unfold vectorStore
  dsimp only
  rw [taskOnly_task hf, ha, h]
  cases es <;> rfl

end

section
variable {s : State} (hf : s.isFw = false) {d a : VReg} {c : CReg} {b : SReg} {k : KReg}
include hf

theorem execVsctadd_illegal (ha : scatterable s.vt = false) : execVsctadd d a c b k s =
    .next (s.takeTrap .illegal (tvalWord (.vsctadd d a c b k)) 4) := by
  unfold execVsctadd
  dsimp only
  rw [taskOnly_task hf, ha]
  rfl

variable (ha : scatterable s.vt = true)
include ha

/-- VSCTADD traps with its first element that fails. -/
theorem execVsctadd_fails {e : Cause} {v : Word} {t : State}
    (h : checkElems (s.rc c) (elemBytes s.vt) .atomic (indexAddr s c b a) (s.elems k) s = .trap e v t) :
    execVsctadd d a c b k s = .next (t.takeTrap e v 4) := by
  unfold execVsctadd
  dsimp only
  rw [taskOnly_task hf, ha, h]
  rfl

/-- VSCTADD puts a reduction for each element into the store queue. -/
theorem execVsctadd_passes {es : List (Nat × Nat × Int)}
    (h : checkElems (s.rc c) (elemBytes s.vt) .atomic (indexAddr s c b a) (s.elems k) s = .ok es s) :
    execVsctadd d a c b k s = .next (((es.foldl (fun t e => t.enqueueAtomic e.2.1 s.vt false true
      (BitVec.ofNat 64 (lane (s.rv d) (8 * elemBytes s.vt) e.1)) (s.rc c).space (BitVec.ofInt 64 e.2.2)) s).effect).advance 4) := by
  unfold execVsctadd
  dsimp only
  rw [taskOnly_task hf, ha, h]
  rfl

end

/-- A vector load is the load of its row of the table. -/
theorem exec_vecLoad {i : Instr} {s : State} {allowed : Nat → Bool} {d : VReg} {c : CReg} {k : KReg} {addr : Nat → Int}
    (h : Claims.vecLoad s i = some (allowed, d, c, k, addr)) : exec i s = vectorLoad (tvalWord i) allowed d c k addr s := by
  unfold Claims.vecLoad at h
  split at h
  all_goals cases h
  all_goals rfl

/-- A vector store of the table is the store of its row, or VSCTADD. -/
theorem exec_vecStore {i : Instr} {s : State} {allowed : Nat → Bool} {d : VReg} {c : CReg} {k : KReg} {addr : Nat → Int} {red : Bool}
    (h : Claims.vecStore s i = some (allowed, d, c, k, addr, red)) :
    (red = false ∧ exec i s = vectorStore (tvalWord i) allowed d c k addr s) ∨
    (red = true ∧ allowed = scatterable ∧ ∃ a b, i = .vsctadd d a c b k ∧ addr = indexAddr s c b a) := by
  unfold Claims.vecStore at h
  split at h
  case h_4 => cases h; exact .inr ⟨rfl, rfl, _, _, rfl, rfl⟩
  all_goals cases h
  all_goals exact .inl ⟨rfl, rfl⟩

/-- Settles O54: the unmasked elements are checked and queued together, and the last element that returns writes the vector. -/
theorem vectorMemoryCompletes : Obligations.VectorMemoryCompletes := by
  refine ⟨fun i s allowed d c k addr hi hf => ?_, fun i s allowed d c k addr red hi hf => ?_, ?_⟩
  · rw [exec_vecLoad hi]
    exact ⟨vectorLoad_illegal hf _, fun ha => ⟨fun e v t h => vectorLoad_fails hf _ ha h, fun es h => vectorLoad_passes hf _ ha h⟩⟩
  · rcases exec_vecStore hi with ⟨rfl, he⟩ | ⟨rfl, rfl, a, b, rfl, rfl⟩
    · rw [he]
      refine ⟨vectorStore_illegal hf _, ?_⟩
      rintro ha kd rfl
      refine ⟨fun e v t h => vectorStore_fails hf _ ha h, fun h => vectorStore_passes hf _ ha h, fun es h hn => ⟨fun _ => ?_, nofun⟩⟩
      rw [vectorStore_passes hf _ ha h, if_neg hn]
    · refine ⟨execVsctadd_illegal hf, ?_⟩
      rintro ha kd rfl
      exact ⟨fun e v t h => execVsctadd_fails hf ha h, fun h => execVsctadd_passes hf ha h,
        fun es h _ => ⟨nofun, fun _ => execVsctadd_passes hf ha h⟩⟩
  · intro s u die core slot i m k n c r r2 rest d old hc hq he hd hu hb hl ho hr ha
    have dest : r2.dest = .vector d n := by rw [hr]; exact hd
    obtain ⟨t, m, ht, hh⟩ := execRemoteLoadReturn_wide hc hq he (by rw [LoadRec.wide, hd]) hu hb hl hr ha
    refine ⟨t, ht, by rw [hh], ?_⟩
    rw [hh]
    simp only [Hart.receive, dest, ho, dif_pos d.isLt]
    rfl

end Sys2Proof.Machine
end

section
/-! PROOFS. Memory in canonical form: what an outcome leaves canonical, and the operations that every meaning goes through. -/

namespace Sys2Proof.Machine

/-! ### Canonical outcomes -/

/-- Whatever state an operation ends in, its memory is canonical. -/
def R.wf {α : Type} (r : R α) : Prop :=
  match r with
  | .ok _ t => memCanonical t.mem
  | .trap _ _ t => memCanonical t.mem
  | .wait => True

/-- Whatever state a meaning ends in, its memory is canonical. -/
def ResWf (r : Res) : Prop :=
  match r with
  | .next t => memCanonical t.mem
  | .fault _ => True
  | .refused _ => True

/-- Whatever state an engine's access ends in, its memory is canonical. -/
def Moved.wf {α : Type} (r : Moved α) : Prop :=
  match r with
  | .ok _ t => memCanonical t.mem
  | .fault _ _ t => memCanonical t.mem
  | .hold t => memCanonical t.mem

@[simp] theorem R.wf_ok {α : Type} (a : α) (t : State) : (R.ok a t).wf ↔ memCanonical t.mem := Iff.rfl
@[simp] theorem R.wf_trap {α : Type} (c : Cause) (v : Word) (t : State) : (R.trap c v t : R α).wf ↔ memCanonical t.mem := Iff.rfl
@[simp] theorem R.wf_wait {α : Type} : (R.wait : R α).wf := trivial
@[simp] theorem resWf_next (t : State) : ResWf (.next t) ↔ memCanonical t.mem := Iff.rfl
@[simp] theorem resWf_fault (r : Fault) : ResWf (.fault r) := trivial

@[simp] theorem Moved.wf_ok {α : Type} (a : α) (t : State) : (Moved.ok a t).wf ↔ memCanonical t.mem := Iff.rfl
@[simp] theorem Moved.wf_fault {α : Type} (c : Cause) (x : Int) (t : State) : (Moved.fault c x t : Moved α).wf ↔ memCanonical t.mem := Iff.rfl
@[simp] theorem Moved.wf_hold {α : Type} (t : State) : (Moved.hold t : Moved α).wf ↔ memCanonical t.mem := Iff.rfl

@[simp] theorem Moved.wf_ite {α : Type} (c : Prop) [Decidable c] (a b : Moved α) : (if c then a else b).wf ↔ if c then a.wf else b.wf := by
  split <;> rfl
@[simp] theorem R.wf_ite {α : Type} (c : Prop) [Decidable c] (a b : R α) : (if c then a else b).wf ↔ if c then a.wf else b.wf := by
  split <;> rfl
@[simp] theorem resWf_ite (c : Prop) [Decidable c] (a b : Res) : ResWf (if c then a else b) ↔ if c then ResWf a else ResWf b := by
  split <;> rfl
@[simp] theorem State.mem_ite (c : Prop) [Decidable c] (s t : State) : (if c then s else t).mem = if c then s.mem else t.mem := apply_ite ..
@[simp] theorem memCanonical_ite (c : Prop) [Decidable c] (m n : List Host.Cell) :
    memCanonical (if c then m else n) = if c then memCanonical m else memCanonical n := apply_ite ..

theorem R.wf.of_ok {α : Type} {r : R α} (h : r.wf) {a : α} {t : State} (e : r = .ok a t) : memCanonical t.mem := by
  rwa [e] at h

theorem R.wf.of_trap {α : Type} {r : R α} (h : r.wf) {c : Cause} {v : Word} {t : State} (e : r = .trap c v t) : memCanonical t.mem := by
  rwa [e] at h

theorem Moved.wf.of_ok {α : Type} {r : Moved α} (h : r.wf) {a : α} {t : State} (e : r = .ok a t) : memCanonical t.mem := by
  rwa [e] at h

theorem Moved.wf.of_fault {α : Type} {r : Moved α} (h : r.wf) {c : Cause} {x : Int} {t : State} (e : r = .fault c x t) :
    memCanonical t.mem := by
  rwa [e] at h

theorem Moved.wf.of_hold {α : Type} {r : Moved α} (h : r.wf) {t : State} (e : r = .hold t) : memCanonical t.mem := by
  rwa [e] at h

/-- The state of a pair whose components have names. -/
theorem canonical_fst {α : Type} {p : State × α} (h : memCanonical p.1.mem) {t : State} {a : α} (e : p = (t, a)) : memCanonical t.mem := by
  rwa [e] at h

theorem canonical_snd {α : Type} {p : α × State} (h : memCanonical p.2.mem) {t : State} {a : α} (e : p = (a, t)) : memCanonical t.mem := by
  rwa [e] at h

theorem canonical_third {α β : Type} {p : α × β × State} (h : memCanonical p.2.2.mem) {t : State} {a : α} {b : β} (e : p = (a, b, t)) :
    memCanonical t.mem := by
  rwa [e] at h

theorem mem_snd {α : Type} {p : α × State} {m : List Host.Cell} (h : p.2.mem = m) {t : State} {a : α} (e : p = (a, t)) : t.mem = m := by
  rwa [e] at h

/-- A chain of two operations ends canonical if the first does and the second keeps it. -/
@[simp] theorem R.wf_bind {α β : Type} {r : R α} {f : α → State → R β} (hr : r.wf) (hf : ∀ a t, memCanonical t.mem → (f a t).wf) :
    (r.bind f).wf := by
  cases r with
  | ok a t => exact hf a t hr
  | trap c v t => exact hr
  | wait => trivial

/-- A chain of two accesses of an engine ends canonical if the first does and the second keeps it. -/
@[simp] theorem Moved.wf_bind {α β : Type} {r : Moved α} {f : α → State → Moved β} (hr : r.wf)
    (hf : ∀ a t, memCanonical t.mem → (f a t).wf) : (r.bind f).wf := by
  cases r with
  | ok a t => exact hf a t hr
  | fault c x t => exact hr
  | hold t => exact hr

/-- An instruction that advances, traps or waits keeps memory canonical if its operation does. -/
@[simp] theorem finish_wf {n : Nat} {s : State} {r : R Unit} (hs : memCanonical s.mem) (hr : r.wf) : ResWf (finish n s r) := by
  cases r with
  | ok a t => exact hr
  | trap c v t => simpa using hr
  | wait => exact hs

@[simp] theorem taskOnly_wf {α : Type} {s : State} {w : Word} {r : R α} (hs : memCanonical s.mem) (hr : r.wf) : (taskOnly s w r).wf := by
  unfold taskOnly
  split
  · exact hs
  · exact hr

@[simp] theorem memCanonical_memSetAll {m : List Host.Cell} (hm : memCanonical m) (l : List Host.Cell) : memCanonical (memSetAll m l) :=
  memSetAll_wf hm l

@[simp] theorem memCanonical_filter {m : List Host.Cell} (hm : memCanonical m) (p : Host.Cell → Bool) : memCanonical (m.filter p) :=
  filter_wf hm p

/-- A run of changes that each leave memory leaves it. -/
@[simp] theorem foldl_mem {α : Type} {f : State → α → State} (h : ∀ s a, (f s a).mem = s.mem) (l : List α) (s : State) :
    (l.foldl f s).mem = s.mem := by
  induction l generalizing s with
  | nil => rfl
  | cons a t ih => rw [List.foldl_cons, ih, h]

/-- A run of changes that each keep memory canonical keeps it. -/
@[simp] theorem foldl_wf {α : Type} {f : State → α → State} {l : List α} {s : State} (hs : memCanonical s.mem)
    (h : ∀ t a, memCanonical t.mem → memCanonical (f t a).mem) : memCanonical (l.foldl f s).mem := by
  induction l generalizing s with
  | nil => exact hs
  | cons a t ih => exact ih (h s a hs)

end Sys2Proof.Machine
end

section
/-! PROOFS. Memory in canonical form: the accesses of a context, its queues and the homes. -/

namespace Sys2Proof.Machine

/-! ### The clock -/

@[simp] theorem State.tick_mem (s : State) : s.tick.mem = s.mem := rfl
@[simp] theorem State.ageCopies_mem (s : State) (now : Nat) : (s.ageCopies now).mem = s.mem := rfl
@[simp] theorem State.elapse_mem (s : State) : s.elapse.mem = s.mem := rfl

/-! ### Results -/

@[simp] theorem scalarResult_wf {s : State} (hs : memCanonical s.mem) (len : Nat) (d : SReg) (v : Word) :
    ResWf (scalarResult len d v s) := by
  simp [scalarResult, hs]

@[simp] theorem State.goTo_mem (s : State) (pc : Word) : (s.goTo pc).mem = s.mem := rfl

@[simp] theorem branch_wf {s : State} (hs : memCanonical s.mem) (taken : Bool) (off : BitVec 13) : ResWf (branch taken off s) := by
  simp [branch, hs]

@[simp] theorem State.firmwareFault_mem (s : State) (die core cause : Nat) (pc val : Word) :
    (s.firmwareFault die core cause pc val).mem = s.mem := rfl

@[simp] theorem State.trapContext_mem (s : State) (c : CtxId) (cause : Cause) (val : Word) (len : Nat) :
    (s.trapContext c cause val len).mem = s.mem := by
  simp [State.trapContext]

@[simp] theorem State.takeTrap_mem (s : State) (cause : Cause) (val : Word) (len : Nat) : (s.takeTrap cause val len).mem = s.mem := by
  simp [State.takeTrap]

/-! ### Checked accesses -/

@[simp] theorem State.translate_wf {s : State} (hs : memCanonical s.mem) (die core part space va : Nat) (k : Option Kind) (tval : Word) :
    (s.translate die core part space va k tval).wf := by
  unfold State.translate
  repeat' split
  all_goals simp [hs]

@[simp] theorem State.access_wf {s : State} (hs : memCanonical s.mem) (w : Who) (c : Cap) (x : Int) (n al : Nat) (k : Kind) :
    (s.access w c x n al k).wf := by
  unfold State.access
  repeat' split
  all_goals simp [hs]

@[simp] theorem State.load_wf {s : State} (hs : memCanonical s.mem) (c : Cap) (x : Int) (n : Nat) (kind : Kind) (dest : LoadDest) :
    (s.load c x n kind dest).wf := by
  unfold State.load
  refine R.wf_bind (State.access_wf hs ..) fun key t ht => ?_
  split
  · exact ht
  · split <;> simp [ht]

@[simp] theorem scalarLoad_wf {s : State} (hs : memCanonical s.mem) (d : SReg) (c : CReg) (imm : BitVec 13) (n : Nat) (signed : Bool) :
    ResWf (scalarLoad d c imm n signed s) := by
  simp [scalarLoad, hs]

@[simp] theorem State.enqueueStore_mem (s : State) (cells : List Host.Cell) (tag tile : Bool) :
    (s.enqueueStore cells tag tile).mem = s.mem := rfl

@[simp] theorem State.store_wf {s : State} (hs : memCanonical s.mem) (c : Cap) (x : Int) (n v : Nat) : (s.store c x n v).wf := by
  simp [State.store, hs]

@[simp] theorem scalarStore_wf {s : State} (hs : memCanonical s.mem) (d : SReg) (c : CReg) (imm : BitVec 13) (n : Nat) :
    ResWf (scalarStore d c imm n s) := by
  simp [scalarStore, hs]

@[simp] theorem capResult_wf {s : State} (hs : memCanonical s.mem) (d : CReg) (v : Cap) : ResWf (capResult d v s) := by simp [capResult, hs]
@[simp] theorem getter_wf {s : State} (hs : memCanonical s.mem) (b : SReg) (v : Nat) : ResWf (getter b v s) := by simp [getter, hs]

/-! ### What reaches a home -/

@[simp] theorem State.sendRequest_mem (s : State) (k : Nat) (what : Sought) (tags : List Bool) (bs : List Byte) :
    (s.sendRequest k what tags bs).mem = s.mem := by
  simp [State.sendRequest]

@[simp] theorem State.sendReturning_mem (s : State) (k n : Nat) : (s.sendReturning k n).mem = s.mem := by simp [State.sendReturning]
@[simp] theorem State.countRefusal_mem (s : State) : s.countRefusal.mem = s.mem := rfl

@[simp] theorem State.sendStore_mem (s : State) (cells : List Host.Cell) (tag : Bool) : (s.sendStore cells tag).mem = s.mem :=
  foldl_mem (fun t l => by dsimp only; split <;> simp) _ _

@[simp] theorem State.storeHome_wf {s : State} (hs : memCanonical s.mem) (core : Nat) (cells : List Host.Cell) (tag : Bool) :
    memCanonical (s.storeHome core cells tag).mem := by
  unfold State.storeHome
  dsimp only
  repeat' split
  all_goals simp [hs]

@[simp] theorem State.writeHomeBytes_wf {s : State} (hs : memCanonical s.mem) (core k : Nat) (bs : List Byte) :
    memCanonical (s.writeHomeBytes core k bs).mem := by
  simp [State.writeHomeBytes, hs]

@[simp] theorem State.postFault_wf {s : State} (hs : memCanonical s.mem) (c : CtxId) (op : Nat) (wide vector : Bool) (v : Word)
    (space part launch : Nat) (addr : Word) (cause : Nat) :
    memCanonical (s.postFault c op wide vector v space part launch addr cause).mem := by
  unfold State.postFault
  dsimp only
  repeat' split
  all_goals simp [hs]

@[simp] theorem State.atomicHome_wf {s : State} (hs : memCanonical s.mem) (core loc op : Nat) (wide vector : Bool) (v : Nat) :
    memCanonical (s.atomicHome core loc op wide vector v).mem := by
  unfold State.atomicHome
  dsimp only
  repeat' split
  all_goals simp [hs]

@[simp] theorem State.reduceHome_wf {s : State} (hs : memCanonical s.mem) (c : CtxId) (loc op : Nat) (wide vector : Bool) (v : Word)
    (space part launch : Nat) (addr : Word) : memCanonical (s.reduceHome c loc op wide vector v space part launch addr).mem := by
  simp [State.reduceHome, hs]

@[simp] theorem State.performAtHome_wf {s : State} (hs : memCanonical s.mem) (p : Pending) : memCanonical (s.performAtHome p).mem := by
  unfold State.performAtHome
  dsimp only
  repeat' split
  all_goals simp [hs]

@[simp] theorem State.leaveOutbound_wf {s : State} (hs : memCanonical s.mem) (p : Pending) : memCanonical (s.leaveOutbound p).mem := by
  unfold State.leaveOutbound
  split <;> simp [hs]

@[simp] theorem State.drainOutboundTo_wf {s : State} (hs : memCanonical s.mem) (die : Nat) (f : Pending → Bool) :
    memCanonical (s.drainOutboundTo die f).mem := foldl_wf hs fun _ _ ht => by simp [ht]

@[simp] theorem State.drainEgressTo_wf {s : State} (hs : memCanonical s.mem) (f : Pending → Bool) :
    memCanonical (s.drainEgressTo f).mem := foldl_wf hs fun _ _ ht => by simp [ht]

@[simp] theorem State.landAtomics_wf {s : State} (hs : memCanonical s.mem) (c : CtxId) (stay : Nat) :
    memCanonical (s.landAtomics c stay).mem := by
  simp [State.landAtomics, hs]

/-! ### What wakes a context -/

@[simp] theorem State.modCopy_mem (s : State) (c : CtxId) (eng : Nat) (f : CopyCtx → CopyCtx) : (s.modCopy c eng f).mem = s.mem := rfl
@[simp] theorem State.modLease_mem (s : State) (die core : Nat) (f : LeaseCtx → LeaseCtx) : (s.modLease die core f).mem = s.mem := rfl
@[simp] theorem State.resumeOn_mem (s : State) (f : Machine.Cont → Bool) : (s.resumeOn f).mem = s.mem := rfl

@[simp] theorem State.trapAt_mem (s : State) (c : CtxId) (cause : Cause) (val : Word) (len : Nat) :
    (s.trapAt c cause val len).mem = s.mem := by
  simp [State.trapAt]

@[simp] theorem State.complete_mem (s : State) (c : CtxId) (d : SReg) (v : Word) : (s.complete c d v).mem = s.mem := by
  simp [State.complete]

@[simp] theorem State.holdAt_mem (s : State) (c : CtxId) (h i : Nat) (reserved : Bool) : (s.holdAt c h i reserved).mem = s.mem := by
  simp [State.holdAt]

@[simp] theorem State.chReserve_mem (s : State) (h key : Nat) (c : Channel) : (s.chReserve h key c).mem = s.mem := rfl
@[simp] theorem State.chTake_mem (s : State) (h : Nat) (c : Channel) : (s.chTake h c).mem = s.mem := rfl

@[simp] theorem State.tryWait_mem (s : State) (c : CtxId) : (s.tryWait c).mem = s.mem := by
  unfold State.tryWait
  dsimp only
  repeat' split
  all_goals simp

@[simp] theorem State.wakeOn_mem (s : State) (f : Wait → Bool) (g : Machine.Cont → Bool) : (s.wakeOn f g).mem = s.mem := by
  simp [State.wakeOn]

@[simp] theorem State.logErrors_mem (s : State) (agent : Reader) (core : Nat) (ws : List Nat) :
    (s.logErrors agent core ws).mem = s.mem := foldl_mem (fun _ _ => by simp) _ _

@[simp] theorem State.noteHead_mem (s : State) (q : Nat) (l : Latch) : (s.noteHead q l).mem = s.mem := by
  unfold State.noteHead
  dsimp only
  repeat' split
  all_goals simp

@[simp] theorem State.wakeAll_mem (s : State) : s.wakeAll.mem = s.mem := rfl

@[simp] theorem State.latchWake_mem (s : State) (q : Nat) : (s.latchWake q).mem = s.mem := by
  unfold State.latchWake
  split <;> simp

@[simp] theorem State.counterWake_mem (s : State) (key : Nat) : (s.counterWake key).mem = s.mem := by simp [State.counterWake]
@[simp] theorem State.signal_mem (s : State) (k inc : Nat) (poison : Bool) : (s.signal k inc poison).mem = s.mem := by simp [State.signal]
@[simp] theorem State.serveChannel_mem (s : State) (h : Nat) : (s.serveChannel h).mem = s.mem := by simp [State.serveChannel]

@[simp] theorem State.fillSlot_mem (s : State) (h i : Nat) : (s.fillSlot h i).mem = s.mem := by
  unfold State.fillSlot
  split <;> simp

@[simp] theorem State.pushSlot_mem (s : State) (h i : Nat) : (s.pushSlot h i).mem = s.mem := by
  unfold State.pushSlot
  split <;> simp

@[simp] theorem State.accept_mem (s : State) (c : CtxId) (a : Act) : (s.accept c a).mem = s.mem := by
  unfold State.accept
  split <;> simp

/-! ### Queues that drain -/

@[simp] theorem State.drainOutbound_wf {s : State} (hs : memCanonical s.mem) (die : Nat) : memCanonical (s.drainOutbound die).mem := by
  simp [State.drainOutbound, hs]

@[simp] theorem State.drainEgress_wf {s : State} (hs : memCanonical s.mem) : memCanonical s.drainEgress.mem := by
  simp [State.drainEgress, hs]

@[simp] theorem State.releaseFrom_wf {s : State} (hs : memCanonical s.mem) (die scope : Nat) :
    memCanonical (s.releaseFrom die scope).mem := by
  simp [State.releaseFrom, hs]

@[simp] theorem State.leaveQueue_wf {s : State} (hs : memCanonical s.mem) (p : Pending) : memCanonical (s.leaveQueue p).mem := by
  unfold State.leaveQueue
  split <;> simp [hs]

@[simp] theorem State.leaveNext_wf {s : State} (hs : memCanonical s.mem) (c : CtxId) (p : Pending) :
    memCanonical (s.leaveNext c p).mem := by
  simp [State.leaveNext, hs]

@[simp] theorem State.drainBefore_wf {s : State} (hs : memCanonical s.mem) (c : CtxId) (n : Nat) :
    memCanonical (s.drainBefore c n).mem := foldl_wf (by simp [hs]) fun _ _ ht => by simp [ht]

/-! ### Loads performed -/

@[simp] theorem State.settleAtomics_wf {s : State} (hs : memCanonical s.mem) (die k n : Nat) :
    memCanonical (s.settleAtomics die k n).mem := by
  simp [State.settleAtomics, hs]

@[simp] theorem State.settleFor_wf {s : State} (hs : memCanonical s.mem) (c : CtxId) (ord k n : Nat) :
    memCanonical (s.settleFor c ord k n).mem := by
  unfold State.settleFor
  refine State.settleAtomics_wf ?_ ..
  split
  · exact hs
  · exact State.landAtomics_wf (State.drainBefore_wf hs ..) ..

@[simp] theorem State.sendLoad_mem (s : State) (k : Nat) : (s.sendLoad k).mem = s.mem := by simp [State.sendLoad]

@[simp] theorem State.unitAsked_mem (s : State) (c : CtxId) (r : LoadRec) (k : Nat) : (s.unitAsked c r k).mem = s.mem := by
  simp [State.unitAsked]

@[simp] theorem State.unitNoted_mem (s : State) (c : CtxId) (r : LoadRec) (k : Nat) : (s.unitNoted c r k).mem = s.mem := by
  unfold State.unitNoted
  dsimp only
  split <;> split <;> simp

@[simp] theorem State.retireOldest_mem (s : State) (c : CtxId) : (s.retireOldest c).mem = s.mem := by
  unfold State.retireOldest
  repeat' split
  all_goals simp

@[simp] theorem State.performUnit_wf {s : State} (hs : memCanonical s.mem) (c : CtxId) (i : Nat) :
    memCanonical (s.performUnit c i).mem := by
  cases hq : (s.hartAt c).loads with
  | nil => simp [State.performUnit, hq, hs]
  | cons r rest =>
    rcases he : r.elems[i]? with _ | ⟨n, k, _ | v⟩
    case cons.some.none =>
      rw [performUnit_eq hq he rfl rfl]
      simp [hs]
    all_goals
      have same : s.performUnit c i = s.retireOldest c := by
        unfold State.performUnit
        rw [hq]
        dsimp only
        rw [he]
        rfl
      simp [same, hs]

@[simp] theorem State.performOldest_wf {s : State} (hs : memCanonical s.mem) (c : CtxId) : memCanonical (s.performOldest c).mem := by
  unfold State.performOldest
  split
  · exact hs
  · dsimp only
    split
    · simp [hs]
    · exact foldl_wf hs fun t i ht => State.performUnit_wf ht ..

@[simp] theorem State.performFirst_wf {s : State} (hs : memCanonical s.mem) (c : CtxId) (n : Nat) :
    memCanonical (s.performFirst c n).mem := foldl_wf hs fun _ _ ht => by simp [ht]

@[simp] theorem State.performLoads_wf {s : State} (hs : memCanonical s.mem) (c : CtxId) : memCanonical (s.performLoads c).mem := by
  simp [State.performLoads, hs]

@[simp] theorem State.drainStores_wf {s : State} (hs : memCanonical s.mem) (c : CtxId) : memCanonical (s.drainStores c).mem :=
  foldl_wf (by simp [hs]) fun _ _ ht => by simp [ht]

@[simp] theorem State.drainCtx_wf {s : State} (hs : memCanonical s.mem) (c : CtxId) : memCanonical (s.drainCtx c).mem := by
  simp [State.drainCtx, hs]

@[simp] theorem State.drainQueue_wf {s : State} (hs : memCanonical s.mem) : memCanonical s.drainQueue.mem := by
  simp [State.drainQueue, hs]

@[simp] theorem State.drainTo_wf {s : State} (hs : memCanonical s.mem) (key : Nat) : memCanonical (s.drainTo key).mem := by
  simp [State.drainTo, hs]

@[simp] theorem State.release_wf {s : State} (hs : memCanonical s.mem) (scope : Nat) : memCanonical (s.release scope).mem := by
  simp [State.release, hs]

@[simp] theorem State.releaseIf_wf {s : State} (hs : memCanonical s.mem) (sf : BitVec 3) (r : BitVec 2) :
    memCanonical (s.releaseIf sf r).mem := by
  simp [State.releaseIf, hs]

/-! ### Atomics and fences -/

@[simp] theorem atomicReturn_wf {s : State} (hs : memCanonical s.mem) (d : SReg) (c : CReg) (sf : BitVec 3) (r : BitVec 2)
    (wide fp : Bool) (new : Nat → Option Nat) : ResWf (atomicReturn d c sf r wide fp new s) := by
  unfold atomicReturn
  generalize (if wide then 8 else 4) = n
  refine finish_wf hs (R.wf_bind (State.access_wf hs ..) fun key t ht => ?_)
  split
  · exact ht
  · have ready : memCanonical ((t.releaseIf sf r).drainTo key).mem := State.drainTo_wf (State.releaseIf_wf ht ..) ..
    dsimp only
    split
    · simp [ready]
    · simp only [R.wf_ok, State.ws_mem, State.effect_mem]
      split
      · simp [ready]
      · split <;> simp [ready]

@[simp] theorem State.enqueueAtomic_mem (s : State) (loc op : Nat) (wide vector : Bool) (v : Word) (space : Nat) (addr : Word) :
    (s.enqueueAtomic loc op wide vector v space addr).mem = s.mem := rfl

@[simp] theorem State.enqueueAct_mem (s : State) (scope : Nat) (a : Act) : (s.enqueueAct scope a).mem = s.mem := rfl
@[simp] theorem State.fenceIf_mem (s : State) (sf : BitVec 3) (r : BitVec 2) : (s.fenceIf sf r).mem = s.mem := by simp [State.fenceIf]

@[simp] theorem atomicReduce_wf {s : State} (hs : memCanonical s.mem) (c : CReg) (b : SReg) (sf : BitVec 3) (r : BitVec 2) (wide : Bool)
    (op : Nat) : ResWf (atomicReduce c b sf r wide op s) := finish_wf hs (R.wf_bind (State.access_wf hs ..) fun key t ht => by simp [ht])

@[simp] theorem State.bindOldest_wf {s : State} (hs : memCanonical s.mem) (c : CtxId) (scope : Nat) :
    memCanonical (s.bindOldest c scope).mem := by
  unfold State.bindOldest
  split
  · exact hs
  · exact State.performOldest_wf (State.releaseFrom_wf (State.drainBefore_wf hs ..) ..) ..

@[simp] theorem State.bindLoads_wf {s : State} (hs : memCanonical s.mem) (scope : Nat) : memCanonical (s.bindLoads scope).mem :=
  State.releaseFrom_wf (State.drainBefore_wf (foldl_wf hs fun _ _ ht => State.bindOldest_wf ht ..) ..) ..

@[simp] theorem State.releaseAr_wf {s : State} (hs : memCanonical s.mem) (scope : Nat) (r : BitVec 2) :
    memCanonical (s.releaseAr scope r).mem := by
  simp [State.releaseAr, hs]

end Sys2Proof.Machine
end

section
/-! PROOFS. Memory in canonical form: waits, channels, copies, matrix jobs, and the end of a task. -/

namespace Sys2Proof.Machine

/-! ### Counters, barriers and channels -/

@[simp] theorem State.walked_mem (s : State) (die core part space va : Nat) (k : Option Kind) :
    (s.walked die core part space va k).mem = s.mem := by
  unfold State.walked
  split <;> simp

@[simp] theorem State.noteAllocated_mem (s : State) (part i : Nat) : (s.noteAllocated part i).mem = s.mem := by
  unfold State.noteAllocated
  split <;> simp

@[simp] theorem State.ctrRef_wf {s : State} (hs : memCanonical s.mem) (r : Word) : (s.ctrRef r).wf := by simp [State.ctrRef, hs]

@[simp] theorem State.acquireAr_wf {s : State} (hs : memCanonical s.mem) (scope : Nat) (r : BitVec 2) :
    memCanonical (s.acquireAr scope r).mem := by
  simp [State.acquireAr, hs]

@[simp] theorem State.startWait_mem (s : State) (w : Wait) : (s.startWait w).mem = s.mem := by simp [State.startWait]

@[simp] theorem finishWait_wf {s : State} (hs : memCanonical s.mem) {r : R Wait} (hr : r.wf) : ResWf (finishWait s r) := by
  cases r <;> simp_all

@[simp] theorem State.barrierRef_wf {s : State} (hs : memCanonical s.mem) (c : Cap) (sf : Nat) : (s.barrierRef c sf).wf := by
  unfold State.barrierRef
  split
  · exact hs
  · refine R.wf_bind (State.access_wf hs ..) fun k t ht => ?_
    dsimp only
    split <;> simp [ht]

@[simp] theorem State.setBarrier_wf {s : State} (hs : memCanonical s.mem) (k : Nat) (b : Barrier) :
    memCanonical (s.setBarrier k b).mem := by
  simp [State.setBarrier, hs]

@[simp] theorem State.stallWaiters_mem (s : State) (k : Nat) : (s.stallWaiters k).mem = s.mem :=
  foldl_mem (fun t c => by split <;> simp) _ _

@[simp] theorem barrierArrive_wf {s : State} (hs : memCanonical s.mem) (d : SReg) (c : CReg) (sf : BitVec 3) (bytes : Nat) :
    (barrierArrive d c sf bytes s).wf := by
  simp +contextual [barrierArrive, hs]

@[simp] theorem State.chanRef_wf {s : State} (hs : memCanonical s.mem) (r : Word) (side : Side) : (s.chanRef r side).wf := by
  unfold State.chanRef
  repeat' split
  all_goals simp [hs]

@[simp] theorem State.unhold_mem (s : State) (h i : Nat) : (s.unhold h i).mem = s.mem := rfl

@[simp] theorem State.freeSlot_mem (s : State) (h i : Nat) : (s.freeSlot h i).mem = s.mem := by
  unfold State.freeSlot
  split <;> simp

@[simp] theorem State.submit_mem (s : State) (addr : Nat) (spawn : Bool) : (s.submit addr spawn).mem = s.mem := rfl
@[simp] theorem State.dropChain_mem (s : State) (id_ : Nat) : (s.dropChain id_).mem = s.mem := rfl

/-! ### Launches and groups -/

@[simp] theorem launchOp_wf {s : State} (hs : memCanonical s.mem) (word : Word) (d a : SReg) (spawn : Bool) :
    ResWf (launchOp word d a spawn s) := by
  have checked := taskOnly_wf (w := word) (r := R.ok () s) hs hs
  unfold launchOp
  split
  next heq => simp [checked.of_trap heq]
  next => simp [hs]
  next heq =>
  have ht := checked.of_ok heq
  split
  next t _ _ =>
    dsimp only
    split
    · simp [ht]
    · have asked := State.access_wf ht t.who (t.rc 2) (t.rs a).toNat 64 64 .load
      split
      next heq => simp [asked.of_trap heq]
      next => simp [ht]
      next heq => simp [asked.of_ok heq]
  next =>
    dsimp only
    split
    · simp [ht]
    · repeat' split
      all_goals simp [ht]

@[simp] theorem State.dropAwaited_mem (s : State) (spawned : List Nat) : (s.dropAwaited spawned).mem = s.mem := by
  refine foldl_mem (fun t i => ?_) _ _
  split
  · split <;> simp
  · rfl

@[simp] theorem groupOperand_wf {s : State} (hs : memCanonical s.mem) (x : Word) : (groupOperand x s).wf := by simp [groupOperand, hs]
@[simp] theorem State.settlePhases_mem (s : State) : s.settlePhases.mem = s.mem := rfl
@[simp] theorem State.leavePhases_mem (s : State) (who : Nat × Nat) (p : Phase → Bool) : (s.leavePhases who p).mem = s.mem := rfl
@[simp] theorem State.modArray_mem (s : State) (die cl : Nat) (f : Array_ → Array_) : (s.modArray die cl f).mem = s.mem := rfl

@[simp] theorem State.endLease_mem (s : State) (c : CtxId) : (s.endLease c).mem = s.mem := by
  unfold State.endLease
  split <;> simp

@[simp] theorem State.dropHeld_wf {s : State} (hs : memCanonical s.mem) (held : List (Nat × Nat × Bool)) :
    memCanonical (s.dropHeld held).mem := by
  refine foldl_wf hs fun t p ht => ?_
  split
  · split
    · simp [ht]
    · split <;> simp [ht]
  · exact ht

@[simp] theorem State.performFor_wf {s : State} (hs : memCanonical s.mem) (c : CtxId) (f : LoadRec → Bool) :
    memCanonical (s.performFor c f).mem := by
  simp [State.performFor, hs]

/-! ### Records and images written -/

@[simp] theorem State.transitDone_wf {s : State} (hs : memCanonical s.mem) (c : CtxId) : memCanonical (s.transitDone c).mem := by
  unfold State.transitDone
  split <;> simp [hs]

@[simp] theorem State.saveImage_wf {s : State} (hs : memCanonical s.mem) (die part slot : Nat) (ps : List Piece) :
    memCanonical (s.saveImage die part slot ps).mem := foldl_wf hs fun t p ht => by split <;> simp [ht]

theorem State.writeRegion_wf {s : State} (hs : memCanonical s.mem) (task : Nat × Nat) (off : Nat) (bs : List Byte) {t : State}
    (ht : s.writeRegion task off bs = some t) : memCanonical t.mem := by
  unfold State.writeRegion at ht
  split at ht
  · cases ht
    simp [hs]
  · split at ht
    · cases ht
      exact hs
    · split at ht
      · cases ht
      · cases ht
        split <;> simp [hs]

@[simp] theorem State.barrierDeliver_wf {s : State} (hs : memCanonical s.mem) (k bytes : Nat) :
    memCanonical (s.barrierDeliver k bytes).mem := by
  unfold State.barrierDeliver
  split <;> simp [hs]

@[simp] theorem State.deliverBarrier_wf {s : State} (hs : memCanonical s.mem) (c t : CtxId) (off bytes : Nat) :
    memCanonical (s.deliverBarrier c t off bytes).mem := by
  simp [State.deliverBarrier, hs]

/-! ### Copies -/

@[simp] theorem State.putCopy_mem (s : State) (c : CtxId) (eng : Nat) (m : CopyCmd) : (s.putCopy c eng m).mem = s.mem := rfl

@[simp] theorem State.leaveLine_mem (s : State) (c : CtxId) (eng : Nat) (m : CopyCmd) : (s.leaveLine c eng m).mem = s.mem := by
  unfold State.leaveLine
  split <;> simp

@[simp] theorem State.setAllocated_wf {s : State} (hs : memCanonical s.mem) (part i : Nat) (b : Bool) :
    memCanonical (s.setAllocated part i b).mem := by
  unfold State.setAllocated
  split <;> simp [hs]

@[simp] theorem State.reapRevoked_wf {s : State} (hs : memCanonical s.mem) : memCanonical s.reapRevoked.mem :=
  foldl_wf hs fun _ _ ht => foldl_wf ht fun _ _ ht => State.setAllocated_wf ht ..

@[simp] theorem State.engineSignal_wf {s : State} (hs : memCanonical s.mem) (die : Nat) (sig : Option Signal) (err : Bool) :
    memCanonical (s.engineSignal die sig err).mem := by
  unfold State.engineSignal
  split <;> simp [hs]

@[simp] theorem State.settleCopies_wf {s : State} (hs : memCanonical s.mem) (c : CtxId) (eng n : Nat) :
    memCanonical (s.settleCopies c eng n).mem := by
  induction n generalizing s with
  | zero => exact hs
  | succ n ih =>
    unfold State.settleCopies
    split
    · split
      · exact ih (State.engineSignal_wf (by simp [hs]) ..)
      · exact hs
    · exact hs

@[simp] theorem State.copyEnds_wf {s : State} (hs : memCanonical s.mem) (c : CtxId) (eng : Nat) (m : CopyCmd) :
    memCanonical (s.copyEnds c eng m).mem := by
  have written : ∀ t, (if cFlag m.card 11 then s.writeRegion m.task m.cardOff (m.record s.polestar) else some s) = some t →
      memCanonical t.mem := by
    intro t ht
    split at ht
    · exact State.writeRegion_wf hs _ _ _ ht
    · cases ht
      exact hs
  unfold State.copyEnds
  dsimp only
  split
  · exact hs
  next t ht =>
  have canonical := written t ht
  split
  all_goals
    split
    · exact hs
    · refine State.settleCopies_wf ?_ ..
      split
      · refine State.reapRevoked_wf ?_
        split <;> simp [canonical]
      · split <;> simp [canonical]

@[simp] theorem State.killCopiesOf_wf {s : State} (hs : memCanonical s.mem) (c : CtxId) (id_ : Nat × Nat) :
    memCanonical (s.killCopiesOf c id_).mem := by
  refine foldl_wf hs fun t eng ht => foldl_wf ht fun t m ht => ?_
  split
  · exact ht
  · dsimp only
    split
    · exact State.copyEnds_wf ht ..
    · simp [ht]

@[simp] theorem State.killCopies_wf {s : State} (hs : memCanonical s.mem) (c : CtxId) : memCanonical (s.killCopies c).mem := by
  simp [State.killCopies, hs]

@[simp] theorem State.dropRequest_mem (s : State) (c : CtxId) : (s.dropRequest c).mem = s.mem := rfl

@[simp] theorem State.jobSignal_wf {s : State} (hs : memCanonical s.mem) (die : Nat) (j : Job) (failed : Bool) :
    memCanonical (s.jobSignal die j failed).mem := by
  simp [State.jobSignal, hs]

@[simp] theorem State.failWaitingJobs_wf {s : State} (hs : memCanonical s.mem) (c : CtxId) : memCanonical (s.failWaitingJobs c).mem := by
  unfold State.failWaitingJobs
  repeat' split
  all_goals simp +contextual [hs]

/-! ### Matrix jobs -/

@[simp] theorem State.arrayLog_mem (s : State) (die cl part : Nat) (es : List Word) : (s.arrayLog die cl part es).mem = s.mem :=
  foldl_mem (fun _ _ => by simp) _ _

@[simp] theorem State.jobStep_mem (s : State) (die core : Nat) (j : Job) (q i0 : Nat) (acc : List (BitVec 32)) :
    (s.jobStep die core j q i0 acc).1.mem = s.mem := by
  simp [State.jobStep]

@[simp] theorem State.readBias_mem (s : State) (die core : Nat) (j : Job) (q : Nat) : (s.readBias die core j q).2.2.mem = s.mem := by
  unfold State.readBias
  dsimp only
  repeat' split
  all_goals simp

@[simp] theorem State.writeOut_wf {s : State} (hs : memCanonical s.mem) (die core : Nat) (j : Job) (q e : Nat) (acc : List (BitVec 32)) :
    memCanonical (s.writeOut die core j q e acc).1.mem := by
  simp [State.writeOut, hs]

@[simp] theorem State.jobAct_wf {s : State} (hs : memCanonical s.mem) (die core : Nat) (j : Job) :
    memCanonical (s.jobAct die core j).mem := by
  unfold State.jobAct
  dsimp only
  generalize (if jMode j.card 3 then 0 else jCount j.card 0) = steps
  split
  · change memCanonical (s.jobStep die core j j.pass j.step _).1.mem
    rwa [State.jobStep_mem]
  · split
    · simpa only [State.modLease_mem] using hs
    · split
      · simp only [State.modLease_mem]
        simp [hs]
      · split
        · simpa only [State.modLease_mem] using hs
        · simp only [State.modLease_mem]
          simp [hs]

@[simp] theorem State.toStop_wf {s : State} (hs : memCanonical s.mem) (die core n : Nat) : memCanonical (s.toStop die core n).mem := by
  induction n generalizing s with
  | zero => exact hs
  | succ n ih =>
    unfold State.toStop
    split
    · exact hs
    · split
      · exact ih (State.jobAct_wf hs ..)
      · exact hs

@[simp] theorem State.stopJob_wf {s : State} (hs : memCanonical s.mem) (c : CtxId) : memCanonical (s.stopJob c).mem := by
  unfold State.stopJob
  split <;> simp [hs]

@[simp] theorem State.jobEnds_wf {s : State} (hs : memCanonical s.mem) (die core : Nat) (failed : Bool) :
    memCanonical (s.jobEnds die core failed).mem := by
  unfold State.jobEnds
  split <;> simp [hs]

@[simp] theorem State.killJobs_wf {s : State} (hs : memCanonical s.mem) (c : CtxId) : memCanonical (s.killJobs c).mem := by
  have stopped : memCanonical ((s.failWaitingJobs c).stopJob c).mem := by simp [hs]
  have ended : ∀ l : List Job, memCanonical (l.foldl (fun t _ => t.jobEnds c.die c.core true) ((s.failWaitingJobs c).stopJob c)).mem :=
    fun l => foldl_wf stopped fun t x ht => State.jobEnds_wf ht ..
  unfold State.killJobs
  dsimp only
  split
  · simp [hs]
  · simp [ended]

@[simp] theorem State.leaveJobs_wf {s : State} (hs : memCanonical s.mem) (c : CtxId) : memCanonical (s.leaveJobs c).mem := by
  unfold State.leaveJobs
  dsimp only
  repeat' split
  all_goals simp [hs]

/-! ### The end of a task -/

@[simp] theorem State.leaveTags_mem (s : State) (key : Nat) : (s.leaveTags key).mem = s.mem := rfl
@[simp] theorem State.leaveLines_mem (s : State) (key : Nat) : (s.leaveLines key).mem = s.mem := rfl
@[simp] theorem State.dropFaults_mem (s : State) (die core : Nat) (gone : EngFault → Bool) : (s.dropFaults die core gone).mem = s.mem := rfl
@[simp] theorem State.dropDeadFaults_mem (s : State) (c : CtxId) : (s.dropDeadFaults c).mem = s.mem := rfl

@[simp] theorem State.modChain_mem (s : State) (id_ : Nat) (f : Chain → Chain) : (s.modChain id_ f).mem = s.mem := by
  unfold State.modChain
  split <;> simp

@[simp] theorem State.countEnd_mem (s : State) (t : TaskInfo) (cause : Nat) : (s.countEnd t cause).mem = s.mem := by
  unfold State.countEnd
  split <;> simp

@[simp] theorem State.reapGang_mem (s : State) (t : TaskInfo) : (s.reapGang t).mem = s.mem := by simp [State.reapGang]
@[simp] theorem State.dropBindings_mem (s : State) (launch : Nat) : (s.dropBindings launch).mem = s.mem := by simp [State.dropBindings]

@[simp] theorem State.endTask_wf {s : State} (hs : memCanonical s.mem) (c : CtxId) (cause : Nat) (kill : Bool) :
    memCanonical (s.endTask c cause kill).mem := by
  have settled : memCanonical ((s.transitDone c).drainStores c).mem := by simp [hs]
  have stopped : memCanonical (if kill then (((s.transitDone c).drainStores c).killJobs c).killCopies c
      else ((s.transitDone c).drainStores c).leaveJobs c).mem := by
    split <;> simp [settled]
  unfold State.endTask
  dsimp only
  generalize (if kill then (((s.transitDone c).drainStores c).killJobs c).killCopies c
      else ((s.transitDone c).drainStores c).leaveJobs c) = u at stopped
  refine State.reapRevoked_wf ?_
  split <;> simp [stopped]

@[simp] theorem State.taskEnds_wf {s : State} (hs : memCanonical s.mem) (c : CtxId) (cause : Nat) :
    memCanonical (s.taskEnds c cause).mem := by
  simp [State.taskEnds, hs]

/-! ### Continuations and tags -/

@[simp] theorem State.writeCont_wf {s : State} (hs : memCanonical s.mem) (k : Machine.Cont) : memCanonical (s.writeCont k).mem :=
  State.writeHomeBytes_wf (foldl_wf (State.writeHomeBytes_wf hs ..) fun t e ht => by simp [ht]) ..

@[simp] theorem State.writeSpill_wf {s : State} (hs : memCanonical s.mem) (part word : Nat) :
    memCanonical (s.writeSpill part word).mem := by
  unfold State.writeSpill
  dsimp only
  repeat' split
  all_goals simp [hs]

@[simp] theorem State.setTag_mem (s : State) (part word : Nat) (t : TagRec) : (s.setTag part word t).mem = s.mem := rfl

@[simp] theorem State.setLate_wf {s : State} (hs : memCanonical s.mem) (part word die : Nat) (w : TagWaiter) (on : Bool) :
    memCanonical (s.setLate part word die w on).mem := by
  simp [State.setLate, hs]

@[simp] theorem State.joinTags_wf {s : State} (hs : memCanonical s.mem) (die n : Nat) (l : List (Nat × Nat × TagWaiter)) :
    memCanonical (s.joinTags die n l).mem := by
  induction l generalizing s n with
  | nil => exact hs
  | cons p rest ih =>
    unfold State.joinTags
    split
    · exact ih hs n
    · split
      · exact ih (State.setLate_wf hs ..) n
      · refine ih ?_ (n + 1)
        split <;> simp [hs]

@[simp] theorem State.joinTag_wf {s : State} (hs : memCanonical s.mem) (part word die : Nat) (w : TagWaiter) :
    memCanonical (s.joinTag part word die w).mem := by
  simp [State.joinTag, hs]

@[simp] theorem State.suspendTask_wf {s : State} (hs : memCanonical s.mem) (c : CtxId) (m : Word) (kind : Nat) (x thr : Word)
    (record : Nat) : memCanonical (s.suspendTask c m kind x thr record).mem := by
  simp [State.suspendTask, hs]

@[simp] theorem State.trySuspend_wf {s : State} (hs : memCanonical s.mem) (c : CtxId) : memCanonical (s.trySuspend c).mem := by
  unfold State.trySuspend
  dsimp only
  repeat' split
  all_goals simp [hs]

end Sys2Proof.Machine
end

section
/-! PROOFS. Memory in canonical form: the operations that instructions are made of. -/

namespace Sys2Proof.Machine

/-! ### Records and cards -/

@[simp] theorem State.modMyCore_mem (s : State) (f : Core → Core) : (s.modMyCore f).mem = s.mem := rfl

@[simp] theorem State.recordFits_wf {s : State} (hs : memCanonical s.mem) (off n al : Nat) : (s.recordFits off n al).wf := by
  simp [State.recordFits, hs]

/-- The definition is opened as a constant: were it unfolded against its body, the kernel would evaluate the list that it matches on. -/
@[simp] theorem State.recordBytes_wf {s : State} (hs : memCanonical s.mem) (off n : Nat) : (s.recordBytes off n).wf := by
  suffices body : ∀ f, f = State.recordBytes → (f s off n).wf from body _ rfl
  intro f hf
  delta State.recordBytes at hf
  subst hf
  dsimp only
  have settled : ∀ k, memCanonical (s.settleFor s.here s.hart.issued k n).mem := fun k => State.settleFor_wf hs ..
  generalize scratchKey s.here.die s.here.core (s.hart.task.region + off) = k
  specialize settled k
  generalize s.settleFor s.here s.hart.issued k n = u at settled ⊢
  split
  · exact settled
  · simpa using settled

@[simp] theorem State.readCard_wf {s : State} (hs : memCanonical s.mem) (off : Nat) (list : Bool) : (s.readCard off list).wf := by
  unfold State.readCard
  refine R.wf_bind (State.recordFits_wf hs ..) fun _ t ht => R.wf_bind ?_ fun _ t ht => R.wf_bind (State.recordBytes_wf ht ..) fun _ t ht => ?_
  · split <;> simp [ht]
  · split
    · exact ht
    · exact R.wf_bind (State.recordBytes_wf ht ..) fun _ t ht => ht

@[simp] theorem checkFields_wf {s : State} (hs : memCanonical s.mem) (word : Word) (l : List (Nat × Bool)) : (checkFields word l s).wf := by
  unfold checkFields
  split <;> simp [hs]

@[simp] theorem cardCounter_wf {s : State} (hs : memCanonical s.mem) (on : Bool) (r : Nat) : (cardCounter on r s).wf := by
  simp [cardCounter, hs]

@[simp] theorem cardBarrier_wf {s : State} (hs : memCanonical s.mem) (c : List Byte) : (cardBarrier c s).wf := by simp [cardBarrier, hs]

@[simp] theorem copyChannel_wf {s : State} (hs : memCanonical s.mem) (word : Word) (kind : Nat) (handle : Word) (card : List Byte) :
    (copyChannel word kind handle card s).wf := by
  unfold copyChannel
  repeat' split
  all_goals simp [hs]

@[simp] theorem checkSide_wf {s : State} (hs : memCanonical s.mem) (c : Cap) (sp : Option (Int × Int)) (len n : Nat) (strides : List Int)
    (k : Kind) : (checkSide c sp len n strides k s).wf := by
  unfold checkSide
  dsimp only
  repeat' split
  all_goals simp [hs]

@[simp] theorem copyIssue_wf {s : State} (hs : memCanonical s.mem) (word : Word) (kind : Nat) (dst src : Cap) (pattern handle : Word)
    (b : SReg) : ResWf (copyIssue word kind dst src pattern handle b s) := by
  unfold copyIssue
  refine finish_wf hs (taskOnly_wf hs (R.wf_bind (State.readCard_wf hs ..) fun p t ht => ?_))
  obtain ⟨card, idx⟩ := p
  refine R.wf_bind (checkFields_wf ht ..) fun _ t ht => R.wf_bind (cardCounter_wf ht ..) fun wait t ht =>
    R.wf_bind (cardCounter_wf ht ..) fun sig t ht => R.wf_bind (cardBarrier_wf ht ..) fun _ t ht =>
    R.wf_bind (copyChannel_wf ht ..) fun ch t ht => ?_
  extract_lets cv packs sb db n0 rows sSpan dSpan anyIn eng
  refine R.wf_bind ?_ fun _ t ht => R.wf_bind ?_ fun _ t ht => ?_
  · split
    · exact ht
    · exact checkSide_wf ht ..
  · split
    · exact ht
    · split <;> exact checkSide_wf ht ..
  · extract_lets ctx task cmd u
    split
    · trivial
    · have hu : memCanonical u.mem := by simpa [u] using ht
      rw [R.wf_ok]
      split <;> simp [hu]

/-! ### Streams -/

@[simp] theorem State.dropStreamFaults_mem (s : State) (c : CtxId) (q : Nat) : (s.dropStreamFaults c q).mem = s.mem := rfl

@[simp] theorem drainStream_wf {s : State} (hs : memCanonical s.mem) (q : QReg) (z : Stream) : (drainStream q z s).wf := by
  simp [drainStream, hs]

@[simp] theorem onStream_wf {α : Type} {word : Word} {q : QReg} {s : State} (hs : memCanonical s.mem) {r : R α} (hr : r.wf) :
    (onStream word q s r).wf := by
  simp [onStream, hs, hr]

@[simp] theorem popStream_wf {word : Word} {q : QReg} {small : Bool} {s : State} (hs : memCanonical s.mem)
    {f : List Byte → Stream → State → State} (hf : ∀ bs z t, (f bs z t).mem = t.mem) : ResWf (popStream word q small s f) := by
  have popped : ∀ b : Bool, (onStream word q s (if b then .trap .illegal word s else .ok () s)).wf :=
    fun b => onStream_wf hs (by split <;> exact hs)
  unfold popStream
  dsimp only
  split
  next heq => simp [(popped _).of_trap heq]
  next => exact hs
  next heq =>
  have ht := (popped _).of_ok heq
  split
  · exact ht
  · split
    · simp [ht]
    · simp [hf, ht]

/-! ### Jobs -/

@[simp] theorem State.readRecord_wf {s : State} (hs : memCanonical s.mem) (off n al : Nat) : (s.readRecord off n al).wf := by
  simp +contextual [State.readRecord, hs]

@[simp] theorem checkPoints_wf {w : Who} {c : Cap} {base : Int} {l : List Int} {s : State} (hs : memCanonical s.mem) :
    (checkPoints w c base l s).wf := by
  induction l with
  | nil => exact hs
  | cons p t ih =>
    unfold checkPoints
    split
    · exact hs
    · exact ih

@[simp] theorem jobMeridian_wf {s : State} (hs : memCanonical s.mem) (word : Word) (card : List Byte) (cb : CReg) :
    (jobMeridian word card cb s).wf := by
  unfold jobMeridian
  split
  · split <;> exact hs
  · refine R.wf_bind (checkPoints_wf hs) fun _ t ht => ?_
    generalize t.place t.who 7 (slotStart (s.rc cb)) 1 = home
    generalize slotStart (s.rc cb) = base
    cases home with
    | home key =>
      dsimp only
      repeat' split
      all_goals exact ht
    | bad e => exact ht
    | virt sp va => exact ht

@[simp] theorem jobRegion_wf {s : State} (hs : memCanonical s.mem) (card : List Byte) : (jobRegion card s).wf := by
  unfold jobRegion
  dsimp only
  repeat' split
  all_goals simp [hs]

/-! ### Tiles -/

@[simp] theorem tileOp_wf {word : Word} {names : List TReg} {ok : Bool} {s : State} (hs : memCanonical s.mem) {r : R Unit} (hr : r.wf) :
    ResWf (tileOp word names ok s r) := by
  refine finish_wf hs (taskOnly_wf hs ?_)
  split
  · exact hs
  · simp [hs, hr]

@[simp] theorem State.modTile_mem (s : State) (f : TileRegs → TileRegs) : (s.modTile f).mem = s.mem := rfl

@[simp] theorem State.settleTiles_wf {s : State} (hs : memCanonical s.mem) : memCanonical s.settleTiles.mem := by
  simp [State.settleTiles, hs]

@[simp] theorem State.setShape_wf {s : State} (hs : memCanonical s.mem) (t : TReg) (sh : Word) : memCanonical (s.setShape t sh).mem := by
  simp [State.setShape, hs]

@[simp] theorem State.setTile_mem (s : State) (t : TReg) (f : Nat → VBits) : (s.setTile t f).mem = s.mem := rfl

@[simp] theorem checkElems_wf {c : Cap} {n : Nat} {k : Kind} {addr : Nat → Int} {l : List Nat} {s : State} (hs : memCanonical s.mem) :
    (checkElems c n k addr l s).wf := by
  induction l generalizing s with
  | nil => exact hs
  | cons i t ih => exact R.wf_bind (State.access_wf hs ..) fun _ u hu => R.wf_bind (ih hu) fun _ v hv => hv

@[simp] theorem tileLoad_wf {s : State} (hs : memCanonical s.mem) (word : Word) (d : TReg) (c : CReg) (rows : List Nat) (ok : Bool)
    (addr : Nat → Int) : ResWf (tileLoad word d c rows ok addr s) := tileOp_wf hs (R.wf_bind (checkElems_wf hs) fun es t ht => by simp [ht])

@[simp] theorem tileStore_wf {s : State} (hs : memCanonical s.mem) (word : Word) (a : TReg) (c : CReg) (rows : List Nat) (ok : Bool)
    (addr : Nat → Int) : ResWf (tileStore word a c rows ok addr s) :=
  tileOp_wf hs (R.wf_bind (checkElems_wf hs) fun es t ht => by simpa using foldl_wf ht fun u e hu => by simp [hu])

@[simp] theorem State.setTileRow_mem (s : State) (t : TReg) (r : Nat) (x : VBits) : (s.setTileRow t r x).mem = s.mem := rfl

/-! ### Transit, sequences and tags -/

@[simp] theorem transitRecord_wf {s : State} (hs : memCanonical s.mem) (word : Word) (off n al : Nat)
    (fields : List Byte → List (Nat × Bool)) : (transitRecord word off n al fields s).wf :=
  R.wf_bind (State.readRecord_wf hs ..) fun _ _ ht => R.wf_bind (checkFields_wf ht ..) fun _ _ hu => hu

@[simp] theorem meridianKeyOf_wf {s : State} (hs : memCanonical s.mem) (x : Word) : (meridianKeyOf x s).wf := by simp [meridianKeyOf, hs]

@[simp] theorem slotOperand_wf {s : State} (hs : memCanonical s.mem) (x : Word) (mask : Nat) : (slotOperand x mask s).wf := by
  simp [slotOperand, hs]

@[simp] theorem seqRef_wf {s : State} (hs : memCanonical s.mem) (id_ : Nat) (val : Word) : (seqRef id_ val s).wf := by simp [seqRef, hs]
@[simp] theorem tagOperand_wf {s : State} (hs : memCanonical s.mem) (x : Word) : (tagOperand x s).wf := by simp [tagOperand, hs]

@[simp] theorem State.writeDesc_wf {s : State} (hs : memCanonical s.mem) (part off n x : Nat) :
    memCanonical (s.writeDesc part off n x).mem := by
  unfold State.writeDesc
  dsimp only
  repeat' split
  all_goals simp [hs]

@[simp] theorem State.countSpills_wf {s : State} (hs : memCanonical s.mem) (part n : Nat) : memCanonical (s.countSpills part n).mem := by
  simp [State.countSpills, hs]

@[simp] theorem State.declareTag_wf {s : State} (hs : memCanonical s.mem) (part word scope : Nat) :
    memCanonical (s.declareTag part word scope).mem := by
  simp [State.declareTag, hs]

@[simp] theorem State.modWaiting_mem (s : State) (part word : Nat) (f : SeqEntry → SeqEntry) : (s.modWaiting part word f).mem = s.mem := rfl
@[simp] theorem State.clearWaiters_mem (s : State) (part word : Nat) : (s.clearWaiters part word).mem = s.mem := rfl
@[simp] theorem State.serveTag_mem (s : State) (part word : Nat) : (s.serveTag part word).mem = s.mem := by simp [State.serveTag]
@[simp] theorem State.wakeTag_mem (s : State) (part word : Nat) : (s.wakeTag part word).mem = s.mem := by simp [State.wakeTag]
@[simp] theorem State.wakeDie_mem (s : State) (die : Nat) : (s.wakeDie die).mem = s.mem := rfl

@[simp] theorem State.spillNotice_mem (s : State) (part word : Nat) : (s.spillNotice part word).mem = s.mem := by
  unfold State.spillNotice
  dsimp only
  split <;> exact foldl_mem (fun _ _ => by simp) _ _

@[simp] theorem State.retireTag_wf {s : State} (hs : memCanonical s.mem) (part word : Nat) : memCanonical (s.retireTag part word).mem := by
  simp [State.retireTag, hs]

@[simp] theorem State.needAllocated_wf {s : State} (hs : memCanonical s.mem) (i : Nat) (ref : Word) : (s.needAllocated i ref).wf := by
  simp [State.needAllocated, hs]

@[simp] theorem collReply_wf {s : State} (hs : memCanonical s.mem) (c : List Byte) : (collReply c s).wf := by simp [collReply, hs]
@[simp] theorem collArray_wf {s : State} (hs : memCanonical s.mem) (off n al : Nat) : (collArray off n al s).wf := by simp [collArray, hs]

@[simp] theorem commitCounter_wf {s : State} (hs : memCanonical s.mem) (r : List Byte) : (commitCounter r s).wf := by
  simp [commitCounter, hs]

@[simp] theorem State.forkSeq_mem (s : State) (e : SeqEntry) (w : Nat) : (s.forkSeq e w).2.mem = s.mem := by
  unfold State.forkSeq
  split <;> simp

@[simp] theorem commitAct_wf {s : State} (hs : memCanonical s.mem) (seq w : Nat) (e : SeqEntry) (st : CommitStatus) :
    memCanonical (commitAct seq w e st s).2.2.mem := by
  have forked : memCanonical (s.forkSeq e w).2.mem := by simp [hs]
  unfold commitAct
  dsimp only
  split
  · exact hs
  · split
    · simp [hs]
    · split
      · exact hs
      · split
        · split
          next heq => exact canonical_snd forked heq
          next heq => exact canonical_snd forked heq
        · simp [hs]

@[simp] theorem commitLoop_wf {s : State} (hs : memCanonical s.mem) (seq : Nat) (l : List Nat) (e : SeqEntry) (st : CommitStatus) :
    memCanonical (commitLoop seq l e st s).2.2.mem := by
  induction l generalizing e st s with
  | nil => exact hs
  | cons t rest ih =>
    unfold commitLoop
    dsimp only
    split
    · exact ih hs ..
    · split
      · exact ih (commitAct_wf hs ..) ..
      · exact commitAct_wf hs ..

@[simp] theorem State.taskSignal_wf {s : State} (hs : memCanonical s.mem) (g : Signal) : memCanonical (s.taskSignal g).mem := by
  simp [State.taskSignal, hs]

@[simp] theorem State.commit_wf {s : State} (hs : memCanonical s.mem) (k seq : Nat) (tokens : List Nat) (sig : Option Signal) :
    memCanonical (s.commit k seq tokens sig).2.mem := by
  have looped : ∀ (e : SeqEntry) (st u : CommitStatus),
      memCanonical (if e.state ≤ 2 then commitLoop seq tokens e st s else (e, u, s)).2.2.mem := by
    intro e st u
    split <;> simp [hs]
  unfold State.commit
  dsimp only
  split <;> split <;> simp [looped]

@[simp] theorem watchSelect_wf {s : State} (hs : memCanonical s.mem) (x : Word) : (watchSelect x s).wf := by simp [watchSelect, hs]

/-! ### Vectors -/

@[simp] theorem vectorOp_wf {word : Word} {allowed : Nat → Bool} {s : State} (hs : memCanonical s.mem) {t : State}
    (ht : memCanonical t.mem) : ResWf (vectorOp word allowed s t) := by
  simp [vectorOp, hs, ht]

@[simp] theorem State.elementwise_mem (s : State) (w : Nat) (d : VReg) (k : KReg) (nf : Bool) (f : Nat → Nat × Flags5) :
    (s.elementwise w d k nf f).mem = s.mem := by
  simp [State.elementwise]

@[simp] theorem vectorFp_wf {s : State} (hs : memCanonical s.mem) (word : Word) (d a b : VReg) (k : KReg) (nf : Bool)
    (f : Fmt → Nat → Nat → Nat → Nat → Nat × Flags5) : ResWf (vectorFp word d a b k nf f s) := by
  simp [vectorFp, hs]

@[simp] theorem State.compare_mem (s : State) (w : Nat) (d k : KReg) (nf : Bool) (f : Nat → Bool × Flags5) :
    (s.compare w d k nf f).mem = s.mem := by
  simp [State.compare]

@[simp] theorem vectorFcmp_wf {s : State} (hs : memCanonical s.mem) (fn : Nat) (d : KReg) (a b : VReg) (k : KReg) (n : BitVec 1)
    (rel : Fmt → Nat → Nat → Bool) (onNan quietNv : Bool) : ResWf (vectorFcmp fn d a b k n rel onNan quietNv s) := by
  simp [vectorFcmp, hs]

@[simp] theorem vectorIcmp_wf {s : State} (hs : memCanonical s.mem) (fn : Nat) (d : KReg) (a b : VReg) (k : KReg)
    (rel : Nat → Nat → Nat → Bool) : ResWf (vectorIcmp fn d a b k rel s) := by
  simp [vectorIcmp, hs]

@[simp] theorem vectorInt_wf {s : State} (hs : memCanonical s.mem) (word : Word) (allowed : Nat → Bool) (d a b : VReg) (k : KReg)
    (f : Nat → Nat → Nat → Nat) : ResWf (vectorInt word allowed d a b k f s) := by
  simp [vectorInt, hs]

@[simp] theorem State.convertTo_mem (s : State) (ws wu : Nat) (d : VReg) (k : KReg) (nf : Bool) (more : BitVec 320)
    (f : Nat → Nat × Flags5) : (s.convertTo ws wu d k nf more f).mem = s.mem := by
  simp [State.convertTo]

@[simp] theorem vectorConvert_wf {s : State} (hs : memCanonical s.mem) (fn : Nat) (sat : Bool) (d a : VReg) (t : BitVec 4) (r : BitVec 2)
    (k : KReg) (n : BitVec 1) : ResWf (vectorConvert fn sat d a t r k n s) := by
  simp [vectorConvert, hs]

@[simp] theorem vectorMove_wf {s : State} (hs : memCanonical s.mem) (fn : Nat) (d a b : VReg) (k : KReg) (f : Nat → Nat → Nat) :
    ResWf (vectorMove fn d a b k f s) := by
  simp [vectorMove, hs]

@[simp] theorem vectorReduce_wf {s : State} (hs : memCanonical s.mem) (fn : Nat) (allowed : Nat → Bool) (d a : VReg) (k : KReg)
    (n : BitVec 1) (r : Nat × Flags5) : ResWf (vectorReduce fn allowed d a k n r s) := by
  simp [vectorReduce, hs]

@[simp] theorem vectorLoad_wf {s : State} (hs : memCanonical s.mem) (word : Word) (allowed : Nat → Bool) (d : VReg) (c : CReg) (k : KReg)
    (addr : Nat → Int) : ResWf (vectorLoad word allowed d c k addr s) := by
  unfold vectorLoad
  refine finish_wf hs (taskOnly_wf hs ?_)
  split
  · exact R.wf_bind (checkElems_wf hs) fun es t ht => by simp [ht]
  · exact hs

@[simp] theorem vectorStore_wf {s : State} (hs : memCanonical s.mem) (word : Word) (allowed : Nat → Bool) (d : VReg) (c : CReg) (k : KReg)
    (addr : Nat → Int) : ResWf (vectorStore word allowed d c k addr s) := by
  unfold vectorStore
  refine finish_wf hs (taskOnly_wf hs ?_)
  split
  · refine R.wf_bind (checkElems_wf hs) fun es t ht => ?_
    have stored : memCanonical (es.foldl (fun u e => u.enqueueStore
        (cellsAt e.2.1 (leBytes (elemBytes s.vt) (lane (t.rv d) (8 * elemBytes s.vt) e.1))) false false) t).mem :=
      foldl_wf ht fun u e hu => by simp [hu]
    dsimp only
    split <;> simp [stored]
  · exact hs

@[simp] theorem maskOp_wf {fn d a b : Nat} {s : State} (hs : memCanonical s.mem) {t : State} (ht : memCanonical t.mem) :
    ResWf (maskOp fn d a b s t) := vectorOp_wf hs ht

/-! ### Control registers -/

@[simp] theorem ctlValue_wf {s : State} (hs : memCanonical s.mem) (word : Word) (n : Nat) : (ctlValue word n s).wf := by
  unfold ctlValue
  repeat' split
  all_goals simp [hs]

@[simp] theorem State.writeMarks_mem (s : State) (die core : Nat) (m : BitVec 4) : (s.writeMarks die core m).mem = s.mem := rfl
@[simp] theorem State.popFault_mem (s : State) (die core : Nat) : (s.popFault die core).mem = s.mem := rfl

@[simp] theorem State.modStream_mem (s : State) (c : CtxId) (q : Fin 8) (f : Stream → Stream) : (s.modStream c q f).mem = s.mem := by
  simp [State.modStream]

@[simp] theorem State.poisonChannel_mem (s : State) (h : Nat) : (s.poisonChannel h).mem = s.mem := by
  unfold State.poisonChannel
  split <;> simp

@[simp] theorem State.disposeFault_wf {s : State} (hs : memCanonical s.mem) (die core : Nat) (abort : Bool) :
    memCanonical (s.disposeFault die core abort).mem := by
  unfold State.disposeFault
  dsimp only
  repeat' split
  all_goals simp [hs]

@[simp] theorem State.clearSeq_mem (s : State) (die seq : Nat) (wait : Bool) : (s.clearSeq die seq wait).mem = s.mem := by
  unfold State.clearSeq
  split <;> simp

@[simp] theorem State.writeCtl_wf {s : State} (hs : memCanonical s.mem) (n : Nat) (v : Word) : memCanonical (s.writeCtl n v).mem := by
  simp [State.writeCtl, hs]

@[simp] theorem ctlWrite_wf {s : State} (hs : memCanonical s.mem) (word : Word) (d : SReg) (n : Nat) (new : Word → Word) :
    ResWf (ctlWrite word d n new s) := by
  unfold ctlWrite
  refine finish_wf hs (R.wf_bind (ctlValue_wf hs ..) fun old t ht => ?_)
  split
  · exact ht
  · dsimp only
    split <;> simp [ht]

/-! ### Supervisor instructions and images -/

@[simp] theorem systemOp_wf {word : Word} {s : State} (hs : memCanonical s.mem) {r : State → Res} (hr : ResWf (r s)) :
    ResWf (systemOp word s r) := by
  simp [systemOp, hs, hr]

@[simp] theorem State.resumeSlot_mem (s : State) (c : CtxId) (skip : Bool) : (s.resumeSlot c skip).mem = s.mem := by
  unfold State.resumeSlot
  dsimp only
  repeat' split
  all_goals simp

@[simp] theorem State.enterHandler_mem (s : State) (die core : Nat) (bg : Word) : (s.enterHandler die core bg).mem = s.mem := by
  unfold State.enterHandler
  split <;> simp

@[simp] theorem State.leaveHandler_mem (s : State) (die core : Nat) : (s.leaveHandler die core).mem = s.mem := by simp [State.leaveHandler]

@[simp] theorem State.drainDies_wf {s : State} (hs : memCanonical s.mem) (dies : List Nat) : memCanonical (s.drainDies dies).mem :=
  State.drainEgress_wf (foldl_wf (foldl_wf hs fun _ _ ht => State.drainCtx_wf ht ..) fun _ _ ht => State.drainOutbound_wf ht ..)

@[simp] theorem State.imageKeys_wf {c : Cap} {k : Kind} {l : List (Nat × Nat)} {s : State} (hs : memCanonical s.mem) :
    (State.imageKeys c k l s).wf := by
  induction l generalizing s with
  | nil => exact hs
  | cons p t ih => exact R.wf_bind (State.access_wf hs ..) fun _ u hu => R.wf_bind (ih hu) fun _ v hv => hv

@[simp] theorem State.keepSnaps_mem (s : State) (jobs : List Job) : (s.keepSnaps jobs).mem = s.mem := rfl

@[simp] theorem State.imageRead_wf {c : Cap} {l : List Nat} {s : State} (hs : memCanonical s.mem) : (State.imageRead c l s).wf := by
  induction l generalizing s with
  | nil => exact hs
  | cons off l ih =>
    refine R.wf_bind (State.access_wf hs ..) fun key t ht => ?_
    dsimp only
    split
    · simp [ht]
    · exact R.wf_bind (ih (State.settleFor_wf ht ..)) fun l u hu => hu

@[simp] theorem State.loadCore_mem (s : State) (c : CtxId) (f : List Byte) (tags : List Bool) : (s.loadCore c f tags).mem = s.mem := by
  simp [State.loadCore]

@[simp] theorem State.loadVec_mem (s : State) (c : CtxId) (f : List Byte) : (s.loadVec c f).mem = s.mem := by simp [State.loadVec]

@[simp] theorem State.loadStreams_mem (s : State) (c : CtxId) (f : List Byte) (tags : List Bool) :
    (s.loadStreams c f tags).mem = s.mem := by
  simp [State.loadStreams]

@[simp] theorem State.loadTiles_mem (s : State) (c : CtxId) (f : List Byte) : (s.loadTiles c f).mem = s.mem := by simp [State.loadTiles]
@[simp] theorem State.askAgain_mem (s : State) (c : CtxId) (v : Nat × LeaseCtx) : (s.askAgain c v).mem = s.mem := by simp [State.askAgain]

end Sys2Proof.Machine
end

section
/-! PROOFS. Memory in canonical form: rings, placement, the dispatcher, faults and eviction. -/

namespace Sys2Proof.Machine

@[simp] theorem State.loadMatrix_mem (s : State) (c : CtxId) (f : List Byte) : (s.loadMatrix c f).mem = s.mem := by
  unfold State.loadMatrix
  split <;> simp

@[simp] theorem State.loadImage_mem (s : State) (c : CtxId) (x : Nat) (l : List (Nat × List Byte × List Bool)) :
    (s.loadImage c x l).mem = s.mem := by
  simp [State.loadImage]

@[simp] theorem State.deliverStreams_mem (s : State) (c : CtxId) : (s.deliverStreams c).mem = s.mem := by simp [State.deliverStreams]

@[simp] theorem State.deliverQuar_wf {s : State} (hs : memCanonical s.mem) (c : CtxId) : memCanonical (s.deliverQuar c).mem := by
  simp +contextual [State.deliverQuar, hs]

/-! ### Rings -/

@[simp] theorem State.settleRing_mem (s : State) (id_ : Nat) : (s.settleRing id_).mem = s.mem := by
  unfold State.settleRing
  split <;> simp

@[simp] theorem State.passOn_mem (s : State) (ring pos : Nat) (f : Flight) : (s.passOn ring pos f).mem = s.mem := by
  unfold State.passOn
  repeat' split
  all_goals simp

@[simp] theorem State.receive_mem (s : State) (die ring : Nat) (f : Flight) : (s.receive die ring f).mem = s.mem := by
  unfold State.receive
  dsimp only
  repeat' split
  all_goals simp

@[simp] theorem State.emit_mem (s : State) (ring i : Nat) (h : Home) (die : Nat) : (s.emit ring i h die).mem = s.mem := by simp [State.emit]
@[simp] theorem State.dropFlight_mem (s : State) (seg : Nat) : (s.dropFlight seg).mem = s.mem := rfl

@[simp] theorem State.performWhere_wf {s : State} (hs : memCanonical s.mem) (f : Nat → Bool) : memCanonical (s.performWhere f).mem :=
  foldl_wf hs fun _ _ ht => by simp [ht]

@[simp] theorem State.settleSlot_wf {s : State} (hs : memCanonical s.mem) (die slot : Nat) : memCanonical (s.settleSlot die slot).mem := by
  simp [State.settleSlot, hs]

@[simp] theorem State.endSkips_mem (s : State) (die image tag : Nat) : (s.endSkips die image tag).mem = s.mem := by simp [State.endSkips]
@[simp] theorem State.queueTransits_mem (s : State) (l : List TransitTask) : (s.queueTransits l).mem = s.mem := rfl

@[simp] theorem State.launchBatches_mem (s : State) (die slot : Nat) : (s.launchBatches die slot).mem = s.mem := by
  unfold State.launchBatches
  dsimp only
  split
  · rfl
  · exact (foldl_mem (fun _ _ => by simp) _ _).trans (by simp)

@[simp] theorem State.selectTransits_mem (s : State) (die slot : Nat) (broken : Bool) : (s.selectTransits die slot broken).mem = s.mem := by
  simp [State.selectTransits]

@[simp] theorem State.integrityError_mem (s : State) (die image tag : Nat) : (s.integrityError die image tag).mem = s.mem := rfl

@[simp] theorem State.markMissing_mem (s : State) (r : Ring) (tags : List Nat) : (s.markMissing r tags).mem = s.mem :=
  foldl_mem (fun _ _ => by simp) _ _

@[simp] theorem State.homeFails_mem (s : State) (ring : Nat) (r : Ring) (entry : Nat) : (s.homeFails ring r entry).mem = s.mem := by
  simp [State.homeFails]

@[simp] theorem State.writeSegment_wf {s : State} (hs : memCanonical s.mem) (die off : Nat) (bs : List Byte) :
    memCanonical (s.writeSegment die off bs).mem := by
  simp [State.writeSegment, hs]

@[simp] theorem State.failPending_mem (s : State) (launch index cause : Nat) : (s.failPending launch index cause).mem = s.mem := by
  unfold State.failPending
  split <;> simp

@[simp] theorem State.failRest_mem (s : State) (launch cause : Nat) : (s.failRest launch cause).mem = s.mem := by
  unfold State.failRest
  split <;> simp

/-! ### Placement -/

@[simp] theorem State.dropStaleGangs_mem (s : State) (id_ : Nat) : (s.dropStaleGangs id_).mem = s.mem := by simp [State.dropStaleGangs]
@[simp] theorem State.startReserved_mem (s : State) (chain : Nat) : (s.startReserved chain).mem = s.mem := by simp [State.startReserved]
@[simp] theorem State.takeId_mem (s : State) : s.takeId.2.mem = s.mem := rfl

@[simp] theorem State.loadBank_mem (s : State) (die core launch : Nat) (l : Launch) : (s.loadBank die core launch l).mem = s.mem := by
  simp [State.loadBank]

@[simp] theorem State.startTask_mem (s : State) (launch index : Nat) (c : CtxId) (region : Nat) (status : SlotStatus) :
    (s.startTask launch index c region status).mem = s.mem := by
  unfold State.startTask
  split <;> simp

@[simp] theorem State.holdTasks_mem (s : State) (launch : Nat) (r : List Byte) : (s.holdTasks launch r).mem = s.mem :=
  foldl_mem (fun t i => by split <;> (try split) <;> (try split) <;> simp) _ _

@[simp] theorem State.holdGangs_mem (s : State) (c : Chain) : (s.holdGangs c).mem = s.mem := by simp [State.holdGangs]

theorem State.holdFor_mem {s : State} (die : Nat) {t : State} (ht : s.holdFor die = some t) : t.mem = s.mem := by
  obtain ⟨p, _, hp⟩ := List.exists_of_findSome?_eq_some ht
  split at hp
  · dsimp only at hp
    split at hp
    · cases hp
      simp
    · cases hp
  · cases hp

@[simp] theorem State.startTransit_wf {s : State} (hs : memCanonical s.mem) (q : TransitTask) (c : CtxId) (region : Nat) :
    memCanonical (s.startTransit q c region).mem := by
  simp [State.startTransit, hs]

@[simp] theorem State.readCont_mem (s : State) (k : Machine.Cont) : (s.readCont k).2.mem = s.mem := by simp [State.readCont]

@[simp] theorem State.followTask_wf {s : State} (hs : memCanonical s.mem) (from_ to_ : Nat) :
    memCanonical (s.followTask from_ to_).mem := by
  simp [State.followTask, hs]

@[simp] theorem State.settleRun_wf {s : State} (hs : memCanonical s.mem) (die core region n : Nat) :
    memCanonical (s.settleRun die core region n).mem := by
  simp [State.settleRun, hs]

@[simp] theorem State.putExtent_wf {s : State} (hs : memCanonical s.mem) (die core region n : Nat) (cells : List Host.Cell)
    (tags bad : List Nat) : memCanonical (s.putExtent die core region n cells tags bad).mem := by
  simp [State.putExtent, hs]

@[simp] theorem State.moveExtent_wf {s : State} (hs : memCanonical s.mem) (die core region : Nat) (c : CtxId) (dest n : Nat) :
    memCanonical (s.moveExtent die core region c dest n).mem := by
  unfold State.moveExtent
  split
  · exact hs
  · exact State.putExtent_wf (by simp [hs]) ..

@[simp] theorem State.resumeCont_wf {s : State} (hs : memCanonical s.mem) (id_ : Nat) (v : Machine.Cont) (c : CtxId) (region : Nat) :
    memCanonical (s.resumeCont id_ v c region).mem := by
  unfold State.resumeCont
  dsimp only
  repeat' split
  all_goals simp [hs]

@[simp] theorem State.savedLines_mem (s : State) (c : CtxId) (part slot : Nat) (offs : List Nat) :
    (s.savedLines c part slot offs).2.mem = s.mem := by
  simp [State.savedLines]

@[simp] theorem State.readNode_mem (s : State) (v : Saved) (c : CtxId) : (s.readNode v c).2.mem = s.mem := by
  unfold State.readNode
  split <;> simp

@[simp] theorem State.resumeSaved_wf {s : State} (hs : memCanonical s.mem) (id_ : Nat) (v : Saved) (c : CtxId) (region : Nat) :
    memCanonical (s.resumeSaved id_ v c region).mem := by
  unfold State.resumeSaved
  dsimp only
  repeat' split
  all_goals simp [hs]

/-! ### Queues and chains -/

@[simp] theorem State.wakeHwq_mem (s : State) (h : Nat) : (s.wakeHwq h).mem = s.mem := by
  unfold State.wakeHwq
  split <;> simp

@[simp] theorem State.writePart_wf {s : State} (hs : memCanonical s.mem) (die part va : Nat) (bs : List Byte) :
    memCanonical (s.writePart die part va bs).mem := by
  unfold State.writePart
  split <;> simp [hs]

theorem State.postCompletion_wf {s : State} (hs : memCanonical s.mem) (die part qid : Nat) (c : Completion) {t : State}
    (ht : s.postCompletion die part qid c = some t) : memCanonical t.mem := by
  unfold State.postCompletion at ht
  split at ht
  · cases ht
    exact hs
  · split at ht
    · cases ht
      exact hs
    · split at ht
      · cases ht
        exact hs
      · dsimp only at ht
        split at ht
        · cases ht
        · cases ht
          simp [hs]

@[simp] theorem State.commandDone_mem (s : State) (ctr : Nat) (ok : Bool) : (s.commandDone ctr ok).mem = s.mem := by
  simp [State.commandDone]

@[simp] theorem State.finishUnmap_wf {s : State} (hs : memCanonical s.mem) (h : Nat) (w : HwQueue) (ctr : Nat) :
    memCanonical (s.finishUnmap h w ctr).mem := by
  simp [State.finishUnmap, hs]

@[simp] theorem State.leaveCheck_wf {s : State} (hs : memCanonical s.mem) (h : Nat) : memCanonical (s.leaveCheck h).mem := by
  unfold State.leaveCheck
  split <;> simp [hs]

@[simp] theorem State.badEntry_wf {s : State} (hs : memCanonical s.mem) (h : Nat) (w : HwQueue) : memCanonical (s.badEntry h w).mem := by
  unfold State.badEntry
  split
  next t ht => simp [State.postCompletion_wf hs _ _ _ _ ht]
  next => exact hs

@[simp] theorem State.enterCheck_mem (s : State) (h : Nat) (w : HwQueue) (addr : Nat) : (s.enterCheck h w addr).mem = s.mem := rfl

@[simp] theorem State.fetchEntry_wf {s : State} (hs : memCanonical s.mem) (h : Nat) (w : HwQueue) :
    memCanonical (s.fetchEntry h w).mem := by
  unfold State.fetchEntry
  repeat' split
  all_goals simp [hs]

@[simp] theorem State.noteRead_mem (s : State) (die part va n : Nat) : (s.noteRead die part va n).mem = s.mem := by
  unfold State.noteRead
  split <;> simp

@[simp] theorem State.settleRefused_wf {s : State} (hs : memCanonical s.mem) (id_ : Nat) (c : Chain) (final : ChainState) :
    memCanonical (s.settleRefused id_ c final).mem := by
  unfold State.settleRefused
  split
  next => simp [hs]
  next =>
  split
  next t ht => simp [State.postCompletion_wf hs _ _ _ _ ht]
  next => exact hs

@[simp] theorem State.noteChain_mem (s : State) (die part n addr : Nat) : (s.noteChain die part n addr).mem = s.mem := by
  induction n generalizing s addr with
  | zero => rfl
  | succ n ih =>
    unfold State.noteChain
    split
    · simp
    · dsimp only
      split
      all_goals simp [ih]

@[simp] theorem State.undoReserve_mem (s : State) (id_ : Nat) : (s.undoReserve id_).mem = s.mem := by simp [State.undoReserve]

@[simp] theorem State.refuseChain_wf {s : State} (hs : memCanonical s.mem) (id_ : Nat) (c : Chain) (status : Nat) (final : ChainState) :
    memCanonical (s.refuseChain id_ c status final).mem := by
  simp [State.refuseChain, hs]

@[simp] theorem State.numberLaunches_mem (s : State) (id_ : Nat) (c : Chain) : (s.numberLaunches id_ c).mem = s.mem := rfl

/-- A property of a recursion over a list holds of it if it holds of its body, given that it holds of the call on the tail. -/
theorem brecOn_induction {α β : Type} {P : β → Prop} {F : (l : List α) → List.below (motive := fun _ => β) l → β} (l : List α)
    (nil : ∀ below, P (F [] below)) (cons : ∀ a t below, P below.1 → P (F (a :: t) below)) :
    P (List.brecOn (motive := fun _ => β) l F) := by
  induction l with
  | nil => exact nil _
  | cons a t ih => exact cons a t _ ih

/-- By the recursor, since unfolding one call evaluates the 512 descriptors that it filters. -/
@[simp] theorem State.allocChannels_mem (s : State) (part lead : Nat) (l : List (Nat × List Byte)) :
    (s.allocChannels part lead l).1.mem = s.mem := by
  revert s
  delta State.allocChannels
  refine brecOn_induction (P := fun f : State → State × List (Nat × Nat) => ∀ s, (f s).1.mem = s.mem) l (fun _ _ => rfl) ?_
  rintro ⟨die, e⟩ t below ih s
  delta State.allocChannels._f
  dsimp only
  generalize s.freeDescs die = free
  cases free with
  | nil => exact ih s
  | cons d ds => exact (ih _).trans (State.setChannel_mem ..)

@[simp] theorem State.bindGangs_wf {s : State} (hs : memCanonical s.mem) (die part first : Nat) (gs : List (List (Nat × List Byte))) :
    memCanonical (s.bindGangs die part first gs).mem := by
  refine foldl_wf hs fun t g ht => ?_
  have named : ∀ l, memCanonical (t.allocChannels part (first + ((g.head?.map (·.1)).getD 0)) l).1.mem := fun l => by
    rwa [State.allocChannels_mem]
  dsimp only
  refine foldl_wf (named _) fun u x hu => ?_
  exact foldl_wf hu fun v c hv => State.writeHomeBytes_wf hv ..

theorem State.reserveGangs_wf {s : State} (hs : memCanonical s.mem) (id_ : Nat) (c : Chain) {t : State}
    (ht : s.reserveGangs id_ c = some t) : memCanonical t.mem := by
  have numbered : memCanonical (if c.first = 0 then s.numberLaunches id_ c else s).mem := by simp [hs]
  unfold State.reserveGangs at ht
  generalize (if c.first = 0 then s.numberLaunches id_ c else s) = u at numbered ht
  dsimp only at ht
  split at ht
  · cases ht
    simp [numbered]
  · split at ht
    · cases ht
      simp [numbered]
    · cases ht

@[simp] theorem State.joinGated_wf {s : State} (hs : memCanonical s.mem) (launch : Nat) : memCanonical (s.joinGated launch).mem := by
  refine foldl_wf hs fun t d ht => ?_
  simp [ht]

@[simp] theorem State.drainChain_mem (s : State) (id_ : Nat) : (s.drainChain id_).mem = s.mem := by
  unfold State.drainChain
  split <;> simp

@[simp] theorem State.completeKernel_wf {s : State} (hs : memCanonical s.mem) (launch : Nat) (l : Launch) :
    memCanonical (s.completeKernel launch l).mem := by
  have drained : memCanonical ((List.range 8).foldl State.drainOutbound
      { s with disp := { s.disp with launches := s.disp.launches.erase launch } }).mem :=
    foldl_wf hs fun t d ht => State.drainOutbound_wf ht ..
  unfold State.completeKernel
  dsimp only
  split <;> simp [drained]

@[simp] theorem State.signalDone_wf {s : State} (hs : memCanonical s.mem) (c : Chain) (r : List Byte) :
    memCanonical (s.signalDone c r).mem := by
  have drained : memCanonical ((List.range 8).foldl State.drainOutbound s).mem := foldl_wf hs fun t d ht => State.drainOutbound_wf ht ..
  unfold State.signalDone
  dsimp only
  split <;> split <;> simp [drained]

/-! ### Chains that end -/

@[simp] theorem State.reapChains_mem (s : State) : s.reapChains.mem = s.mem := rfl

@[simp] theorem State.completeChain_wf {s : State} (hs : memCanonical s.mem) (id_ : Nat) : memCanonical (s.completeChain id_).mem := by
  have done : ∀ c : Chain, memCanonical (c.recs.foldl (fun t r => t.signalDone c r) s).mem :=
    fun c => foldl_wf hs fun t r ht => State.signalDone_wf ht ..
  unfold State.completeChain
  split
  next => exact hs
  next c _ =>
  split
  next => exact hs
  next =>
  split
  next => simp [done c]
  next =>
  dsimp only
  split
  next => exact hs
  next t ht => simpa using State.postCompletion_wf (done c) _ _ _ _ ht

@[simp] theorem State.countLost_mem (s : State) (launch index : Nat) : (s.countLost launch index).mem = s.mem := by
  unfold State.countLost
  split <;> simp

@[simp] theorem State.openDown_mem (s : State) (die : Nat) (t : TransitInfo) : (s.openDown die t).mem = s.mem := by simp [State.openDown]

@[simp] theorem State.detachedEnds_wf {s : State} (hs : memCanonical s.mem) (t : TaskInfo) (left : CtxId) (cause : Nat) (pc : Word) :
    memCanonical (s.detachedEnds t left cause pc).mem := by
  unfold State.detachedEnds
  split <;> simp [hs]

@[simp] theorem State.killCont_wf {s : State} (hs : memCanonical s.mem) (id_ : Nat) (v : Machine.Cont) (cause : Nat) :
    memCanonical (s.killCont id_ v cause).mem := by
  simp [State.killCont, hs]

@[simp] theorem State.dropLeaseOf_mem (s : State) (task : Nat × Nat) : (s.dropLeaseOf task).mem = s.mem := rfl

@[simp] theorem State.dropSave_mem (s : State) (part : Nat) (slot : Option Nat) : (s.dropSave part slot).mem = s.mem := by
  unfold State.dropSave
  split <;> simp

@[simp] theorem State.killSaved_wf {s : State} (hs : memCanonical s.mem) (id_ : Nat) (v : Saved) (cause : Nat) :
    memCanonical (s.killSaved id_ v cause).mem := by
  have signalled : ∀ l : List Job, memCanonical (l.foldl (fun s j => s.jobSignal v.left.die j true) s).mem :=
    fun l => foldl_wf hs fun t j ht => State.jobSignal_wf ht ..
  unfold State.killSaved
  simp [signalled]

@[simp] theorem State.killTasks_wf {s : State} (hs : memCanonical s.mem) (ls : List Nat) : memCanonical (s.killTasks ls).mem := by
  unfold State.killTasks
  dsimp only
  refine foldl_wf (foldl_wf (foldl_wf (foldl_wf (foldl_wf ?_ ?_) ?_) ?_) ?_) ?_
  · exact foldl_wf hs fun t l ht => by simp [ht]
  · exact fun t q ht => by simp [ht]
  · exact fun t c ht => State.taskEnds_wf ht ..
  · exact fun t p ht => State.killCont_wf ht ..
  · exact fun t p ht => State.killSaved_wf ht ..
  · exact fun t l ht => by simp [ht]

@[simp] theorem State.tearChain_wf {s : State} (hs : memCanonical s.mem) (n id_ : Nat) : memCanonical (s.tearChain n id_).mem := by
  induction n generalizing s id_ with
  | zero => exact hs
  | succ n ih =>
    unfold State.tearChain
    split
    · exact hs
    · split
      · simp [hs]
      · split
        · exact hs
        · exact State.killTasks_wf (foldl_wf (by simp [hs]) fun t p ht => ih ht p.1) ..

@[simp] theorem State.killChain_wf {s : State} (hs : memCanonical s.mem) (id_ : Nat) : memCanonical (s.killChain id_).mem := by
  simp [State.killChain, hs]

/-! ### Eviction -/

@[simp] theorem State.useSave_mem (s : State) (part i : Nat) : (s.useSave part i).mem = s.mem := rfl
@[simp] theorem State.keepSaved_mem (s : State) (v : Saved) : (s.keepSaved v).mem = s.mem := rfl

@[simp] theorem State.stopLoads_wf {s : State} (hs : memCanonical s.mem) (c : CtxId) : memCanonical (s.stopLoads c).mem := by
  unfold State.stopLoads
  dsimp only
  repeat' split
  all_goals simp [hs]

@[simp] theorem State.copyGranule_wf {s : State} (hs : memCanonical s.mem) (core src dst : Nat) :
    memCanonical (s.copyGranule core src dst).mem := by
  simp [State.copyGranule, hs]

@[simp] theorem State.saveExtent_wf {s : State} (hs : memCanonical s.mem) (c : CtxId) (part slot region n : Nat) :
    memCanonical (s.saveExtent c part slot region n).mem := foldl_wf hs fun t i ht => by split <;> simp [ht]

@[simp] theorem State.leaveTables_mem (s : State) (c : CtxId) : (s.leaveTables c).mem = s.mem := rfl
@[simp] theorem State.leaveWaits_mem (s : State) (c : CtxId) : (s.leaveWaits c).mem = s.mem := by simp [State.leaveWaits]
@[simp] theorem State.leaveArray_mem (s : State) (c : CtxId) : (s.leaveArray c).mem = s.mem := rfl
@[simp] theorem State.wakeCore_mem (s : State) (die core : Nat) : (s.wakeCore die core).mem = s.mem := rfl

@[simp] theorem State.evictOne_wf {s : State} (hs : memCanonical s.mem) (c : CtxId) : memCanonical (s.evictOne c).mem := by
  have stopped : memCanonical (((s.stopLoads c).drainStores c).stopJob c).mem :=
    State.stopJob_wf (State.drainStores_wf (State.stopLoads_wf hs ..) ..) ..
  unfold State.evictOne
  generalize ((s.stopLoads c).drainStores c).stopJob c = u at stopped ⊢
  have saved : ∀ part i ps r n, memCanonical ((u.saveImage c.die part i ps).settleRun c.die c.core r n).mem :=
    fun _ _ _ _ _ => State.settleRun_wf (State.saveImage_wf stopped ..) ..
  dsimp only
  split
  · exact stopped
  · simp [saved]

@[simp] theorem State.loadSaved_mem (s : State) (c : CtxId) (part slot x : Nat) : (s.loadSaved c part slot x).mem = s.mem := by
  simp [State.loadSaved]

@[simp] theorem State.loadExtent_wf {s : State} (hs : memCanonical s.mem) (c : CtxId) (part slot region n : Nat) :
    memCanonical (s.loadExtent c part slot region n).mem := foldl_wf hs fun t i ht => by dsimp only; split <;> simp [ht]

@[simp] theorem State.restoreEvicted_wf {s : State} (hs : memCanonical s.mem) (id_ : Nat) (v : Saved) (c : CtxId) (region : Nat) :
    memCanonical (s.restoreEvicted id_ v c region).mem := by
  have landed : memCanonical ((s.landAtomics v.left v.hart.task.stay).followTask v.left.die c.die).mem :=
    State.followTask_wf (State.landAtomics_wf hs ..) ..
  unfold State.restoreEvicted
  generalize (s.landAtomics v.left v.hart.task.stay).followTask v.left.die c.die = u at landed ⊢
  have back : ∀ n, memCanonical (u.takeId.2.settleRun c.die c.core region n).mem := fun n => by simp [landed]
  dsimp only
  split <;> simp [back]

/-! ### Lost tasks -/

@[simp] theorem State.loseReserved_mem (s : State) (c : CtxId) : (s.loseReserved c).mem = s.mem := by simp [State.loseReserved]

@[simp] theorem State.abortLaunch_wf {s : State} (hs : memCanonical s.mem) (t : TaskInfo) : memCanonical (s.abortLaunch t).mem := by
  unfold State.abortLaunch
  repeat' split
  all_goals simp [hs]

@[simp] theorem State.faultMember_wf {s : State} (hs : memCanonical s.mem) (die core : Nat) (c : CtxId) :
    memCanonical (s.faultMember die core c).mem := by
  simp [State.faultMember, hs]

@[simp] theorem State.gangFault_wf {s : State} (hs : memCanonical s.mem) (die core : Nat) (t : TaskInfo) :
    memCanonical (s.gangFault die core t).mem := by
  have poisoned : ∀ (u : State) (l : List Nat), memCanonical u.mem → memCanonical (l.foldl State.poisonChannel u).mem :=
    fun u l hu => foldl_wf hu fun t h ht => by simp [ht]
  unfold State.gangFault
  dsimp only
  refine foldl_wf ?_ fun t c ht => State.faultMember_wf ht ..
  refine poisoned _ _ ?_
  split <;> simp [hs]

@[simp] theorem State.failGroup_mem (s : State) (group : Nat) : (s.failGroup group).mem = s.mem := rfl

@[simp] theorem State.deadGroups_mem (s : State) (die core : Nat) : (s.deadGroups die core).mem = s.mem :=
  foldl_mem (fun _ _ => by simp) _ _

@[simp] theorem State.replayTask_wf {s : State} (hs : memCanonical s.mem) (c : CtxId) : memCanonical (s.replayTask c).mem := by
  have left : ∀ t, memCanonical (((s.drainStores c).abortLaunch t).leaveJobs c).mem :=
    fun _ => State.leaveJobs_wf (State.abortLaunch_wf (State.drainStores_wf hs ..) ..) ..
  unfold State.replayTask
  simp [left]

@[simp] theorem State.loseTask_wf {s : State} (hs : memCanonical s.mem) (c : CtxId) : memCanonical (s.loseTask c).mem := by
  simp [State.loseTask, hs]

end Sys2Proof.Machine
end

section
/-! PROOFS. Memory in canonical form: engines, collectives, commands, the fabric, bring-up and the fetch. -/

namespace Sys2Proof.Machine

/-! ### Engines -/

@[simp] theorem State.engineKey_wf {s : State} (hs : memCanonical s.mem) (w : Who) (space : Nat) (x : Int) (n : Nat) (k : Kind) :
    (s.engineKey w space x n k).wf := by
  unfold State.engineKey
  split
  · exact hs
  · exact hs
  · have moved := State.translate_wf hs w.die w.core w.xpart
    split
    next heq => split <;> exact (moved ..).of_ok heq
    next heq => exact (moved ..).of_trap heq
    next => exact hs

@[simp] theorem State.engineLines_wf {s : State} (hs : memCanonical s.mem) (die core : Nat) (agent : Reader) (k n : Nat) :
    memCanonical (s.engineLines die core agent k n).2.2.mem := by
  simp [State.engineLines, hs]

theorem State.slotRuns_wf {s : State} (hs : memCanonical s.mem) {die core : Nat} {agent : Reader} {part slot : Nat} {l : List (Nat × Nat)}
    {r : List Byte × Bool × State} (hr : s.slotRuns die core agent part slot l = some r) : memCanonical r.2.2.mem := by
  induction l generalizing s r with
  | nil =>
    cases hr
    exact hs
  | cons p l ih =>
    unfold State.slotRuns at hr
    split at hr
    · cases hr
    · split at hr
      next heq =>
      obtain ⟨q, hq, rfl⟩ := Option.map_eq_some_iff.mp hr
      exact ih (r := q) (canonical_third (State.engineLines_wf hs ..) heq) hq

theorem State.extentBytes_wf {s : State} (hs : memCanonical s.mem) {die core : Nat} {agent : Reader} {v : Saved} {off n : Nat}
    {r : List Byte × Bool × State} (hr : s.extentBytes die core agent v off n = some r) : memCanonical r.2.2.mem := by
  unfold State.extentBytes at hr
  split at hr
  · split at hr
    · exact State.slotRuns_wf hs hr
    · cases hr
  · cases hr

@[simp] theorem State.copyRead_wf {s : State} (hs : memCanonical s.mem) (c : CtxId) (eng : Nat) (m : CopyCmd) (x : Int) (n : Nat) :
    (s.copyRead c eng m x n).wf := by
  unfold State.copyRead
  split
  · simp [hs]
  · refine Moved.wf_bind (State.engineKey_wf hs ..) fun k t ht => ?_
    have line : ∀ k, memCanonical (t.engineLines c.die c.core (.copy eng) k n).2.2.mem := fun k => by simp [ht]
    dsimp only
    split
    · exact line k
    · split
      · exact line _
      · exact line k
      · split
        next heq => exact State.extentBytes_wf ht heq
        next => exact ht

@[simp] theorem CopyCmd.readElem_wf {s : State} (hs : memCanonical s.mem) (m : CopyCmd) (c : CtxId) (eng bits n : Nat) :
    (CopyCmd.readElem m c eng bits n s).wf := by
  simp [CopyCmd.readElem, hs]

@[simp] theorem State.engineStore_wf {s : State} (hs : memCanonical s.mem) (c : CtxId) (k : Nat) (bs : List Byte) :
    memCanonical (s.engineStore c k bs).mem := by
  simp [State.engineStore, hs]

@[simp] theorem State.copyWrite_wf {s : State} (hs : memCanonical s.mem) (c : CtxId) (m : CopyCmd) (space : Nat) (x : Int)
    (bs : List Byte) : (s.copyWrite c m space x bs).wf := by
  unfold State.copyWrite
  split
  · simp [hs]
  · refine Moved.wf_bind (State.engineKey_wf hs ..) fun k t ht => ?_
    split
    · split
      next heq => exact State.writeRegion_wf ht _ _ _ heq
      next => exact ht
    · simp [ht]

@[simp] theorem copyStep_wf {s : State} (hs : memCanonical s.mem) (c : CtxId) (eng : Nat) (k : Sink) (limit space : Nat) (dest : Int)
    (m : CopyCmd) : memCanonical (copyStep c eng k limit space dest m s).2.2.mem := by
  have read : ∀ n i, (m.readElem c eng n i s).wf := fun _ _ => CopyCmd.readElem_wf hs ..
  have written : ∀ x bs, (s.copyWrite c m space x bs).wf := fun _ _ => State.copyWrite_wf hs ..
  unfold copyStep
  extract_lets u
  split
  extract_lets skip want
  split
  · exact hs
  · split
    · split
      next heq => exact (read _ _).of_ok heq
      next heq => exact (read _ _).of_fault heq
      next heq => exact (read _ _).of_hold heq
    · split
      split
      next heq => exact (written _ _).of_ok heq
      next heq => exact (written _ _).of_fault heq
      next heq => exact (written _ _).of_hold heq

@[simp] theorem State.postEngine_mem (s : State) (die core : Nat) (e : EngFault) : (s.postEngine die core e).mem = s.mem := rfl

@[simp] theorem State.copyProgress_mem (s : State) (c : CtxId) (eng : Nat) (m : CopyCmd) (f : Option (Cause × Int)) :
    (s.copyProgress c eng m f).mem = s.mem := by
  unfold State.copyProgress
  split <;> simp

@[simp] theorem cpybStep_wf {s : State} (hs : memCanonical s.mem) (c : CtxId) (eng : Nat) (m : CopyCmd) (ch : Channel) (i first : Nat) :
    memCanonical (cpybStep c eng m ch i first s).mem := by
  simp [cpybStep, hs]

@[simp] theorem State.engineRead_wf {s : State} (hs : memCanonical s.mem) {w : Who} {agent : Reader} {space : Nat} {l : List (Nat × Nat)} :
    (s.engineRead w agent space l).wf := by
  induction l generalizing s with
  | nil => exact hs
  | cons p l ih =>
    refine Moved.wf_bind (State.engineKey_wf hs ..) fun k t ht => ?_
    split
    next heq => exact Moved.wf_bind (ih (canonical_third (State.engineLines_wf ht ..) heq)) fun r u hu => hu

@[simp] theorem State.streamRead_wf {s : State} (hs : memCanonical s.mem) (c : CtxId) (q : Nat) (z : Stream) (v : Word) :
    memCanonical (s.streamRead c q z v).2.mem := by
  have read : ∀ l, (s.engineRead (whoTask c (s.hartAt c).task) (.stream z.eng q) z.cap.space l).wf := fun _ => State.engineRead_wf hs
  unfold State.streamRead
  dsimp only
  split
  · exact hs
  · split
    · exact hs
    · split
      next heq => exact (read _).of_hold heq
      next heq => exact (read _).of_ok heq
      next heq => simp [(read _).of_fault heq]

@[simp] theorem State.buildPanel_wf {s : State} (hs : memCanonical s.mem) (c : CtxId) (i : Fin 8) :
    memCanonical (s.buildPanel c i).mem := by
  unfold State.buildPanel
  dsimp only
  split
  · simp [hs]
  · simpa using foldl_wf hs fun t k ht => State.writeHomeBytes_wf ht ..

@[simp] theorem State.advanceBuffer_wf {s : State} (hs : memCanonical s.mem) (b : BufId) (p : Pending) (rest : List Pending) :
    memCanonical (s.advanceBuffer b p rest).mem := by
  unfold State.advanceBuffer
  split <;> simp [hs]

@[simp] theorem State.goFrom_wf {s : State} (hs : memCanonical s.mem) (b : BufId) (n : Nat) (kind : Pending → Bool) :
    memCanonical (s.goFrom b n kind).mem := by
  unfold State.goFrom
  dsimp only
  repeat' split
  all_goals simp [hs]

@[simp] theorem State.decideBind_mem (s : State) (q : BindReq) : (s.decideBind q).2.mem = s.mem := by
  unfold State.decideBind
  dsimp only
  repeat' split
  all_goals simp

/-! ### Collectives -/

theorem State.contribution_wf {s : State} (hs : memCanonical s.mem) {key : Nat} {c : CollCmd} {r : List Byte × State}
    (hr : s.contribution key c = some r) : memCanonical r.2.mem := by
  have lines : ∀ die core k n, memCanonical (s.engineLines die core .collective k n).2.2.mem := fun _ _ _ _ => State.engineLines_wf hs ..
  unfold State.contribution at hr
  dsimp only at hr
  split at hr
  · cases hr
    exact lines ..
  · cases hr
    exact lines ..
  · obtain ⟨q, hq, rfl⟩ := Option.map_eq_some_iff.mp hr
    exact State.extentBytes_wf hs hq

@[simp] theorem State.sendColl_mem (s : State) (target : Nat) (bs : List Byte) : (s.sendColl target bs).mem = s.mem := by
  simp [State.sendColl]

@[simp] theorem State.contribute_wf {s : State} (hs : memCanonical s.mem) (key : Nat) (c : CollCmd) (rank : Nat) :
    memCanonical (s.contribute key c rank).mem := by
  unfold State.contribute
  split
  next => exact hs
  next bs t ht => simpa using State.contribution_wf hs ht

@[simp] theorem State.collRelease_wf {s : State} (hs : memCanonical s.mem) (g : Machine.Group) : memCanonical (s.collRelease g).mem := by
  have drained : memCanonical ((s.groupDies g).1.foldl State.drainOutbound s).mem := foldl_wf hs fun t d ht => State.drainOutbound_wf ht ..
  unfold State.collRelease
  dsimp only
  split <;> simp [drained]

@[simp] theorem State.groupRelease_wf {s : State} (hs : memCanonical s.mem) (g : Machine.Group) : memCanonical (s.groupRelease g).mem := by
  unfold State.groupRelease
  split <;> simp [hs]

@[simp] theorem State.formResult_wf {s : State} (hs : memCanonical s.mem) (g : Nat) (cs : List Contribution) :
    memCanonical (s.formResult g cs).mem := foldl_wf (by simp [hs]) fun _ _ ht => by simp [ht]

@[simp] theorem State.collSignal_wf {s : State} (hs : memCanonical s.mem) (die : Nat) (c : CollCmd) (err : Bool) :
    memCanonical (s.collSignal die c err).mem := by
  simp [State.collSignal, hs]

@[simp] theorem State.reply_wf {s : State} (hs : memCanonical s.mem) (key : Nat) (c : CollCmd) (bs : List Byte) :
    memCanonical (s.reply key c bs).2.mem := by
  have placed : ∀ x, (s.translate (ctxOf key).die 16 c.part 3 x (some .store) 0).wf := fun _ => State.translate_wf hs ..
  unfold State.reply
  dsimp only
  split
  · exact hs
  · split
    · simp [hs]
    · split
      · simp [hs]
      · split
        next => simp [hs]
        next heq => simp [(placed _).of_trap heq]
        next heq => simp [(placed _).of_ok heq]

@[simp] theorem State.park_wf {s : State} (hs : memCanonical s.mem) (die : Nat) (c : CollCmd) : memCanonical (s.park die c).mem := by
  unfold State.park
  split <;> simp [hs]

@[simp] theorem State.deliverColl_wf {s : State} (hs : memCanonical s.mem) (key : Nat) : memCanonical (s.deliverColl key).mem := by
  unfold State.deliverColl
  dsimp only
  split
  next => exact hs
  next c _ _ =>
  split
  next => exact hs
  next => simp [hs]
  next bs _ _ =>
  split
  · have replied := State.reply_wf hs key c bs
    split
    next heq => exact canonical_snd replied heq
    next heq => simp [canonical_snd replied heq]
    next heq => simp [canonical_snd replied heq]
  · split
    next => exact hs
    next heq => simp [State.writeRegion_wf hs _ _ _ heq]

@[simp] theorem State.serveSpilled_wf {s : State} (hs : memCanonical s.mem) (part word : Nat) :
    memCanonical (s.serveSpilled part word).mem := by
  simp [State.serveSpilled, hs]

@[simp] theorem State.holdTokens_mem (s : State) (part : Nat) : (s.holdTokens part).mem = s.mem := rfl

@[simp] theorem State.postFrame_wf {s : State} (hs : memCanonical s.mem) (part : Nat) (t : TokStream) (l : List TokRec) :
    memCanonical (s.postFrame part t l).mem := by
  simp [State.postFrame, hs]

@[simp] theorem State.startWake_mem (s : State) : s.startWake.mem = s.mem := by simp [State.startWake]

/-! ### Commands of the host -/

@[simp] theorem command_wf {ctr : Nat} {s : State} (hs : memCanonical s.mem) {r : Option State}
    (hr : ∀ t, r = some t → memCanonical t.mem) : ResWf (command ctr s r) := by
  unfold command
  split
  · next t => simpa using hr t rfl
  · simp [hs]

@[simp] theorem State.noteHome_mem (s : State) (k n : Nat) : (s.noteHome k n).mem = s.mem := by simp [State.noteHome]
@[simp] theorem State.endGroups_mem (s : State) (part : Nat) : (s.endGroups part).mem = s.mem := foldl_mem (fun _ _ => by simp) _ _

@[simp] theorem State.revokeAll_wf {s : State} (hs : memCanonical s.mem) (part : Nat) : memCanonical (s.revokeAll part).mem := by
  simp [State.revokeAll, hs]

@[simp] theorem State.stopMigrations_wf {s : State} (hs : memCanonical s.mem) (part : Nat) : memCanonical (s.stopMigrations part).mem :=
  foldl_wf hs fun _ _ ht => by simp [ht]

@[simp] theorem State.tearPartition_wf {s : State} (hs : memCanonical s.mem) (part : Nat) : memCanonical (s.tearPartition part).mem :=
  foldl_wf hs fun _ _ ht => State.killChain_wf ht ..

@[simp] theorem State.removePartition_wf {s : State} (hs : memCanonical s.mem) (part : Nat) :
    memCanonical (s.removePartition part).mem := by
  have gone : memCanonical (((s.tearPartition part).stopMigrations part).revokeAll part).mem :=
    State.revokeAll_wf (State.stopMigrations_wf (State.tearPartition_wf hs ..) ..) ..
  unfold State.removePartition
  simp [gone]

@[simp] theorem State.writeView_wf {s : State} (hs : memCanonical s.mem) (part : Nat) : memCanonical (s.writeView part).mem := by
  unfold State.writeView
  split <;> simp [hs]

@[simp] theorem State.walkEntry_mem (s : State) (e i align : Nat) : (s.walkEntry e i align).2.mem = s.mem := by
  unfold State.walkEntry
  split <;> simp

@[simp] theorem State.pageLeaf_mem (s : State) (part va : Nat) : (s.pageLeaf part va).2.mem = s.mem := by
  unfold State.pageLeaf
  split
  next heq => exact mem_snd (State.walkEntry_mem ..) heq
  next heq =>
  have upper := mem_snd (State.walkEntry_mem ..) heq
  split
  next heq => exact (mem_snd (State.walkEntry_mem ..) heq).trans upper
  next b t heq =>
  have middle := (mem_snd (State.walkEntry_mem ..) heq).trans upper
  have lower : (if bitOf b 1 then t.walkEntry b (va / 2 ^ 16 % 2 ^ 11) (2 ^ 14) else (none, t)).2.mem = s.mem := by
    split <;> simp [middle]
  generalize (if bitOf b 1 then t.walkEntry b (va / 2 ^ 16 % 2 ^ 11) (2 ^ 14) else (none, t)) = r at lower
  obtain ⟨_ | _, u⟩ := r <;> exact lower

@[simp] theorem State.copyFrame_wf {s : State} (hs : memCanonical s.mem) (src dst : Nat) : memCanonical (s.copyFrame src dst).mem := by
  simp [State.copyFrame, hs]

@[simp] theorem State.leaveReserved_mem (s : State) (c : CtxId) : (s.leaveReserved c).mem = s.mem := by simp [State.leaveReserved]

theorem State.moveCont_wf {s : State} (hs : memCanonical s.mem) (id_ : Nat) (v : Machine.Cont) (die core : Nat) {t : State}
    (ht : s.moveCont id_ v die core = some t) : memCanonical t.mem := by
  unfold State.moveCont at ht
  dsimp only at ht
  split at ht
  · cases ht
    exact State.writeCont_wf (State.moveExtent_wf (by simp [hs]) ..) ..
  · cases ht

@[simp] theorem State.moveAway_wf {s : State} (hs : memCanonical s.mem) (id_ : Nat) (v : Machine.Cont) :
    memCanonical (s.moveAway id_ v).mem := by
  unfold State.moveAway
  dsimp only
  split
  · exact hs
  · split
    next u hu =>
      obtain ⟨core, _, hc⟩ := List.exists_of_findSome?_eq_some hu
      split at hc
      · exact State.moveCont_wf hs _ _ _ _ hc
      · cases hc
    next => exact hs

@[simp] theorem State.workCoreset_wf {s : State} (hs : memCanonical s.mem) (q : Nat × Nat × Nat × Nat) :
    memCanonical (s.workCoreset q).mem := by
  obtain ⟨part, die, mask, ctr⟩ := q
  have left : ∀ l : List CtxId, memCanonical (l.foldl State.leaveReserved s).mem := fun l => foldl_wf hs fun t c ht => by simp [ht]
  have evicted : ∀ (u : State) (l : List CtxId), memCanonical u.mem → memCanonical
      (l.foldl (fun s c => if s.holds c && s.evictable c then (s.evictGroup c).foldl State.evictOne s else s) u).mem := by
    refine fun u l hu => foldl_wf hu fun t c ht => ?_
    split
    · exact foldl_wf ht fun t c ht => State.evictOne_wf ht ..
    · exact ht
  have moved : ∀ (u : State) (l : List (Nat × Cont)), memCanonical u.mem → memCanonical (l.foldl (fun s p => s.moveAway p.1 p.2) u).mem :=
    fun u l hu => foldl_wf hu fun t p ht => State.moveAway_wf ht ..
  unfold State.workCoreset
  dsimp only
  split
  · simpa only [State.commandDone_mem] using moved _ _ (evicted _ _ (left _))
  · exact moved _ _ (evicted _ _ (left _))

/-! ### Ring commands -/

@[simp] theorem State.replyAt_mem (s : State) (port slot status data : Nat) : (s.replyAt port slot status data).mem = s.mem := rfl
@[simp] theorem State.takeCommand_mem (s : State) (port : Nat) : (s.takeCommand port).mem = s.mem := rfl
@[simp] theorem State.replyTo_mem (s : State) (port status data : Nat) : (s.replyTo port status data).mem = s.mem := rfl
@[simp] theorem State.ringFails_mem (s : State) (m : Mail) (status : Nat) : (s.ringFails m status).mem = s.mem := by simp [State.ringFails]
@[simp] theorem State.ringDone_mem (s : State) (r : Ring) (m : Mail) : (s.ringDone r m).mem = s.mem := by simp [State.ringDone]

@[simp] theorem ringCommand_wf {r : Option Ring} {valid : Bool} {m : Mail} {s : State} (hs : memCanonical s.mem) {act : Option State}
    (hr : ∀ t, act = some t → memCanonical t.mem) : ResWf (ringCommand r valid m s act) := by
  unfold ringCommand
  dsimp only
  repeat' split
  all_goals simp_all

@[simp] theorem State.movePool_wf {s : State} (hs : memCanonical s.mem) (die : Nat) : memCanonical (s.movePool die).mem :=
  foldl_wf hs fun _ _ ht => by simp [ht]

@[simp] theorem State.setRegion_wf {s : State} (hs : memCanonical s.mem) (r : Ring) : memCanonical (s.setRegion r).mem :=
  foldl_wf hs fun _ _ ht => by simp [ht]

@[simp] theorem State.ringStopped_mem (s : State) (r : Ring) (m : Mail) (slot : Nat) : (s.ringStopped r m slot).mem = s.mem := by
  simp [State.ringStopped]

@[simp] theorem State.rewriteRing_mem (s : State) (id_ : Nat) : (s.rewriteRing id_).mem = s.mem := by
  unfold State.rewriteRing
  split
  · rfl
  · exact (foldl_mem (fun _ _ => by simp) _ _).trans (by simp)

/-! ### The fabric -/

@[simp] theorem State.redirect_mem (s : State) (ring : Nat) (r : Ring) (lost : List Nat) : (s.redirect ring r lost).mem = s.mem := rfl
@[simp] theorem State.loseSequences_mem (s : State) (die : Nat) : (s.loseSequences die).mem = s.mem := by simp [State.loseSequences]

@[simp] theorem State.placeLost_wf {s : State} (hs : memCanonical s.mem) (ring : Nat) (r : Ring) (i : Nat) (h : Home)
    (segment : Option (List Byte)) : memCanonical (s.placeLost ring r i h segment).mem := by
  unfold State.placeLost
  repeat' split
  all_goals simp [hs]

@[simp] theorem State.sendFlit_mem (s : State) (port : Nat) (bs : List Byte) : (s.sendFlit port bs).mem = s.mem := rfl
@[simp] theorem State.hear_mem (s : State) (port : Nat) : (s.hear port).mem = s.mem := rfl
@[simp] theorem State.setTime_mem (s : State) (time : Nat) : (s.setTime time).mem = s.mem := by simp [State.setTime]

@[simp] theorem State.loseRequests_wf {s : State} (hs : memCanonical s.mem) (pkg : Nat) : memCanonical (s.loseRequests pkg).mem := by
  refine foldl_wf hs fun t q ht => ?_
  split <;> simp [ht]

@[simp] theorem State.settleLost_wf {s : State} (hs : memCanonical s.mem) (f : Nat → Bool) : memCanonical (s.settleLost f).mem :=
  foldl_wf (foldl_wf hs fun _ _ ht => State.stopLoads_wf ht ..) fun _ _ ht => State.performLoads_wf ht ..

@[simp] theorem State.eclipseGroups_mem (s : State) (pkg : Nat) : (s.eclipseGroups pkg).mem = s.mem := foldl_mem (fun _ _ => by simp) _ _

@[simp] theorem State.eclipse_wf {s : State} (hs : memCanonical s.mem) (pkg : Nat) : memCanonical (s.eclipse pkg).mem := by
  simp [State.eclipse, hs]

@[simp] theorem State.resend_mem (s : State) : s.resend.mem = s.mem := rfl

@[simp] theorem State.rebuildRoutes_wf {s : State} (hs : memCanonical s.mem) : memCanonical s.rebuildRoutes.mem :=
  foldl_wf hs fun _ _ ht => by simp [ht]

@[simp] theorem State.enterLoss_wf {s : State} (hs : memCanonical s.mem) (silent reporter kind : Nat) :
    memCanonical (s.enterLoss silent reporter kind).mem := by
  simp [State.enterLoss, hs]

@[simp] theorem State.declareLoss_wf {s : State} (hs : memCanonical s.mem) (port silent kind : Nat) :
    memCanonical (s.declareLoss port silent kind).mem := by
  simp +contextual [State.declareLoss, hs]

@[simp] theorem State.respond_mem (s : State) (source : Nat) (bs : List Byte) (tags : List Bool) :
    (s.respond source bs tags).mem = s.mem := by
  simp [State.respond]

@[simp] theorem State.storeTagged_wf {s : State} (hs : memCanonical s.mem) (k : Nat) (bs : List Byte) (tags : List Bool) :
    memCanonical (s.storeTagged k bs tags).mem := foldl_wf hs fun _ _ ht => by simp [ht]

@[simp] theorem State.remoteAtomic_wf {s : State} (hs : memCanonical s.mem) (k op : Nat) (wide : Bool) (v v2 : Word) (returns : Bool) :
    memCanonical (s.remoteAtomic k op wide v v2 returns).mem := by
  unfold State.remoteAtomic
  dsimp only
  repeat' split
  all_goals simp [hs]

@[simp] theorem State.performRequest_wf {s : State} (hs : memCanonical s.mem) (loc : Nat) (op : FabricOp) :
    memCanonical (s.performRequest loc op).mem := by
  unfold State.performRequest
  repeat' split
  all_goals simp [hs]

/-! ### Mailboxes and bring-up -/

@[simp] theorem mailbox_wf {port : Nat} {valid : Bool} {s : State} (hs : memCanonical s.mem) {r : Option State}
    (hr : ∀ t, r = some t → memCanonical t.mem) : ResWf (mailbox port valid s r) := by
  unfold mailbox
  repeat' split
  all_goals simp_all

@[simp] theorem State.giveTo_wf {s : State} (hs : memCanonical s.mem) (port part : Nat) : memCanonical (s.giveTo port part).mem := by
  simp [State.giveTo, hs]

@[simp] theorem State.bringUp_wf {s : State} (hs : memCanonical s.mem) (latches : Sys2Proof.SMap Latch) (status : Nat) :
    memCanonical (s.bringUp latches status).mem := by
  simp [State.bringUp, hs]

/-! ### The fetch -/

@[simp] theorem State.performCode_wf {s : State} (hs : memCanonical s.mem) : memCanonical s.performCode.mem := by
  simp [State.performCode, hs]

@[simp] theorem State.switchTo_mem (s : State) (c : CtxId) : (s.switchTo c).mem = s.mem := by simp [State.switchTo]

@[simp] theorem State.fetchWord_wf {s : State} (hs : memCanonical s.mem) (pc : Word) : (s.fetchWord pc).wf := by
  unfold State.fetchWord
  refine R.wf_bind (State.access_wf hs ..) fun key t ht => ?_
  dsimp only
  split
  · exact ht
  · split <;> simp [ht]

@[simp] theorem State.fetch_wf {s : State} (hs : memCanonical s.mem) : s.fetch.wf := by
  unfold State.fetch
  refine R.wf_bind (State.fetchWord_wf hs ..) fun w t ht => ?_
  split
  · exact R.wf_bind (State.fetchWord_wf ht ..) fun x u hu => hu
  · exact ht

@[simp] theorem State.countGroup_mem (s : State) (c : CtxId) (before after : Word) (vector : Bool) :
    (s.countGroup c before after vector).mem = s.mem := rfl

@[simp] theorem State.ageOthers_mem (s : State) (c : CtxId) : (s.ageOthers c).mem = s.mem := rfl

@[simp] theorem State.issued_mem (s : State) (c : CtxId) (pc : Word) (len : Nat) (vector : Bool) (i : Instr) :
    (s.issued c pc len vector i).mem = s.mem := by
  simp [State.issued]

@[simp] theorem State.performTouched_wf {s : State} (hs : memCanonical s.mem) (i : Instr) : memCanonical (s.performTouched i).mem := by
  simp [State.performTouched, hs]

@[simp] theorem State.refetch_wf {s : State} (hs : memCanonical s.mem) : memCanonical s.refetch.mem := by
  unfold State.refetch
  split <;> simp [hs]

/-! ### What the outside does -/

@[simp] theorem State.readAhead_wf {s : State} (hs : memCanonical s.mem) (c : CtxId) (addr : Nat) :
    memCanonical (s.readAhead c addr).mem := by
  have asked := State.access_wf (s := s.switchTo c) (by simp [hs]) (s.switchTo c).who ((s.switchTo c).rc 15) addr 4 4 .fetch
  unfold State.readAhead
  dsimp only
  split
  next heq =>
    split
    · exact hs
    · simp [asked.of_ok heq]
  next => exact hs

@[simp] theorem State.enterSegment_mem (s : State) (ring position : Nat) (bs : List Byte) :
    (s.enterSegment ring position bs).mem = s.mem := by
  unfold State.enterSegment
  repeat' split
  all_goals simp

@[simp] theorem State.drainMailbox_mem (s : State) : s.drainMailbox.mem = s.mem := by
  unfold State.drainMailbox
  split <;> simp

@[simp] theorem State.remoteContribution_mem (s : State) (group : Nat) (c : Contribution) : (s.remoteContribution group c).mem = s.mem := by
  unfold State.remoteContribution
  repeat' split
  all_goals simp

@[simp] theorem State.ringQuiet_mem (s : State) (ring package : Nat) : (s.ringQuiet ring package).mem = s.mem := by
  unfold State.ringQuiet
  split <;> simp

@[simp] theorem State.ringSilent_mem (s : State) (ring position : Nat) (silent : Bool) :
    (s.ringSilent ring position silent).mem = s.mem := by
  unfold State.ringSilent
  split <;> simp

@[simp] theorem State.peerReload_wf {s : State} (hs : memCanonical s.mem) (ring tag : Nat) (segment : Option (List Byte)) :
    memCanonical (s.peerReload ring tag segment).mem := by
  unfold State.peerReload
  repeat' split
  all_goals simp [hs]

@[simp] theorem State.homeCopyBad_mem (s : State) (ring entry : Nat) : (s.homeCopyBad ring entry).mem = s.mem := by
  unfold State.homeCopyBad
  split <;> simp

@[simp] theorem State.homeCopyBack_mem (s : State) (ring entry : Nat) (ok : Bool) : (s.homeCopyBack ring entry ok).mem = s.mem := by
  unfold State.homeCopyBack
  split <;> simp

@[simp] theorem State.takeDescriptor_wf {s : State} (hs : memCanonical s.mem) (ring : Nat) (r : Ring) (image : Nat) :
    memCanonical (s.takeDescriptor ring r image).mem := by
  simp +contextual [State.takeDescriptor, hs]

@[simp] theorem State.portSends_mem (s : State) (port cls : Nat) : (s.portSends port cls).mem = s.mem := by
  unfold State.portSends
  repeat' split
  all_goals simp

@[simp] theorem State.creditReturn_mem (s : State) (port cls hop : Nat) : (s.creditReturn port cls hop).mem = s.mem := by
  simp [State.creditReturn]

@[simp] theorem State.slotReturn_mem (s : State) (target : Nat) : (s.slotReturn target).mem = s.mem := rfl
@[simp] theorem State.routeOn_mem (s : State) (port : Nat) (x : Flit) : (s.routeOn port x).mem = s.mem := by simp [State.routeOn]

@[simp] theorem State.peerFrozen_wf {s : State} (hs : memCanonical s.mem) (port : Nat) : memCanonical (s.peerFrozen port).mem := by
  unfold State.peerFrozen
  split <;> simp [hs]

@[simp] theorem State.remoteCoreError_mem (s : State) (package die core : Nat) : (s.remoteCoreError package die core).mem = s.mem := by
  unfold State.remoteCoreError
  dsimp only
  split
  · rfl
  · exact foldl_mem (fun _ _ => by simp) _ _

@[simp] theorem State.partComplete_mem (s : State) (launch package : Nat) : (s.partComplete launch package).mem = s.mem := by
  unfold State.partComplete
  split <;> simp

@[simp] theorem State.loseEntry_wf {s : State} (hs : memCanonical s.mem) (table key : Nat) : memCanonical (s.loseEntry table key).mem := by
  unfold State.loseEntry
  repeat' split
  all_goals simp [hs]

@[simp] theorem State.input_wf {s : State} (hs : memCanonical s.mem) (i : Input) : memCanonical (s.input i).mem := by
  unfold State.input
  split <;> simp [hs]

end Sys2Proof.Machine
end

section
/-! PROOFS. Memory in canonical form: the meaning of each instruction, device step and command that has checks or branches of its own. -/

namespace Sys2Proof.Machine

theorem execJalr_wf {s : State} (hs : memCanonical s.mem) (d a : SReg) (imm : BitVec 12) : ResWf (execJalr d a imm s) := by
  unfold execJalr
  dsimp only
  repeat' split
  all_goals simp [hs]

theorem execCldc_wf {s : State} (hs : memCanonical s.mem) (d a : CReg) (imm : BitVec 8) : ResWf (execCldc d a imm s) := by
  simp [execCldc, hs]

theorem execCstc_wf {s : State} (hs : memCanonical s.mem) (d a : CReg) (imm : BitVec 8) : ResWf (execCstc d a imm s) :=
  finish_wf hs (R.wf_bind (State.access_wf hs ..) fun _ t ht => by simp [ht])

theorem execSuspend_wf {s : State} (hs : memCanonical s.mem) (k a b : BitVec 5) (sf : BitVec 3) (r : BitVec 2) :
    ResWf (execSuspend k a b sf r s) := by
  unfold execSuspend
  extract_lets word kind
  split
  next heq =>
    have ht := R.wf.of_ok (taskOnly_wf hs ?_) heq
    · simp [ht]
    · repeat' split
      all_goals simp [hs]
  next heq =>
    have ht := R.wf.of_trap (taskOnly_wf hs ?_) heq
    · simp [ht]
    · repeat' split
      all_goals simp [hs]
  next => simp [hs]

theorem execSelf_wf {s : State} (hs : memCanonical s.mem) (d l : BitVec 5) : ResWf (execSelf d l s) := by simp [execSelf, hs]

theorem execQbind_wf {s : State} (hs : memCanonical s.mem) (c : CReg) (q : QReg) (b : SReg) : ResWf (execQbind c q b s) := by
  refine finishWait_wf hs (taskOnly_wf hs (R.wf_bind (State.readCard_wf hs ..) fun p t ht => ?_))
  exact R.wf_bind (checkFields_wf ht ..) fun _ u hu => drainStream_wf hu ..

theorem execQaddr_wf {s : State} (hs : memCanonical s.mem) (q : QReg) (b : SReg) : ResWf (execQaddr q b s) := by
  unfold execQaddr
  dsimp only
  repeat' split
  all_goals simp [hs]

theorem execQfmt_wf {s : State} (hs : memCanonical s.mem) (q : QReg) (b : SReg) : ResWf (execQfmt q b s) := by simp [execQfmt, hs]
theorem execMlease_wf {s : State} (hs : memCanonical s.mem) (d a : SReg) : ResWf (execMlease d a s) := by simp [execMlease, hs]

theorem execMjob_wf {s : State} (hs : memCanonical s.mem) (d a : SReg) (cb : CReg) : ResWf (execMjob d a cb s) := by
  refine finish_wf hs (taskOnly_wf hs ?_)
  split
  · split
    · trivial
    · exact hs
  · split
    · exact hs
    · refine R.wf_bind (State.readRecord_wf hs ..) fun card t ht => R.wf_bind (checkFields_wf ht ..) fun _ t ht =>
        R.wf_bind (jobMeridian_wf ht ..) fun snap t ht => R.wf_bind (jobRegion_wf ht ..) fun _ t ht => ?_
      simp [ht]

theorem execMstat_wf {s : State} (hs : memCanonical s.mem) (d a : SReg) : ResWf (execMstat d a s) := by simp [execMstat, hs]
theorem execMerrrd_wf {s : State} (hs : memCanonical s.mem) (d a : SReg) : ResWf (execMerrrd d a s) := by simp [execMerrrd, hs]
theorem execTcfg_wf {s : State} (hs : memCanonical s.mem) (d : TReg) (b : SReg) : ResWf (execTcfg d b s) := by simp [execTcfg, hs]

theorem execTrowv_wf {s : State} (hs : memCanonical s.mem) (a : TReg) (v : VReg) (b : SReg) : ResWf (execTrowv a v b s) := by
  simp [execTrowv, hs]

theorem execTcolv_wf {s : State} (hs : memCanonical s.mem) (a : TReg) (v : VReg) (b : SReg) : ResWf (execTcolv a v b s) := by
  simp [execTcolv, hs]

theorem execTvrow_wf {s : State} (hs : memCanonical s.mem) (d : TReg) (v : VReg) (b : SReg) : ResWf (execTvrow d v b s) := by
  simp [execTvrow, hs]

theorem execTvcol_wf {s : State} (hs : memCanonical s.mem) (d : TReg) (v : VReg) (b : SReg) : ResWf (execTvcol d v b s) := by
  simp [execTvcol, hs]

theorem execTtrans_wf {s : State} (hs : memCanonical s.mem) (d a : TReg) : ResWf (execTtrans d a s) := by simp [execTtrans, hs]
theorem execTmma_wf {s : State} (hs : memCanonical s.mem) (d a t : TReg) : ResWf (execTmma d a t s) := by simp [execTmma, hs]

theorem execTrbind_wf {s : State} (hs : memCanonical s.mem) (d b : SReg) : ResWf (execTrbind d b s) := by
  unfold execTrbind
  extract_lets word
  split
  · simp [hs]
  · split
    next heq =>
      have ht := R.wf.of_ok (taskOnly_wf hs ?_) heq
      · simp [ht]
      · exact R.wf_bind (transitRecord_wf hs ..) fun r t ht => ht
    next heq =>
      have ht := R.wf.of_trap (taskOnly_wf hs ?_) heq
      · simp [ht]
      · exact R.wf_bind (transitRecord_wf hs ..) fun r t ht => ht
    next => simp [hs]

theorem execTrnext_wf {s : State} (hs : memCanonical s.mem) (d a b : SReg) : ResWf (execTrnext d a b s) := by
  refine finish_wf hs (taskOnly_wf hs ?_)
  dsimp only
  split
  · exact hs
  · split
    · exact hs
    · refine R.wf_bind (seqRef_wf hs ..) fun k t ht => ?_
      repeat' split
      all_goals simp [ht]

theorem execTagdecl_wf {s : State} (hs : memCanonical s.mem) (d a b : SReg) (sf : BitVec 3) : ResWf (execTagdecl d a b sf s) := by
  refine finish_wf hs (taskOnly_wf hs ?_)
  dsimp only
  split
  · exact hs
  · refine R.wf_bind (tagOperand_wf hs ..) fun _ t ht => ?_
    split
    · exact ht
    · simpa using foldl_wf ht fun u x hu => State.declareTag_wf hu ..

theorem execColl_wf {s : State} (hs : memCanonical s.mem) (b : SReg) : ResWf (execColl b s) := by
  refine finish_wf hs (taskOnly_wf hs (R.wf_bind (transitRecord_wf hs ..) fun c t ht => R.wf_bind (cardCounter_wf ht ..) fun wait t ht =>
    R.wf_bind (cardCounter_wf ht ..) fun sig t ht => R.wf_bind (State.needAllocated_wf ht ..) fun _ t ht =>
    R.wf_bind (collReply_wf ht ..) fun _ t ht => R.wf_bind (collArray_wf ht ..) fun _ t ht => R.wf_bind ?_ fun _ t ht => ?_))
  · split
    · exact ht
    · exact collArray_wf ht ..
  · simp [ht]

theorem execTkcommit_wf {s : State} (hs : memCanonical s.mem) (d b : SReg) : ResWf (execTkcommit d b s) := by
  refine finish_wf hs (taskOnly_wf hs ?_)
  split
  · trivial
  · refine R.wf_bind (State.readRecord_wf hs ..) fun head t ht => R.wf_bind (transitRecord_wf ht ..) fun r t ht =>
      R.wf_bind (commitCounter_wf ht ..) fun sig t ht => R.wf_bind (seqRef_wf ht ..) fun k t ht => ?_
    simp [ht]

theorem execTkput_wf {s : State} (hs : memCanonical s.mem) (a b : SReg) : ResWf (execTkput a b s) := by
  refine finish_wf hs (taskOnly_wf hs ?_)
  split
  · exact hs
  · split
    · exact hs
    · refine R.wf_bind (seqRef_wf hs ..) fun _ t ht => ?_
      split <;> simp [ht]

theorem execWpset_wf {s : State} (hs : memCanonical s.mem) (d a b : SReg) : ResWf (execWpset d a b s) := by
  refine finish_wf hs (taskOnly_wf hs (R.wf_bind (watchSelect_wf hs ..) fun k t ht => ?_))
  refine R.wf_bind (transitRecord_wf ht ..) fun r t ht => R.wf_bind (seqRef_wf ht ..) fun k t ht => ?_
  dsimp only
  split <;> simp [ht]

theorem execSeqst_wf {s : State} (hs : memCanonical s.mem) (d a b : SReg) : ResWf (execSeqst d a b s) := by
  refine finish_wf hs (taskOnly_wf hs ?_)
  dsimp only
  split
  · exact hs
  · split
    · split <;> simp [hs]
    · refine R.wf_bind (seqRef_wf hs ..) fun k t ht => ?_
      repeat' split
      all_goals simp [ht]

theorem execVqfp4_wf {s : State} (hs : memCanonical s.mem) (d a : VReg) (k : KReg) (n : BitVec 1) : ResWf (execVqfp4 d a k n s) := by
  simp [execVqfp4, hs]

theorem execVdqfp4_wf {s : State} (hs : memCanonical s.mem) (d a : VReg) (t : BitVec 4) (r : BitVec 2) (k : KReg) (n : BitVec 1) :
    ResWf (execVdqfp4 d a t r k n s) := by
  simp [execVdqfp4, hs]

theorem execVqfp8_wf {s : State} (hs : memCanonical s.mem) (d a : VReg) (t : BitVec 4) (r : BitVec 2) (k : KReg) (n : BitVec 1) :
    ResWf (execVqfp8 d a t r k n s) := by
  simp [execVqfp8, hs]

theorem execVblksc_wf {s : State} (hs : memCanonical s.mem) (d a : VReg) (k : KReg) (n : BitVec 1) : ResWf (execVblksc d a k n s) := by
  simp [execVblksc, hs]

/-- Opened as a constant, like `State.recordBytes_wf`: the kernel would evaluate the lanes. -/
theorem execVbndsc_wf {s : State} (hs : memCanonical s.mem) (d a : VReg) (k : KReg) (n : BitVec 1) : ResWf (execVbndsc d a k n s) := by
  suffices body : ∀ f, f = execVbndsc → ResWf (f d a k n s) from body _ rfl
  intro f hf
  delta execVbndsc at hf
  subst hf
  exact vectorOp_wf hs (by rw [State.convertTo_mem]; exact hs)

theorem execVcompr_wf {s : State} (hs : memCanonical s.mem) (d a : VReg) (k : KReg) : ResWf (execVcompr d a k s) := by simp [execVcompr, hs]
theorem execVexpnd_wf {s : State} (hs : memCanonical s.mem) (d a : VReg) (k : KReg) : ResWf (execVexpnd d a k s) := by simp [execVexpnd, hs]
theorem execVsel_wf {s : State} (hs : memCanonical s.mem) (d a b : VReg) (k : KReg) : ResWf (execVsel d a b k s) := by simp [execVsel, hs]

theorem execVrmax_wf {s : State} (hs : memCanonical s.mem) (d a : VReg) (k : KReg) (n : BitVec 1) : ResWf (execVrmax d a k n s) := by
  simp [execVrmax, hs]

theorem execVrmin_wf {s : State} (hs : memCanonical s.mem) (d a : VReg) (k : KReg) (n : BitVec 1) : ResWf (execVrmin d a k n s) := by
  simp [execVrmin, hs]

theorem execVrmaxi_wf {s : State} (hs : memCanonical s.mem) (d a : VReg) (k : KReg) (n : BitVec 1) : ResWf (execVrmaxi d a k n s) := by
  simp [execVrmaxi, hs]

theorem execVrmini_wf {s : State} (hs : memCanonical s.mem) (d a : VReg) (k : KReg) (n : BitVec 1) : ResWf (execVrmini d a k n s) := by
  simp [execVrmini, hs]

theorem execVscans_wf {s : State} (hs : memCanonical s.mem) (d a : VReg) (k : KReg) (n : BitVec 1) : ResWf (execVscans d a k n s) := by
  simp [execVscans, hs]

theorem execVrand_wf {s : State} (hs : memCanonical s.mem) (d a : VReg) (k : KReg) : ResWf (execVrand d a k s) := by simp [execVrand, hs]

theorem execVtopk_wf {s : State} (hs : memCanonical s.mem) (d a b : VReg) (k : KReg) (n : BitVec 1) : ResWf (execVtopk d a b k n s) := by
  simp [execVtopk, hs]

theorem execVspc_wf {s : State} (hs : memCanonical s.mem) (d a n : VReg) (k : KReg) : ResWf (execVspc d a n k s) := by simp [execVspc, hs]

theorem execVspx_wf {s : State} (hs : memCanonical s.mem) (d a n : VReg) (k : KReg) (f : BitVec 1) : ResWf (execVspx d a n k f s) := by
  simp [execVspx, hs]

theorem execVbpt_wf {s : State} (hs : memCanonical s.mem) (d a : VReg) : ResWf (execVbpt d a s) := by simp [execVbpt, hs]
theorem execVbpu_wf {s : State} (hs : memCanonical s.mem) (d a : VReg) : ResWf (execVbpu d a s) := by simp [execVbpu, hs]

theorem execVsctadd_wf {s : State} (hs : memCanonical s.mem) (d a : VReg) (c : CReg) (b : SReg) (k : KReg) :
    ResWf (execVsctadd d a c b k s) := by
  unfold execVsctadd
  refine finish_wf hs (taskOnly_wf hs ?_)
  split
  · refine R.wf_bind (checkElems_wf hs) fun es t ht => ?_
    simpa using foldl_wf ht fun u e hu => by simp [hu]
  · exact hs

theorem execVmvs_wf {s : State} (hs : memCanonical s.mem) (d : SReg) (a : VReg) (b : SReg) : ResWf (execVmvs d a b s) := by
  simp [execVmvs, hs]

theorem execVmve_wf {s : State} (hs : memCanonical s.mem) (d : VReg) (a : SReg) (k : KReg) : ResWf (execVmve d a k s) := by
  simp [execVmve, hs]

theorem execVins_wf {s : State} (hs : memCanonical s.mem) (d : VReg) (a b : SReg) : ResWf (execVins d a b s) := by simp [execVins, hs]
theorem execVid_wf {s : State} (hs : memCanonical s.mem) (d : VReg) (k : KReg) : ResWf (execVid d k s) := by simp [execVid, hs]

theorem execVgumb_wf {s : State} (hs : memCanonical s.mem) (d a b : VReg) (k : KReg) (n : BitVec 1) : ResWf (execVgumb d a b k n s) := by
  simp [execVgumb, hs]

theorem execVmov_wf {s : State} (hs : memCanonical s.mem) (d a : VReg) (k : KReg) : ResWf (execVmov d a k s) := by simp [execVmov, hs]
theorem execWfi_wf {s : State} (hs : memCanonical s.mem) (a : SReg) : ResWf (execWfi a s) := by simp [execWfi, hs]

theorem execCtxsv_wf {s : State} (hs : memCanonical s.mem) (d a : SReg) (cb : CReg) : ResWf (execCtxsv d a cb s) := by
  unfold execCtxsv
  refine systemOp_wf hs ?_
  dsimp only
  split
  · simp [hs]
  · split
    · simp [hs]
    · split
      · simp [hs]
      · refine finish_wf (by simp [hs]) (R.wf_bind (State.imageKeys_wf (by simp [hs])) fun keys t ht => ?_)
        have stored : ∀ l : List (Nat × Piece),
            memCanonical (l.foldl (fun s p => s.enqueueStore (cellsAt p.1 p.2.bytes) p.2.tag false) t).mem :=
          fun l => foldl_wf ht fun u p hu => by simp [hu]
        rw [R.wf_ok]
        split <;> simp [stored]

theorem execCtxld_wf {s : State} (hs : memCanonical s.mem) (d a : SReg) (cb : CReg) : ResWf (execCtxld d a cb s) := by
  unfold execCtxld
  refine systemOp_wf hs ?_
  dsimp only
  split
  · simp [hs]
  · split
    · simp [hs]
    · split
      · simp [hs]
      · split
        · simp [hs]
        · exact finish_wf hs (R.wf_bind (State.imageRead_wf hs) fun core t ht => R.wf_bind (State.imageRead_wf ht) fun l t ht => by simp [ht])

theorem execTrapEntry_wf {s : State} (hs : memCanonical s.mem) (die core : Nat) : ResWf (execTrapEntry die core s) := by
  simp [execTrapEntry, hs]

theorem execExpansionCheck_wf {s : State} (hs : memCanonical s.mem) (die slot : Nat) : ResWf (execExpansionCheck die slot s) := by
  unfold execExpansionCheck
  dsimp only
  repeat' split
  all_goals simp [hs]

theorem execSlotRetire_wf {s : State} (hs : memCanonical s.mem) (die slot : Nat) : ResWf (execSlotRetire die slot s) := by
  simp [execSlotRetire, hs]

theorem execSlackExpiry_wf {s : State} (hs : memCanonical s.mem) (die slot : Nat) : ResWf (execSlackExpiry die slot s) := by
  simp [execSlackExpiry, hs]

theorem execBankSwap_wf {s : State} (hs : memCanonical s.mem) (die core pair : Nat) : ResWf (execBankSwap die core pair s) := by
  unfold execBankSwap
  dsimp only
  repeat' split
  all_goals simp [hs]

theorem execQueueEntryFetch_wf {s : State} (hs : memCanonical s.mem) (die hwq : Nat) : ResWf (execQueueEntryFetch die hwq s) := by
  unfold execQueueEntryFetch
  dsimp only
  repeat' split
  all_goals simp [hs]

theorem execNodePreemption_wf {s : State} (hs : memCanonical s.mem) (die core slot : Nat) : ResWf (execNodePreemption die core slot s) := by
  unfold execNodePreemption
  dsimp only
  repeat' split
  all_goals simp [hs]

theorem execForcedEviction_wf {s : State} (hs : memCanonical s.mem) (die core slot : Nat) : ResWf (execForcedEviction die core slot s) := by
  simp +contextual [execForcedEviction, hs]

theorem execSpareSubstitution_wf {s : State} (hs : memCanonical s.mem) (die core : Nat) : ResWf (execSpareSubstitution die core s) := by
  simp [execSpareSubstitution, hs]

theorem execBarrierWatchdog_wf {s : State} (hs : memCanonical s.mem) (die core slot : Nat) :
    ResWf (execBarrierWatchdog die core slot s) := by
  unfold execBarrierWatchdog
  dsimp only
  repeat' split
  all_goals simp [hs]

theorem execCopyStart_wf {s : State} (hs : memCanonical s.mem) (die core slot eng : Nat) : ResWf (execCopyStart die core slot eng s) := by
  unfold execCopyStart
  dsimp only
  repeat' split
  all_goals simp [hs]

theorem execCopyComplete_wf {s : State} (hs : memCanonical s.mem) (die core slot eng : Nat) :
    ResWf (execCopyComplete die core slot eng s) := by
  unfold execCopyComplete
  dsimp only
  repeat' split
  all_goals simp [hs]

theorem execCpytRelease_wf {s : State} (hs : memCanonical s.mem) (die core eng : Nat) : ResWf (execCpytRelease die core eng s) := by
  unfold execCpytRelease
  dsimp only
  repeat' split
  all_goals simp [hs]

theorem execCpybSlotReserve_wf {s : State} (hs : memCanonical s.mem) (die core slot eng : Nat) :
    ResWf (execCpybSlotReserve die core slot eng s) := by
  unfold execCpybSlotReserve
  dsimp only
  repeat' split
  all_goals simp [hs]

theorem execStreamReadIssue_wf {s : State} (hs : memCanonical s.mem) (die core slot q : Nat) :
    ResWf (execStreamReadIssue die core slot q s) := by
  unfold execStreamReadIssue
  dsimp only
  split
  next hq =>
    split
    next => exact hs
    next v rest _ =>
      split
      · exact hs
      · have read := State.streamRead_wf hs ⟨die, core, slot⟩ q ((s.hartAt ⟨die, core, slot⟩).q.get ⟨q, hq⟩) v
        split
        next heq => exact canonical_snd read heq
        next heq => simp [canonical_snd read heq]
  next => exact hs

theorem execStreamElementArrival_wf {s : State} (hs : memCanonical s.mem) (die core slot q : Nat) :
    ResWf (execStreamElementArrival die core slot q s) := by
  unfold execStreamElementArrival
  repeat' split
  all_goals simp [hs]

theorem execMatrixLeaseGrant_wf {s : State} (hs : memCanonical s.mem) (die cl : Nat) : ResWf (execMatrixLeaseGrant die cl s) := by
  unfold execMatrixLeaseGrant
  dsimp only
  repeat' split
  all_goals simp [hs]

theorem execRemoteLoadReturn_wf {s : State} (hs : memCanonical s.mem) (die core : Nat) (u : LoadUnit) :
    ResWf (execRemoteLoadReturn die core u s) := by
  unfold execRemoteLoadReturn
  dsimp only
  repeat' split
  all_goals simp [hs]

theorem execTrbindDecision_wf {s : State} (hs : memCanonical s.mem) (die core slot : Nat) : ResWf (execTrbindDecision die core slot s) := by
  unfold execTrbindDecision
  dsimp only
  repeat' split
  all_goals simp [hs]

theorem execCollContribution_wf {s : State} (hs : memCanonical s.mem) (die core slot : Nat) :
    ResWf (execCollContribution die core slot s) := by
  unfold execCollContribution
  dsimp only
  repeat' split
  all_goals simp [hs]

theorem execCollDelivery_wf {s : State} (hs : memCanonical s.mem) (group : Nat) : ResWf (execCollDelivery group s) := by
  unfold execCollDelivery
  dsimp only
  refine (resWf_next _).mpr (foldl_wf ?_ fun t c ht => State.deliverColl_wf ht ..)
  split <;> simp [hs]

theorem execSpillScan_wf {s : State} (hs : memCanonical s.mem) (part : Nat) : ResWf (execSpillScan part s) :=
  foldl_wf hs fun _ _ ht => by simp [ht]

theorem execTokenFrameClose_wf {s : State} (hs : memCanonical s.mem) (part : Nat) : ResWf (execTokenFrameClose part s) := by
  simp [execTokenFrameClose, hs]

theorem execTsHeadWrite_wf {s : State} (hs : memCanonical s.mem) (part head : Nat) : ResWf (execTsHeadWrite part head s) := by
  simp [execTsHeadWrite, hs]

theorem execMap_wf {s : State} (hs : memCanonical s.mem) (die hwq part qid addr ctr : Nat) :
    ResWf (execMap die hwq part qid addr ctr s) := by
  unfold execMap
  dsimp only
  repeat' split
  all_goals simp [hs]

theorem execUnmap_wf {s : State} (hs : memCanonical s.mem) (die hwq ctr : Nat) : ResWf (execUnmap die hwq ctr s) := by
  unfold execUnmap
  dsimp only
  repeat' split
  all_goals simp [hs]

theorem execDestroy_wf {s : State} (hs : memCanonical s.mem) (part qid ctr : Nat) : ResWf (execDestroy part qid ctr s) := by
  have killed : ∀ (mute : Chain → Chain) (ids : List Nat), memCanonical (ids.foldl (fun s i => (s.modChain i mute).killChain i) s).mem :=
    fun mute ids => foldl_wf hs fun t i ht => by simp [ht]
  refine command_wf hs fun t ht => ?_
  split at ht
  · cases ht
  · cases ht
    simpa using killed _ _

theorem execMigrate_wf {s : State} (hs : memCanonical s.mem) (part va pa ctr : Nat) : ResWf (execMigrate part va pa ctr s) := by
  unfold execMigrate
  dsimp only
  split
  next heq => simp [mem_snd (State.pageLeaf_mem ..) heq, hs]
  next heq =>
  have ht := mem_snd (State.pageLeaf_mem ..) heq
  split <;> simp [ht, hs]

theorem execCoreset_wf {s : State} (hs : memCanonical s.mem) (part die mask ctr : Nat) : ResWf (execCoreset part die mask ctr s) := by
  simp [execCoreset, hs]

theorem execMovecont_wf {s : State} (hs : memCanonical s.mem) (part rec core ctr : Nat) : ResWf (execMovecont part rec core ctr s) := by
  unfold execMovecont
  dsimp only
  split
  · simp [hs]
  · split
    · simp [hs]
    · split
      next heq =>
        refine command_wf (by exact hs) fun t ht => ?_
        cases ht
        exact State.moveCont_wf (by exact hs) _ _ _ _ heq
      next => exact hs

theorem execGrant_wf {s : State} (hs : memCanonical s.mem) (handle prodPart prodBase consPart consBase ctr : Nat) :
    ResWf (execGrant handle prodPart prodBase consPart consBase ctr s) := by
  refine command_wf hs fun t ht => ?_
  split at ht
  · cases ht
  · cases ht
    simp [hs]

theorem execChcreate_wf {s : State} (hs : memCanonical s.mem) (part die desc pa ctr : Nat) :
    ResWf (execChcreate part die desc pa ctr s) := by
  unfold execChcreate
  dsimp only
  repeat' split
  all_goals simp [hs]

theorem execChfree_wf {s : State} (hs : memCanonical s.mem) (part die desc ctr : Nat) : ResWf (execChfree part die desc ctr s) := by
  unfold execChfree
  dsimp only
  repeat' split
  all_goals simp [hs]

theorem execRform_wf {s : State} (hs : memCanonical s.mem) (ring config : Nat) (packages : List Nat) (region : Nat) (mail : Mail) :
    ResWf (execRform ring config packages region mail s) := by
  unfold execRform
  dsimp only
  repeat' split
  all_goals simp [hs]

theorem execRload_wf {s : State} (hs : memCanonical s.mem) (ring image manifest : Nat) (mail : Mail) :
    ResWf (execRload ring image manifest mail s) := by
  refine ringCommand_wf hs fun t ht => ?_
  dsimp only at ht
  split at ht
  · cases ht
  · split at ht
    · cases ht
    · split at ht
      · cases ht
      · split at ht
        · cases ht
        · cases ht
          refine foldl_wf hs fun u x hu => ?_
          split <;> simp [hu]

theorem execRjoin_wf {s : State} (hs : memCanonical s.mem) (ring package : Nat) (mail : Mail) : ResWf (execRjoin ring package mail s) := by
  unfold execRjoin
  dsimp only
  repeat' split
  all_goals simp [hs]

theorem execGroupset_wf {s : State} (hs : memCanonical s.mem) (port part group : Nat) (members : List Nat) :
    ResWf (execGroupset port part group members s) := by
  unfold execGroupset
  dsimp only
  repeat' split
  all_goals simp [hs]

theorem execOwnerset_wf {s : State} (hs : memCanonical s.mem) (port : Nat) (parts : List Nat) : ResWf (execOwnerset port parts s) := by
  refine mailbox_wf hs fun t ht => ?_
  split at ht
  · cases ht
  · cases ht
    exact foldl_wf hs fun u p hu => State.giveTo_wf hu ..

theorem execTsring_wf {s : State} (hs : memCanonical s.mem) (port part base count tailAddr : Nat) :
    ResWf (execTsring port part base count tailAddr s) := by
  simp [execTsring, hs]

theorem execPowerStateEntry_wf {s : State} (hs : memCanonical s.mem) : ResWf (execPowerStateEntry s) := by simp [execPowerStateEntry, hs]

theorem execDroopStretch_wf {s : State} (hs : memCanonical s.mem) (die ticks : Nat) : ResWf (execDroopStretch die ticks s) := by
  simp [execDroopStretch, hs]

theorem execAttestationReport_wf {s : State} (hs : memCanonical s.mem) (port : Nat) (nonce : BitVec 384) :
    ResWf (execAttestationReport port nonce s) := by
  simp [execAttestationReport, hs]

theorem execTrwaitDeadline_wf {s : State} (hs : memCanonical s.mem) (die core slot : Nat) : ResWf (execTrwaitDeadline die core slot s) := by
  unfold execTrwaitDeadline
  dsimp only
  repeat' split
  all_goals simp [hs]

theorem execFirmwareContextRestart_wf {s : State} (hs : memCanonical s.mem) (die core pc : Nat) :
    ResWf (execFirmwareContextRestart die core pc s) := by
  simp [execFirmwareContextRestart, hs]

theorem execWaitvis_wf {s : State} (hs : memCanonical s.mem) (a : SReg) (r : BitVec 2) : ResWf (execWaitvis a r s) := by
  have checked := taskOnly_wf (w := tvalWord (.waitvis a r)) (r := .ok () (s.releaseAr 2 r)) hs (State.releaseAr_wf hs ..)
  unfold execWaitvis
  split
  next heq => simp [checked.of_trap heq]
  next => simp [hs]
  next _ t heq =>
  have ht := checked.of_ok heq
  split <;> simp [ht]

theorem execNode_wf {s : State} (hs : memCanonical s.mem) : ResWf (execNode s) := by
  have checked := taskOnly_wf (w := tvalWord .node) (r := R.ok () s) hs hs
  unfold execNode
  split
  next heq => simp [checked.of_trap heq]
  next => simp [hs]
  next _ t heq =>
  have ht := checked.of_ok heq
  split <;> simp [ht]

theorem execGsync_wf {s : State} (hs : memCanonical s.mem) (a : SReg) (sf : BitVec 3) : ResWf (execGsync a sf s) := by
  have checked := taskOnly_wf (w := tvalWord (.gsync a sf)) (r := (groupOperand (s.rs a) s).bind fun _ s => .ok () s) hs
    (R.wf_bind (groupOperand_wf hs ..) fun _ t ht => ht)
  unfold execGsync
  split
  next heq => simp [checked.of_trap heq]
  next => simp [hs]
  next _ t heq =>
  have ht := checked.of_ok heq
  dsimp only
  repeat' split
  all_goals simp [ht]

theorem execExit_wf {s : State} (hs : memCanonical s.mem) (r : BitVec 2) : ResWf (execExit r s) := by
  have checked := taskOnly_wf (w := tvalWord (.exit r)) (r := R.ok () s) hs hs
  unfold execExit
  split
  next heq => simp [checked.of_trap heq]
  next => simp [hs]
  next _ t heq =>
  have ht := checked.of_ok heq
  have held : ∀ c l, memCanonical ((t.endLease c).dropHeld l).mem := fun c l => State.dropHeld_wf (by simp [ht]) ..
  split
  · simp [ht]
  · dsimp only
    split
    · simp [ht]
    · exact State.taskEnds_wf (State.drainOutboundTo_wf (State.drainStores_wf ((State.modTask_mem ..).symm ▸ held ..) ..) ..) ..

theorem execTrwait_wf {s : State} (hs : memCanonical s.mem) (cd : CReg) (a b : SReg) (r : BitVec 2) : ResWf (execTrwait cd a b r s) := by
  have checked := taskOnly_wf (w := tvalWord (.trwait cd a b r)) (r := (meridianKeyOf (s.rs a) s).bind fun _ s =>
      if s.ownsDie s.hart.task s.here.die then .ok () s else .trap .accessDenied (s.rs a) s) hs
    (R.wf_bind (meridianKeyOf_wf hs ..) fun _ t ht => by split <;> exact ht)
  unfold execTrwait
  split
  next heq => simp [checked.of_trap heq]
  next => simp [hs]
  next _ t heq =>
  have ht := checked.of_ok heq
  dsimp only
  repeat' split
  all_goals simp [ht]

theorem execSegmentEmission_wf {s : State} (hs : memCanonical s.mem) (ring : Nat) : ResWf (execSegmentEmission ring s) := by
  unfold execSegmentEmission
  repeat' split
  all_goals simp [hs]

theorem execFirstEmission_wf {s : State} (hs : memCanonical s.mem) (ring : Nat) : ResWf (execFirstEmission ring s) := by
  unfold execFirstEmission
  repeat' split
  all_goals simp [hs]

theorem execSegmentArrival_wf {s : State} (hs : memCanonical s.mem) (die seg : Nat) : ResWf (execSegmentArrival die seg s) := by
  unfold execSegmentArrival
  repeat' split
  all_goals simp [hs]

theorem execOriginReturnCheck_wf {s : State} (hs : memCanonical s.mem) (seg : Nat) : ResWf (execOriginReturnCheck seg s) := by
  unfold execOriginReturnCheck
  repeat' split
  all_goals simp [hs]

theorem execHomeCopyRestore_wf {s : State} (hs : memCanonical s.mem) (ring tag : Nat) : ResWf (execHomeCopyRestore ring tag s) := by
  unfold execHomeCopyRestore
  repeat' split
  all_goals simp [hs]

theorem execPrestartReport_wf {s : State} (hs : memCanonical s.mem) (chain die : Nat) : ResWf (execPrestartReport chain die s) := by
  unfold execPrestartReport
  split
  · exact hs
  dsimp only
  split
  · exact hs
  split
  · simp [hs]
  split
  · split
    · exact hs
    · repeat' split
      all_goals simp [hs]
  split
  · exact hs
  split
  · simp [hs]
  split
  · simp [hs]
  split
  · simp [hs]
  split
  · exact hs
  split
  next => exact hs
  next heq =>
    have ht := State.reserveGangs_wf hs _ _ heq
    split <;> simp [ht]

theorem execStartRelease_wf {s : State} (hs : memCanonical s.mem) (chain : Nat) : ResWf (execStartRelease chain s) := by
  have joined : ∀ (u : State) (l : List (Nat × Launch)), memCanonical u.mem → memCanonical (l.foldl (fun t p => t.joinGated p.1) u).mem :=
    fun u l hu => foldl_wf hu fun t p ht => State.joinGated_wf ht ..
  unfold execStartRelease
  split
  · exact hs
  · split
    · exact hs
    · split
      · simp [hs]
      · split
        · exact hs
        · dsimp only
          split
          all_goals
            refine (resWf_next _).mpr ?_
            simp [joined, hs]

theorem execKernelComplete_wf {s : State} (hs : memCanonical s.mem) (launch : Nat) : ResWf (execKernelComplete launch s) := by
  unfold execKernelComplete
  dsimp only
  repeat' split
  all_goals simp [hs]

theorem execLaunchKill_wf {s : State} (hs : memCanonical s.mem) (launch : Nat) : ResWf (execLaunchKill launch s) := by
  unfold execLaunchKill
  repeat' split
  all_goals simp [hs]

theorem execSuspendWaitComplete_wf {s : State} (hs : memCanonical s.mem) (cont : Nat) : ResWf (execSuspendWaitComplete cont s) := by
  unfold execSuspendWaitComplete
  repeat' split
  all_goals simp [hs]

theorem execEvictionRestore_wf {s : State} (hs : memCanonical s.mem) (saved : Nat) : ResWf (execEvictionRestore saved s) := by
  unfold execEvictionRestore
  repeat' split
  all_goals simp [hs]

theorem execGangReserveTimeout_wf {s : State} (hs : memCanonical s.mem) (chain : Nat) : ResWf (execGangReserveTimeout chain s) := by
  unfold execGangReserveTimeout
  repeat' split
  all_goals simp [hs]

theorem execMatrixJobStart_wf {s : State} (hs : memCanonical s.mem) (die core : Nat) : ResWf (execMatrixJobStart die core s) := by
  unfold execMatrixJobStart
  repeat' split
  all_goals simp [hs]

theorem execMatrixJobComplete_wf {s : State} (hs : memCanonical s.mem) (die core : Nat) : ResWf (execMatrixJobComplete die core s) := by
  unfold execMatrixJobComplete
  repeat' split
  all_goals simp [hs]

theorem execDoorbell_wf {s : State} (hs : memCanonical s.mem) (port offset value : Nat) : ResWf (execDoorbell port offset value s) := by
  unfold execDoorbell
  dsimp only
  repeat' split
  all_goals simp [hs]

theorem execPload_wf {s : State} (hs : memCanonical s.mem) (part ctr : Nat) : ResWf (execPload part ctr s) := by
  unfold execPload
  repeat' split
  all_goals simp [hs]

theorem execMigrateComplete_wf {s : State} (hs : memCanonical s.mem) (part va : Nat) : ResWf (execMigrateComplete part va s) := by
  unfold execMigrateComplete
  repeat' split
  all_goals simp [hs]

theorem execAlmset_wf {s : State} (hs : memCanonical s.mem) (part ctr : Nat) : ResWf (execAlmset part ctr s) := by
  unfold execAlmset
  repeat' split
  all_goals simp [hs]

theorem execRstop_wf {s : State} (hs : memCanonical s.mem) (ring : Nat) (mail : Mail) : ResWf (execRstop ring mail s) := by
  unfold execRstop
  repeat' split
  all_goals simp [hs]

theorem execRstopComplete_wf {s : State} (hs : memCanonical s.mem) (ring : Nat) : ResWf (execRstopComplete ring s) := by
  unfold execRstopComplete
  repeat' split
  all_goals simp [hs]

theorem execRingLinkDead_wf {s : State} (hs : memCanonical s.mem) (ring position : Nat) : ResWf (execRingLinkDead ring position s) := by
  unfold execRingLinkDead
  dsimp only
  repeat' split
  all_goals simp [hs]

theorem execMissingSegmentReload_wf {s : State} (hs : memCanonical s.mem) (ring tag : Nat) :
    ResWf (execMissingSegmentReload ring tag s) := by
  unfold execMissingSegmentReload
  repeat' split
  all_goals simp [hs]

theorem execBypassLaneRequest_wf {s : State} (hs : memCanonical s.mem) (ring granted : Nat) :
    ResWf (execBypassLaneRequest ring granted s) := by
  unfold execBypassLaneRequest
  repeat' split
  all_goals simp [hs]

theorem execHeartbeat_wf {s : State} (hs : memCanonical s.mem) (port : Nat) : ResWf (execHeartbeat port s) := by
  unfold execHeartbeat
  repeat' split
  all_goals simp [hs]

theorem execFabricLinkDead_wf {s : State} (hs : memCanonical s.mem) (port : Nat) : ResWf (execFabricLinkDead port s) := by
  unfold execFabricLinkDead
  repeat' split
  all_goals simp [hs]

theorem execPowerStateExit_wf {s : State} (hs : memCanonical s.mem) : ResWf (execPowerStateExit s) := by
  unfold execPowerStateExit
  repeat' split
  all_goals simp [hs]

theorem execTaskKill_wf {s : State} (hs : memCanonical s.mem) (die core : Nat) (target : KillTarget) :
    ResWf (execTaskKill die core target s) := by
  unfold execTaskKill
  repeat' split
  all_goals simp [hs]

theorem execWfiDeadline_wf {s : State} (hs : memCanonical s.mem) (die core : Nat) : ResWf (execWfiDeadline die core s) := by
  unfold execWfiDeadline
  repeat' split
  all_goals simp [hs]

theorem execCheadWrite_wf {s : State} (hs : memCanonical s.mem) (part qid value : Nat) : ResWf (execCheadWrite part qid value s) := by
  unfold execCheadWrite
  repeat' split
  all_goals simp +contextual [hs]

theorem execBarinit_wf {s : State} (hs : memCanonical s.mem) (c : CReg) (b : SReg) : ResWf (execBarinit c b s) := by
  refine finish_wf hs (taskOnly_wf hs (R.wf_bind (State.barrierRef_wf hs ..) fun k t ht => ?_))
  dsimp only
  split <;> simp [ht]

theorem execBararv_wf {s : State} (hs : memCanonical s.mem) (d : SReg) (c : CReg) (sf : BitVec 3) (r : BitVec 2) :
    ResWf (execBararv d c sf r s) := finish_wf hs (taskOnly_wf hs (barrierArrive_wf hs ..))

theorem execBarxb_wf {s : State} (hs : memCanonical s.mem) (d : SReg) (c : CReg) (b : SReg) (sf : BitVec 3) (r : BitVec 2) :
    ResWf (execBarxb d c b sf r s) := finish_wf hs (taskOnly_wf hs (barrierArrive_wf hs ..))

theorem execBartest_wf {s : State} (hs : memCanonical s.mem) (d : SReg) (c : CReg) (b : SReg) (sf : BitVec 3) (r : BitVec 2) :
    ResWf (execBartest d c b sf r s) := by
  refine finish_wf hs (taskOnly_wf hs (R.wf_bind (State.barrierRef_wf hs ..) fun k t ht => ?_))
  dsimp only
  split <;> simp [ht]

theorem execChpush_wf {s : State} (hs : memCanonical s.mem) (a b : SReg) (r : BitVec 2) : ResWf (execChpush a b r s) := by
  have due : memCanonical (if s.pushDue (s.rs a).toNat (slotIndex (s.rs b)) then s.drainQueue else s).mem := by
    split <;> simp [hs]
  refine finish_wf hs (taskOnly_wf hs (R.wf_bind (State.chanRef_wf due ..) fun c t ht => ?_))
  split <;> simp [ht]

theorem execChrel_wf {s : State} (hs : memCanonical s.mem) (a b : SReg) : ResWf (execChrel a b s) := by
  refine finish_wf hs (taskOnly_wf hs (R.wf_bind (State.chanRef_wf hs ..) fun k t ht => ?_))
  dsimp only
  split <;> simp [ht]

theorem execChstat_wf {s : State} (hs : memCanonical s.mem) (d a b : SReg) : ResWf (execChstat d a b s) := by
  refine finish_wf hs (taskOnly_wf hs (R.wf_bind (State.chanRef_wf hs ..) fun k t ht => ?_))
  dsimp only
  repeat' split
  all_goals simp [ht]

theorem execAwaitch_wf {s : State} (hs : memCanonical s.mem) (d : SReg) : ResWf (execAwaitch d s) := by
  have landed : memCanonical ((List.range 8).foldl State.drainOutbound s).mem := foldl_wf hs fun t d ht => State.drainOutbound_wf ht ..
  refine finish_wf hs (taskOnly_wf hs ?_)
  dsimp only
  split
  · simp [landed]
  · trivial

theorem execGjoin_wf {s : State} (hs : memCanonical s.mem) (d a : SReg) : ResWf (execGjoin d a s) := by
  refine finish_wf hs (taskOnly_wf hs (R.wf_bind (groupOperand_wf hs ..) fun k t ht => ?_))
  dsimp only
  split
  · simp [ht]
  · split <;> simp [ht]

theorem execGleave_wf {s : State} (hs : memCanonical s.mem) (d a : SReg) : ResWf (execGleave d a s) := by
  refine finish_wf hs (taskOnly_wf hs (R.wf_bind (groupOperand_wf hs ..) fun k t ht => ?_))
  dsimp only
  split <;> simp [ht]

theorem execYield_wf {s : State} (hs : memCanonical s.mem) : ResWf (execYield s) := by simp [execYield, hs]
theorem execHintnext_wf {s : State} (hs : memCanonical s.mem) : ResWf (execHintnext s) := by simp [execHintnext, hs]
theorem execMfree_wf {s : State} (hs : memCanonical s.mem) : ResWf (execMfree s) := by simp [execMfree, hs]
theorem execMdrain_wf {s : State} (hs : memCanonical s.mem) : ResWf (execMdrain s) := by simp [execMdrain, hs]

theorem execTrinfo_wf {s : State} (hs : memCanonical s.mem) (d a : SReg) : ResWf (execTrinfo d a s) :=
  finish_wf hs (taskOnly_wf hs (R.wf_bind (slotOperand_wf hs ..) fun _ t ht => by simp [ht]))

theorem execTrdone_wf {s : State} (hs : memCanonical s.mem) : ResWf (execTrdone s) := by
  refine finish_wf hs (taskOnly_wf hs ?_)
  split
  · exact hs
  · split <;> simp [hs]

theorem execTrhold_wf {s : State} (hs : memCanonical s.mem) (d a : SReg) : ResWf (execTrhold d a s) := by
  refine finish_wf hs (taskOnly_wf hs (R.wf_bind (slotOperand_wf hs ..) fun k t ht => ?_))
  dsimp only
  repeat' split
  all_goals simp [ht]

theorem execTrskip_wf {s : State} (hs : memCanonical s.mem) (d a : SReg) : ResWf (execTrskip d a s) := by
  refine finish_wf hs (taskOnly_wf hs (R.wf_bind (seqRef_wf hs ..) fun k t ht => ?_))
  dsimp only
  split <;> simp [ht]

theorem execTrqry_wf {s : State} (hs : memCanonical s.mem) (d a : SReg) : ResWf (execTrqry d a s) :=
  finish_wf hs (taskOnly_wf hs (R.wf_bind (meridianKeyOf_wf hs ..) fun _ t ht => by simp [ht]))

theorem execTagpub_wf {s : State} (hs : memCanonical s.mem) (a : SReg) (r : BitVec 2) : ResWf (execTagpub a r s) := by
  refine finish_wf hs (taskOnly_wf hs (R.wf_bind (tagOperand_wf hs ..) fun k t ht => ?_))
  have fenced : ∀ n r, memCanonical ((t.acquireAr n r).release n).mem := fun n r => by simp [ht]
  dsimp only
  split
  · exact ht
  · split
    · simp [fenced]
    · simp [fenced]

theorem execTagqry_wf {s : State} (hs : memCanonical s.mem) (d a : SReg) : ResWf (execTagqry d a s) :=
  finish_wf hs (taskOnly_wf hs (R.wf_bind (tagOperand_wf hs ..) fun _ t ht => by simp [ht]))

theorem execTagret_wf {s : State} (hs : memCanonical s.mem) (a : SReg) : ResWf (execTagret a s) := by
  refine finish_wf hs (taskOnly_wf hs (R.wf_bind (tagOperand_wf hs ..) fun k t ht => ?_))
  split <;> simp [ht]

theorem execWpclr_wf {s : State} (hs : memCanonical s.mem) (d a : SReg) : ResWf (execWpclr d a s) := by
  refine finish_wf hs (taskOnly_wf hs (R.wf_bind (watchSelect_wf hs ..) fun k t ht => ?_))
  refine R.wf_bind (seqRef_wf ht ..) fun k t ht => ?_
  dsimp only
  split <;> simp [ht]

theorem execWprd_wf {s : State} (hs : memCanonical s.mem) (d a b : SReg) : ResWf (execWprd d a b s) := by
  refine finish_wf hs (taskOnly_wf hs (R.wf_bind (watchSelect_wf hs ..) fun k t ht => ?_))
  refine R.wf_bind (seqRef_wf ht ..) fun k t ht => ?_
  split <;> simp [ht]

theorem execTaskPlacement_wf {s : State} (hs : memCanonical s.mem) (die : Nat) : ResWf (execTaskPlacement die s) := by
  unfold execTaskPlacement
  split
  · exact hs
  split
  · simp [hs]
  · simp [hs]
  split
  · simp [hs]
  next heq => simp [State.holdFor_mem _ heq, hs]
  · repeat' split
    all_goals simp [hs]

theorem execCoreError_wf {s : State} (hs : memCanonical s.mem) (die core : Nat) : ResWf (execCoreError die core s) := by
  have lost : ∀ l : List CtxId, memCanonical (l.foldl State.loseReserved s).mem := fun l => foldl_wf hs fun t c ht => by simp [ht]
  have gangs : ∀ l : List CtxId, memCanonical (l.foldl
      (fun s c => if s.holds c && (s.hartAt c).task.gang then s.gangFault die core (s.hartAt c).task else s)
      (l.foldl State.loseReserved s)).mem := fun l => foldl_wf (lost l) fun t c ht => by split <;> simp [ht]
  have ended : ∀ (u : State) (l : List CtxId), memCanonical u.mem → memCanonical (l.foldl State.loseTask u).mem :=
    fun u l hu => foldl_wf hu fun t c ht => State.loseTask_wf ht ..
  unfold execCoreError
  split
  · exact hs
  · simpa using ended _ _ (gangs _)

theorem execTimeFlitSend_wf {s : State} (hs : memCanonical s.mem) : ResWf (execTimeFlitSend s) := by simp +contextual [execTimeFlitSend, hs]

theorem execTimeFlitReceive_wf {s : State} (hs : memCanonical s.mem) (port time delay : Nat) :
    ResWf (execTimeFlitReceive port time delay s) := by
  simp [execTimeFlitReceive, hs]

theorem execEclipseNotice_wf {s : State} (hs : memCanonical s.mem) (port silent reporter rport kind stamp nseq : Nat) :
    ResWf (execEclipseNotice port silent reporter rport kind stamp nseq s) := by
  simp +contextual [execEclipseNotice, hs]

theorem execRouteRedraw_wf {s : State} (hs : memCanonical s.mem) (draws : List Nat) : ResWf (execRouteRedraw draws s) := by
  simp [execRouteRedraw, hs]

theorem execFabricRequest_wf {s : State} (hs : memCanonical s.mem) (source seqno loc : Nat) (req : FabricReq) :
    ResWf (execFabricRequest source seqno loc req s) := by
  unfold execFabricRequest
  dsimp only
  repeat' split
  all_goals simp [hs]

theorem execFabricResponse_wf {s : State} (hs : memCanonical s.mem) (ack : FabricAck) : ResWf (execFabricResponse ack s) := by
  simp [execFabricResponse, hs]

theorem execReadRoutingEntry_wf {s : State} (hs : memCanonical s.mem) (port index : Nat) : ResWf (execReadRoutingEntry port index s) := by
  simp [execReadRoutingEntry, hs]

theorem execPcieLinkDown_wf {s : State} (hs : memCanonical s.mem) (port : Nat) : ResWf (execPcieLinkDown port s) := by
  simp +contextual [execPcieLinkDown, hs]

theorem execPatrolScrub_wf {s : State} (hs : memCanonical s.mem) (word : Nat) : ResWf (execPatrolScrub word s) := by
  simp [execPatrolScrub, hs]

theorem execPowerRequest_wf {s : State} (hs : memCanonical s.mem) (port state freq : Nat) : ResWf (execPowerRequest port state freq s) := by
  unfold execPowerRequest
  dsimp only
  repeat' split
  all_goals simp [hs]

theorem execFreezeReadout_wf {s : State} (hs : memCanonical s.mem) : ResWf (execFreezeReadout s) := by simp [execFreezeReadout, hs]
theorem execReset_wf {s : State} (hs : memCanonical s.mem) : ResWf (execReset s) := by simp [execReset, hs]

theorem execFabricAdmission_wf {s : State} (hs : memCanonical s.mem) (package port master : Nat) :
    ResWf (execFabricAdmission package port master s) := by
  simp [execFabricAdmission, hs]

theorem execPcieLinkUp_wf {s : State} (hs : memCanonical s.mem) (port : Nat) : ResWf (execPcieLinkUp port s) := by simp [execPcieLinkUp, hs]

theorem execLinkLevelReplay_wf {s : State} (hs : memCanonical s.mem) (port : Nat) : ResWf (execLinkLevelReplay port s) := by
  simp [execLinkLevelReplay, hs]

theorem execJal_wf {s : State} (hs : memCanonical s.mem) (d : SReg) (off : BitVec 21) : ResWf (execJal d off s) := by simp [execJal, hs]
theorem execNop_wf {s : State} (hs : memCanonical s.mem) : ResWf (execNop s) := by simp [execNop, hs]
theorem execTrap_wf {s : State} (hs : memCanonical s.mem) (a : SReg) : ResWf (execTrap a s) := by simp [execTrap, hs]
theorem execBrk_wf {s : State} (hs : memCanonical s.mem) : ResWf (execBrk s) := by simp [execBrk, hs]
theorem execIfence_wf {s : State} (hs : memCanonical s.mem) : ResWf (execIfence s) := by simp [execIfence, hs]

theorem execIllegalInstruction_wf {s : State} (hs : memCanonical s.mem) (word : Word) (long : Bool) :
    ResWf (execIllegalInstruction word long s) := by
  simp [execIllegalInstruction, hs]

theorem execPmarkWrite_wf {s : State} (hs : memCanonical s.mem) (die core : Nat) (marks : BitVec 4) :
    ResWf (execPmarkWrite die core marks s) := by
  simp [execPmarkWrite, hs]

theorem execEfqResume_wf {s : State} (hs : memCanonical s.mem) (die core : Nat) : ResWf (execEfqResume die core s) := by
  simp [execEfqResume, hs]

theorem execEfqAbort_wf {s : State} (hs : memCanonical s.mem) (die core : Nat) : ResWf (execEfqAbort die core s) := by
  simp [execEfqAbort, hs]

theorem execSeqclrStop_wf {s : State} (hs : memCanonical s.mem) (die seq : Nat) : ResWf (execSeqclrStop die seq s) := by
  simp [execSeqclrStop, hs]

theorem execSeqclrWait_wf {s : State} (hs : memCanonical s.mem) (die seq : Nat) : ResWf (execSeqclrWait die seq s) := by
  simp [execSeqclrWait, hs]

theorem execStorePerformAtHome_wf {s : State} (hs : memCanonical s.mem) (e : BufEntry) : ResWf (execStorePerformAtHome e s) := by
  simp [execStorePerformAtHome, hs]

theorem execAtomicPerformAtHome_wf {s : State} (hs : memCanonical s.mem) (e : BufEntry) : ResWf (execAtomicPerformAtHome e s) := by
  simp [execAtomicPerformAtHome, hs]

theorem execFreeze_wf {s : State} (hs : memCanonical s.mem) : ResWf (execFreeze s) := by simp [execFreeze, hs]
theorem execWaitc_wf {s : State} (hs : memCanonical s.mem) (l sf c t : BitVec 5) : ResWf (execWaitc l sf c t s) := by simp [execWaitc, hs]
theorem execSyncq_wf {s : State} (hs : memCanonical s.mem) : ResWf (execSyncq s) := by simp [execSyncq, hs]

theorem execFence_wf {s : State} (hs : memCanonical s.mem) (sf : BitVec 3) (r : BitVec 2) : ResWf (execFence sf r s) := by
  simp [execFence, hs]

theorem execCtrsig_wf {s : State} (hs : memCanonical s.mem) (a b : SReg) (sf : BitVec 3) (r : BitVec 2) :
    ResWf (execCtrsig a b sf r s) := finish_wf hs (R.wf_bind (State.ctrRef_wf hs ..) fun _ t ht => by simp [ht])

theorem execCtrrd_wf {s : State} (hs : memCanonical s.mem) (d a : SReg) : ResWf (execCtrrd d a s) :=
  finish_wf hs (R.wf_bind (State.ctrRef_wf hs ..) fun _ t ht => by simp [ht])

theorem execQstat_wf {s : State} (hs : memCanonical s.mem) (d : SReg) (q : QReg) : ResWf (execQstat d q s) := by simp [execQstat, hs]

theorem execCtlrd_wf {s : State} (hs : memCanonical s.mem) (d : SReg) (r : BitVec 12) : ResWf (execCtlrd d r s) := by
  refine finish_wf hs (R.wf_bind (ctlValue_wf hs ..) fun k t ht => ?_)
  rw [R.wf_ok]
  split <;> simp [ht]

theorem execBarwait_wf {s : State} (hs : memCanonical s.mem) (c : CReg) (b : SReg) (sf : BitVec 3) (r : BitVec 2) :
    ResWf (execBarwait c b sf r s) := finishWait_wf hs (taskOnly_wf hs (R.wf_bind (State.barrierRef_wf hs ..) fun _ t ht => by simp [ht]))

theorem execChrsv_wf {s : State} (hs : memCanonical s.mem) (d a : SReg) : ResWf (execChrsv d a s) :=
  finishWait_wf hs (taskOnly_wf hs (R.wf_bind (State.chanRef_wf hs ..) fun _ t ht => by simp [ht]))

theorem execChawait_wf {s : State} (hs : memCanonical s.mem) (d a : SReg) (r : BitVec 2) : ResWf (execChawait d a r s) :=
  finishWait_wf hs (taskOnly_wf hs (R.wf_bind (State.chanRef_wf hs ..) fun _ t ht => by simp [ht]))

theorem execTagwait_wf {s : State} (hs : memCanonical s.mem) (a : SReg) (r : BitVec 2) : ResWf (execTagwait a r s) :=
  finishWait_wf hs (taskOnly_wf hs (R.wf_bind (tagOperand_wf hs ..) fun _ t ht => by simp [ht]))

theorem execVsett_wf {s : State} (hs : memCanonical s.mem) (sf : BitVec 1) (m : BitVec 3) (t : BitVec 4) : ResWf (execVsett sf m t s) := by
  simp [execVsett, hs]

theorem execVrng_wf {s : State} (hs : memCanonical s.mem) (d : VReg) (a : SReg) (k : KReg) : ResWf (execVrng d a k s) := by
  simp [execVrng, hs]

theorem execVflgrd_wf {s : State} (hs : memCanonical s.mem) (d : VReg) : ResWf (execVflgrd d s) := by simp [execVflgrd, hs]
theorem execVflgclr_wf {s : State} (hs : memCanonical s.mem) : ResWf (execVflgclr s) := by simp [execVflgclr, hs]
theorem execEret_wf {s : State} (hs : memCanonical s.mem) (a : SReg) : ResWf (execEret a s) := by simp [execEret, hs]

theorem execTlbinv_wf {s : State} (hs : memCanonical s.mem) (a b : SReg) (sf : BitVec 3) : ResWf (execTlbinv a b sf s) := by
  simp [execTlbinv, hs]

theorem execQuardr_wf {s : State} (hs : memCanonical s.mem) (d a : SReg) : ResWf (execQuardr d a s) := by
  refine systemOp_wf hs ?_
  have done : memCanonical (s.performLoads ⟨s.here.die, s.here.core, (s.rs a).toNat % 4⟩).mem := State.performLoads_wf hs ..
  dsimp only
  split <;> simp [done, hs]

theorem execHalt_wf {s : State} (hs : memCanonical s.mem) (a : SReg) : ResWf (execHalt a s) := by simp [execHalt, hs]
theorem execQpops_wf {s : State} (hs : memCanonical s.mem) (d : SReg) (q : QReg) : ResWf (execQpops d q s) := by simp [execQpops, hs]

theorem execQpopv_wf {s : State} (hs : memCanonical s.mem) (v : BitVec 5) (q : QReg) (w : BitVec 1) : ResWf (execQpopv v q w s) := by
  exact popStream_wf hs fun bs z t => by simp

theorem execQpeek_wf {s : State} (hs : memCanonical s.mem) (d : SReg) (q : QReg) : ResWf (execQpeek d q s) := by simp [execQpeek, hs]

theorem execCtrwait_wf {s : State} (hs : memCanonical s.mem) (d a b : SReg) (sf : BitVec 3) (r : BitVec 2) :
    ResWf (execCtrwait d a b sf r s) := finishWait_wf hs (R.wf_bind (State.ctrRef_wf hs ..) fun _ t ht => by simp [ht])

theorem execQdrain_wf {s : State} (hs : memCanonical s.mem) (q : QReg) : ResWf (execQdrain q s) :=
  finishWait_wf hs (onStream_wf hs (drainStream_wf hs ..))

theorem execRstart_wf {s : State} (hs : memCanonical s.mem) (ring tick slack : Nat) (mail : Mail) :
    ResWf (execRstart ring tick slack mail s) := by
  unfold execRstart
  repeat' split
  all_goals simp +contextual [hs]

theorem execRslack_wf {s : State} (hs : memCanonical s.mem) (ring slack : Nat) (mail : Mail) : ResWf (execRslack ring slack mail s) := by
  refine ringCommand_wf hs fun t ht => ?_
  split at ht
  · cases ht
  · split at ht
    · cases ht
    · cases ht
      exact foldl_wf hs fun u d hu => by simp [hu]

theorem execRevoke_wf {s : State} (hs : memCanonical s.mem) (handle ctr : Nat) : ResWf (execRevoke handle ctr s) := by
  unfold execRevoke
  repeat' split
  all_goals simp [hs]

theorem execGroupclr_wf {s : State} (hs : memCanonical s.mem) (port part group : Nat) : ResWf (execGroupclr port part group s) := by
  unfold execGroupclr
  repeat' split
  all_goals simp [hs]

theorem execTzero_wf {s : State} (hs : memCanonical s.mem) (d : TReg) : ResWf (execTzero d s) := by simp [execTzero, hs]
theorem execTrel_wf {s : State} (hs : memCanonical s.mem) (d : TReg) : ResWf (execTrel d s) := by simp [execTrel, hs]

end Sys2Proof.Machine
end

section
/-! PROOFS. Memory in canonical form: the step, and O6. -/

namespace Sys2Proof.Machine

/-- Every instruction, device step and command keeps memory canonical. -/
theorem exec_wf {s : State} (hs : memCanonical s.mem) (i : Instr) : ResWf (exec i s) := by
  delta exec
  cases i
  case add | sub | and | or | xor | andn | sll | srl | sra | ror | slt | sltu | min | max | minu | maxu | mul | mulh | mulhu | div | divu
      | rem | remu | clz | ctz | popc | addi | andi | ori | xori | slli | srli | srai | slti | sltiu | lih | addpc | liw | addiw =>
    exact scalarResult_wf hs ..
  case beq | bne | blt | bge | bltu | bgeu =>
    exact branch_wf hs ..
  case ldb | ldh | ldw | ldd | ldbu | ldhu | ldwu =>
    exact scalarLoad_wf hs ..
  case stb | sth | stw | std =>
    exact scalarStore_wf hs ..
  case cmov | cinc | cinci | csetb | candp =>
    exact capResult_wf hs ..
  case cgetb | cgetl | cgetc | cgetp | cgett =>
    exact getter_wf hs ..
  case amoadd | amoand | amoor | amoxor | amomin | amomax | amominu | amomaxu | amoswp | amocas | amofadd | amofmin | amofmax | amobfadd2
      =>
    exact atomicReturn_wf hs ..
  case redadd | redand | redor | redxor | redmin | redmax | redminu | redmaxu | redfadd | redfmin | redfmax | redbfadd2 =>
    exact atomicReduce_wf hs ..
  case launch | spawn =>
    exact launchOp_wf hs ..
  case cpy | cpyt | cpyg | cpys | cpyc | cpyf | cpyb =>
    exact copyIssue_wf hs ..
  case tldrow | tld =>
    exact tileLoad_wf hs ..
  case tstrow | tst =>
    exact tileStore_wf hs ..
  case vfadd | vfsub | vfmul | vfma | vfms | vfnma | vfnms | vfmin | vfmax | vfminm | vfmaxm | vfabs | vfneg | vfsgnj | vfdiv | vfsqrt |
      vfrcp | vfrsq | vfexp2 | vflog2 | vftanh =>
    exact vectorFp_wf hs ..
  case vfceq | vfcne | vfclt | vfcle | vfcun =>
    exact vectorFcmp_wf hs ..
  case vceq | vcne | vclt | vcle | vcltu | vcleu =>
    exact vectorIcmp_wf hs ..
  case vadd | vsub | vadds | vsubs | vmul | vmulh | vmulhu | vmin | vmax | vminu | vmaxu | vabs | vand | vor | vxor | vandn | vnot | vsll
      | vsrl | vsra | vpopc | vclz =>
    exact vectorInt_wf hs ..
  case vcvt | vcvtsat =>
    exact vectorConvert_wf hs ..
  case vperm | vslideup | vslidedn | vziplo | vziphi | vrev =>
    exact vectorMove_wf hs ..
  case vrsum | vror =>
    exact vectorReduce_wf hs ..
  case vld | vlds | vgth | vldb =>
    exact vectorLoad_wf hs ..
  case vst | vsts | vsct =>
    exact vectorStore_wf hs ..
  case kand | kor | kxor | knot | kpop | kfirst | kset | kmov =>
    exact maskOp_wf hs (by simp [hs])
  case ctlwr | ctlset | ctlclr =>
    exact ctlWrite_wf hs ..
  case jal => exact execJal_wf hs ..
  case nop => exact execNop_wf hs ..
  case trap => exact execTrap_wf hs ..
  case brk => exact execBrk_wf hs ..
  case ifence => exact execIfence_wf hs ..
  case illegalInstruction => exact execIllegalInstruction_wf hs ..
  case pmarkWrite => exact execPmarkWrite_wf hs ..
  case efqResume => exact execEfqResume_wf hs ..
  case efqAbort => exact execEfqAbort_wf hs ..
  case seqclrStop => exact execSeqclrStop_wf hs ..
  case seqclrWait => exact execSeqclrWait_wf hs ..
  case storePerformAtHome => exact execStorePerformAtHome_wf hs ..
  case atomicPerformAtHome => exact execAtomicPerformAtHome_wf hs ..
  case freeze => exact execFreeze_wf hs ..
  case jalr => exact execJalr_wf hs ..
  case cldc => exact execCldc_wf hs ..
  case cstc => exact execCstc_wf hs ..
  case suspend => exact execSuspend_wf hs ..
  case self => exact execSelf_wf hs ..
  case qbind => exact execQbind_wf hs ..
  case qaddr => exact execQaddr_wf hs ..
  case qfmt => exact execQfmt_wf hs ..
  case mlease => exact execMlease_wf hs ..
  case mjob => exact execMjob_wf hs ..
  case mstat => exact execMstat_wf hs ..
  case merrrd => exact execMerrrd_wf hs ..
  case tcfg => exact execTcfg_wf hs ..
  case trowv => exact execTrowv_wf hs ..
  case tcolv => exact execTcolv_wf hs ..
  case tvrow => exact execTvrow_wf hs ..
  case tvcol => exact execTvcol_wf hs ..
  case ttrans => exact execTtrans_wf hs ..
  case tmma => exact execTmma_wf hs ..
  case trbind => exact execTrbind_wf hs ..
  case trnext => exact execTrnext_wf hs ..
  case tagdecl => exact execTagdecl_wf hs ..
  case coll => exact execColl_wf hs ..
  case tkcommit => exact execTkcommit_wf hs ..
  case tkput => exact execTkput_wf hs ..
  case wpset => exact execWpset_wf hs ..
  case seqst => exact execSeqst_wf hs ..
  case vqfp4 => exact execVqfp4_wf hs ..
  case vdqfp4 => exact execVdqfp4_wf hs ..
  case vqfp8 => exact execVqfp8_wf hs ..
  case vblksc => exact execVblksc_wf hs ..
  case vbndsc => exact execVbndsc_wf hs ..
  case vcompr => exact execVcompr_wf hs ..
  case vexpnd => exact execVexpnd_wf hs ..
  case vsel => exact execVsel_wf hs ..
  case vrmax => exact execVrmax_wf hs ..
  case vrmin => exact execVrmin_wf hs ..
  case vrmaxi => exact execVrmaxi_wf hs ..
  case vrmini => exact execVrmini_wf hs ..
  case vscans => exact execVscans_wf hs ..
  case vrand => exact execVrand_wf hs ..
  case vtopk => exact execVtopk_wf hs ..
  case vspc => exact execVspc_wf hs ..
  case vspx => exact execVspx_wf hs ..
  case vbpt => exact execVbpt_wf hs ..
  case vbpu => exact execVbpu_wf hs ..
  case vsctadd => exact execVsctadd_wf hs ..
  case vmvs => exact execVmvs_wf hs ..
  case vmve => exact execVmve_wf hs ..
  case vins => exact execVins_wf hs ..
  case vid => exact execVid_wf hs ..
  case vgumb => exact execVgumb_wf hs ..
  case vmov => exact execVmov_wf hs ..
  case wfi => exact execWfi_wf hs ..
  case ctxsv => exact execCtxsv_wf hs ..
  case ctxld => exact execCtxld_wf hs ..
  case trapEntry => exact execTrapEntry_wf hs ..
  case expansionCheck => exact execExpansionCheck_wf hs ..
  case slotRetire => exact execSlotRetire_wf hs ..
  case slackExpiry => exact execSlackExpiry_wf hs ..
  case bankSwap => exact execBankSwap_wf hs ..
  case queueEntryFetch => exact execQueueEntryFetch_wf hs ..
  case nodePreemption => exact execNodePreemption_wf hs ..
  case forcedEviction => exact execForcedEviction_wf hs ..
  case spareSubstitution => exact execSpareSubstitution_wf hs ..
  case barrierWatchdog => exact execBarrierWatchdog_wf hs ..
  case copyStart => exact execCopyStart_wf hs ..
  case copyComplete => exact execCopyComplete_wf hs ..
  case cpytRelease => exact execCpytRelease_wf hs ..
  case cpybSlotReserve => exact execCpybSlotReserve_wf hs ..
  case streamReadIssue => exact execStreamReadIssue_wf hs ..
  case streamElementArrival => exact execStreamElementArrival_wf hs ..
  case matrixLeaseGrant => exact execMatrixLeaseGrant_wf hs ..
  case remoteLoadReturn => exact execRemoteLoadReturn_wf hs ..
  case trbindDecision => exact execTrbindDecision_wf hs ..
  case collContribution => exact execCollContribution_wf hs ..
  case collDelivery => exact execCollDelivery_wf hs ..
  case spillScan => exact execSpillScan_wf hs ..
  case tokenFrameClose => exact execTokenFrameClose_wf hs ..
  case tsHeadWrite => exact execTsHeadWrite_wf hs ..
  case map => exact execMap_wf hs ..
  case unmap => exact execUnmap_wf hs ..
  case destroy => exact execDestroy_wf hs ..
  case migrate => exact execMigrate_wf hs ..
  case coreset => exact execCoreset_wf hs ..
  case movecont => exact execMovecont_wf hs ..
  case grant => exact execGrant_wf hs ..
  case chcreate => exact execChcreate_wf hs ..
  case chfree => exact execChfree_wf hs ..
  case rform => exact execRform_wf hs ..
  case rload => exact execRload_wf hs ..
  case rjoin => exact execRjoin_wf hs ..
  case groupset => exact execGroupset_wf hs ..
  case ownerset => exact execOwnerset_wf hs ..
  case tsring => exact execTsring_wf hs ..
  case powerStateEntry => exact execPowerStateEntry_wf hs ..
  case droopStretch => exact execDroopStretch_wf hs ..
  case attestationReport => exact execAttestationReport_wf hs ..
  case trwaitDeadline => exact execTrwaitDeadline_wf hs ..
  case firmwareContextRestart => exact execFirmwareContextRestart_wf hs ..
  case waitc => exact execWaitc_wf hs ..
  case syncq => exact execSyncq_wf hs ..
  case fence => exact execFence_wf hs ..
  case ctrsig => exact execCtrsig_wf hs ..
  case ctrrd => exact execCtrrd_wf hs ..
  case qstat => exact execQstat_wf hs ..
  case ctlrd => exact execCtlrd_wf hs ..
  case waitvis => exact execWaitvis_wf hs ..
  case node => exact execNode_wf hs ..
  case gsync => exact execGsync_wf hs ..
  case exit => exact execExit_wf hs ..
  case trwait => exact execTrwait_wf hs ..
  case segmentEmission => exact execSegmentEmission_wf hs ..
  case firstEmission => exact execFirstEmission_wf hs ..
  case segmentArrival => exact execSegmentArrival_wf hs ..
  case originReturnCheck => exact execOriginReturnCheck_wf hs ..
  case homeCopyRestore => exact execHomeCopyRestore_wf hs ..
  case prestartReport => exact execPrestartReport_wf hs ..
  case startRelease => exact execStartRelease_wf hs ..
  case kernelComplete => exact execKernelComplete_wf hs ..
  case launchKill => exact execLaunchKill_wf hs ..
  case suspendWaitComplete => exact execSuspendWaitComplete_wf hs ..
  case evictionRestore => exact execEvictionRestore_wf hs ..
  case gangReserveTimeout => exact execGangReserveTimeout_wf hs ..
  case matrixJobStart => exact execMatrixJobStart_wf hs ..
  case matrixJobComplete => exact execMatrixJobComplete_wf hs ..
  case doorbell => exact execDoorbell_wf hs ..
  case pload => exact execPload_wf hs ..
  case migrateComplete => exact execMigrateComplete_wf hs ..
  case almset => exact execAlmset_wf hs ..
  case rstop => exact execRstop_wf hs ..
  case rstopComplete => exact execRstopComplete_wf hs ..
  case ringLinkDead => exact execRingLinkDead_wf hs ..
  case missingSegmentReload => exact execMissingSegmentReload_wf hs ..
  case bypassLaneRequest => exact execBypassLaneRequest_wf hs ..
  case heartbeat => exact execHeartbeat_wf hs ..
  case fabricLinkDead => exact execFabricLinkDead_wf hs ..
  case powerStateExit => exact execPowerStateExit_wf hs ..
  case taskKill => exact execTaskKill_wf hs ..
  case wfiDeadline => exact execWfiDeadline_wf hs ..
  case cheadWrite => exact execCheadWrite_wf hs ..
  case ctrwait => exact execCtrwait_wf hs ..
  case qdrain => exact execQdrain_wf hs ..
  case barinit => exact execBarinit_wf hs ..
  case bararv => exact execBararv_wf hs ..
  case barxb => exact execBarxb_wf hs ..
  case bartest => exact execBartest_wf hs ..
  case chpush => exact execChpush_wf hs ..
  case chrel => exact execChrel_wf hs ..
  case chstat => exact execChstat_wf hs ..
  case awaitch => exact execAwaitch_wf hs ..
  case gjoin => exact execGjoin_wf hs ..
  case gleave => exact execGleave_wf hs ..
  case yield => exact execYield_wf hs ..
  case hintnext => exact execHintnext_wf hs ..
  case mfree => exact execMfree_wf hs ..
  case mdrain => exact execMdrain_wf hs ..
  case trinfo => exact execTrinfo_wf hs ..
  case trdone => exact execTrdone_wf hs ..
  case trhold => exact execTrhold_wf hs ..
  case trskip => exact execTrskip_wf hs ..
  case trqry => exact execTrqry_wf hs ..
  case tagpub => exact execTagpub_wf hs ..
  case tagqry => exact execTagqry_wf hs ..
  case tagret => exact execTagret_wf hs ..
  case wpclr => exact execWpclr_wf hs ..
  case wprd => exact execWprd_wf hs ..
  case barwait => exact execBarwait_wf hs ..
  case chrsv => exact execChrsv_wf hs ..
  case chawait => exact execChawait_wf hs ..
  case tagwait => exact execTagwait_wf hs ..
  case qpops => exact execQpops_wf hs ..
  case qpopv => exact execQpopv_wf hs ..
  case qpeek => exact execQpeek_wf hs ..
  case tzero => exact execTzero_wf hs ..
  case trel => exact execTrel_wf hs ..
  case vsett => exact execVsett_wf hs ..
  case vrng => exact execVrng_wf hs ..
  case vflgrd => exact execVflgrd_wf hs ..
  case vflgclr => exact execVflgclr_wf hs ..
  case eret => exact execEret_wf hs ..
  case tlbinv => exact execTlbinv_wf hs ..
  case quardr => exact execQuardr_wf hs ..
  case halt => exact execHalt_wf hs ..
  case taskPlacement => exact execTaskPlacement_wf hs ..
  case coreError => exact execCoreError_wf hs ..
  case timeFlitSend => exact execTimeFlitSend_wf hs ..
  case timeFlitReceive => exact execTimeFlitReceive_wf hs ..
  case eclipseNotice => exact execEclipseNotice_wf hs ..
  case routeRedraw => exact execRouteRedraw_wf hs ..
  case fabricRequest => exact execFabricRequest_wf hs ..
  case fabricResponse => exact execFabricResponse_wf hs ..
  case readRoutingEntry => exact execReadRoutingEntry_wf hs ..
  case pcieLinkDown => exact execPcieLinkDown_wf hs ..
  case patrolScrub => exact execPatrolScrub_wf hs ..
  case powerRequest => exact execPowerRequest_wf hs ..
  case freezeReadout => exact execFreezeReadout_wf hs ..
  case reset => exact execReset_wf hs ..
  case fabricAdmission => exact execFabricAdmission_wf hs ..
  case pcieLinkUp => exact execPcieLinkUp_wf hs ..
  case linkLevelReplay => exact execLinkLevelReplay_wf hs ..
  case revoke => exact execRevoke_wf hs ..
  case rstart => exact execRstart_wf hs ..
  case rslack => exact execRslack_wf hs ..
  case groupclr => exact execGroupclr_wf hs ..


/-! ### The step -/

theorem elapsed_wf {r : Res} (hr : ResWf r) : ResWf (elapsed r) := by
  cases r with
  | next t => exact hr
  | fault f => trivial
  | refused f => trivial

theorem afterIssue_wf {r : Res} (hr : ResWf r) (c : CtxId) (pc : Word) (len : Nat) (vector : Bool) (i : Instr) :
    ResWf (afterIssue c pc len vector i r) := by
  cases r with
  | next t => simpa [afterIssue] using hr
  | fault f => trivial
  | refused f => trivial

theorem State.issueFrom_wf {s : State} (hs : memCanonical s.mem) (c : CtxId) : ResWf (s.issueFrom c) := by
  have ready : memCanonical (s.switchTo c).performCode.mem := by simp [hs]
  have fetched := State.fetch_wf ready
  unfold State.issueFrom
  dsimp only
  split
  next heq => exact elapsed_wf (by simp [fetched.of_trap heq])
  next => exact elapsed_wf (by simp [ready])
  next heq =>
    have ht := fetched.of_ok heq
    split
    · exact afterIssue_wf (exec_wf (State.performTouched_wf ht _) _) ..
    · exact afterIssue_wf (exec_wf ht _) ..

theorem State.lookAgain_wf {s : State} (hs : memCanonical s.mem) (c : CtxId) : ResWf (s.lookAgain c) := by
  have there : memCanonical (s.switchTo c).mem := by simp [hs]
  unfold State.lookAgain
  dsimp only
  split
  · exact elapsed_wf (State.refetch_wf there)
  · exact elapsed_wf (exec_wf there _)
  · exact elapsed_wf (State.reapRevoked_wf (State.trySuspend_wf there _))
  · exact elapsed_wf (State.reapRevoked_wf (State.trySuspend_wf there _))
  · refine elapsed_wf ((resWf_next _).mpr ?_)
    rwa [State.tryWait_mem]

theorem State.take_wf {s : State} (hs : memCanonical s.mem) (i : Input) : ResWf (s.take i) := by
  unfold State.take
  split
  · split
    · exact elapsed_wf (exec_wf hs _)
    · exact elapsed_wf hs
  · split
    · exact State.issueFrom_wf hs _
    · split
      · exact State.lookAgain_wf hs _
      · exact elapsed_wf hs
  · exact elapsed_wf (State.input_wf hs _)

theorem State.deviceOr_wf {s : State} (hs : memCanonical s.mem) {other : Res} (h : ResWf other) : ResWf (s.deviceOr other) := by
  unfold State.deviceOr
  split
  · exact State.take_wf hs _
  · exact h

theorem State.proceed_wf {s : State} (hs : memCanonical s.mem) : ResWf s.proceed := by
  unfold State.proceed
  split
  · trivial
  split
  · exact elapsed_wf (exec_wf hs _)
  split
  · split
    · exact elapsed_wf (exec_wf hs _)
    · trivial
  split
  · exact elapsed_wf (exec_wf hs _)
  split
  · exact elapsed_wf (exec_wf hs _)
  split
  · exact State.deviceOr_wf hs (elapsed_wf hs)
  · split
    · exact State.deviceOr_wf hs (State.issueFrom_wf hs _)
    · exact State.issueFrom_wf hs _

/-- Every step keeps memory canonical, whatever it runs. -/
theorem step_wf {s : State} (hs : memCanonical s.mem) : ResWf (step s) := by
  unfold step
  split
  · exact State.proceed_wf hs
  · exact State.take_wf (by exact hs) _

/-- Settles O6, by the invariant of each operation: memory is written only through `memSetAll` and `filter`, which keep the canonical
form. -/
theorem stepKeepsMemoryCanonical : Obligations.StepKeepsMemoryCanonical := by
  unfold Obligations.StepKeepsMemoryCanonical
  intro s t hs ht
  have next := step_wf hs
  rw [ht] at next
  exact next

end Sys2Proof.Machine
end

section
/-! PROOFS. Reductions, the instructions of order, and counters: what joins the store queue, and what a wait finds (R119, R249,
R255–R263). -/

namespace Sys2Proof.Machine

/-! ### Reductions (R249, R252–R254) -/

/-- A reduction is the one of its row of the table (R249). -/
theorem exec_redOf {i : Instr} {c : CReg} {b : SReg} {sc : BitVec 3} {r : BitVec 2} {w : Bool} {op : Nat}
    (h : Claims.redOf i = some (c, b, sc, r, w, op)) (s : State) : exec i s = atomicReduce c b sc r w op s := by
  unfold Claims.redOf at h
  split at h
  all_goals cases h
  all_goals rfl

/-- The operand of an atomic is the low bytes of its register, as many as it is wide (R249). -/
theorem atomicOperand_eq_lowBytes (wide : Bool) (v : Word) : atomicOperand wide v = Claims.lowBytes (widthBytes wide) v := by
  cases wide
  · rfl
  · exact (Nat.mod_eq_of_lt v.isLt).symm

/-- What stands in its store queue is no part of what a context acts as. -/
theorem who_enqueue (s : State) (p : Pending) : (s.enqueue p).who = s.who := by
  have task (c : CtxId) : ((s.enqueue p).hartAt c).task = (s.hartAt c).task := by
    unfold State.hartAt
    split <;> simp_all [State.enqueue]
  simp only [State.who, task]
  rfl

/-- What a reduction puts into the store queue is named by the state before its fence. -/
theorem enqueueAtomic_fenceIf (s : State) (sc : BitVec 3) (r : BitVec 2) (k op : Nat) (w : Bool) (v : Word) (space : Nat) (a : Word) :
    (s.fenceIf sc r).enqueueAtomic k op w false v space a = (s.fenceIf sc r).enqueue
      (.atomic s.hart.issued s.here.key s.hart.task.stay k op w false v space s.who.xpart s.hart.task.launch a) := by
  unfold State.fenceIf
  split
  · rw [State.enqueueAtomic, State.enqueueAct, who_enqueue]
    rfl
  · rfl

/-- Settles O25: past its check a reduction puts its fence and itself into the store queue. -/
theorem reductionsEnterTheStoreQueue : Obligations.ReductionsEnterTheStoreQueue := by
  rintro i c b sc r w op hi s k n rfl ha
  have checked : s.access s.who (s.rc c) ((s.rc c).cursor : Int) (widthBytes w) (widthBytes w) .atomic = .ok k s := ha
  rw [exec_redOf hi, atomicReduce]
  simp only [atomicOperand_eq_lowBytes, enqueueAtomic_fenceIf, tv, BitVec.ofInt_natCast]
  change finish 4 s ((s.access s.who (s.rc c) ((s.rc c).cursor : Int) (widthBytes w) (widthBytes w) .atomic).bind _) = _
  rw [checked]
  rfl

/-! ### The instructions of order (R120, R128, R255, R257, R258) -/

theorem withinLimit_iff (count : Nat) (limit : BitVec 5) : withinLimit count limit = true ↔ limit = 31 ∨ count ≤ limit.toNat := by
  simp [withinLimit]

/-- WAITC goes on with every count within its limit, and waits otherwise (R255). -/
theorem execWaitc_eq (l sf c t : BitVec 5) (s : State) : execWaitc l sf c t s =
    if (l = 31 ∨ s.outLoads s.here ≤ l.toNat) ∧ (sf = 31 ∨ s.outStores s.here ≤ sf.toNat) ∧ (c = 31 ∨ s.outCopies s.here ≤ c.toNat) ∧
      (t = 31 ∨ s.outTiles s.here ≤ t.toNat) then .next (s.advance 4) else .next s.block := by
  simp only [execWaitc, Bool.and_eq_true, withinLimit_iff, and_assoc]
  split <;> rfl

/-- WAITVIS of a task releases if its order is ar, and waits while the launch it names lives (R257, R260). -/
theorem execWaitvis_task {s : State} (hf : s.isFw = false) (a : SReg) (r : BitVec 2) {u : State}
    (hu : u = if r = 3 then s.release 2 else s) : execWaitvis a r s =
    if (if a = 0 then u.priorLive u.hart.task else u.launchLive u.part ((u.rs a).toNat % 2 ^ 32)) then .next u.block
    else .next (u.advance 4) := by
  subst hu
  simp only [execWaitvis, taskOnly_task hf, State.releaseAr]

/-- NODE of a task waits for the pre-emption that takes it, and is a NOP without one (R258). -/
theorem execNode_task {s : State} (hf : s.isFw = false) : execNode s =
    if s.nodeTakes s.here then .next (s.modTask fun t => { t with atNode := true }).block else .next (s.advance 4) := by
  simp only [execNode, taskOnly_task hf]

/-- Settles O32: each instruction by its own equation, in the order of the statement. -/
theorem orderInstructionsComplete : Obligations.OrderInstructionsComplete := by
  refine ⟨fun s l sf c t => ⟨fun h => ?_, fun h => ?_⟩, fun s => rfl, fun s sc => ⟨rfl, rfl, rfl, rfl⟩, ?_,
    fun s hf => ⟨fun h => ?_, fun h => ?_⟩⟩
  · exact (execWaitc_eq l sf c t s).trans (if_pos h)
  · exact (execWaitc_eq l sf c t s).trans (if_neg h)
  · intro s u a r hf hu
    have waitvis : exec (.waitvis a r) s = _ := execWaitvis_task hf a r hu
    refine ⟨fun ha h => ?_, fun ha h => ?_, fun ha h => ?_, fun ha h => ?_⟩
    · rw [waitvis, if_pos ha, if_neg (ne_true_of_eq_false h)]
    · rw [waitvis, if_pos ha, if_pos h]
    · rw [waitvis, if_neg ha, if_neg (ne_true_of_eq_false h)]
    · rw [waitvis, if_neg ha, if_pos h]
  · exact (execNode_task hf).trans (if_neg (ne_true_of_eq_false h))
  · exact (execNode_task hf).trans (if_pos h)

/-! ### Counters (R260, R262, R263) -/

/-- The issuing context may use the counter that a reference names (R262). -/
def State.mayUse (s : State) (r : Word) : Prop := r.toNat < 2 ^ 11 ∧ (s.isFw = true ∨ s.allocated s.part r.toNat = true)

theorem ctrRef_usable {s : State} {r : Word} (h : s.mayUse r) : s.ctrRef r = .ok (ctrKey r.toNat) s := by
  obtain ⟨small, mine⟩ := h
  have upper : r.toNat / 2 ^ 11 = 0 := Nat.div_eq_of_lt small
  exact if_pos (by rw [upper]; simpa using mine)

/-- Any other reference traps, the uncorrectable words of the bitmap that was looked at in the log (R112, R262). -/
theorem ctrRef_unusable {s : State} {r : Word} (h : ¬ s.mayUse r) : s.ctrRef r =
    .trap .accessDenied r (if s.isFw = true ∨ 2 ^ 11 ≤ r.toNat then s else s.noteAllocated s.part r.toNat) := by
  have upper : r.toNat / 2 ^ 11 = 0 ↔ r.toNat < 2 ^ 11 := by omega
  have refused : ¬ (decide (r.toNat / 2 ^ 11 = 0) && (s.isFw || s.allocated s.part r.toNat)) = true := by
    simpa [State.mayUse, upper] using h
  refine (if_neg refused).trans (congrArg _ (if_congr ?_ rfl rfl))
  simp

section
variable (s : State) (d : SReg) (k : Nat) (thr ref : Word)

/-- The wait of a CTRWAIT whose counter is poisoned ends in the trap (R263). -/
theorem tryWait_counter_poisoned (hp : ctrPoison (s.counter k) = true) : (s.blockOn (.counter d k thr ref)).tryWait s.here =
    (s.blockOn (.counter d k thr ref)).trapAt s.here .engineError ref 4 := by
  simp only [State.tryWait, State.blockOn_hartAt, State.blockOn_hart]
  exact if_pos hp

/-- Below its threshold it waits (R263). -/
theorem tryWait_counter_below (hp : ctrPoison (s.counter k) = false) (hv : ctrValue (s.counter k) < thr.toNat) :
    (s.blockOn (.counter d k thr ref)).tryWait s.here = s.blockOn (.counter d k thr ref) := by
  simp only [State.tryWait, State.blockOn_hartAt, State.blockOn_hart]
  exact (if_neg (ne_true_of_eq_false hp)).trans (if_neg (Nat.not_le.2 hv))

/-- Having reached its threshold it writes the counter and goes on (R263). -/
theorem tryWait_counter_reached (hp : ctrPoison (s.counter k) = false) (hv : thr.toNat ≤ ctrValue (s.counter k)) :
    (s.blockOn (.counter d k thr ref)).tryWait s.here = (s.blockOn (.counter d k thr ref)).complete s.here d (s.counter k) := by
  simp only [State.tryWait, State.blockOn_hartAt, State.blockOn_hart]
  exact (if_neg (ne_true_of_eq_false hp)).trans (if_pos hv)

end

/-- The end of the issuing context's own wait is a scalar result and the PC past the instruction. -/
theorem complete_here (s : State) (d : SReg) (v : Word) : s.complete s.here d v = (s.ws d v).advance 4 := by
  simp only [State.complete, State.modHart_self]
  unfold State.ws
  split <;> simp [State.advance, State.mod, Hart.goOn, *]

/-- A context that blocks on a wait and gets its scalar result is as one that never waited, but for its wait. -/
theorem frame_blockOn_complete (s : State) (w : Wait) (d : SReg) (v : Word) (t : State) (ht : t = (s.blockOn w).complete s.here d v) :
    t.hart.pc = s.hart.pc + 4 ∧ t.hart.status = .ready ∧ t.hart.task.wait = none ∧ (d ≠ 0 → t.rs d = v) ∧
      OnlyHere s t ∧ SameScalarsBut d s t ∧ SameCaps s t ∧ SameVectors s t ∧ SameMasks s t ∧ SameTiles s t ∧ SameMemory s t := by
  replace ht : t = ((s.blockOn w).ws d v).advance 4 := ht.trans (complete_here (s.blockOn w) d v)
  obtain ⟨here, hs, hc, hv, hm, htl, hmem, hpc⟩ := frame_ws_advance (s.blockOn w) d v 4 t ht
  refine ⟨hpc, ht ▸ rfl, ht ▸ rfl, fun hd => ?_, here, hs, hc, hv, hm, htl, hmem⟩
  subst ht
  exact (State.rs_ws (s.blockOn w) d d v).trans (if_pos ⟨rfl, hd⟩)

/-- Settles O33: each instruction by what its reference comes to, CTRWAIT by the wait that it starts. -/
theorem counterInstructionsComplete : Obligations.CounterInstructionsComplete := by
  intro s d a b sc r
  refine ⟨fun small mine k hk => ?_, fun h u hu => ?_⟩
  · subst hk
    have usable := ctrRef_usable ⟨small, mine⟩
    refine ⟨?_, fun c n => rfl, ?_, ?_⟩
    · rintro u rfl
      simp only [exec, execCtrsig, usable, R.bind_ok, finish_ok, State.acquireAr]
      rfl
    · simp only [exec, execCtrrd, usable, R.bind_ok, finish_ok]
    · rintro u hu v rfl
      have starts : exec (.ctrwait d a b sc r) s =
          .next ((u.blockOn (.counter d (ctrKey (s.rs a).toNat) (s.rs b) (s.rs a))).tryWait u.here) := by
        simp only [exec, execCtrwait, usable, R.bind_ok, finishWait_ok, State.releaseAr, hu]
      rw [starts]
      refine ⟨fun hp hv => ⟨_, rfl, ?_⟩, fun hp hv => ?_, fun hp => ?_⟩
      · exact frame_blockOn_complete u _ d _ _ (tryWait_counter_reached u d _ _ _ hp hv)
      · exact congrArg _ (tryWait_counter_below u d _ _ _ hp hv)
      · exact congrArg _ (tryWait_counter_poisoned u d _ _ _ hp)
  · subst hu
    have refused := ctrRef_unusable h
    simp only [exec, execCtrsig, execCtrrd, execCtrwait, refused, R.bind_trap, finish_trap, finishWait_trap, and_self]

end Sys2Proof.Machine
end

section
/-! PROOFS. Copies: what a copy whose card passes puts into its engine's queue, and what its acceptance marks (R121, R278, R282,
R284, R288). -/

namespace Sys2Proof.Machine

/-! ### Issue (R282, R288) -/

/-- A copy instruction issues the copy of its row of the table (R282). -/
theorem exec_copyOf {i : Instr} {s : State} {kind : Nat} {dst src : Cap} {pattern handle : Word} {b : SReg}
    (h : Claims.copyOf s i = some (kind, dst, src, pattern, handle, b)) :
    exec i s = copyIssue (tvalWord i) kind dst src pattern handle b s := by
  unfold Claims.copyOf at h
  split at h
  all_goals cases h
  all_goals rfl

/-! The conditions of the issue, in the words of the claims. -/

theorem copyRows_eq (kind : Nat) (card : List Byte) (idx : List Nat) (listed : Bool) :
    (if (decide (kind = kCpyg) || decide (kind = kCpys)) = true then
      some ((inIndices card idx).map fun p => if listed = true then p.1 else p.2) else none) = Claims.copyRows kind card idx listed := by
  simp only [Claims.copyRows, Bool.or_eq_true, decide_eq_true_eq]
  rfl

/-- A side needs no check for the kind of copy that lacks it, or without elements in bounds (R288). -/
theorem sideless_iff (kind k : Nat) (card : List Byte) (idx : List Nat) :
    (decide (kind = k) || !(!(decide (kind = kCpyg) || decide (kind = kCpys)) || decide (inIndices card idx ≠ []))) = true ↔
      kind = k ∨ ((kind = 2 ∨ kind = 3) ∧ inIndices card idx = []) := by
  simp only [Bool.or_eq_true, Bool.not_eq_true', Bool.or_eq_false_iff, Bool.not_eq_false', decide_eq_true_eq, decide_eq_false_iff_not,
    ne_eq, not_not]
  rfl

theorem packs_iff (kind : Nat) (card : List Byte) : (decide (kind = kCpyc) && (wQ4 (cDfmt card) || wBp (cDfmt card))) = true ↔
    kind = 4 ∧ (wQ4 (cDfmt card) = true ∨ wBp (cDfmt card) = true) := by
  simp only [Bool.and_eq_true, Bool.or_eq_true, decide_eq_true_eq]
  rfl

theorem full_iff (s : State) (kind eng : Nat) : (decide (16 ≤ (s.copyCtx s.here eng).waiting.length) ||
      decide (kind = kCpyt) && decide (64 ≤ (s.timed s.here.die s.here.core eng).length)) = true ↔
    Claims.copyRoom s kind eng = false := by
  simp only [Claims.copyRoom, Bool.or_eq_true, Bool.and_eq_true, Bool.and_eq_false_iff, Bool.or_eq_false_iff, decide_eq_true_eq,
    decide_eq_false_iff_not, ne_eq, not_not, Nat.not_lt]
  rfl

/-- An instruction goes on after a check that is left out or passes. -/
theorem bind_check {p : Prop} [Decidable p] {r : R Unit} {s : State} (h : p ∨ r = .ok () s) (f : Unit → State → R Unit) :
    (if p then R.ok () s else r).bind f = f () s := by
  rcases h with h | h
  · rw [if_pos h, R.bind_ok]
  · rw [h, ite_self, R.bind_ok]

/-- The command that the issuing task gives its engine, not yet accepted (R278, R284). -/
def State.copyCommand (s : State) (kind : Nat) (dst src : Cap) (pattern handle : Word) (b : SReg) (card : List Byte) (idx : List Nat)
    (wait sig : Option Nat) : CopyCmd :=
  { kind := kind, seq := (s.copyCtx s.here (cEng card)).next, card := card, cardOff := (s.rs b).toNat, idx := idx, src := src, dst := dst
    pattern := pattern, chan := handle.toNat, region := s.hart.task.region, part := s.hart.task.part, task := s.hart.task.ident
    stay := s.hart.task.stay, taken := false, wait := wait.map fun k => (k, field card 46 4)
    signal := sig.map fun k => ⟨k, field card 52 4⟩, tick := field card 56 4, late := false
    meridian := if kind ≠ kCpyf && src.space = 7 then some (s.snap s.here.die (src.cursor / 2 ^ 24 % 8)) else none
    state := .queued, done := 0, extra := [], got := [], bytes := 0, flags := 0, issue := 0, piece := none, accepted := s.steps }

/-- A command joins its engine's queue last, and its acceptance the store queue (R121, R278). -/
def State.queueCopy (s : State) (eng : Nat) (m : CopyCmd) : State :=
  (s.modCopy s.here eng fun x => { cmds := x.cmds ++ [m], next := x.next + 1 }).enqueue
    (.act s.hart.issued s.here.key 0 (.copy eng m.seq))

/-- A copy past every check of R288 waits without room, and else queues its command. -/
theorem copyIssue_checked {s u : State} {word : Word} {kind : Nat} {dst src : Cap} {pattern handle : Word} {b : SReg} {card : List Byte}
    {idx : List Nat} {wait sig : Option Nat} {ch : Option Channel} (hf : s.isFw = false)
    (hread : s.readCard (s.rs b).toNat (kind == 2 || kind == 3) = .ok (card, idx) u) (hfields : firstBad (cardFields kind card) = none)
    (hwait : cardCounter (cFlag card 8) (field card 44 2) u = .ok wait u)
    (hsig : cardCounter (cFlag card 9) (field card 50 2) u = .ok sig u) (hbar : cardBarrier card u = .ok () u)
    (hchan : copyChannel word kind handle card u = .ok ch u) (hsrc : Claims.sourceOk kind card idx ch src u)
    (hdst : Claims.targetOk kind card idx ch dst u) :
    copyIssue word kind dst src pattern handle b s =
      if Claims.copyRoom u kind (cEng card) = true then
        let v := u.queueCopy (cEng card) (u.copyCommand kind dst src pattern handle b card idx wait sig)
        .next ((if kind = 6 then v.effect else v.storeEffect dst.space).advance 4)
      else .next s.block := by
  have cardRead : s.readCard (s.rs b).toNat (decide (kind = kCpyg) || decide (kind = kCpys)) = .ok (card, idx) u := hread
  have target := hdst.imp_right (Or.imp_right (apply_ite (· = R.ok () u) _ _ _).mpr)
  simp only [copyIssue, taskOnly_task hf, cardRead, R.bind_ok, checkFields, hfields, hwait, hsig, hbar, hchan, copyRows_eq, sideless_iff,
    packs_iff, full_iff]
  refine (congrArg (finish 4 s) ((bind_check (or_assoc.2 hsrc) _).trans (bind_check (or_assoc.2 target) _))).trans ?_
  cases Claims.copyRoom u kind (cEng card) <;> rfl

/-! ### Acceptance (R121) -/

theorem State.copyCtx_modCopy (s : State) (c : CtxId) (eng : Nat) (f : CopyCtx → CopyCtx) :
    (s.modCopy c eng f).copyCtx c eng = f (s.copyCtx c eng) := by
  simp [State.copyCtx, State.modCopy]

/-- The acceptance of a sequence number marks every command that has it (R121). -/
theorem taken_of_accept (s : State) (c : CtxId) (eng seq : Nat) (m : CopyCmd)
    (hm : m ∈ ((s.accept c (.copy eng seq)).copyCtx c eng).cmds) (hs : m.seq = seq) : m.taken = true := by
  simp only [State.accept, State.copyCtx_modCopy, List.mem_map] at hm
  obtain ⟨x, -, rfl⟩ := hm
  split at hs
  · next h => rw [if_pos h]; rfl
  · next h => exact absurd hs h

/-- Settles O41: past the checks of R288 a copy queues its command, or waits for room; the acceptance marks it. -/
theorem copiesAreAccepted : Obligations.CopiesAreAccepted := by
  refine ⟨?_, taken_of_accept⟩
  intro i s kind dst src pattern handle b hf hi u card idx wait sig ch hread hfields hwait hsig hbar hchan hsrc hdst
  rw [exec_copyOf hi, copyIssue_checked hf hread hfields hwait hsig hbar hchan hsrc hdst]
  refine ⟨fun room => ?_, fun full => if_neg (ne_true_of_eq_false full)⟩
  refine ⟨u.copyCommand kind dst src pattern handle b card idx wait sig, fun v hv => ⟨?_, rfl, rfl, rfl, rfl, rfl, rfl, rfl, rfl, rfl, rfl,
    rfl, rfl, rfl, rfl⟩⟩
  rw [if_pos room, hv]
  rfl

end Sys2Proof.Machine
end

section
/-! PROOFS. The matrix array: leases, their grant, jobs that are issued, their status and the error log (R238, R239, R241–R245, R248). -/

namespace Sys2Proof.Machine

/-! ### Arrays and lease contexts -/

@[simp] theorem State.arrayAt_modArray (s : State) (die cl : Nat) (f : Array_ → Array_) :
    (s.modArray die cl f).arrayAt die cl = f (s.arrayAt die cl) := by
  simp [State.arrayAt, State.modArray]

@[simp] theorem State.arrayAt_modLease (s : State) (d k die cl : Nat) (f : LeaseCtx → LeaseCtx) :
    (s.modLease d k f).arrayAt die cl = s.arrayAt die cl := rfl

@[simp] theorem State.arrayAt_modHart (s : State) (c : CtxId) (f : Hart → Hart) (die cl : Nat) :
    (s.modHart c f).arrayAt die cl = s.arrayAt die cl := by
  simp [State.arrayAt]

/-! ### MLEASE, MFREE and MDRAIN (R241, R242, R245) -/

/-- A request that MLEASE refuses: a bad run length, reserved bits, or a task with a lease or a request (R241). -/
def State.leaseRefused (s : State) (req : Nat) : Prop :=
  (s.leaseOf s.here).isSome = true ∨ (s.leaseWaits s.here).isSome = true ∨ req % 2 ^ 7 = 0 ∨ 64 < req % 2 ^ 7 ∨ 2 ^ 9 ≤ req ∨
    bitOf req 7 = true

/-- A request joins its array's (R241). -/
def State.askLease (s : State) (req : Nat) : State :=
  s.modArray s.here.die (s.here.core / 4) fun q =>
    { q with reqs := q.reqs ++ [⟨s.here.core, s.here.slot, req % 2 ^ 7, bitOf req 8, s.hart.task.transit.isSome, none⟩] }

theorem leaseRefused_iff (s : State) (req : Nat) : (decide (req % 2 ^ 7 = 0) || decide (req % 2 ^ 7 > 64) || decide (req / 2 ^ 9 ≠ 0) ||
    bitOf req 7 || (s.leaseOf s.here).isSome || (s.leaseWaits s.here).isSome) = true ↔ s.leaseRefused req := by
  have reserved : req / 2 ^ 9 ≠ 0 ↔ 2 ^ 9 ≤ req := by omega
  simp only [State.leaseRefused, Bool.or_eq_true, decide_eq_true_eq, reserved, gt_iff_lt]
  tauto

/-- Only its array's grant ends the wait of an MLEASE (R241). -/
theorem tryWait_lease (s : State) (d : SReg) : (s.blockOn (.lease d)).tryWait s.here = s.blockOn (.lease d) := by
  simp only [State.tryWait, State.blockOn_hartAt, State.blockOn_hart]

section
variable {s : State} (hf : s.isFw = false)
include hf

theorem execMlease_refused {d a : SReg} (h : s.leaseRefused (s.rs a).toNat) :
    execMlease d a s = .next (s.takeTrap .leaseViolation (s.rs a) 4) := by
  simp only [execMlease, taskOnly_task hf]
  rw [if_pos ((leaseRefused_iff s _).2 h), finishWait_trap]

/-- A good request joins its array's, and the task waits for the grant (R241). -/
theorem execMlease_asks {d a : SReg} (h : ¬ s.leaseRefused (s.rs a).toNat) :
    execMlease d a s = .next ((s.askLease (s.rs a).toNat).blockOn (.lease d)) := by
  simp only [execMlease, taskOnly_task hf]
  rw [if_neg (mt (leaseRefused_iff s _).1 h), finishWait_ok, tryWait_lease]
  rfl

theorem execMfree_eq : execMfree s = if s.jobsOf s.here = [] then .next ((s.endLease s.here).advance 4) else .next s.block := by
  simp only [execMfree, taskOnly_task hf]
  split <;> rfl

theorem execMdrain_eq : execMdrain s = if s.jobsOf s.here = [] then .next (s.advance 4) else .next s.block := by
  simp only [execMdrain, taskOnly_task hf]
  split <;> rfl

end

/-! ### The grant (R239, R241) -/

/-- The lease that a grant of a request gives (R238, R241, R246). -/
def State.leaseFor (s : State) (die : Nat) (r : LeaseReq) : Lease :=
  { core := r.core, slot := r.slot, task := (s.hartAt ⟨die, r.core, r.slot⟩).task.ident
    kept := r.keep && (s.leaseCtx die r.core).owner = some (s.hartAt ⟨die, r.core, r.slot⟩).task.ident
    toIssue := r.run - (match r.restore with
      | some c => (c.jobs.filter Job.pending).length
      | none => 0)
    toRun := r.run }

/-- The state in which a free array has granted a request, before the MLEASE that waits for it goes on. -/
def State.granted (s : State) (die cl : Nat) (r : LeaseReq) : State :=
  (s.modArray die cl fun a =>
    { a with
      lease := some (s.leaseFor die r)
      reqs := a.reqs.filter fun q => q ≠ r
      lastTransit := if r.transit then r.core % 4 else a.lastTransit
      lastOrdinary := if r.transit then a.lastOrdinary else r.core % 4 }).modLease die r.core fun c =>
    match r.restore with
    | some b =>
      { c with acc := b.acc, owner := some (s.leaseFor die r).task, jobs := c.jobs ++ b.jobs, next := Nat.max c.next b.next }
    | none => { c with acc := if (s.leaseFor die r).kept then c.acc else [], owner := some (s.leaseFor die r).task }

/-- The word that MLEASE gets: jobs, core and whether the blocks were kept (R241). -/
def leaseWord (r : LeaseReq) (l : Lease) : Word := BitVec.ofNat 64 (r.run + r.core % 4 * 2 ^ 8 + if l.kept then 2 ^ 16 else 0)

theorem arrayAt_granted (s : State) (die cl : Nat) (r : LeaseReq) : ((s.granted die cl r).arrayAt die cl).lease = some (s.leaseFor die r) ∧
    ((s.granted die cl r).arrayAt die cl).reqs = (s.arrayAt die cl).reqs.filter fun q => q ≠ r := by
  simp [State.granted]

/-- A free array grants the request that is next, and the MLEASE that waits for it goes on with its word (R239, R241). -/
theorem execMatrixLeaseGrant_grants {s : State} {die cl : Nat} {r : LeaseReq} (hfree : (s.arrayAt die cl).lease = none)
    (hnext : (s.arrayAt die cl).next = some r) (hrun : s.coreRuns ⟨die, r.core, r.slot⟩ = true) :
    execMatrixLeaseGrant die cl s = match r.restore, (s.hartAt ⟨die, r.core, r.slot⟩).task.wait with
      | none, some (.lease d) => .next ((s.granted die cl r).complete ⟨die, r.core, r.slot⟩ d (leaseWord r (s.leaseFor die r)))
      | _, _ => .next (s.granted die cl r) := by
  simp only [execMatrixLeaseGrant, hfree, hnext, hrun, Bool.not_true, Bool.false_eq_true, if_false]
  rfl

/-- A grant leaves the array with the lease, and the request gone (R239). -/
theorem execMatrixLeaseGrant_array {s : State} {die cl : Nat} {r : LeaseReq} (hfree : (s.arrayAt die cl).lease = none)
    (hnext : (s.arrayAt die cl).next = some r) (hrun : s.coreRuns ⟨die, r.core, r.slot⟩ = true) :
    ∃ t, execMatrixLeaseGrant die cl s = .next t ∧ t.arrayAt die cl = (s.granted die cl r).arrayAt die cl := by
  rw [execMatrixLeaseGrant_grants hfree hnext hrun]
  split
  · exact ⟨_, rfl, State.arrayAt_modHart ..⟩
  · exact ⟨_, rfl, rfl⟩

/-- The register that a wait's end names holds its result. -/
theorem get_complete (s : State) (c : CtxId) {d : SReg} (hd : d ≠ 0) (v : Word) : ((s.complete c d v).hartAt c).s.get d.toFin = v := by
  rw [State.complete, State.hartAt_modHart]
  simp only [if_neg hd]
  exact (vget_set _ _ d.isLt _ _).trans (if_pos rfl)

/-! ### MJOB (R121, R243) -/

/-- The job that MJOB of a card makes, not yet accepted (R243). -/
def State.newJob (s : State) (card : List Byte) (snap : Option Snap) : Job :=
  { id := (s.leaseCtx s.here.die s.here.core).next, card := card, region := s.hart.task.region, part := s.hart.task.part
    slot := s.here.slot, task := s.hart.task.ident, die := s.here.die, stay := s.hart.task.stay, taken := false, meridian := snap
    state := 1, pass := 0, step := 0, bias := [], outs := [], flags := 0 }

/-- A job joins those of its core, its lease has one less to issue, and its acceptance joins the store queue (R121, R243). -/
def State.queueJob (s : State) (l : Lease) (j : Job) : State :=
  ((s.modLease s.here.die s.here.core fun c =>
    { c with jobs := pruneJobs s.hart.task.ident (c.jobs ++ [j]), next := (c.next + 1) % 2 ^ 16 }).modArray s.here.die (s.here.core / 4)
      fun q => { q with lease := some { l with toIssue := l.toIssue - 1 } }).enqueue (.act s.hart.issued s.here.key 0 (.job j.id))

section
variable {s : State} (hf : s.isFw = false)
include hf

/-- MJOB with a job left in the lease and a card that passes queues its job and writes the id. -/
theorem execMjob_queues {u : State} {d a : SReg} {cb : CReg} {l : Lease} {card : List Byte} {snap : Option Snap}
    (hl : s.leaseOf s.here = some l) (hleft : l.toIssue ≠ 0) (hread : s.readRecord (s.rs a).toNat 128 128 = .ok card u)
    (hfields : firstBad (jobFields card) = none) (hmer : jobMeridian (tvalWord (.mjob d a cb)) card cb u = .ok snap u)
    (hregion : jobRegion card u = .ok () u) :
    execMjob d a cb s = .next (((u.queueJob l (u.newJob card snap)).ws d (BitVec.ofNat 64 (u.newJob card snap).id)).advance 4) := by
  have meridian : jobMeridian (fxWord 0x12 d.toNat a.toNat cb.toNat 2) card cb u = .ok snap u := hmer
  simp only [execMjob, taskOnly_task hf, hl, if_neg hleft, hread, R.bind_ok, checkFields, hfields, meridian, hregion, finish_ok]
  rfl

/-- MJOB without a lease waits for the one that a restored task has asked for, and else is a violation (R243, R246). -/
theorem execMjob_leaseless {d a : SReg} {cb : CReg} (hl : s.leaseOf s.here = none) : execMjob d a cb s =
    if (s.leaseWaits s.here).isSome then .next s.block else .next (s.takeTrap .leaseViolation 0 4) := by
  simp only [execMjob, taskOnly_task hf, hl]
  split <;> rfl

end

/-! ### MSTAT and MERRRD (R244, R248) -/

/-- The status word of a job (R244). -/
def Job.statusWord (j : Job) : Nat := j.state + j.flags * 2 ^ 8 + j.id * 2 ^ 16 + j.pass % 2 ^ 32 * 2 ^ 32

/-- The status word of the youngest of the last 64 jobs of a list with an id, 0 without one (R244). -/
def jobStatus (js : List Job) (id_ : Nat) : Nat :=
  ((js.drop (js.length - 64)).reverse.find? fun j => j.id = id_).elim 0 Job.statusWord

theorem jobStatus_absent {js : List Job} {id_ : Nat} (h : ∀ j ∈ js, j.id ≠ id_) : jobStatus js id_ = 0 := by
  have absent : (js.drop (js.length - 64)).reverse.find? (fun j => j.id = id_) = none :=
    List.find?_eq_none.2 fun j hj => by simpa using h j (List.mem_of_mem_drop (List.mem_reverse.1 hj))
  rw [jobStatus, absent, Option.elim_none]

theorem jobStatus_last {js : List Job} {j : Job} (h : js.getLast? = some j) : jobStatus js j.id = j.statusWord := by
  obtain ⟨l, rfl⟩ := List.getLast?_eq_some_iff.1 h
  have kept : (l ++ [j]).drop ((l ++ [j]).length - 64) = l.drop ((l ++ [j]).length - 64) ++ [j] :=
    List.drop_append_of_le_length (by simp only [List.length_append, List.length_singleton]; omega)
  have found : ((l ++ [j]).drop ((l ++ [j]).length - 64)).reverse.find? (fun x => x.id = j.id) = some j := by
    rw [kept, List.reverse_append]
    exact List.find?_cons_of_pos (decide_eq_true rfl)
  rw [jobStatus, found, Option.elim_some]

/-- The word of the array's log at an index, if it is the partition's (R248). -/
def logWord (log : List (Nat × Word)) (part i : Nat) : Word :=
  log[i]?.elim 0 fun e => if e.1 = part then e.2 else 0

theorem logWord_mem (log : List (Nat × Word)) (part i : Nat) : logWord log part i = 0 ∨ (part, logWord log part i) ∈ log := by
  unfold logWord
  cases he : log[i]? with
  | none => exact .inl rfl
  | some e =>
    rw [Option.elim_some]
    split
    · next hp => exact .inr (hp ▸ List.mem_of_getElem? he)
    · exact .inl rfl

theorem logWord_eq {log : List (Nat × Word)} {part i : Nat} {x : Word} (h : log[i]? = some (part, x)) : logWord log part i = x := by
  rw [logWord, h, Option.elim_some, if_pos rfl]

theorem execMstat_task {s : State} (hf : s.isFw = false) (d a : SReg) : execMstat d a s =
    .next ((s.ws d (BitVec.ofNat 64 (jobStatus (s.allJobs s.here) ((s.rs a).toNat % 2 ^ 16)))).advance 4) := by
  simp only [execMstat, taskOnly_task hf, finish_ok, jobStatus]
  cases List.find? _ _ with
  | none => rw [Option.elim_none]
  | some j => rw [Option.elim_some, Job.statusWord]

/-- MERRRD reads a word of its partition, and with bit 8 it empties the partition's log (R248). -/
theorem execMerrrd_task {s : State} (hf : s.isFw = false) (d a : SReg) : execMerrrd d a s =
    .next (((if bitOf (s.rs a).toNat 8 = true then s.modArray s.here.die (s.here.core / 4) fun q =>
        { q with log := q.log.filter fun e => e.1 ≠ s.part } else s).ws d
      (logWord (s.arrayAt s.here.die (s.here.core / 4)).log s.part ((s.rs a).toNat % 8))).advance 4) := by
  simp only [execMerrrd, taskOnly_task hf, finish_ok, logWord]
  cases (s.arrayAt s.here.die (s.here.core / 4)).log[(s.rs a).toNat % 8]? with
  | none => rw [Option.elim_none]
  | some e => rw [Option.elim_some]

/-- Settles O43: each instruction by its own equation, the wait of MLEASE by the array's grant. -/
theorem matrixInstructionsComplete : Obligations.MatrixInstructionsComplete := by
  refine ⟨fun s d a hf => ⟨fun hl hw h1 h64 h9 h7 => ?_, fun h => execMlease_refused hf h⟩, ?_, fun s hf => ⟨fun h => ?_, fun h => ?_⟩, ?_,
    fun s d a cb hf hl => ⟨fun hw => ?_, fun hw => ?_⟩, fun s d a hf => ?_, fun s d a hf => ?_⟩
  · refine execMlease_asks hf ?_
    rintro (h | h | h | h | h | h)
    · simp [hl] at h
    · simp [hw] at h
    · omega
    · omega
    · omega
    · simp [h7] at h
  · rintro s die cl r c d hfree hnext hr rfl hwait hrun
    obtain ⟨lease, -⟩ := arrayAt_granted s die cl r
    have grant : exec (.matrixLeaseGrant die cl) s = _ := execMatrixLeaseGrant_grants hfree hnext hrun
    simp only [hr, hwait] at grant
    refine ⟨_, s.leaseFor die r, grant, (congrArg Array_.lease (State.arrayAt_modHart ..)).trans lease, rfl, rfl, rfl, ?_, rfl, ?_, ?_,
      fun hd => get_complete _ _ hd _⟩
    · simp [State.leaseFor, hr]
    all_goals
      rw [State.complete, State.hartAt_modHart]
      rfl
  · exact ⟨(execMfree_eq hf).trans (if_pos h), (execMdrain_eq hf).trans (if_pos h)⟩
  · exact ⟨(execMfree_eq hf).trans (if_neg h), (execMdrain_eq hf).trans (if_neg h)⟩
  · intro s u d a cb l card snap hf hl hleft hread hfields hmer hregion
    exact ⟨u.newJob card snap, execMjob_queues hf hl hleft hread hfields hmer hregion, rfl, rfl, rfl, rfl, rfl, rfl, rfl⟩
  · exact (execMjob_leaseless hf hl).trans (if_neg (by simp [hw]))
  · exact (execMjob_leaseless hf hl).trans (if_pos hw)
  · refine ⟨_, execMstat_task hf d a, fun h => by rw [jobStatus_absent h]; rfl, fun j hj hid => ?_⟩
    rw [← hid, jobStatus_last hj, Job.statusWord]
  · refine ⟨_, fun h8 => ?_, fun h8 => ?_, logWord_mem .., fun x hx => logWord_eq hx⟩
    · exact (execMerrrd_task hf d a).trans (by rw [if_neg (ne_true_of_eq_false h8)])
    · exact (execMerrrd_task hf d a).trans (by rw [if_pos h8])

end Sys2Proof.Machine
end

section
/-! PROOFS. The steps of the copy, stream, matrix and collective engines (R114, R121, R136, R236, R239, R284, R287, R291, R294, R297,
R319, R390). -/

namespace Sys2Proof.Machine

/-! ### Copy engines (R121, R278, R284, R287, R291, R373) -/

section
variable {s : State} {die core slot eng : Nat}

/-- While a full fault queue holds an engine its copies stand (R373). -/
theorem exec_engineHeld (slot : Nat) (held : s.engineHeld die core eng = true) :
    execCopyStart die core slot eng s = .next s ∧ execCopyComplete die core slot eng s = .next s ∧
      execCpybSlotReserve die core slot eng s = .next s ∧ execCpytRelease die core eng s = .next s := by
  refine ⟨?_, ?_, ?_, ?_⟩
  · simp only [execCopyStart, held, Bool.or_true, if_true]
    split <;> rfl
  · simp only [execCopyComplete, held, if_true]
    split <;> rfl
  · simp only [execCpybSlotReserve, held, Bool.or_true, if_true]
    repeat' split
    all_goals rfl
  · simp only [execCpytRelease, held, if_true]
    split <;> rfl

section
variable (free : s.engineHeld die core eng = false)
include free

/-- A waiting copy stands that its engine has not accepted or whose wait is unmet (R121, R284). -/
theorem execCopyStart_stands {m : CopyCmd} {rest : List CopyCmd} (hw : (s.copyCtx ⟨die, core, slot⟩ eng).waiting = m :: rest)
    (h : m.taken = false ∨ s.commandWait m.wait = .unmet) : execCopyStart die core slot eng s = .next s := by
  simp only [execCopyStart, hw, free, Bool.or_false]
  cases hm : m.taken
  · rfl
  · have unmet := h.resolve_left (ne_false_of_eq_true hm)
    simp only [unmet]
    rfl

/-- An accepted copy whose wait is met starts (R284). -/
theorem execCopyStart_starts {m : CopyCmd} {rest : List CopyCmd} (hw : (s.copyCtx ⟨die, core, slot⟩ eng).waiting = m :: rest)
    (hm : m.taken = true) (hmet : s.commandWait m.wait = .met) : execCopyStart die core slot eng s =
      .next (s.putCopy ⟨die, core, slot⟩ eng { m with state := .running, issue := s.polestar }) := by
  simp only [execCopyStart, hw, free, hm, hmet, Bool.not_true, Bool.or_false, Bool.false_eq_true, if_false]

section
variable {m : CopyCmd} (hpick : s.pickCopy (s.copyCtx ⟨die, core, slot⟩ eng).running = some m)
include hpick

/-- A copy to memory that is under way ends with nothing left, or makes its next access (R284). -/
theorem execCopyComplete_memory (hk : m.kind ≠ kCpyb) :
    (m.moved (m.sink none) = true → execCopyComplete die core slot eng s = .next (s.copyEnds ⟨die, core, slot⟩ eng m)) ∧
    (m.moved (m.sink none) = false → ∀ n f u,
      copyStep ⟨die, core, slot⟩ eng (m.sink none) (m.units (m.sink none)) m.dst.space m.dst.cursor m s = (n, f, u) →
      execCopyComplete die core slot eng s = .next (u.copyProgress ⟨die, core, slot⟩ eng n f)) := by
  constructor
  · intro hmoved
    simp only [execCopyComplete, hpick, free, Bool.false_eq_true, if_false, if_neg hk, hmoved, if_true]
  · intro hmoved n f u hstep
    simp only [execCopyComplete, hpick, free, Bool.false_eq_true, if_false, if_neg hk, hmoved, hstep]

/-- A copy to a channel that is under way ends with nothing left, or goes on with the piece it has a slot for (R287). -/
theorem execCopyComplete_channel {ch : Channel} (hk : m.kind = kCpyb) (hch : s.shared.channels.find? m.chan = some ch) :
    (m.moved (m.sink (some ch)) = true → execCopyComplete die core slot eng s = .next (s.copyEnds ⟨die, core, slot⟩ eng m)) ∧
    (m.moved (m.sink (some ch)) = false → ch.poison = false → ∀ i first, m.piece = some (i, first) →
      execCopyComplete die core slot eng s = .next (cpybStep ⟨die, core, slot⟩ eng m ch i first s)) := by
  constructor
  · intro hmoved
    simp only [execCopyComplete, hpick, free, Bool.false_eq_true, if_false, if_pos hk, hch, hmoved, if_true]
  · intro hmoved hpoison i first hpiece
    simp only [execCopyComplete, hpick, free, Bool.false_eq_true, if_false, if_pos hk, hch, hmoved, hpoison, hpiece]

end

/-- A CPYB without a slot reserves one that is free in its turn, or joins the line of its channel (R269, R287). -/
theorem execCpybSlotReserve_eq {m : CopyCmd} {ch : Channel}
    (hfind : ((s.copyCtx ⟨die, core, slot⟩ eng).running.find? fun m => m.kind = kCpyb && m.piece.isNone) = some m)
    (hch : s.shared.channels.find? m.chan = some ch) (hpoison : ch.poison = false) (hmoved : m.moved (m.sink (some ch)) = false) :
    execCpybSlotReserve die core slot eng s =
      if ch.mayReserve (lineKey ⟨die, core, slot⟩ eng) then
        .next (((s.chReserve m.chan (lineKey ⟨die, core, slot⟩ eng) ch).putCopy ⟨die, core, slot⟩ eng
          { m with piece := some (ch.rsv, m.done) }).serveChannel m.chan)
      else if ch.waiters.contains (lineKey ⟨die, core, slot⟩ eng) then .next s
      else .next (s.setChannel m.chan { ch with waiters := ch.waiters ++ [lineKey ⟨die, core, slot⟩ eng] }) := by
  simp only [execCpybSlotReserve, hfind, hch, hpoison, hmoved, free, Bool.or_false, Bool.false_eq_true, if_false]

/-- The one timed copy that is due starts once its wait is met (R291). -/
theorem execCpytRelease_starts {c : CtxId} {m : CopyCmd} (hdue : s.timedDue die core eng = [(c, m)])
    (hmet : s.commandWait m.wait = .met) : execCpytRelease die core eng s =
      .next (s.putCopy c eng { m.flag (if m.late then 2 else 0) with issue := s.polestar, state := .running }) := by
  have same (x : Nat) : (m.flag x).wait = m.wait := rfl
  simp only [execCpytRelease, hdue, List.foldl_cons, List.foldl_nil, free, Bool.false_eq_true, if_false, same, hmet]

end
end

/-! ### Streams (R293, R294, R297) -/

/-- A write to a sparse map loses none of its numbers. -/
theorem SMap.mem_keys_insert {α : Type} (m : SMap α) (k : Nat) (a : α) {j : Nat} (h : j = k ∨ j ∈ m.map (·.1)) :
    j ∈ (m.insert k a).map (·.1) := by
  induction m with
  | nil => simpa [SMap.insert] using h
  | cons p t ih =>
    simp only [List.map_cons, List.mem_cons] at h
    unfold SMap.insert
    split
    · simpa using h
    · split
      · next e => rcases h with h | h | h <;> simp [h, e]
      · rcases h with h | h | h
        · simp [ih (.inl h)]
        · simp [h]
        · simp [ih (.inr h)]

/-- A change of a context's registers loses no context. -/
theorem mem_contexts_modHart {s : State} {e : CtxId} (c : CtxId) (f : Hart → Hart) (h : e ∈ s.contexts) :
    e ∈ (s.modHart c f).contexts := by
  simp only [State.contexts, State.modHart_here, List.mem_cons] at h ⊢
  refine h.imp_right fun h => ?_
  obtain ⟨p, hp, rfl⟩ := List.mem_map.1 h
  unfold State.modHart State.setHart
  split
  · exact h
  · obtain ⟨q, hq, hk⟩ := List.mem_map.1 (SMap.mem_keys_insert s.parked c.key (f (s.hartAt c)) (.inr (List.mem_map_of_mem hp)))
    exact List.mem_map.2 ⟨q, hq, congrArg ctxOf hk⟩

theorem mem_waitersOf (s : State) (f : Wait → Bool) (c : CtxId) : c ∈ s.waitersOf f ↔
    c ∈ s.contexts ∧ s.coreRuns c = true ∧ (s.hartAt c).status = .blocked ∧ (s.hartAt c).task.wait.any f = true := by
  simp [State.waitersOf, and_assoc]

/-- A context that waits for nothing is no waiter. -/
theorem not_mem_waitersOf {s : State} {c : CtxId} (h : (s.hartAt c).task.wait = none) (f : Wait → Bool) : c ∉ s.waitersOf f := by
  simp [mem_waitersOf, h]

section
variable (s : State) (c : CtxId) (q : Fin 8)

@[simp] theorem State.task_modStream (f : Stream → Stream) : ((s.modStream c q f).hartAt c).task = (s.hartAt c).task := by
  simp [State.modStream]

@[simp] theorem State.status_modStream (f : Stream → Stream) : ((s.modStream c q f).hartAt c).status = (s.hartAt c).status := by
  simp [State.modStream]

theorem State.coreRuns_modStream (f : Stream → Stream) : (s.modStream c q f).coreRuns c = s.coreRuns c := by
  simp [State.modStream, State.coreRuns, State.coreAt]

theorem State.task_buildPanel : ((s.buildPanel c q).hartAt c).task = (s.hartAt c).task := by
  unfold State.buildPanel
  dsimp only
  split
  · rw [State.task_modStream, State.writeHomeBytes_hartAt]
  · rw [State.task_modStream, foldl_hartAt fun t k => State.writeHomeBytes_hartAt t c _ _ _]

end

section
variable {s : State} {die core slot : Nat} {q : Fin 8}

/-- The oldest queued address of a stream with room is read, and the element is in flight (R294). -/
theorem execStreamReadIssue_reads {u : State} {z : Stream} {v : Word} {rest : List Word} {e : QElem}
    (hz : z = (s.hartAt ⟨die, core, slot⟩).q.get q) (haq : z.aq = v :: rest) (hbound : z.bound = true) (hfault : z.faulted = false)
    (hroom : z.room = true) (free : s.engineHeld die core z.eng = false)
    (hread : s.streamRead ⟨die, core, slot⟩ q.val z v = (some e, u)) : execStreamReadIssue die core slot q.val s =
      .next (u.modStream ⟨die, core, slot⟩ q fun z => { z with aq := rest, inflight := z.inflight ++ [e] }) := by
  subst hz
  simp only [execStreamReadIssue, q.isLt, dite_true, Fin.eta, haq, hbound, hfault, hroom, free, hread, Bool.not_true, Bool.or_false,
    Bool.false_eq_true, if_false]

/-- What an arrival does to a stream: the panel that is due, or the oldest read taken in (R294, R297). -/
def State.takeIn (s : State) (c : CtxId) (q : Fin 8) : State :=
  if ((s.hartAt c).q.get q).panelDue then s.buildPanel c q else s.modStream c q Stream.arrive

theorem task_takeIn (s : State) (c : CtxId) (q : Fin 8) : ((s.takeIn c q).hartAt c).task = (s.hartAt c).task := by
  unfold State.takeIn
  split
  · exact s.task_buildPanel c q
  · exact s.task_modStream c q _

theorem execStreamElementArrival_quiet (hw : (s.hartAt ⟨die, core, slot⟩).task.wait = none) :
    execStreamElementArrival die core slot q.val s = .next (s.takeIn ⟨die, core, slot⟩ q) := by
  have quiet (f : Wait → Bool) : ((s.takeIn ⟨die, core, slot⟩ q).waitersOf f).contains ⟨die, core, slot⟩ = false := by
    rw [← Bool.not_eq_true, List.contains_iff_mem]
    exact not_mem_waitersOf (by rw [task_takeIn, hw]) f
  simp only [execStreamElementArrival, q.isLt, dite_true, Fin.eta]
  exact congrArg _ (if_neg (ne_true_of_eq_false (quiet _)))

/-- A drain that waits for the stream looks at it after the arrival (R293, R296). -/
theorem execStreamElementArrival_drains {j : QReg} {y : Stream} (hw : (s.hartAt ⟨die, core, slot⟩).task.wait = some (.drain j y))
    (hj : j.toNat = q.val) (hb : (s.hartAt ⟨die, core, slot⟩).status = .blocked) (hc : (⟨die, core, slot⟩ : CtxId) ∈ s.contexts)
    (hr : s.coreRuns ⟨die, core, slot⟩ = true) (hdue : ((s.hartAt ⟨die, core, slot⟩).q.get q).panelDue = false) :
    execStreamElementArrival die core slot q.val s =
      .next ((s.modStream ⟨die, core, slot⟩ q Stream.arrive).tryWait ⟨die, core, slot⟩) := by
  have waits {f : Wait → Bool} (hf : f (.drain j y) = true) :
      ((s.modStream ⟨die, core, slot⟩ q Stream.arrive).waitersOf f).contains ⟨die, core, slot⟩ = true := by
    rw [List.contains_iff_mem, mem_waitersOf, State.coreRuns_modStream, State.status_modStream, State.task_modStream, hw]
    exact ⟨mem_contexts_modHart _ _ hc, hr, hb, hf⟩
  simp only [execStreamElementArrival, q.isLt, dite_true, Fin.eta, hdue, Bool.false_eq_true, if_false]
  exact congrArg _ (if_pos (waits (decide_eq_true hj)))

end

/-! ### Matrix jobs (R236) -/

/-- The oldest job of a core that is not complete gets a state. -/
def State.setJobState (s : State) (die core st : Nat) : State :=
  s.modLease die core fun c => { c with jobs := modFirst (fun j => { j with state := st }) c.jobs }

section
variable {s : State} {die core : Nat} {j : Job} (hj : (s.leaseCtx die core).head = some j)
include hj

/-- An accepted job under its lease starts without a wait or with its wait met, and else waits (R121, R236). -/
theorem execMatrixJobStart_eq {l : Lease} (hl : (s.arrayAt die (core / 4)).lease = some l) (hcore : l.core = core) (hst : j.state < 3)
    (htaken : j.taken = true) (hpoison : bitOf (field j.card 33 1) 7 = true → ctrPoison (s.counter (j.counter 32)) = false) :
    execMatrixJobStart die core s = .next (s.setJobState die core
      (if bitOf (field j.card 33 1) 7 = true ∧ ctrValue (s.counter (j.counter 32)) < field j.card 34 6 then 2 else 3)) := by
  simp only [execMatrixJobStart, hj, ge_iff_le, Nat.not_le.2 hst, htaken, hl, Option.all_some, hcore]
  cases hwait : bitOf (field j.card 33 1) 7
  · simp [State.setJobState]
  · by_cases hv : field j.card 34 6 ≤ ctrValue (s.counter (j.counter 32))
    · simp [hpoison hwait, hv, Nat.not_lt.2 hv, State.setJobState]
    · simp [hpoison hwait, hv, Nat.lt_of_not_le hv, State.setJobState]

/-- The running job of a core acts, and ends past its last pass (R235–R237). -/
theorem execMatrixJobComplete_eq (hst : j.state = 3) : execMatrixJobComplete die core s =
    if passCount j.card ≤ j.pass then .next (s.jobEnds die core false) else .next (s.jobAct die core j) := by
  simp only [execMatrixJobComplete, hj, hst, ne_eq, not_true_eq_false, if_false]

end

/-! ### Collectives and spilled waiters (R136, R319, R390) -/

/-- A member's accepted command contributes once its wait is met (R136). -/
theorem execCollContribution_contributes {s : State} {die core slot : Nat} {c : CollCmd} {rank : Nat}
    (hc : ((s.collsOf (CtxId.key ⟨die, core, slot⟩)).find? fun c => !c.contributed && c.result.isNone) = some c) (htaken : c.taken = true)
    (hmet : s.commandWait c.wait = .met)
    (hrank : ((s.shared.groups.getD (clGroup c.card) default).members.findIdx? fun w =>
      s.memberKey w = some (CtxId.key ⟨die, core, slot⟩)) = some rank)
    (hlive : (s.shared.groups.getD (clGroup c.card) default).dead = false) :
    execCollContribution die core slot s = .next (s.contribute (CtxId.key ⟨die, core, slot⟩) c rank) := by
  simp only [execCollContribution, hc, htaken, hrank, hlive, hmet, Bool.not_true, Bool.false_eq_true, if_false]

/-- Settles O56: each step by what it does when it is due, engine by engine. -/
theorem engineStepsDoTheirWork : Obligations.EngineStepsDoTheirWork := by
  refine ⟨fun s die core slot eng held => exec_engineHeld slot held, ?_, fun s die core eng c m hdue free hmet =>
    execCpytRelease_starts free hdue hmet, ?_, ?_, ?_, ?_, ?_, ?_⟩
  · rintro s die core slot eng c rfl free
    refine ⟨fun m rest hw => ⟨execCopyStart_stands free hw, execCopyStart_starts free hw⟩, fun m hpick => ⟨?_, ?_⟩,
      fun m ch hfind hch hpoison hmoved => ⟨fun turn => ?_, fun turn hline => ?_⟩⟩
    · rintro hk k rfl
      exact execCopyComplete_memory free hpick hk
    · exact fun ch hk hch => execCopyComplete_channel free hpick hk hch
    · exact (execCpybSlotReserve_eq free hfind hch hpoison hmoved).trans (if_pos turn)
    · refine (execCpybSlotReserve_eq free hfind hch hpoison hmoved).trans ((if_neg (ne_true_of_eq_false turn)).trans (if_neg ?_))
      rwa [List.contains_iff_mem]
  · rintro s u die core slot q c z rfl rfl
    refine ⟨fun v rest e => execStreamReadIssue_reads rfl, fun hw => ⟨fun hdue => ?_, fun hdue => ?_⟩,
      fun j y hw hj hb hc hr hdue => execStreamElementArrival_drains hw hj hb hc hr hdue⟩
    · exact (execStreamElementArrival_quiet hw).trans (congrArg _ (if_neg (ne_true_of_eq_false hdue)))
    · exact (execStreamElementArrival_quiet hw).trans (congrArg _ (if_pos hdue))
  · intro s die cl r hfree hnext hrun
    obtain ⟨t, ht, harray⟩ := execMatrixLeaseGrant_array hfree hnext hrun
    obtain ⟨lease, reqs⟩ := arrayAt_granted s die cl r
    exact ⟨t, s.leaseFor die r, ht, harray ▸ lease, rfl, rfl, rfl, harray ▸ reqs⟩
  · rintro s die core j set hj rfl
    refine ⟨fun l hl hcore hst htaken => ⟨fun hwait => ?_, fun hwait hpoison => ⟨fun hv => ?_, fun hv => ?_⟩⟩, fun hst h => ?_,
      fun hst h => ?_⟩
    · exact (execMatrixJobStart_eq hj hl hcore hst htaken (by simp [hwait])).trans (by simp [hwait, State.setJobState])
    · exact (execMatrixJobStart_eq hj hl hcore hst htaken fun _ => hpoison).trans (by simp [Nat.not_lt.2 hv, State.setJobState])
    · exact (execMatrixJobStart_eq hj hl hcore hst htaken fun _ => hpoison).trans (by simp [hwait, hv, State.setJobState])
    · exact (execMatrixJobComplete_eq hj hst).trans (if_pos h)
    · exact (execMatrixJobComplete_eq hj hst).trans (if_neg (Nat.not_le.2 h))
  · rintro s die core slot key c rank rfl hc htaken hmet hrank hlive
    exact execCollContribution_contributes hc htaken hmet hrank hlive
  · intro s g
    refine ⟨fun h => ?_, fun cs h => ?_⟩
    all_goals simp only [exec, execCollDelivery, h]
  · intro s part
    exact ⟨_, rfl, by simp [setErase]⟩

end Sys2Proof.Machine
end

section
/-! PROOFS. The encoder and the decoder: every instruction with words is read back from them, the words that the spec prints among them (R138–R141,
R148, R149). -/

namespace Sys2Proof.Laws

/-- The round trip of a constructor is its own lemma; a step of the device has no words. -/
theorem roundTrip (i : Instr) : RoundTrip.Statement i := by
  cases i with
  -- scalar arithmetic, constants and long forms
  | add => exact RoundTrip.add .. | sub => exact RoundTrip.sub .. | and => exact RoundTrip.and .. | or => exact RoundTrip.or ..
  | xor => exact RoundTrip.xor .. | andn => exact RoundTrip.andn .. | sll => exact RoundTrip.sll .. | srl => exact RoundTrip.srl ..
  | sra => exact RoundTrip.sra .. | ror => exact RoundTrip.ror .. | slt => exact RoundTrip.slt .. | sltu => exact RoundTrip.sltu ..
  | min => exact RoundTrip.min .. | max => exact RoundTrip.max .. | minu => exact RoundTrip.minu .. | maxu => exact RoundTrip.maxu ..
  | mul => exact RoundTrip.mul .. | mulh => exact RoundTrip.mulh .. | mulhu => exact RoundTrip.mulhu .. | div => exact RoundTrip.div ..
  | divu => exact RoundTrip.divu .. | rem => exact RoundTrip.rem .. | remu => exact RoundTrip.remu .. | clz => exact RoundTrip.clz ..
  | ctz => exact RoundTrip.ctz .. | popc => exact RoundTrip.popc .. | addi => exact RoundTrip.addi .. | andi => exact RoundTrip.andi ..
  | ori => exact RoundTrip.ori .. | xori => exact RoundTrip.xori .. | slli => exact RoundTrip.slli .. | srli => exact RoundTrip.srli ..
  | srai => exact RoundTrip.srai .. | slti => exact RoundTrip.slti .. | sltiu => exact RoundTrip.sltiu .. | lih => exact RoundTrip.lih ..
  | addpc => exact RoundTrip.addpc .. | liw => exact RoundTrip.liw .. | addiw => exact RoundTrip.addiw ..
  -- branches and jumps
  | beq => exact RoundTrip.beq .. | bne => exact RoundTrip.bne .. | blt => exact RoundTrip.blt .. | bge => exact RoundTrip.bge ..
  | bltu => exact RoundTrip.bltu .. | bgeu => exact RoundTrip.bgeu .. | jal => exact RoundTrip.jal .. | jalr => exact RoundTrip.jalr ..
  -- scalar loads and stores
  | ldb => exact RoundTrip.ldb .. | ldh => exact RoundTrip.ldh .. | ldw => exact RoundTrip.ldw .. | ldd => exact RoundTrip.ldd ..
  | ldbu => exact RoundTrip.ldbu .. | ldhu => exact RoundTrip.ldhu .. | ldwu => exact RoundTrip.ldwu .. | stb => exact RoundTrip.stb ..
  | sth => exact RoundTrip.sth .. | stw => exact RoundTrip.stw .. | std => exact RoundTrip.std ..
  -- capabilities
  | cmov => exact RoundTrip.cmov .. | cinc => exact RoundTrip.cinc .. | cinci => exact RoundTrip.cinci ..
  | csetb => exact RoundTrip.csetb .. | candp => exact RoundTrip.candp .. | cgetb => exact RoundTrip.cgetb ..
  | cgetl => exact RoundTrip.cgetl .. | cgetc => exact RoundTrip.cgetc .. | cgetp => exact RoundTrip.cgetp ..
  | cgett => exact RoundTrip.cgett .. | cldc => exact RoundTrip.cldc .. | cstc => exact RoundTrip.cstc ..
  -- atomics and reductions
  | amoadd => exact RoundTrip.amoadd .. | amoand => exact RoundTrip.amoand .. | amoor => exact RoundTrip.amoor ..
  | amoxor => exact RoundTrip.amoxor .. | amomin => exact RoundTrip.amomin .. | amomax => exact RoundTrip.amomax ..
  | amominu => exact RoundTrip.amominu .. | amomaxu => exact RoundTrip.amomaxu .. | amoswp => exact RoundTrip.amoswp ..
  | amocas => exact RoundTrip.amocas .. | amofadd => exact RoundTrip.amofadd .. | amofmin => exact RoundTrip.amofmin ..
  | amofmax => exact RoundTrip.amofmax .. | amobfadd2 => exact RoundTrip.amobfadd2 .. | redadd => exact RoundTrip.redadd ..
  | redand => exact RoundTrip.redand .. | redor => exact RoundTrip.redor .. | redxor => exact RoundTrip.redxor ..
  | redmin => exact RoundTrip.redmin .. | redmax => exact RoundTrip.redmax .. | redminu => exact RoundTrip.redminu ..
  | redmaxu => exact RoundTrip.redmaxu .. | redfadd => exact RoundTrip.redfadd .. | redfmin => exact RoundTrip.redfmin ..
  | redfmax => exact RoundTrip.redfmax .. | redbfadd2 => exact RoundTrip.redbfadd2 ..
  -- order, counters, barriers and channels
  | waitc => exact RoundTrip.waitc .. | syncq => exact RoundTrip.syncq .. | fence => exact RoundTrip.fence ..
  | waitvis => exact RoundTrip.waitvis .. | node => exact RoundTrip.node .. | ctrsig => exact RoundTrip.ctrsig ..
  | ctrwait => exact RoundTrip.ctrwait .. | ctrrd => exact RoundTrip.ctrrd .. | barinit => exact RoundTrip.barinit ..
  | bararv => exact RoundTrip.bararv .. | barxb => exact RoundTrip.barxb .. | barwait => exact RoundTrip.barwait ..
  | bartest => exact RoundTrip.bartest .. | chrsv => exact RoundTrip.chrsv .. | chpush => exact RoundTrip.chpush ..
  | chawait => exact RoundTrip.chawait .. | chrel => exact RoundTrip.chrel .. | chstat => exact RoundTrip.chstat ..
  -- launches, constellations and the end of tasks
  | launch => exact RoundTrip.launch .. | spawn => exact RoundTrip.spawn .. | awaitch => exact RoundTrip.awaitch ..
  | gjoin => exact RoundTrip.gjoin .. | gleave => exact RoundTrip.gleave .. | gsync => exact RoundTrip.gsync ..
  | exit => exact RoundTrip.exit .. | suspend => exact RoundTrip.suspend .. | yield => exact RoundTrip.yield ..
  | hintnext => exact RoundTrip.hintnext .. | self => exact RoundTrip.self ..
  -- copies, streams and the matrix array
  | cpy => exact RoundTrip.cpy .. | cpyt => exact RoundTrip.cpyt .. | cpyg => exact RoundTrip.cpyg .. | cpys => exact RoundTrip.cpys ..
  | cpyc => exact RoundTrip.cpyc .. | cpyf => exact RoundTrip.cpyf .. | cpyb => exact RoundTrip.cpyb ..
  | qbind => exact RoundTrip.qbind .. | qaddr => exact RoundTrip.qaddr .. | qpops => exact RoundTrip.qpops ..
  | qpopv => exact RoundTrip.qpopv .. | qpeek => exact RoundTrip.qpeek .. | qstat => exact RoundTrip.qstat ..
  | qdrain => exact RoundTrip.qdrain .. | qfmt => exact RoundTrip.qfmt .. | mlease => exact RoundTrip.mlease ..
  | mfree => exact RoundTrip.mfree .. | mjob => exact RoundTrip.mjob .. | mstat => exact RoundTrip.mstat ..
  | mdrain => exact RoundTrip.mdrain .. | merrrd => exact RoundTrip.merrrd ..
  -- tiles
  | tcfg => exact RoundTrip.tcfg .. | tzero => exact RoundTrip.tzero .. | tldrow => exact RoundTrip.tldrow ..
  | tstrow => exact RoundTrip.tstrow .. | tld => exact RoundTrip.tld .. | tst => exact RoundTrip.tst ..
  | trowv => exact RoundTrip.trowv .. | tcolv => exact RoundTrip.tcolv .. | tvrow => exact RoundTrip.tvrow ..
  | tvcol => exact RoundTrip.tvcol .. | ttrans => exact RoundTrip.ttrans .. | tmma => exact RoundTrip.tmma ..
  | trel => exact RoundTrip.trel ..
  -- transit, tags, generation and sequences
  | trbind => exact RoundTrip.trbind .. | trwait => exact RoundTrip.trwait .. | trinfo => exact RoundTrip.trinfo ..
  | trdone => exact RoundTrip.trdone .. | trhold => exact RoundTrip.trhold .. | trskip => exact RoundTrip.trskip ..
  | trnext => exact RoundTrip.trnext .. | trqry => exact RoundTrip.trqry .. | tagdecl => exact RoundTrip.tagdecl ..
  | tagpub => exact RoundTrip.tagpub .. | tagwait => exact RoundTrip.tagwait .. | tagqry => exact RoundTrip.tagqry ..
  | tagret => exact RoundTrip.tagret .. | coll => exact RoundTrip.coll .. | tkcommit => exact RoundTrip.tkcommit ..
  | tkput => exact RoundTrip.tkput .. | wpset => exact RoundTrip.wpset .. | wpclr => exact RoundTrip.wpclr ..
  | wprd => exact RoundTrip.wprd .. | seqst => exact RoundTrip.seqst ..
  -- floating-point vector arithmetic and compares
  | vfadd => exact RoundTrip.vfadd .. | vfsub => exact RoundTrip.vfsub .. | vfmul => exact RoundTrip.vfmul ..
  | vfma => exact RoundTrip.vfma .. | vfms => exact RoundTrip.vfms .. | vfnma => exact RoundTrip.vfnma ..
  | vfnms => exact RoundTrip.vfnms .. | vfmin => exact RoundTrip.vfmin .. | vfmax => exact RoundTrip.vfmax ..
  | vfminm => exact RoundTrip.vfminm .. | vfmaxm => exact RoundTrip.vfmaxm .. | vfabs => exact RoundTrip.vfabs ..
  | vfneg => exact RoundTrip.vfneg .. | vfsgnj => exact RoundTrip.vfsgnj .. | vfdiv => exact RoundTrip.vfdiv ..
  | vfsqrt => exact RoundTrip.vfsqrt .. | vfrcp => exact RoundTrip.vfrcp .. | vfrsq => exact RoundTrip.vfrsq ..
  | vfexp2 => exact RoundTrip.vfexp2 .. | vflog2 => exact RoundTrip.vflog2 .. | vftanh => exact RoundTrip.vftanh ..
  | vfceq => exact RoundTrip.vfceq .. | vfcne => exact RoundTrip.vfcne .. | vfclt => exact RoundTrip.vfclt ..
  | vfcle => exact RoundTrip.vfcle .. | vfcun => exact RoundTrip.vfcun .. | vceq => exact RoundTrip.vceq ..
  | vcne => exact RoundTrip.vcne .. | vclt => exact RoundTrip.vclt .. | vcle => exact RoundTrip.vcle ..
  | vcltu => exact RoundTrip.vcltu .. | vcleu => exact RoundTrip.vcleu ..
  -- integer vector arithmetic, bits and conversions
  | vadd => exact RoundTrip.vadd .. | vsub => exact RoundTrip.vsub .. | vadds => exact RoundTrip.vadds ..
  | vsubs => exact RoundTrip.vsubs .. | vmul => exact RoundTrip.vmul .. | vmulh => exact RoundTrip.vmulh ..
  | vmulhu => exact RoundTrip.vmulhu .. | vmin => exact RoundTrip.vmin .. | vmax => exact RoundTrip.vmax ..
  | vminu => exact RoundTrip.vminu .. | vmaxu => exact RoundTrip.vmaxu .. | vabs => exact RoundTrip.vabs ..
  | vand => exact RoundTrip.vand .. | vor => exact RoundTrip.vor .. | vxor => exact RoundTrip.vxor .. | vandn => exact RoundTrip.vandn ..
  | vnot => exact RoundTrip.vnot .. | vsll => exact RoundTrip.vsll .. | vsrl => exact RoundTrip.vsrl .. | vsra => exact RoundTrip.vsra ..
  | vpopc => exact RoundTrip.vpopc .. | vclz => exact RoundTrip.vclz .. | vcvt => exact RoundTrip.vcvt ..
  | vcvtsat => exact RoundTrip.vcvtsat .. | vqfp4 => exact RoundTrip.vqfp4 .. | vdqfp4 => exact RoundTrip.vdqfp4 ..
  | vqfp8 => exact RoundTrip.vqfp8 .. | vblksc => exact RoundTrip.vblksc .. | vbndsc => exact RoundTrip.vbndsc ..
  -- lanes, reductions, sparsity and bit planes
  | vperm => exact RoundTrip.vperm .. | vslideup => exact RoundTrip.vslideup .. | vslidedn => exact RoundTrip.vslidedn ..
  | vziplo => exact RoundTrip.vziplo .. | vziphi => exact RoundTrip.vziphi .. | vrev => exact RoundTrip.vrev ..
  | vcompr => exact RoundTrip.vcompr .. | vexpnd => exact RoundTrip.vexpnd .. | vsel => exact RoundTrip.vsel ..
  | vrsum => exact RoundTrip.vrsum .. | vrmax => exact RoundTrip.vrmax .. | vrmin => exact RoundTrip.vrmin ..
  | vrmaxi => exact RoundTrip.vrmaxi .. | vrmini => exact RoundTrip.vrmini .. | vscans => exact RoundTrip.vscans ..
  | vrand => exact RoundTrip.vrand .. | vror => exact RoundTrip.vror .. | vtopk => exact RoundTrip.vtopk ..
  | vspc => exact RoundTrip.vspc .. | vspx => exact RoundTrip.vspx .. | vbpt => exact RoundTrip.vbpt .. | vbpu => exact RoundTrip.vbpu ..
  -- vector memory
  | vld => exact RoundTrip.vld .. | vst => exact RoundTrip.vst .. | vlds => exact RoundTrip.vlds .. | vsts => exact RoundTrip.vsts ..
  | vgth => exact RoundTrip.vgth .. | vsct => exact RoundTrip.vsct .. | vsctadd => exact RoundTrip.vsctadd ..
  | vldb => exact RoundTrip.vldb ..
  -- masks, element moves, noise and flags
  | kand => exact RoundTrip.kand .. | kor => exact RoundTrip.kor .. | kxor => exact RoundTrip.kxor .. | knot => exact RoundTrip.knot ..
  | kpop => exact RoundTrip.kpop .. | kfirst => exact RoundTrip.kfirst .. | kset => exact RoundTrip.kset ..
  | kmov => exact RoundTrip.kmov .. | vsett => exact RoundTrip.vsett .. | vmvs => exact RoundTrip.vmvs ..
  | vmve => exact RoundTrip.vmve .. | vins => exact RoundTrip.vins .. | vid => exact RoundTrip.vid .. | vrng => exact RoundTrip.vrng ..
  | vgumb => exact RoundTrip.vgumb .. | vflgrd => exact RoundTrip.vflgrd .. | vflgclr => exact RoundTrip.vflgclr ..
  | vmov => exact RoundTrip.vmov ..
  -- control registers and system instructions
  | ctlrd => exact RoundTrip.ctlrd .. | ctlwr => exact RoundTrip.ctlwr .. | ctlset => exact RoundTrip.ctlset ..
  | ctlclr => exact RoundTrip.ctlclr .. | eret => exact RoundTrip.eret .. | wfi => exact RoundTrip.wfi ..
  | tlbinv => exact RoundTrip.tlbinv .. | ctxsv => exact RoundTrip.ctxsv .. | ctxld => exact RoundTrip.ctxld ..
  | quardr => exact RoundTrip.quardr .. | halt => exact RoundTrip.halt .. | nop => exact RoundTrip.nop ..
  | trap => exact RoundTrip.trap .. | brk => exact RoundTrip.brk .. | ifence => exact RoundTrip.ifence ..
  -- the word that is no instruction, and the steps without a word
  | illegalInstruction => exact RoundTrip.illegalInstruction ..
  | _ => exact Or.inl rfl

/-- Settles O2, by the constructors of the instruction, each at every value of its fields. -/
theorem encodedInstructionsDecode : Obligations.EncodedInstructionsDecode := roundTrip

/-- Words that the encoder writes for a well-formed instruction decode to it. -/
theorem decode_of_encode {i : Instr} {w : Nat} {ws : List Nat} (he : encode i = w :: ws) (hi : i.wellFormed = true) :
    decode w (ws.getD 0 0) = some i := by
  have h := roundTrip i
  rw [RoundTrip.Statement, he] at h
  exact h.resolve_left (List.cons_ne_nil w ws) hi

/-- Settles O1: each printed word is what the encoder writes for its instruction, and the two others have no row of the opcode map. -/
theorem specWordsDecode : Obligations.SpecWordsDecode := by
  unfold Obligations.SpecWordsDecode
  and_intros
  iterate 27 exact decode_of_encode (ws := []) rfl rfl
  · exact decode_of_encode (ws := [0x12345678]) rfl rfl
  · decide
  · decide

end Sys2Proof.Laws
end

section
/-! PROOFS. Branches and jumps: where they go, what they link, and what they leave (R144, R162–R165). -/

namespace Sys2Proof.Machine

/-! ### Going to an address -/

/-- Going to an address is moving past as many bytes as it lies ahead, modulo 2^64. -/
theorem State.goTo_eq_advance (s : State) (pc : Word) : s.goTo pc = s.advance (pc - s.hart.pc).toNat := by
  have lands : s.hart.pc + BitVec.ofNat 64 (pc - s.hart.pc).toNat = pc := by
    rw [BitVec.ofNat_toNat, BitVec.setWidth_eq, BitVec.add_comm, BitVec.sub_add_cancel]
  simp only [State.goTo, State.advance, State.mod, lands]

/-- A transfer of control that links changes its link register and the PC, and nothing else that an instruction can see. -/
theorem frame_ws_goTo (s : State) (d : SReg) (v pc : Word) (t : State) (ht : t = (s.ws d v).goTo pc) :
    t.hart.pc = pc ∧ (d ≠ 0 → t.rs d = v) ∧ OnlyHere s t ∧ SameScalarsBut d s t ∧ SameCaps s t ∧ SameVectors s t ∧ SameMasks s t ∧
      SameTiles s t ∧ SameMemory s t := by
  obtain ⟨here, hs, hc, hv, hm, htl, hmem, -⟩ := frame_ws_advance s d v _ t (ht.trans (State.goTo_eq_advance _ pc))
  refine ⟨ht ▸ rfl, fun hd => ?_, here, hs, hc, hv, hm, htl, hmem⟩
  subst ht
  exact (State.rs_ws s d d v).trans (if_pos ⟨rfl, hd⟩)

/-- A transfer of control without a link changes the PC, and nothing else that an instruction can see. -/
theorem frame_goTo (s : State) (pc : Word) (t : State) (ht : t = s.goTo pc) :
    t.hart.pc = pc ∧ OnlyHere s t ∧ SameScalars s t ∧ SameCaps s t ∧ SameVectors s t ∧ SameMasks s t ∧ SameTiles s t ∧ SameMemory s t := by
  obtain ⟨hpc, -, here, -, hc, hv, hm, htl, hmem⟩ := frame_ws_goTo s 0 0 pc t ht
  exact ⟨hpc, here, sameScalars_of (ht ▸ rfl), hc, hv, hm, htl, hmem⟩

/-! ### Branches and jumps -/

/-- A word offset counts fours of bytes. -/
theorem shiftLeft_two_eq_mul_four (x : Word) : x <<< 2 = x * 4 := BitVec.shiftLeft_eq_mul_twoPow x 2

/-- A branch goes to its target or past its word (R144). -/
theorem branch_eq (taken : Bool) (off : BitVec 13) (s : State) :
    branch taken off s = .next (s.goTo (if taken then s.hart.pc + off.signExtend 64 * 4 else s.hart.pc + 4)) := by
  cases taken
  · rfl
  · exact congrArg (fun x => Host.Outcome.next (s.goTo (s.hart.pc + x))) (shiftLeft_two_eq_mul_four _)

/-- Each conditional branch is a branch on its condition (R144). -/
theorem exec_branch {s : State} {a b : SReg} {off : BitVec 13} {i : Instr} {taken : Bool}
    (h : (i = .beq a b off ∧ taken = decide (s.rs a = s.rs b)) ∨ (i = .bne a b off ∧ taken = decide (s.rs a ≠ s.rs b)) ∨
      (i = .blt a b off ∧ taken = decide ((s.rs a).toInt < (s.rs b).toInt)) ∨
      (i = .bge a b off ∧ taken = decide ((s.rs b).toInt ≤ (s.rs a).toInt)) ∨
      (i = .bltu a b off ∧ taken = decide ((s.rs a).toNat < (s.rs b).toNat)) ∨
      (i = .bgeu a b off ∧ taken = decide ((s.rs b).toNat ≤ (s.rs a).toNat))) : exec i s = branch taken off s := by
  obtain ⟨rfl, rfl⟩ | ⟨rfl, rfl⟩ | ⟨rfl, rfl⟩ | ⟨rfl, rfl⟩ | ⟨rfl, rfl⟩ | ⟨rfl, rfl⟩ := h
  · rfl
  · exact congrArg (branch · off s) (decide_not ..).symm
  · rfl
  · exact congrArg (branch · off s) (by simp [BitVec.slt, ← decide_not])
  · rfl
  · exact congrArg (branch · off s) (by simp [BitVec.ult, ← decide_not])

/-- JALR to a target that may be fetched links and goes there (R165). -/
theorem execJalr_goes {s : State} {d a : SReg} {imm : BitVec 12}
    (h : capChecks s.who (s.rc 15) ((s.rs a).toNat + imm.toInt) 4 4 .fetch = none) :
    execJalr d a imm s = .next ((s.ws d (s.hart.pc + 4)).goTo (BitVec.ofInt 64 ((s.rs a).toNat + imm.toInt))) := by
  simp only [execJalr, h, tv]

/-- JALR to a target that fails a check traps, without a link (R165). -/
theorem execJalr_traps {s : State} {d a : SReg} {imm : BitVec 12} {c : Cause}
    (h : capChecks s.who (s.rc 15) ((s.rs a).toNat + imm.toInt) 4 4 .fetch = some c) :
    execJalr d a imm s = .next (s.takeTrap c (BitVec.ofInt 64 ((s.rs a).toNat + imm.toInt)) 4) := by
  simp only [execJalr, h, tv]

/-- Settles O14: each is one transfer of control, with a link or without, and a JALR that fails its check a trap. -/
theorem branchesAndJumps : Obligations.BranchesAndJumps := by
  refine ⟨fun s a b off i taken h => ?_, fun s d off => ?_, fun s d a imm h => ?_, fun s d a imm c h => execJalr_traps h⟩
  · exact ⟨_, (exec_branch h).trans (branch_eq taken off s), frame_goTo s _ _ rfl⟩
  · rw [← shiftLeft_two_eq_mul_four]
    exact ⟨_, rfl, frame_ws_goTo s d _ _ _ rfl⟩
  · exact ⟨_, execJalr_goes h, frame_ws_goTo s d _ _ _ rfl⟩

end Sys2Proof.Machine
end

section
/-! PROOFS. Illegal words, software traps, NOP, and IFENCE with the release that it makes: no access that is performed changes which context
issues, and none puts anything into a store queue (R115–R121, R126, R149, R176, R177, R261). -/

namespace Sys2Proof.Machine

/-- A run of changes that each keep a view of the state keeps it. -/
theorem foldl_keeps {α β : Type} {g : State → β} {f : State → α → State} (h : ∀ s a, g (f s a) = g s) (l : List α) (s : State) :
    g (l.foldl f s) = g s := by
  induction l generalizing s with
  | nil => rfl
  | cons a t ih => rw [List.foldl_cons, ih, h]

/-! ### Performing accesses at their homes leaves which context issues (R115–R117) -/

section
variable (s : State)

@[simp] theorem State.logErrors_here (a : Reader) (c : Nat) (l : List Nat) : (s.logErrors a c l).here = s.here :=
  foldl_keeps (g := State.here) (f := fun t w => t.logError a c w) (fun _ _ => rfl) _ _

@[simp] theorem State.writeHome_here (n : Nat) (cs : List Host.Cell) (b : Bool) : (s.writeHome n cs b).here = s.here :=
  foldl_keeps (g := State.here) (f := fun t w => t.logError .home n w) (fun _ _ => rfl) _ _

@[simp] theorem State.writeHomeBytes_here (n k : Nat) (bs : List Byte) : (s.writeHomeBytes n k bs).here = s.here := s.writeHome_here _ _ _

@[simp] theorem State.writeHomeNat_here (c k n x : Nat) : (s.writeHomeNat c k n x).here = s.here := s.writeHome_here _ _ _

@[simp] theorem State.countRefusal_here : s.countRefusal.here = s.here := rfl

@[simp] theorem State.atomicHome_here (c l op : Nat) (w v : Bool) (x : Nat) : (s.atomicHome c l op w v x).here = s.here := by
  simp only [State.atomicHome]
  repeat' split
  all_goals simp

@[simp] theorem State.postFault_here (c : CtxId) (op : Nat) (w v : Bool) (x : Word) (sp p l : Nat) (a : Word) (n : Nat) :
    (s.postFault c op w v x sp p l a n).here = s.here := by
  simp only [State.postFault]
  split <;> simp

@[simp] theorem State.sendRequest_here (k : Nat) (w : Sought) (t : List Bool) (bs : List Byte) : (s.sendRequest k w t bs).here = s.here := by
  unfold State.sendRequest
  split <;> rfl

@[simp] theorem State.sendLoad_here (k : Nat) : (s.sendLoad k).here = s.here := by
  unfold State.sendLoad
  split <;> simp

@[simp] theorem State.sendStore_here (cs : List Host.Cell) (b : Bool) : (s.sendStore cs b).here = s.here := by
  refine foldl_keeps (g := State.here) (fun t l => ?_) _ _
  dsimp only
  split <;> simp

@[simp] theorem State.storeHome_here (c : Nat) (cs : List Host.Cell) (b : Bool) : (s.storeHome c cs b).here = s.here := by
  simp only [State.storeHome]
  repeat' split
  all_goals simp

@[simp] theorem State.reduceHome_here (c : CtxId) (k op : Nat) (w v : Bool) (x : Word) (sp p l : Nat) (a : Word) :
    (s.reduceHome c k op w v x sp p l a).here = s.here := by
  simp [State.reduceHome, apply_ite State.here]

@[simp] theorem State.performAtHome_here (p : Pending) : (s.performAtHome p).here = s.here := by
  unfold State.performAtHome
  dsimp only
  repeat' split
  all_goals simp

@[simp] theorem State.leaveOutbound_here (p : Pending) : (s.leaveOutbound p).here = s.here := by
  cases p with
  | store | atomic => simp [State.leaveOutbound, apply_ite State.here]
  | act => rfl

@[simp] theorem State.drainOutboundTo_here (d : Nat) (f : Pending → Bool) : (s.drainOutboundTo d f).here = s.here :=
  foldl_keeps (g := State.here) State.leaveOutbound_here _ _

@[simp] theorem State.drainEgressTo_here (f : Pending → Bool) : (s.drainEgressTo f).here = s.here :=
  foldl_keeps (g := State.here) State.performAtHome_here _ _

@[simp] theorem State.releaseFrom_here (d n : Nat) : (s.releaseFrom d n).here = s.here := by
  simp [State.releaseFrom, State.drainOutbound, State.drainEgress, apply_ite State.here]

@[simp] theorem State.settleAtomics_here (d k n : Nat) : (s.settleAtomics d k n).here = s.here := by
  simp [State.settleAtomics, apply_ite State.here]

@[simp] theorem State.landAtomics_here (c : CtxId) (n : Nat) : (s.landAtomics c n).here = s.here := by
  simp [State.landAtomics, apply_ite State.here]

@[simp] theorem State.noteHead_here (q : Nat) (l : Latch) : (s.noteHead q l).here = s.here := by
  simp only [State.noteHead]
  repeat' split
  all_goals simp

@[simp] theorem State.latchWake_here (q : Nat) : (s.latchWake q).here = s.here := by
  simp only [State.latchWake]
  repeat' split
  all_goals rfl

@[simp] theorem State.counterWake_here (k : Nat) : (s.counterWake k).here = s.here :=
  (foldl_keeps (g := State.here) (f := fun t (p : Nat × Latch) => t.latchWake p.1) (fun t p => t.latchWake_here p.1) _ _).trans
    (foldl_keeps (g := State.here) (f := fun t (p : Nat × Latch) => t.noteHead p.1 p.2) (fun t p => t.noteHead_here p.1 p.2) _ _)

end

/-! ### What an entry of a store queue does adds nothing to a store queue (R119, R121, R261) -/

/-- The context that issues, and what stands in each store queue. -/
def State.queues (s : State) : CtxId × (CtxId → List Pending) := (s.here, fun e => (s.hartAt e).stores)

/-- A change outside the contexts leaves the store queues. -/
theorem queues_of_hartAt {s t : State} (here : t.here = s.here) (harts : ∀ e, t.hartAt e = s.hartAt e) : t.queues = s.queues := by
  simp only [State.queues, here, harts]

theorem here_of_queues {s t : State} (h : t.queues = s.queues) : t.here = s.here := congrArg Prod.fst h

/-- A change of a context changes no other, but for contexts of one key. -/
theorem State.hartAt_modHart_cases (s : State) (c e : CtxId) (f : Hart → Hart) :
    (s.modHart c f).hartAt e = s.hartAt e ∨ (s.modHart c f).hartAt e = f (s.hartAt e) := by
  unfold State.modHart State.setHart
  by_cases hc : c = s.here
  · by_cases he : e = s.here <;> simp [State.hartAt, hc, he]
  · by_cases he : e = s.here
    · simp [State.hartAt, hc, he]
    · by_cases hk : c.key = e.key
      · simp [State.hartAt, hc, he, hk]
      · simp [State.hartAt, hc, he, SMap.getD_insert_other _ _ _ hk]

/-- A change of a context that keeps its store queue keeps that of every context. -/
theorem State.modHart_queues (s : State) (c : CtxId) {f : Hart → Hart} (h : ∀ x, (f x).stores = x.stores) :
    (s.modHart c f).queues = s.queues := by
  refine Prod.ext (s.modHart_here c f) (funext fun e => ?_)
  obtain same | changed := s.hartAt_modHart_cases c e f
  · exact congrArg Hart.stores same
  · exact (congrArg Hart.stores changed).trans (h _)

section
variable (s : State)

@[simp] theorem State.trapAt_queues (c : CtxId) (x : Cause) (v : Word) (n : Nat) : (s.trapAt c x v n).queues = s.queues := by
  unfold State.trapAt
  split
  · rfl
  · exact s.modHart_queues c (f := fun h => { h with status := .trapped, trap := ⟨x, h.pc, v, n, s.polestar⟩, task := h.task.issued })
      fun _ => rfl

@[simp] theorem State.complete_queues (c : CtxId) (d : SReg) (v : Word) : (s.complete c d v).queues = s.queues :=
  s.modHart_queues c fun _ => rfl

@[simp] theorem State.holdAt_queues (c : CtxId) (h i : Nat) (b : Bool) : (s.holdAt c h i b).queues = s.queues :=
  s.modHart_queues c fun _ => rfl

@[simp] theorem State.chReserve_queues (h k : Nat) (c : Channel) : (s.chReserve h k c).queues = s.queues := rfl

@[simp] theorem State.chTake_queues (h : Nat) (c : Channel) : (s.chTake h c).queues = s.queues := rfl

@[simp] theorem State.tryWait_queues (c : CtxId) : (s.tryWait c).queues = s.queues := by
  have drained : ∀ (q : QReg) (z : Stream), (s.modHart c fun h => { h with q := h.q.set q.toNat z q.isLt }).queues = s.queues :=
    fun q z => s.modHart_queues c fun _ => rfl
  unfold State.tryWait
  dsimp only
  repeat' split
  all_goals simp [drained]

@[simp] theorem State.wakeOn_queues (f : Wait → Bool) (g : Cont → Bool) : (s.wakeOn f g).queues = s.queues :=
  foldl_keeps (g := State.queues) State.tryWait_queues _ _

@[simp] theorem State.signal_queues (k n : Nat) (b : Bool) : (s.signal k n b).queues = s.queues := by
  unfold State.signal
  exact (State.wakeOn_queues _ _ _).trans (queues_of_hartAt (State.counterWake_here _ k) fun e => State.counterWake_hartAt _ e k)

@[simp] theorem State.serveChannel_queues (h : Nat) : (s.serveChannel h).queues = s.queues :=
  (foldl_keeps (g := State.queues) State.tryWait_queues _ _).trans (foldl_keeps (g := State.queues) State.tryWait_queues _ _)

@[simp] theorem State.pushSlot_queues (h i : Nat) : (s.pushSlot h i).queues = s.queues := by
  unfold State.pushSlot State.fillSlot
  repeat' split
  · exact State.serveChannel_queues _ h
  all_goals rfl

@[simp] theorem State.accept_queues (c : CtxId) (a : Act) : (s.accept c a).queues = s.queues := by
  cases a with
  | signal => exact s.signal_queues _ _ _
  | push => exact s.pushSlot_queues _ _
  | copy | job | coll | token | fence => rfl

@[simp] theorem State.landAtomics_queues (c : CtxId) (n : Nat) : (s.landAtomics c n).queues = s.queues :=
  queues_of_hartAt (s.landAtomics_here c n) fun e => s.landAtomics_hartAt e c n

@[simp] theorem State.releaseFrom_queues (d n : Nat) : (s.releaseFrom d n).queues = s.queues :=
  queues_of_hartAt (s.releaseFrom_here d n) fun e => s.releaseFrom_hartAt e d n

/-- An access goes on to a buffer or its home, an act to what it changes, and neither into a store queue (R115, R121). -/
@[simp] theorem State.leaveQueue_queues (p : Pending) : (s.leaveQueue p).queues = s.queues := by
  cases p with
  | store | atomic =>
    refine queues_of_hartAt ?_ fun e => ?_
    all_goals
      simp only [State.leaveQueue]
      repeat' split
      all_goals simp
  | act => simp [State.leaveQueue]

@[simp] theorem State.leaveNext_queues (c : CtxId) (p : Pending) : (s.leaveNext c p).queues = s.queues := by
  simp [State.leaveNext, apply_ite State.queues]

end

/-! ### Performing loads leaves which context issues (R116, R119) -/

section
variable (s : State) (c : CtxId)

@[simp] theorem State.drainBefore_here (n : Nat) : (s.drainBefore c n).here = s.here :=
  (here_of_queues (foldl_keeps (g := State.queues) (fun t p => t.leaveNext_queues c p) _ _)).trans (s.modHart_here _ _)

@[simp] theorem State.settleFor_here (o k n : Nat) : (s.settleFor c o k n).here = s.here := by
  simp [State.settleFor, apply_ite State.here]

@[simp] theorem State.performUnit_here (i : Nat) : (s.performUnit c i).here = s.here := by
  have received : ∀ u : State, (match (u.hartAt c).loads with
      | r :: rest => if r.elems.all fun e => e.got.isSome then u.modHart c fun h => { h.receive r with loads := rest } else u
      | [] => u).here = u.here := by
    intro u
    repeat' split
    all_goals simp
  unfold State.performUnit
  split
  · rfl
  · refine (received _).trans ?_
    split
    · simp only [apply_ite State.here, State.modHart_here, State.logErrors_here, State.countRefusal_here, State.sendLoad_here,
        State.settleFor_here, ite_self]
    · rfl

@[simp] theorem State.performOldest_here : (s.performOldest c).here = s.here := by
  simp only [State.performOldest]
  repeat' split
  · rfl
  · exact s.performUnit_here c _
  · exact foldl_keeps (g := State.here) (fun t i => t.performUnit_here c i) _ _

@[simp] theorem State.performLoads_here : (s.performLoads c).here = s.here :=
  foldl_keeps (g := State.here) (fun t _ => t.performOldest_here c) _ _

end

/-! ### A release leaves the store queue empty (R119, R120, R126) -/

/-- A context whose store queue drains has nothing in it, and the same context issues. -/
theorem State.drainStores_queues (s : State) (c : CtxId) :
    (s.drainStores c).queues = ((s.performLoads c).modHart c fun h => { h with stores := [] }).queues :=
  foldl_keeps (g := State.queues) (fun t p => t.leaveNext_queues c p) _ _

/-- After a release the issuing task has no access left in its store queue (R126). -/
theorem State.release_stores (s : State) (scope : Nat) : (s.release scope).hart.stores = [] := by
  have drained : (s.release scope).queues = ((s.performLoads s.here).modHart s.here fun h => { h with stores := [] }).queues := by
    rw [State.release, State.drainQueue, State.drainCtx, State.releaseFrom_queues, State.landAtomics_queues, State.drainStores_queues]
  have here : (s.release scope).here = s.here := by rw [here_of_queues drained, State.modHart_here, State.performLoads_here]
  have own := congrFun (congrArg Prod.snd drained) s.here
  simp only [State.queues, State.hartAt_modHart] at own
  rwa [← here, State.hartAt_here] at own

/-! ### Software traps, NOP and IFENCE -/

/-- A context that discards the words fetched ahead and goes on past its instruction (R177). -/
theorem hart_forget_advance (u : State) : ((u.mod fun h => { h with ahead := [] }).advance 4).hart =
    Hart.goOn { u.hart with ahead := [] } (u.hart.pc + 4) := rfl

/-- Settles O31: the traps are the model's, NOP is a transfer of control to the next word, and IFENCE begins with a release. -/
theorem illegalWordsAndSoftwareTraps : Obligations.IllegalWordsAndSoftwareTraps := by
  refine ⟨fun s w long => rfl, fun s a => rfl, fun s => rfl, fun s => ⟨_, rfl, ?_⟩, fun s => ⟨_, rfl, ?_⟩⟩
  · exact frame_goTo s (s.hart.pc + 4) _ rfl
  · rw [hart_forget_advance]
    exact ⟨rfl, s.release_stores 1, rfl⟩

end Sys2Proof.Machine
end

section
/-! PROOFS. Scalar arithmetic: the result that each instruction writes, as machine words, and division (R156–R161). -/

namespace Sys2Proof.Machine

/-! ### Comparisons and counts of bits (R157, R159) -/

/-- A choice on a signed comparison of words is one on their values. -/
theorem ite_slt (x y v w : Word) : (if x.slt y then v else w) = if x.toInt < y.toInt then v else w := by
  simp only [BitVec.slt_iff_toInt_lt]

/-- A choice on an unsigned comparison of words is one on their values. -/
theorem ite_ult (x y v w : Word) : (if x.ult y then v else w) = if x.toNat < y.toNat then v else w := by
  simp only [BitVec.ult_iff_toNat_lt]

theorem flagWord1_slt (x y : Word) : flagWord1 (x.slt y) = if x.toInt < y.toInt then 1 else 0 := ite_slt x y 1 0

theorem flagWord1_ult (x y : Word) : flagWord1 (x.ult y) = if x.toNat < y.toNat then 1 else 0 := ite_ult x y 1 0

/-- A signed comparison with an immediate is one with the value it denotes (R147, R159). -/
theorem flagWord1_slt_signExtend (x : Word) (imm : BitVec 12) :
    flagWord1 (x.slt (imm.signExtend 64)) = if x.toInt < imm.toInt then 1 else 0 := by
  rw [flagWord1_slt, BitVec.toInt_signExtend_of_le (by decide)]

/-- A bit of a word's number is the word's bit. -/
theorem bitOf_toNat {w : Nat} (x : BitVec w) (k : Nat) : bitOf x.toNat k = x.getLsbD k := by
  rw [bitOf, ← Nat.testBit_eq_decide_div_mod_eq, BitVec.testBit_toNat]

theorem clzNat_toNat (x : Word) : clzNat 64 x.toNat = if x = 0 then 64 else 63 - Nat.log2 x.toNat := by
  simp [clzNat, BitVec.toNat_eq]

theorem ctzNat_toNat (x : Word) : ctzNat 64 x.toNat = ((List.range 64).find? fun k => x.getLsbD k).getD 64 := by
  simp only [ctzNat, bitOf_toNat]

theorem popNat_toNat (x : Word) : popNat 64 x.toNat = ((List.range 64).filter fun k => x.getLsbD k).length := by
  simp only [popNat, bitOf_toNat]

/-! ### Quotients and remainders of words (R158) -/

theorem toInt_eq_zero_iff (x : Word) : x.toInt = 0 ↔ x = 0 := BitVec.toInt_inj (y := (0 : Word))

theorem toNat_eq_zero_iff (x : Word) : (x.toNat : Int) = 0 ↔ x = 0 := by
  rw [Int.natCast_eq_zero, BitVec.toNat_eq]; rfl

/-- A word that has the value of an integer modulo 2^64 is that integer's word. -/
theorem ofInt_eq_of_toInt {i : Int} {x : Word} (h : x.toInt = i.bmod (2 ^ 64)) : BitVec.ofInt 64 i = x :=
  BitVec.eq_of_toInt_eq (by rw [BitVec.toInt_ofInt, h])

/-- The signed quotient is the words' own, which wraps in the overflowing case. -/
theorem quotient_toInt (x y : Word) : quotient x.toInt y.toInt = if y = 0 then BitVec.allOnes 64 else x.sdiv y := by
  simp only [quotient, toInt_eq_zero_iff, ofInt_eq_of_toInt (BitVec.toInt_sdiv x y)]

/-- The unsigned quotient is the words' own. -/
theorem quotient_toNat (x y : Word) : quotient x.toNat y.toNat = if y = 0 then BitVec.allOnes 64 else x / y := by
  simp only [quotient, toNat_eq_zero_iff, ← Int.ofNat_tdiv, BitVec.ofInt_natCast, ← BitVec.toNat_udiv, BitVec.ofNat_toNat,
    BitVec.setWidth_eq]

/-- The remainder is the dividend less quotient times divisor, a zero divisor included. -/
theorem remainder_eq_tmod (x y : Int) : remainder x y = BitVec.ofInt 64 (x.tmod y) := by
  rw [remainder, Int.tmod_def, mul_comm y]
  split
  · simp [*]
  · rfl

/-- The signed remainder is the words' own. -/
theorem remainder_toInt (x y : Word) : remainder x.toInt y.toInt = x.srem y := by
  rw [remainder_eq_tmod, ← BitVec.toInt_srem, BitVec.ofInt_toInt]

/-- The unsigned remainder is the words' own. -/
theorem remainder_toNat (x y : Word) : remainder x.toNat y.toNat = x % y := by
  rw [remainder_eq_tmod, ← Int.ofNat_tmod, BitVec.ofInt_natCast, ← BitVec.toNat_umod, BitVec.ofNat_toNat, BitVec.setWidth_eq]

/-! ### What each instruction writes -/

/-- Results that are equal words are written alike. -/
theorem scalarResult_of_eq {n : Nat} {d : SReg} {v w : Word} {s : State} (h : v = w) :
    scalarResult n d v s = .next ((s.ws d w).advance n) := h ▸ rfl

/-- Settles O11: most results stand in the model as in the tables, and the others are the words' own operations. -/
theorem scalarInstructionsWriteTheirResult : Obligations.ScalarInstructionsWriteTheirResult := by
  intro i d f h s
  cases i with
  | add | sub | and | or | xor | andn | sll | srl | sra | ror | mulh | mulhu | addi | andi | ori | xori | slli | srli | srai
  | lih | addpc | liw | addiw => cases h; rfl
  | slt => cases h; exact scalarResult_of_eq (flagWord1_slt _ _)
  | slti => cases h; exact scalarResult_of_eq (flagWord1_slt_signExtend _ _)
  | sltu | sltiu => cases h; exact scalarResult_of_eq (flagWord1_ult _ _)
  | min | max => cases h; exact scalarResult_of_eq (ite_slt _ _ _ _)
  | minu | maxu => cases h; exact scalarResult_of_eq (ite_ult _ _ _ _)
  | mul => cases h; exact scalarResult_of_eq (BitVec.mul_def ..)
  | div => cases h; exact scalarResult_of_eq (quotient_toInt _ _)
  | divu => cases h; exact scalarResult_of_eq (quotient_toNat _ _)
  | rem => cases h; exact scalarResult_of_eq (remainder_toInt _ _)
  | remu => cases h; exact scalarResult_of_eq (remainder_toNat _ _)
  | clz => cases h; exact scalarResult_of_eq (congrArg _ (clzNat_toNat _))
  | ctz => cases h; exact scalarResult_of_eq (congrArg _ (ctzNat_toNat _))
  | popc => cases h; exact scalarResult_of_eq (congrArg _ (popNat_toNat _))
  | _ => cases h

/-! ### Division (R158) -/

/-- The most negative dividend and the divisor minus one: the quotient wraps to the dividend, and nothing remains. -/
theorem divide_overflow {x y : Word} (hy : y = BitVec.allOnes 64) (hx : x = BitVec.ofNat 64 (2 ^ 63)) : x.sdiv y = x ∧ x.srem y = 0 := by
  subst hx hy
  decide

/-- Every other signed quotient by a divisor that is not zero is exact, rounded toward zero, with its remainder. -/
theorem divide_exact {x y : Word} (h : ¬ (y = BitVec.allOnes 64 ∧ x = BitVec.ofNat 64 (2 ^ 63))) :
    (x.sdiv y).toInt = x.toInt.tdiv y.toInt ∧ (x.srem y).toInt = x.toInt - (x.sdiv y).toInt * y.toInt := by
  have fits : (x.sdiv y).toInt = x.toInt.tdiv y.toInt :=
    BitVec.toInt_sdiv_of_ne_or_ne x y ((not_and_or.mp h).symm)
  exact ⟨fits, by rw [BitVec.toInt_srem, fits, Int.tmod_def, mul_comm]⟩

/-- The unsigned quotient and remainder of words are those of their numbers. -/
theorem divide_unsigned (x y : Word) : (x / y).toNat = x.toNat / y.toNat ∧ (x % y).toNat = x.toNat - (x / y).toNat * y.toNat :=
  ⟨BitVec.toNat_udiv, by rw [BitVec.toNat_umod, BitVec.toNat_udiv, Nat.mod_eq_sub_div_mul]⟩

/-- Settles O13: the four results are those of the scalar table, one fact of word division for each of its cases. -/
theorem divisionIdentity : Obligations.DivisionIdentity := by
  intro s d a b
  refine ⟨_, _, _, _, scalarInstructionsWriteTheirResult (.div d a b) d _ rfl s, scalarInstructionsWriteTheirResult (.rem d a b) d _ rfl s,
    scalarInstructionsWriteTheirResult (.divu d a b) d _ rfl s, scalarInstructionsWriteTheirResult (.remu d a b) d _ rfl s,
    fun zero => ?_, fun hb ha => ?_, fun nonzero fits => ?_, fun nonzero => ?_⟩
  · simp [zero]
  · rw [if_neg (by rw [hb]; decide)]
    exact divide_overflow hb ha
  · rw [if_neg nonzero]
    exact divide_exact fits
  · rw [if_neg nonzero]
    exact divide_unsigned _ _

end Sys2Proof.Machine
end

section
/-! PROOFS. Vector, mask and element instructions: each is one vector operation with its own word, its allowed types and its next state
(R180–R188, R202, R204, R213, R214). -/

namespace Sys2Proof.Machine

/-! ### A vector operation -/

/-- In an element type that it does not allow, a vector operation traps with its word (R180). -/
theorem vectorOp_refused {s : State} (hf : s.isFw = false) {allowed : Nat → Bool} (ha : allowed s.vt = false) (word : Word) (t : State) :
    vectorOp word allowed s t = .next (s.takeTrap .illegal word 4) := by
  rw [vectorOp, taskOnly_task hf, if_neg (ha ▸ Bool.false_ne_true), finish_trap]

/-- The arithmetic, compare, bitwise, movement, reduction, bit-plane, mask and element instructions are vector operations with the types
and the next state of their row. -/
theorem exec_vecOp {i : Instr} {allowed : Nat → Bool} {f : State → State} (h : Claims.vecOp i = some (allowed, f)) (s : State) :
    exec i s = vectorOp (tvalWord i) allowed s (f s) := by
  cases i with
  -- floating-point arithmetic (R183–R185)
  | vfadd | vfsub | vfmul | vfma | vfms | vfnma | vfnms | vfmin | vfmax | vfminm | vfmaxm | vfdiv | vfabs | vfneg | vfsgnj | vfsqrt
  | vfrcp | vfrsq | vfexp2 | vflog2 | vftanh => cases h; rfl
  -- compares (R186)
  | vfceq | vfcne | vfclt | vfcle | vfcun | vceq | vcne | vclt | vcle | vcltu | vcleu => cases h; rfl
  -- integer arithmetic, bitwise forms, shifts and counts (R187, R188)
  | vadd | vsub | vadds | vsubs | vmul | vmulh | vmulhu | vmin | vmax | vminu | vmaxu | vabs | vand | vor | vxor | vandn | vnot | vsll
  | vsrl | vsra | vpopc | vclz => cases h; rfl
  -- lane movement (R202, R203)
  | vperm | vslideup | vslidedn | vziplo | vziphi | vrev | vcompr | vexpnd | vsel => cases h; rfl
  -- reductions and bit planes (R204, R212)
  | vrsum | vrmax | vrmin | vrmaxi | vrmini | vrand | vror | vbpt | vbpu => cases h; rfl
  -- masks (R213)
  | kand | kor | kxor | knot | kmov | kset | kpop | kfirst => cases h; rfl
  -- VTYPE, flags, element moves and random words (R179, R197, R198, R214, R215)
  | vsett | vmvs | vmve | vins | vid | vrng | vmov | vflgrd | vflgclr => cases h; rfl
  | _ => cases h

/-- The state after a longer rule: the flags accrued and one vector result, or for VSPC one vector result and its mask. -/
def State.ruleResult (s : State) (d : VReg) (km : Option KReg) (nf : Bool) (fl : BitVec 320) (x : VBits) (m : KBits) : State :=
  match km with
  | none => (s.accrue nf fl).wv d x
  | some k => (s.wv d x).wk k m

/-- The conversions, scans, ranking, sparsity and noise forms are vector operations that answer such a state (R189–R196, R206, R207, R210,
R211, R216). -/
theorem exec_vecRule {i : Instr} {allowed : Nat → Bool} {d : VReg} {km : Option KReg} (h : Claims.vecRule i = some (allowed, d, km))
    (s : State) : ∃ (nf : Bool) (fl : BitVec 320) (x : VBits) (m : KBits),
      exec i s = vectorOp (tvalWord i) allowed s (s.ruleResult d km nf fl x m) := by
  cases i with
  | vcvt | vcvtsat | vqfp4 | vdqfp4 | vqfp8 | vblksc | vbndsc | vscans | vtopk | vspx | vgumb => cases h; exact ⟨_, _, _, 0, rfl⟩
  | vspc => cases h; exact ⟨true, 0, _, _, rfl⟩
  | _ => cases h

/-- Settles O51: each instruction is a vector operation with its own word, and such an operation completes or traps by its type. -/
theorem vectorInstructionsComplete : Obligations.VectorInstructionsComplete := by
  refine ⟨fun i allowed f h s hf => ?_, fun i allowed d km h s hf _ => ?_, fun s d a t r k n hf ht => ?_⟩
  · rw [exec_vecOp h s]
    exact ⟨fun ha => vectorOp_allowed hf ha _ _, fun ha => vectorOp_refused hf ha _ _⟩
  · obtain ⟨nf, fl, x, m, answer⟩ := exec_vecRule h s
    rw [answer]
    exact ⟨fun ha => ⟨nf, fl, x, m, vectorOp_allowed hf ha _ _⟩, fun ha => vectorOp_refused hf ha _ _⟩
  · have other : decide (s.vt ≠ t.toNat) = true := decide_eq_true ht
    exact ⟨vectorOp_allowed (allowed := fun v => decide (v ≠ t.toNat)) hf other _ _,
      vectorOp_allowed (allowed := fun v => decide (v ≠ t.toNat)) hf other _ _⟩

end Sys2Proof.Machine
end

section
/-! PROOFS. Tile instructions without memory access: each is one tile operation with its own word, the tiles that it names, the check
of its operands and its next state (R224–R229). -/

namespace Sys2Proof.Machine

/-! ### A tile operation (R224) -/

/-- What a tile operation does matters only when its operands are in range. -/
theorem tileOp_congr {ok : Bool} {r r' : R Unit} (h : ok = true → r = r') (word : Word) (names : List TReg) (s : State) :
    tileOp word names ok s r = tileOp word names ok s r' := by
  cases ok with
  | true => rw [h rfl]
  | false => rfl

section
variable {s : State} (hf : s.isFw = false) {names : List TReg}
include hf

/-- With its tiles configured and an operand out of range, a tile operation traps with its word. -/
theorem tileOp_refused (hs : ∀ t ∈ names, s.shape t ≠ 0) (word : Word) (r : R Unit) :
    tileOp word names false s r = .next (s.takeTrap .illegal word 4) :=
  tileOp_configured hf hs (ok := true) rfl word (.trap .illegal word s)

/-- With a tile that is not configured, a tile operation traps with the lowest number of such a tile. -/
theorem tileOp_unconfigured {r : TReg} (hr : r ∈ names) (hz : s.shape r = 0) (low : ∀ q ∈ names, s.shape q = 0 → r.toNat ≤ q.toNat)
    (word : Word) (ok : Bool) (x : R Unit) :
    tileOp word names ok s x = .next (s.takeTrap .tileUnconfigured (BitVec.ofNat 64 r.toNat) 4) := by
  have lowest : ((List.range 8).find? fun n => names.any fun t => t.toNat = n && s.shape t = 0) = some r.toNat := by
    rw [List.find?_range_eq_some]
    refine ⟨?_, List.mem_range.2 r.isLt, fun n hn => ?_⟩
    · exact List.any_eq_true.2 ⟨r, hr, by simp [hz]⟩
    · have above : ∀ q ∈ names, q.toNat = n → s.shape q ≠ 0 := fun q hq hqn hqz => by
        have := low q hq hqz
        omega
      simpa using above
  unfold tileOp
  rw [taskOnly_task hf, lowest]
  rfl

end

/-! ### The instructions (R225, R227–R229) -/

/-- Configuration, the moves, transposition and TMMA are tile operations with the tiles, the check and the next state of their row. -/
theorem exec_tileResult {i : Instr} {s : State} {p : Prop} {t : State} (h : Claims.tileResult s i = some (p, t)) :
    ∃ ok : Bool, (ok = true ↔ p) ∧ exec i s = tileOp (tvalWord i) (Claims.tileNames i) ok s (.ok () t) := by
  cases i with
  | tcfg => cases h; exact ⟨_, Iff.rfl, rfl⟩
  | tzero | trel => cases h; exact ⟨true, iff_true_intro rfl, rfl⟩
  | trowv | tcolv | tvrow | tvcol => cases h; exact ⟨_, decide_eq_true_iff, rfl⟩
  | ttrans d a => cases h; exact ⟨transShapes (s.shape d) (s.shape a), by simp [transShapes, and_assoc], rfl⟩
  | tmma d a b =>
    cases h
    -- the model takes no result rows where the shapes disagree
    refine ⟨mmaShapes s.vt (s.shape d) (s.shape a) (s.shape b) && d ≠ a && d ≠ b, by simp [and_assoc], tileOp_congr (fun ok => ?_) _ _ _⟩
    simp only [ok, if_true]
  | _ => cases h

/-- Settles O44: each instruction is a tile operation with its own word, and such an operation completes or traps by its operands and
tiles. -/
theorem tileInstructionsComplete : Obligations.TileInstructionsComplete := by
  intro i s p t h hf
  obtain ⟨ok, inRange, answer⟩ := exec_tileResult h
  rw [answer]
  refine ⟨fun hs hp => ?_, fun hs hp => ?_, fun r hr hz low => ?_⟩
  · rw [tileOp_configured hf hs (inRange.2 hp), finish_ok]
  · have refused : ok = false := Bool.eq_false_iff.2 fun good => hp (inRange.1 good)
    rw [refused, tileOp_refused hf hs]
  · exact tileOp_unconfigured hf hr hz low _ _ _

end Sys2Proof.Machine
end

section
/-! PROOFS. The arithmetic of counters and the phases of stage barriers: the word that a signal leaves, and the bytes that a write of a barrier
leaves (R262–R264, R266). -/

namespace Sys2Proof.Machine

/-! ### Counters (R262, R263) -/

/-- The word after an increment, as a number: the sum up to the largest value, with the poison bit above it (R262). -/
theorem ctrAdd_toNat (c : BitVec 64) (inc : Nat) (p : Bool) : (ctrAdd c inc p).toNat =
    Nat.min (ctrValue c + inc) (2 ^ 63 - 1) + if ctrPoison c || p then 2 ^ 63 else 0 := by
  have largest : Nat.min (ctrValue c + inc) (2 ^ 63 - 1) ≤ 2 ^ 63 - 1 := Nat.min_le_right _ _
  refine (BitVec.toNat_ofNat _ _).trans (Nat.mod_eq_of_lt ?_)
  split <;> omega

theorem ctrValue_ctrAdd (c : BitVec 64) (inc : Nat) (p : Bool) :
    ctrValue (ctrAdd c inc p) = if ctrValue c + inc < 2 ^ 63 then ctrValue c + inc else 2 ^ 63 - 1 := by
  rw [ctrValue, ctrAdd_toNat]
  simp only [Nat.min_def]
  split_ifs <;> omega

theorem ctrPoison_ctrAdd (c : BitVec 64) (inc : Nat) (p : Bool) : ctrPoison (ctrAdd c inc p) = (ctrPoison c || p) := by
  have largest : Nat.min (ctrValue c + inc) (2 ^ 63 - 1) ≤ 2 ^ 63 - 1 := Nat.min_le_right _ _
  rw [ctrPoison, ← bitOf_toNat, ctrAdd_toNat, bitOf]
  cases ctrPoison c || p
  · simp only [Bool.false_eq_true, if_false, decide_eq_false_iff_not]
    omega
  · simp only [if_true, decide_eq_true_eq]
    omega

section
variable (s : State)

/-- A wait that is looked at changes no counter. -/
@[simp] theorem State.tryWait_counters (c : CtxId) : (s.tryWait c).shared.counters = s.shared.counters := by
  unfold State.tryWait
  dsimp only
  repeat' split
  all_goals simp [State.trapAt, State.firmwareFault, State.trapContext, State.complete, State.holdAt, State.chReserve, State.chTake,
    State.setChannel, apply_ite State.shared]

@[simp] theorem State.wakeOn_counters (f : Wait → Bool) (g : Cont → Bool) : (s.wakeOn f g).shared.counters = s.shared.counters :=
  foldl_keeps (g := fun t : State => t.shared.counters) State.tryWait_counters _ _

@[simp] theorem State.logErrors_shared (a : Reader) (c : Nat) (l : List Nat) : (s.logErrors a c l).shared = s.shared :=
  foldl_keeps (g := State.shared) (f := fun t w => t.logError a c w) (fun _ _ => rfl) _ _

@[simp] theorem State.noteHead_shared (q : Nat) (l : Latch) : (s.noteHead q l).shared = s.shared := by
  unfold State.noteHead
  dsimp only
  repeat' split
  all_goals simp

@[simp] theorem State.latchWake_shared (q : Nat) : (s.latchWake q).shared = s.shared := by
  unfold State.latchWake
  dsimp only
  repeat' split
  all_goals rfl

/-- Queues that latch a wake change no synchronising object (R381). -/
@[simp] theorem State.counterWake_shared (k : Nat) : (s.counterWake k).shared = s.shared :=
  (foldl_keeps (g := State.shared) (f := fun t (p : Nat × Latch) => t.latchWake p.1) (fun t p => t.latchWake_shared p.1) _ _).trans
    (foldl_keeps (g := State.shared) (f := fun t (p : Nat × Latch) => t.noteHead p.1 p.2) (fun t p => t.noteHead_shared p.1 p.2) _ _)

/-- A signal writes its counter, whoever it wakes (R263). -/
theorem State.signal_counters (k inc : Nat) (p : Bool) :
    (s.signal k inc p).shared.counters = s.shared.counters.insert k (ctrAdd (s.counter k) inc p) := by
  simp [State.signal]

end

/-- Settles O34, by the sum as a number and the one entry of the counters that a signal writes. -/
theorem counterArithmetic : Obligations.CounterArithmetic := by
  refine ⟨fun c inc p => ⟨ctrValue_ctrAdd c inc p, ctrPoison_ctrAdd c inc p⟩, fun s k inc p => ⟨?_, fun j hj => ?_⟩⟩
  · rw [State.counter, State.signal_counters]
    exact SMap.getD_insert_same _ _ _ _
  · rw [State.counter, State.signal_counters]
    exact SMap.getD_insert_other _ _ _ hj.symm

/-! ### The bytes of a barrier (R264, R266) -/

/-- The bytes of a number spell its low bits. -/
theorem leNat_leBytes (n x : Nat) : leNat (leBytes n x) = x % 2 ^ (8 * n) := by
  induction n generalizing x with
  | zero => simp [leBytes, leNat, Nat.mod_one]
  | succ n ih =>
    have power : 2 ^ (8 * (n + 1)) = 256 * 2 ^ (8 * n) := by rw [Nat.mul_succ, Nat.pow_add, Nat.mul_comm]
    simp [leBytes, leNat, ih, power, Nat.mod_mul]

/-- A word read as a signed number. -/
theorem sextInt_toNat (x : Word) : sextInt x.toNat 64 = x.toInt := by
  have small := x.isLt
  rw [sextInt, BitVec.toInt_eq_toNat_cond, Nat.mod_eq_of_lt small]
  split_ifs <;> omega

/-- A number of 64 signed bits is kept by a word. -/
theorem toInt_ofInt_64 {x : Int} (low : -2 ^ 63 ≤ x) (high : x < 2 ^ 63) : (BitVec.ofInt 64 x).toInt = x := by
  rw [BitVec.toInt_ofInt]
  exact Int.bmod_eq_of_le (by omega) (by omega)

/-- A barrier of which every field fits its bytes (R264). -/
structure Barrier.Fits (b : Barrier) : Prop where
  count : b.count < 2 ^ 16
  left : b.left < 2 ^ 16
  phase : b.phase < 2 ^ 31
  low : -2 ^ 63 ≤ b.pend
  high : b.pend < 2 ^ 63

theorem Barrier.Fits.held {b : Barrier} (h : b.Fits) : b.held = b := by
  rw [Barrier.held, toInt_ofInt_64 h.low h.high]

/-- The completion check leaves fields that fit (R266). -/
theorem Barrier.Fits.check {b : Barrier} (h : b.Fits) : b.check.Fits := by
  unfold Barrier.check
  split
  · exact ⟨h.count, h.count, Nat.mod_lt _ (by decide), by simp, by simp⟩
  · exact h

/-- A number written among consecutive bytes is read back at its place. -/
theorem State.homeNat_written {s : State} (hs : s.memOk) (c k a n x : Nat) (bs : List Byte) (inside : a + n ≤ bs.length)
    (there : (bs.drop a).take n = leBytes n x) : (s.writeHomeBytes c k bs).homeNat (k + a) n = x % 2 ^ (8 * n) := by
  rw [State.homeNat, State.homeBytes_written hs c k a n bs inside, there, leNat_leBytes]

/-- The sixteen bytes of a barrier hold its fields (R264). -/
theorem State.barrierAt_written {s : State} (hs : s.memOk) (c k : Nat) {b : Barrier} (h : b.Fits) :
    (s.writeHomeBytes c k b.bytes).barrierAt k = b := by
  obtain ⟨hcount, hleft, hphase, hlow, hhigh⟩ := h
  have count : (s.writeHomeBytes c k b.bytes).homeNat k 2 = _ := State.homeNat_written hs c k 0 2 b.count b.bytes (by simp [Barrier.bytes]) rfl
  have left := State.homeNat_written hs c k 2 2 b.left b.bytes (by simp [Barrier.bytes]) rfl
  have phase := State.homeNat_written hs c k 4 4 (b.phase + if b.err then 2 ^ 31 else 0) b.bytes (by simp [Barrier.bytes]) rfl
  have pend := State.homeNat_written hs c k 8 8 (BitVec.ofInt 64 b.pend).toNat b.bytes (by simp [Barrier.bytes]) rfl
  rw [Nat.mod_eq_of_lt (BitVec.isLt _)] at pend
  rw [State.barrierAt, count, left, phase, pend, sextInt_toNat, toInt_ofInt_64 hlow hhigh, Nat.mod_eq_of_lt hcount, Nat.mod_eq_of_lt hleft]
  obtain ⟨bcount, bleft, bphase, berr, bpend⟩ := b
  have low : (bphase + if berr = true then 2 ^ 31 else 0) % 2 ^ (8 * 4) % 2 ^ 31 = bphase := by
    dsimp only at hphase
    split_ifs <;> omega
  have high : bitOf ((bphase + if berr = true then 2 ^ 31 else 0) % 2 ^ (8 * 4)) 31 = berr := by
    dsimp only at hphase
    unfold bitOf
    cases berr
    · simp; omega
    · simp; omega
  rw [low, high]

/-- A barrier is read from memory alone (R264). -/
theorem State.barrierAt_of_mem {s t : State} (mem : t.mem = s.mem) (k : Nat) : t.barrierAt k = s.barrierAt k := by
  have byte : t.homeByte = s.homeByte := funext fun j => congrArg (memGet · j) mem
  simp only [State.barrierAt, State.homeNat, State.homeBytes, byte]

/-- Tasks that look at a barrier leave its bytes, so what a write leaves is the barrier after its completion check (R264, R266). -/
theorem State.barrierAt_setBarrier {s : State} (hs : s.memOk) (k : Nat) {b : Barrier} (h : b.Fits) :
    (s.setBarrier k b).barrierAt k = b.check := by
  have bytes : (s.setBarrier k b).mem = (s.writeHomeBytes s.here.core k b.held.check.bytes).mem := State.wakeOn_mem _ _ _
  rw [State.barrierAt_of_mem bytes, h.held, State.barrierAt_written hs _ k h.check]

/-- Settles O36, by the fields that the sixteen bytes written hold. -/
theorem barrierPhaseCompletes : Obligations.BarrierPhaseCompletes := by
  intro s k b hs hcount hleft hphase hlow hhigh
  rw [State.barrierAt_setBarrier hs k ⟨hcount, hleft, hphase, hlow, hhigh⟩, Barrier.check]
  refine ⟨fun arrived done => ?_, fun more => ?_⟩
  · rw [if_pos ⟨arrived, done⟩]
  · rw [if_neg (by omega)]

end Sys2Proof.Machine
end

section
/-! PROOFS. The instructions on stage barriers: what each does on a barrier whose access passes (R260, R264–R267). -/

namespace Sys2Proof.Machine

section
variable {s u : State} {c : CReg} {k : Nat}

/-- BARINIT writes a fresh barrier, those blocked at the old one stalled; a count of 0 is illegal (R265). -/
theorem execBarinit_passed (hf : s.isFw = false) (ref : s.barrierRef (s.rc c) 0 = .ok k u) (b : SReg) : execBarinit c b s =
    .next (if (u.rs b).toNat % 2 ^ 16 = 0 then u.takeTrap .illegal (u.rs b) 4 else ((u.stallWaiters k).setBarrier k
      ⟨(u.rs b).toNat % 2 ^ 16, (u.rs b).toNat % 2 ^ 16, 0, false, 0⟩).advance 4) := by
  simp only [execBarinit, taskOnly_task hf, ref, R.bind_ok]
  split <;> rfl

/-- BARTEST writes whether the phase is past the token's; an overrun barrier traps (R266, R267). -/
theorem execBartest_passed (hf : s.isFw = false) (ref : s.barrierRef (s.rc c) 0 = .ok k u) (d b : SReg) (sc : BitVec 3) (r : BitVec 2) :
    execBartest d c b sc r s = .next (if (u.barrierAt k).overrun ((u.rs b).toNat % 2 ^ 31) = true then
        u.takeTrap .barrierOverrun (BitVec.ofNat 64 (u.rc c).cursor) 4
      else (u.ws d (if (u.barrierAt k).phase ≠ (u.rs b).toNat % 2 ^ 31 then 1 else 0)).advance 4) := by
  simp only [execBartest, taskOnly_task hf, ref, R.bind_ok, tv, BitVec.ofInt_natCast]
  split <;> rfl

/-- An arrival counts down, announces its bytes and returns the phase; one that is not awaited traps (R265). -/
theorem barrierArrive_passed {sc : BitVec 3} (ref : s.barrierRef (s.rc c) sc.toNat = .ok k u) (d : SReg) (bytes : Nat) :
    finish 4 s (barrierArrive d c sc bytes s) = .next (if (u.barrierAt k).left = 0 then
        u.takeTrap .barrierOverrun (BitVec.ofNat 64 (u.rc c).cursor) 4
      else ((u.setBarrier k { u.barrierAt k with left := (u.barrierAt k).left - 1, pend := (u.barrierAt k).pend + bytes }).ws d
        (BitVec.ofNat 64 (u.barrierAt k).phase)).advance 4) := by
  simp only [barrierArrive, ref, R.bind_ok, tv, BitVec.ofInt_natCast]
  split <;> rfl

/-- A wait at a barrier that starts: it traps at an overrun barrier, goes on past its token's phase, and else waits (R266, R267). -/
theorem tryWait_barrier (u : State) (k token : Nat) (addr : Word) : (u.blockOn (.barrier k token addr)).tryWait u.here =
    if (u.barrierAt k).overrun token = true then (u.blockOn (.barrier k token addr)).trapAt u.here .barrierOverrun addr 4
    else if (u.barrierAt k).phase ≠ token then (u.blockOn (.barrier k token addr)).complete u.here 0 0
    else u.blockOn (.barrier k token addr) := by
  simp only [State.tryWait, State.blockOn_hartAt, State.blockOn_hart]
  rfl

/-- BARWAIT waits for its barrier's phase to pass its token's (R266, R267). -/
theorem execBarwait_passed {sc : BitVec 3} {r : BitVec 2} (hf : s.isFw = false)
    (ref : s.barrierRef (s.rc c) (if r = 3 then sc.toNat else 0) = .ok k u) (b : SReg) : execBarwait c b sc r s =
    .next ((u.blockOn (.barrier k ((u.rs b).toNat % 2 ^ 31) (BitVec.ofNat 64 (u.rc c).cursor))).tryWait u.here) := by
  simp only [execBarwait, taskOnly_task hf, ref, R.bind_ok, tv, BitVec.ofInt_natCast, finishWait_ok]

end

/-- A wait that ends without a result leaves every register (R62). -/
theorem frame_blockOn_goOn (s : State) (w : Wait) (t : State) (ht : t = (s.blockOn w).complete s.here 0 0) :
    t.hart.pc = s.hart.pc + 4 ∧ t.hart.status = .ready ∧ t.hart.task.wait = none ∧ OnlyHere s t ∧ SameScalars s t ∧ SameCaps s t ∧
      SameVectors s t ∧ SameMasks s t ∧ SameTiles s t ∧ SameMemory s t := by
  obtain ⟨pc, status, wait, -, here, scalars, rest⟩ := frame_blockOn_complete s w 0 0 t ht
  refine ⟨pc, status, wait, here, fun r => ?_, rest⟩
  by_cases zero : r = 0
  · subst zero; rfl
  · exact scalars r zero

/-- Settles O35: each instruction by its own equation on a barrier whose access passes, BARWAIT by the wait that it starts. -/
theorem stageBarriersComplete : Obligations.StageBarriersComplete := by
  intro s u d b c sc r k hf
  refine ⟨fun ref => ?_, fun ref => ?_, fun ref n hn v hv => ?_⟩
  · have init : exec (.barinit c b) s = _ := execBarinit_passed hf ref b
    have test : exec (.bartest d c b sc r) s = _ := execBartest_passed hf ref d b sc r
    rw [init, test]
    refine ⟨fun counted => ?_, fun zero => ?_, fun fine => ?_, fun overran => ?_⟩
    · rw [if_neg counted]
    · rw [if_pos zero]
    · rw [if_neg (ne_true_of_eq_false fine)]
    · rw [if_pos overran]
  · have arrive : exec (.bararv d c sc r) s = _ := (congrArg _ (taskOnly_task hf _ _)).trans (barrierArrive_passed ref d 0)
    have announce : exec (.barxb d c b sc r) s = _ := (congrArg _ (taskOnly_task hf _ _)).trans (barrierArrive_passed ref d (s.rs b).toNat)
    rw [arrive, announce]
    refine ⟨fun left => ?_, fun left => ?_, fun arrived => ?_⟩
    · rw [if_neg left, Nat.cast_zero, add_zero]
    · rw [if_neg left]
    · rw [if_pos arrived, if_pos arrived]
      exact ⟨rfl, rfl⟩
  · have starts : exec (.barwait c b sc r) s = _ := execBarwait_passed hf ref b
    subst hn hv
    rw [starts, tryWait_barrier]
    refine ⟨fun fine => ⟨fun past => ⟨_, rfl, ?_⟩, fun same => ?_⟩, fun overran => ?_⟩
    · rw [if_neg (ne_true_of_eq_false fine), if_pos past]
      exact frame_blockOn_goOn u _ _ rfl
    · rw [if_neg (ne_true_of_eq_false fine), if_neg (not_not.2 same)]
    · rw [if_pos overran]
      rfl

end Sys2Proof.Machine
end

section
/-! PROOFS. Channels: the descriptor that a handle names, what the waits for a slot do, and what each channel instruction does (R260,
R268–R271, R413). -/

namespace Sys2Proof.Machine

/-- A handle that passes names a descriptor without the poison bit, and nothing has changed (R268, R271). -/
theorem chanRef_passed {s u : State} {r : Word} {side : Side} {c : Channel} (ref : s.chanRef r side = .ok c u) :
    s.shared.channels.find? r.toNat = some c ∧ c.poison = false ∧ u = s := by
  unfold State.chanRef at ref
  split at ref
  · cases ref
  · split at ref
    · cases ref
    · next c found =>
      split at ref
      · cases ref
      · split at ref
        · cases ref
        · next clean =>
          cases ref
          exact ⟨found, eq_false_of_ne_true clean, rfl⟩

@[simp] theorem Channel.slot_setSlot (c : Channel) (i st stamp : Nat) : (c.setSlot i st stamp).slot i = ⟨st, stamp⟩ :=
  SMap.getD_insert_same _ _ _ _

@[simp] theorem State.setChannel_find (s : State) (h : Nat) (c : Channel) : (s.setChannel h c).shared.channels.find? h = some c :=
  SMap.find_insert_same _ _ _

theorem State.chReserve_find (s : State) (h key : Nat) (c : Channel) : (s.chReserve h key c).shared.channels.find? h =
    some { c.setSlot c.rsv 1 (c.slot c.rsv).stamp with rsv := (c.rsv + 1) % Nat.max 1 c.depth, waiters := c.waiters.filter (· ≠ key) } :=
  s.setChannel_find h _

theorem State.chTake_find (s : State) (h : Nat) (c : Channel) : (s.chTake h c).shared.channels.find? h =
    some { c.setSlot c.take 3 (c.slot c.take).stamp with take := (c.take + 1) % Nat.max 1 c.depth } :=
  s.setChannel_find h _

/-! ### The waits for a slot (R269, R270) -/

/-- A context whose wait ends with a slot holds it, gets its result and goes on; no object and no memory changes further. -/
theorem frame_holdAt_complete (s : State) (h i : Nat) (b : Bool) (d : SReg) (v : Word) (t : State)
    (ht : t = (s.holdAt s.here h i b).complete s.here d v) :
    t.hart.pc = s.hart.pc + 4 ∧ t.hart.status = .ready ∧ (d ≠ 0 → t.rs d = v) ∧ (h, i, b) ∈ t.hart.task.heldChans ∧
      t.shared = s.shared ∧ t.mem = s.mem := by
  have held : s.holdAt s.here h i b = s.hold h i b := s.modHart_self _
  have completed : t = ((s.hold h i b).ws d v).advance 4 := by
    rw [ht, held]
    exact complete_here (s.hold h i b) d v
  subst completed
  refine ⟨?_, rfl, fun hd => ?_, ?_, ?_, ?_⟩
  · simp [State.ws_hart, State.hold]
  · exact (State.rs_ws (s.hold h i b) d d v).trans (if_pos ⟨rfl, hd⟩)
  · simp [State.ws_hart, State.hold, TaskInfo.issued]
  · simp [State.hold]
  · simp [State.hold]

section
variable {u : State} {h : Nat} {c : Channel} (found : u.shared.channels.find? h = some c) (clean : c.poison = false)
include found clean

/-- A reserver whose turn it is takes a FREE slot at the reserve pointer, and else waits (R269). -/
theorem tryWait_reserve (d : SReg) : (u.blockOn (.reserve d h)).tryWait u.here = if c.mayReserve u.here.key = true then
      (((u.blockOn (.reserve d h)).chReserve h u.here.key c).holdAt u.here h c.rsv true).complete u.here d (c.slotWord u.part c.rsv)
    else u.blockOn (.reserve d h) := by
  simp only [State.tryWait, State.blockOn_hartAt, State.blockOn_hart, State.blockOn_shared, found, clean]
  rfl

/-- A taker takes a FILLED slot at the take pointer, and else waits (R270). -/
theorem tryWait_take (d : SReg) : (u.blockOn (.take d h)).tryWait u.here = if (c.slot c.take).state = 2 then
      (((u.blockOn (.take d h)).chTake h c).holdAt u.here h c.take false).complete u.here d (c.slotWord u.part c.take)
    else u.blockOn (.take d h) := by
  simp only [State.tryWait, State.blockOn_hartAt, State.blockOn_hart, State.blockOn_shared, found, clean]
  rfl

end

/-! ### CHRSV and CHPUSH (R260, R269) -/

/-- The channel with a reserver at the end of its line (R269). -/
def Channel.joinedBy (c : Channel) (key : Nat) : Channel := { c with waiters := c.waiters ++ [key] }

/-- A task that finds nobody before it may reserve a FREE slot (R269). -/
theorem Channel.joinedBy_mayReserve {c : Channel} (key : Nat) (free : (c.slot c.rsv).state = 0) (first : c.waiters = []) :
    (c.joinedBy key).mayReserve key = true := by
  have slot : ((c.joinedBy key).slot (c.joinedBy key).rsv).state = 0 := free
  have line : (c.joinedBy key).waiters = [key] := by rw [Channel.joinedBy, first]; rfl
  simp [Channel.mayReserve, slot, line]

/-- With no FREE slot, or behind another reserver, it may not (R269). -/
theorem Channel.joinedBy_mayNotReserve {c : Channel} (key : Nat)
    (wait : (c.slot c.rsv).state ≠ 0 ∨ ∃ k rest, c.waiters = k :: rest ∧ k ≠ key) : (c.joinedBy key).mayReserve key = false := by
  obtain busy | ⟨k, rest, line, other⟩ := wait
  · have slot : ((c.joinedBy key).slot (c.joinedBy key).rsv).state ≠ 0 := busy
    simp [Channel.mayReserve, slot]
  · simp [Channel.mayReserve, Channel.joinedBy, line, other]

section
variable {s : State} {a : SReg} {c : Channel}

/-- CHRSV joins the line and waits for a slot (R269). -/
theorem execChrsv_passed (hf : s.isFw = false) (ref : s.chanRef (s.rs a) .producer = .ok c s) (d : SReg) : execChrsv d a s =
    .next (((s.setChannel (s.rs a).toNat (c.joinedBy s.here.key)).blockOn (.reserve d (s.rs a).toNat)).tryWait s.here) := by
  simp only [execChrsv, taskOnly_task hf, ref, R.bind_ok, finishWait_ok]
  rfl

/-- CHRSV of a task with nobody before it takes a FREE slot and holds it (R269). -/
theorem execChrsv_takes (hf : s.isFw = false) (ref : s.chanRef (s.rs a) .producer = .ok c s) (d : SReg) (free : (c.slot c.rsv).state = 0)
    (first : c.waiters = []) : ∃ (t : State) (c2 : Channel), execChrsv d a s = .next t ∧ t.hart.pc = s.hart.pc + 4 ∧
      t.hart.status = .ready ∧ (d ≠ 0 → t.rs d = c.slotWord s.part c.rsv) ∧ ((s.rs a).toNat, c.rsv, true) ∈ t.hart.task.heldChans ∧
      t.shared.channels.find? (s.rs a).toNat = some c2 ∧ (c2.slot c.rsv).state = 1 ∧ c2.rsv = (c.rsv + 1) % Nat.max 1 c.depth ∧
      c2.waiters = [] ∧ t.mem = s.mem := by
  obtain ⟨-, clean, -⟩ := chanRef_passed ref
  have wait := (tryWait_reserve (s.setChannel_find (s.rs a).toNat (c.joinedBy s.here.key)) clean d).trans
    (if_pos (Channel.joinedBy_mayReserve s.here.key free first))
  obtain ⟨pc, status, result, held, shared, mem⟩ := frame_holdAt_complete _ (s.rs a).toNat c.rsv true d _ _ wait
  have channel := State.chReserve_find ((s.setChannel (s.rs a).toNat (c.joinedBy s.here.key)).blockOn (.reserve d (s.rs a).toNat))
    (s.rs a).toNat s.here.key (c.joinedBy s.here.key)
  refine ⟨_, _, execChrsv_passed hf ref d, pc, status, result, held, shared ▸ channel, ?_, rfl, ?_, mem⟩
  · exact congrArg ChSlot.state (Channel.slot_setSlot (c.joinedBy s.here.key) c.rsv 1 _)
  · simp [Channel.joinedBy, first]

/-- CHRSV waits for a slot or for those before it (R269). -/
theorem execChrsv_waits (hf : s.isFw = false) (ref : s.chanRef (s.rs a) .producer = .ok c s) (d : SReg)
    (wait : (c.slot c.rsv).state ≠ 0 ∨ ∃ k rest, c.waiters = k :: rest ∧ k ≠ s.here.key) : execChrsv d a s =
    .next ((s.setChannel (s.rs a).toNat { c with waiters := c.waiters ++ [s.here.key] }).blockOn (.reserve d (s.rs a).toNat)) := by
  obtain ⟨-, clean, -⟩ := chanRef_passed ref
  have stays := (tryWait_reserve (s.setChannel_find (s.rs a).toNat (c.joinedBy s.here.key)) clean d).trans
    (if_neg (ne_true_of_eq_false (Channel.joinedBy_mayNotReserve s.here.key wait)))
  exact (execChrsv_passed hf ref d).trans (congrArg _ stays)

/-- CHPUSH of a RESERVED slot holds a place in the store queue; of another slot it traps (R269). -/
theorem execChpush_passed {v : State} {i : Nat} (hf : s.isFw = false) (b : SReg) (r : BitVec 2) (hi : i = slotIndex (s.rs b))
    (hv : v = if s.pushDue (s.rs a).toNat i = true then s.drainQueue else s) (ref : v.chanRef (s.rs a) .producer = .ok c v) :
    execChpush a b r s = .next (if c.depth ≤ i ∨ (c.slot i).state ≠ 1 then v.takeTrap .accessDenied (v.rs b) 4 else
      (((((v.acquireAr c.scope r).enqueueAct c.scope (.push (s.rs a).toNat i)).unhold (s.rs a).toNat i).effect).advance 4)) := by
  subst hi
  simp only [execChpush, taskOnly_task hf, ← hv, ref, R.bind_ok, ge_iff_le, Bool.or_eq_true, decide_eq_true_eq]
  split <;> rfl

/-! ### CHAWAIT, CHREL and CHSTAT (R260, R270, R271) -/

/-- CHAWAIT waits for a FILLED slot, after a release if its order is ar (R260, R270). -/
theorem execChawait_passed {u : State} {r : BitVec 2} (hf : s.isFw = false) (ref : s.chanRef (s.rs a) .consumer = .ok c s)
    (hu : u = if r = 3 then s.release c.scope else s) (d : SReg) :
    execChawait d a r s = .next ((u.blockOn (.take d (s.rs a).toNat)).tryWait u.here) := by
  simp only [execChawait, taskOnly_task hf, ref, R.bind_ok, finishWait_ok, State.releaseAr, ← hu]

/-- A wait for a FILLED slot takes it and holds it (R270). -/
theorem tryWait_take_takes {u : State} {h : Nat} {c : Channel} (found : u.shared.channels.find? h = some c) (clean : c.poison = false)
    (filled : (c.slot c.take).state = 2) (d : SReg) : ∀ t, t = (u.blockOn (.take d h)).tryWait u.here → ∃ c3 : Channel,
      t.hart.pc = u.hart.pc + 4 ∧ t.hart.status = .ready ∧ (d ≠ 0 → t.rs d = c.slotWord u.part c.take) ∧
      (h, c.take, false) ∈ t.hart.task.heldChans ∧ t.shared.channels.find? h = some c3 ∧ (c3.slot c.take).state = 3 ∧
      c3.take = (c.take + 1) % Nat.max 1 c.depth ∧ t.mem = u.mem := by
  intro t ht
  rw [tryWait_take found clean d, if_pos filled] at ht
  obtain ⟨pc, status, result, held, shared, mem⟩ := frame_holdAt_complete _ h c.take false d _ t ht
  refine ⟨_, pc, status, result, held, shared ▸ State.chTake_find _ h c, ?_, rfl, mem⟩
  exact congrArg ChSlot.state (Channel.slot_setSlot c c.take 3 _)

/-- CHREL frees a TAKEN slot once the older loads are performed; another slot traps (R270). -/
theorem execChrel_passed (hf : s.isFw = false) (ref : s.chanRef (s.rs a) .consumer = .ok c s) (b : SReg) : execChrel a b s =
    .next (if c.depth ≤ slotIndex (s.rs b) ∨ (c.slot (slotIndex (s.rs b))).state ≠ 3 then s.takeTrap .accessDenied (s.rs b) 4
      else (((s.performLoads s.here).freeSlot (s.rs a).toNat (slotIndex (s.rs b))).unhold (s.rs a).toNat (slotIndex (s.rs b))).advance 4) := by
  simp only [execChrel, taskOnly_task hf, ref, R.bind_ok, ge_iff_le, Bool.or_eq_true, decide_eq_true_eq]
  split <;> rfl

/-- CHSTAT with selector 0 writes the counts (R271). -/
theorem execChstat_counts (hf : s.isFw = false) (ref : s.chanRef (s.rs a) .either = .ok c s) (d : SReg) {b : SReg} (sel : s.rs b = 0) :
    execChstat d a b s = .next ((s.ws d c.status).advance 4) := by
  simp only [execChstat, taskOnly_task hf, ref, R.bind_ok, sel]
  rfl

/-- CHSTAT with a slot selected writes its stamp (R271). -/
theorem execChstat_stamp (hf : s.isFw = false) (ref : s.chanRef (s.rs a) .either = .ok c s) (d : SReg) {b : SReg} {n : Nat} (small : n < 2 ^ 12)
    (inside : n < c.depth) (sel : s.rs b = BitVec.ofNat 64 (2 ^ 16 + n)) :
    execChstat d a b s = .next ((s.ws d (BitVec.ofNat 64 (c.slot n).stamp)).advance 4) := by
  have word : (s.rs b).toNat = 2 ^ 16 + n := by
    rw [sel, BitVec.toNat_ofNat]
    omega
  have high : (2 ^ 16 + n) / 2 ^ 17 = 0 := by omega
  have middle : bitsOf (2 ^ 16 + n) 15 12 = 0 := by unfold bitsOf; omega
  have bySlot : bitOf (2 ^ 16 + n) 16 = true := by unfold bitOf; simp only [decide_eq_true_eq]; omega
  have slot : (2 ^ 16 + n) % 2 ^ 12 = n := by omega
  simp only [execChstat, taskOnly_task hf, ref, R.bind_ok, word, high, middle, bySlot, slot, ge_iff_le, Nat.not_le.2 inside]
  rfl

end

/-- Settles O37: each instruction by its own equation on a channel whose handle passes, CHRSV and CHAWAIT by the wait that they start. -/
theorem channelInstructionsComplete : Obligations.ChannelInstructionsComplete := by
  intro s d a b r c hf h hh
  subst hh
  refine ⟨fun ref => ⟨fun free first => execChrsv_takes hf ref d free first, fun wait => execChrsv_waits hf ref d wait, fun x i found => ?_⟩,
    fun i v hi hv ref => ?_, fun ref => ⟨fun u c2 hu found clean => ?_, ?_⟩, fun ref => ⟨execChstat_counts hf ref d, fun n => ?_⟩⟩
  · simp only [State.accept, State.pushSlot, found]
  · have push : exec (.chpush a b r) s = _ := execChpush_passed hf b r hi hv ref
    rw [push]
    refine ⟨fun inside reserved u hu => ?_, fun bad => ?_⟩
    · rw [if_neg (not_or.2 ⟨Nat.not_le.2 inside, not_not.2 reserved⟩), State.acquireAr, ← hu]
      rfl
    · rw [if_pos bad]
  · have await : exec (.chawait d a r) s = _ := execChawait_passed hf ref hu d
    refine ⟨fun filled => ?_, fun empty => ?_⟩
    · obtain ⟨c3, taken⟩ := tryWait_take_takes found clean filled d _ rfl
      exact ⟨_, c3, await, taken⟩
    · rw [await, tryWait_take found clean d, if_neg empty]
  · have free : exec (.chrel a b) s = _ := execChrel_passed hf ref b
    rw [free]
    refine ⟨fun inside taken => ?_, fun bad => ?_⟩
    · rw [if_neg (not_or.2 ⟨Nat.not_le.2 inside, not_not.2 taken⟩)]
    · rw [if_pos bad]
  · exact fun small inside sel => execChstat_stamp hf ref d small inside sel

end Sys2Proof.Machine
end

section
/-! PROOFS. Transit: the slot that TRWAIT takes, the operands of the slot instructions, and what each of them does (R260, R303–R307). -/

namespace Sys2Proof.Machine

/-! ### The slot that TRWAIT takes (R303) -/

/-- The better of the slot found so far and the next one: the later, of two of one time the earlier found. -/
def laterSlot (fits : Nat → Bool) (time : Nat → Nat) (best : Option Nat) (i : Nat) : Option Nat :=
  if fits i then
    match best with
    | some j => if time j < time i then some i else some j
    | none => some i
  else best

/-- Among the first `n` numbers, one that fits is the latest, with the lowest number on a tie. -/
def IsLatest (fits : Nat → Bool) (time : Nat → Nat) (n i : Nat) : Prop :=
  (i < n ∧ fits i = true) ∧ ∀ j, j < n → fits j = true → time j < time i ∨ (time j = time i ∧ i ≤ j)

theorem IsLatest.unique {fits : Nat → Bool} {time : Nat → Nat} {n i j : Nat} (hi : IsLatest fits time n i) (hj : IsLatest fits time n j) :
    i = j := by
  obtain ⟨⟨inside, good⟩, latest⟩ := hi
  obtain ⟨⟨inside', good'⟩, latest'⟩ := hj
  have one := latest j inside' good'
  have other := latest' i inside good
  omega

/-- What a search over the first `n` numbers has found: the latest that fits, or nothing when none fits. -/
def FoundLatest (fits : Nat → Bool) (time : Nat → Nat) (n : Nat) : Option Nat → Prop
  | some i => IsLatest fits time n i
  | none => ∀ j, j < n → fits j = false

/-- Looking at one number more keeps what the search has found the latest. -/
theorem FoundLatest.next {fits : Nat → Bool} {time : Nat → Nat} {n : Nat} {best : Option Nat} (found : FoundLatest fits time n best) :
    FoundLatest fits time (n + 1) (laterSlot fits time best n) := by
  have below {j : Nat} (hj : j < n + 1) : j < n ∨ j = n := by omega
  unfold laterSlot
  by_cases good : fits n = true
  · rw [if_pos good]
    cases best with
    | none =>
      refine ⟨⟨Nat.lt_succ_self n, good⟩, fun j hj fit => ?_⟩
      obtain low | rfl := below hj
      · exact absurd (found j low) (ne_false_of_eq_true fit)
      · exact .inr ⟨rfl, Nat.le_refl j⟩
    | some m =>
      obtain ⟨⟨inside, fit⟩, latest⟩ := found
      dsimp only
      split
      · refine ⟨⟨Nat.lt_succ_self n, good⟩, fun j hj fitj => ?_⟩
        obtain low | rfl := below hj
        · have := latest j low fitj
          omega
        · exact .inr ⟨rfl, Nat.le_refl j⟩
      · refine ⟨⟨by omega, fit⟩, fun j hj fitj => ?_⟩
        obtain low | rfl := below hj
        · exact latest j low fitj
        · omega
  · rw [if_neg good]
    cases best with
    | none =>
      intro j hj
      obtain low | rfl := below hj
      · exact found j low
      · exact eq_false_of_ne_true good
    | some m =>
      obtain ⟨⟨inside, fit⟩, latest⟩ := found
      refine ⟨⟨by omega, fit⟩, fun j hj fitj => ?_⟩
      obtain low | rfl := below hj
      · exact latest j low fitj
      · exact absurd fitj good

/-- The search over the first `n` numbers, lowest first, finds the latest that fits. -/
theorem foundLatest_foldl (fits : Nat → Bool) (time : Nat → Nat) (n : Nat) :
    FoundLatest fits time n ((List.range n).foldl (laterSlot fits time) none) := by
  induction n with
  | zero => exact fun j hj => absurd hj (Nat.not_lt_zero j)
  | succ n ih =>
    rw [List.range_succ, List.foldl_append]
    exact ih.next

/-- A slot of a die can be read and holds a key (R303). -/
def State.slotFits (s : State) (die image tag j : Nat) : Bool :=
  (s.mslot die j).live && (s.mslot die j).image = image && (s.mslot die j).tag = tag

/-- The model's search for a key is the search for the latest slot that fits (R303). -/
theorem State.foundLatest_slotFor (s : State) (die image tag : Nat) :
    FoundLatest (s.slotFits die image tag) (fun j => (s.mslot die j).present) 6 (s.slotFor die image tag) :=
  foundLatest_foldl _ _ 6

theorem takesSlot_iff (s : State) (die image tag i : Nat) : Claims.TakesSlot s die image tag i ↔
    IsLatest (s.slotFits die image tag) (fun j => (s.mslot die j).present) 6 i := by
  simp only [Claims.TakesSlot, IsLatest, State.slotFits, MSlot.live, Bool.and_eq_true, Bool.or_eq_true, decide_eq_true_eq, and_imp, and_assoc]

/-- The model's search finds the slot of R303. -/
theorem State.slotFor_taken {s : State} {die image tag i : Nat} (h : Claims.TakesSlot s die image tag i) : s.slotFor die image tag = some i := by
  rw [takesSlot_iff] at h
  have search := s.foundLatest_slotFor die image tag
  cases result : s.slotFor die image tag with
  | none =>
    rw [result] at search
    exact absurd (search i h.1.1) (ne_false_of_eq_true h.1.2)
  | some j =>
    rw [result] at search
    rw [search.unique h]

/-- Without such a slot it finds none. -/
theorem State.slotFor_untaken {s : State} {die image tag : Nat} (h : ∀ i, ¬ Claims.TakesSlot s die image tag i) :
    s.slotFor die image tag = none := by
  have search := s.foundLatest_slotFor die image tag
  cases result : s.slotFor die image tag with
  | none => rfl
  | some j =>
    rw [result] at search
    exact absurd ((takesSlot_iff s die image tag j).2 search) (h j)

/-! ### Operands (R303, R304, R306) -/

theorem meridianKeyOf_small {x : Word} (h : x.toNat < 2 ^ 32) (s : State) :
    meridianKeyOf x s = .ok (x.toNat % 2 ^ 16, x.toNat / 2 ^ 16) s :=
  if_neg (not_not.2 (Nat.div_eq_of_lt h))

theorem meridianKeyOf_large {x : Word} (h : 2 ^ 32 ≤ x.toNat) (s : State) : meridianKeyOf x s = .trap .illegal x s :=
  if_pos (by omega)

section
variable {x : Word} {mask : Nat} (s : State)

theorem slotOperand_slot (bits : x.toNat &&& mask = x.toNat) (slot : x.toNat % 8 < 6) : slotOperand x mask s = .ok (x.toNat % 8) s :=
  (if_neg (not_not.2 bits)).trans (if_neg (Nat.not_le.2 slot))

theorem slotOperand_denied (bits : x.toNat &&& mask = x.toNat) (slot : 6 ≤ x.toNat % 8) :
    slotOperand x mask s = .trap .accessDenied x s :=
  (if_neg (not_not.2 bits)).trans (if_pos slot)

theorem slotOperand_illegal (bits : x.toNat &&& mask ≠ x.toNat) : slotOperand x mask s = .trap .illegal x s := if_pos bits

end

/-- The bits of a slot number (R304). -/
theorem and_slotMask (x : Nat) : x &&& 7 = x % 8 := Nat.and_two_pow_sub_one_eq_mod x 3

/-- The bits of a slot number, a fill and the release bit (R306). -/
theorem and_holdMask (x : Nat) : x &&& 0x1FF07 = 2 ^ 8 * (x / 2 ^ 8 % 2 ^ 9) + x % 8 := by
  have high : (x &&& 0x1FF07) / 2 ^ 8 = x / 2 ^ 8 % 2 ^ 9 := by
    rw [Nat.and_div_two_pow]
    exact Nat.and_two_pow_sub_one_eq_mod _ 9
  have low : (x &&& 0x1FF07) % 2 ^ 8 = x % 8 := by
    rw [Nat.and_mod_two_pow]
    refine (and_slotMask _).trans ?_
    omega
  rw [← high, ← low, Nat.div_add_mod]

/-! ### TRWAIT (R260, R303) -/

section
variable {s : State} {a : SReg}

theorem execTrwait_illegal (hf : s.isFw = false) (large : 2 ^ 32 ≤ (s.rs a).toNat) (cd : CReg) (b : SReg) (r : BitVec 2) :
    execTrwait cd a b r s = .next (s.takeTrap .illegal (s.rs a) 4) := by
  simp only [execTrwait, taskOnly_task hf, meridianKeyOf_large large, R.bind_trap]

theorem execTrwait_denied (hf : s.isFw = false) (small : (s.rs a).toNat < 2 ^ 32) (off : s.ownsDie s.hart.task s.here.die = false)
    (cd : CReg) (b : SReg) (r : BitVec 2) : execTrwait cd a b r s = .next (s.takeTrap .accessDenied (s.rs a) 4) := by
  simp only [execTrwait, taskOnly_task hf, meridianKeyOf_small small, R.bind_ok, off, Bool.false_eq_true, if_false]

section
variable (hf : s.isFw = false) (small : (s.rs a).toNat < 2 ^ 32) (mine : s.ownsDie s.hart.task s.here.die = true)
include hf small mine

/-- TRWAIT writes the capability of the slot of its key (R303). -/
theorem execTrwait_slot {i : Nat} (slot : s.slotFor s.here.die ((s.rs a).toNat % 2 ^ 16) ((s.rs a).toNat / 2 ^ 16) = some i)
    (cd : CReg) (b : SReg) (r : BitVec 2) : execTrwait cd a b r s = .next (((if r = 3 then s.release 1 else s).wc cd
      (slotCap i (s.mslot s.here.die i).fill (s.mslot s.here.die i).xbytes)).advance 4) := by
  simp only [execTrwait, taskOnly_task hf, meridianKeyOf_small small, R.bind_ok, mine, if_true, slot]
  rfl

/-- Without a slot it writes the null capability past its deadline, and waits before it (R303). -/
theorem execTrwait_none (slot : s.slotFor s.here.die ((s.rs a).toNat % 2 ^ 16) ((s.rs a).toNat / 2 ^ 16) = none)
    (cd : CReg) (b : SReg) (r : BitVec 2) : execTrwait cd a b r s =
    .next (if (s.rs b).toNat ≠ 0 ∧ (s.rs b).toNat ≤ s.polestar then (s.wc cd Cap.null).advance 4
      else (s.modTask fun t => { t with keyWait := some (cd, (s.rs b).toNat) }).block) := by
  simp only [execTrwait, taskOnly_task hf, meridianKeyOf_small small, R.bind_ok, mine, if_true, slot, Bool.and_eq_true, decide_eq_true_eq]
  split <;> rfl

end

/-- The deadline step ends a wait whose deadline has passed without a slot, and is nothing otherwise (R303). -/
theorem execTrwaitDeadline_eq {die core slot dl : Nat} {c : CtxId} {cd : CReg} (hc : c = ⟨die, core, slot⟩)
    (key : (s.hartAt c).task.keyWait = some (cd, dl)) : execTrwaitDeadline die core slot s =
    .next (if s.coreRuns c = true ∧ (s.hartAt c).status = .blocked ∧ dl ≠ 0 ∧ dl ≤ s.polestar ∧ s.keySlot c = none then
        s.modHart c fun h => { h.goOn (h.pc + 4) with c := if cd = 0 then h.c else h.c.set cd.toNat Cap.null cd.isLt }
      else s) := by
  subst hc
  simp only [execTrwaitDeadline, key, Bool.and_eq_true, decide_eq_true_eq, Option.isNone_iff_eq_none, and_assoc]
  split <;> rfl

/-! ### TRINFO and TRDONE (R304, R305) -/

theorem MSlot.info_eq (m : MSlot) : m.info = Claims.slotInfo m := by
  unfold MSlot.info Claims.slotInfo
  cases m.retained <;> rfl

theorem execTrinfo_slot (hf : s.isFw = false) (slot : (s.rs a).toNat < 6) (d : SReg) : execTrinfo d a s =
    .next ((s.ws d (BitVec.ofNat 64 (Claims.slotInfo (s.mslot s.here.die (s.rs a).toNat)))).advance 4) := by
  have low : (s.rs a).toNat % 8 = (s.rs a).toNat := by omega
  have operand := slotOperand_slot s ((and_slotMask _).trans low) (by omega)
  rw [low] at operand
  simp only [execTrinfo, taskOnly_task hf, operand, R.bind_ok, finish_ok, MSlot.info_eq]

theorem execTrinfo_denied (hf : s.isFw = false) (slot : (s.rs a).toNat = 6 ∨ (s.rs a).toNat = 7) (d : SReg) : execTrinfo d a s =
    .next (s.takeTrap .accessDenied (s.rs a) 4) := by
  have low : (s.rs a).toNat % 8 = (s.rs a).toNat := by omega
  simp only [execTrinfo, taskOnly_task hf, slotOperand_denied s ((and_slotMask _).trans low) (by omega), R.bind_trap, finish_trap]

theorem execTrinfo_illegal (hf : s.isFw = false) (large : 8 ≤ (s.rs a).toNat) (d : SReg) : execTrinfo d a s =
    .next (s.takeTrap .illegal (s.rs a) 4) := by
  have high : (s.rs a).toNat &&& 7 ≠ (s.rs a).toNat := by
    rw [and_slotMask]
    omega
  simp only [execTrinfo, taskOnly_task hf, slotOperand_illegal s high, R.bind_trap, finish_trap]

/-- A transit that is done leaves the state; one that is not gives its slot up (R305). -/
theorem State.transitDone_eq {x : TransitInfo} (transit : s.hart.task.transit = some x) : s.transitDone s.here =
    if x.done = true then s else Claims.slotGivenUp s x := by
  simp only [State.transitDone, State.hartAt_here, transit, Claims.slotGivenUp, Bool.and_eq_true, Bool.or_eq_true, decide_eq_true_eq]

theorem execTrdone_none (hf : s.isFw = false) (transit : s.hart.task.transit = none) :
    execTrdone s = .next (s.takeTrap .illegal (tvalWord .trdone) 4) := by
  simp only [execTrdone, taskOnly_task hf, transit, finish_trap]

theorem execTrdone_transit {x : TransitInfo} (hf : s.isFw = false) (transit : s.hart.task.transit = some x) : execTrdone s =
    .next (if x.done = true then s.advance 4 else if s.slotReads s.here x.slot x.fill = true then s.block
      else (Claims.slotGivenUp s x).advance 4) := by
  simp only [execTrdone, taskOnly_task hf, transit, State.transitDone_eq transit]
  cases x.done <;> cases s.slotReads s.here x.slot x.fill <;> rfl

/-! ### TRHOLD and TRQRY (R306, R307) -/

/-- What a slot becomes is decided by what it is. -/
theorem State.modSlot_congr (s : State) {die i : Nat} {f g : MSlot → MSlot} (h : f (s.mslot die i) = g (s.mslot die i)) :
    s.modSlot die i f = s.modSlot die i g := by
  simp only [State.modSlot, h]

/-- TRHOLD's operand: slot, fill and whether a hold is released (R306). -/
structure HoldWord (x : Word) (i fill : Nat) (back : Bool) : Prop where
  slot : i < 8
  byte : fill < 256
  word : x = BitVec.ofNat 64 (i + fill * 2 ^ 8 + if back then 2 ^ 16 else 0)

theorem HoldWord.toNat {x : Word} {i fill : Nat} {back : Bool} (h : HoldWord x i fill back) :
    x.toNat = i + fill * 2 ^ 8 + if back then 2 ^ 16 else 0 := by
  obtain ⟨slot, small, rfl⟩ := h
  refine (BitVec.toNat_ofNat _ _).trans (Nat.mod_eq_of_lt ?_)
  split <;> omega

theorem HoldWord.fields {x : Word} {i fill : Nat} {back : Bool} (h : HoldWord x i fill back) :
    x.toNat &&& 0x1FF07 = x.toNat ∧ x.toNat % 8 = i ∧ x.toNat / 2 ^ 8 % 2 ^ 8 = fill ∧ bitOf x.toNat 16 = back := by
  have word := h.toNat
  obtain ⟨slot, small, -⟩ := h
  rw [and_holdMask, bitOf, word]
  cases back
  · simp only [Bool.false_eq_true, if_false, decide_eq_false_iff_not]
    omega
  · simp only [if_true, decide_eq_true_eq]
    omega

section
variable {i fill : Nat} {back : Bool} (hf : s.isFw = false) (operand : HoldWord (s.rs a) i fill back)
include hf operand

theorem execTrhold_denied (bad : 6 ≤ i ∨ s.ownsDie s.hart.task s.here.die = false) (d : SReg) :
    execTrhold d a s = .next (s.takeTrap .accessDenied (s.rs a) 4) := by
  obtain ⟨bits, slot, -, -⟩ := operand.fields
  by_cases high : 6 ≤ i
  · simp only [execTrhold, taskOnly_task hf, slotOperand_denied s bits (slot.symm ▸ high), R.bind_trap, finish_trap]
  · have off := bad.resolve_left high
    simp only [execTrhold, taskOnly_task hf, slotOperand_slot s bits (slot.symm ▸ Nat.not_le.1 high), R.bind_ok, off, Bool.not_false, if_true,
      finish_trap]

/-- The answer of TRHOLD on a slot that its task may hold (R306). -/
theorem execTrhold_answers (low : i < 6) (mine : s.ownsDie s.hart.task s.here.die = true) (d : SReg) {m : MSlot} (hm : m = s.mslot s.here.die i) :
    execTrhold d a s = .next (State.advance (
      if (m.state ≠ 2 ∧ m.state ≠ 3) ∨ m.fill % 256 ≠ fill ∨ m.deadline < s.polestar then s.ws d 1
      else if back = true then
        if m.holds = 0 then s.ws d 3
        else (s.modSlot s.here.die i fun m => { m with holds := m.holds - 1, state := if m.holds = 1 then 2 else 3 }).ws d 0
      else if 16 ≤ m.holds then s.ws d 2
      else (s.modSlot s.here.die i fun m => { m with holds := m.holds + 1, state := 3 }).ws d 0) 4) := by
  obtain ⟨bits, slot, sameFill, release⟩ := operand.fields
  subst hm
  simp only [execTrhold, taskOnly_task hf, slotOperand_slot s bits (slot.symm ▸ low), R.bind_ok, slot, mine, sameFill, release, MSlot.live,
    Bool.not_eq_true', Bool.true_eq_false, if_false, Bool.or_eq_true, Bool.or_eq_false_iff, decide_eq_true_eq, decide_eq_false_iff_not, or_assoc]
  by_cases gone : ((s.mslot s.here.die i).state ≠ 2 ∧ (s.mslot s.here.die i).state ≠ 3) ∨ (s.mslot s.here.die i).fill % 256 ≠ fill ∨
      (s.mslot s.here.die i).deadline < s.polestar
  · rw [if_pos gone, if_pos gone, finish_ok]
  rw [if_neg gone, if_neg gone]
  cases back with
  | true =>
    rw [if_pos rfl, if_pos rfl]
    by_cases unheld : (s.mslot s.here.die i).holds = 0
    · rw [if_pos unheld, if_pos unheld, finish_ok]
    · rw [if_neg unheld, if_neg unheld, finish_ok]
      refine congrArg (fun t : State => Host.Outcome.next ((t.ws d 0).advance 4)) (s.modSlot_congr ?_)
      have last : (s.mslot s.here.die i).holds - 1 = 0 ↔ (s.mslot s.here.die i).holds = 1 := by omega
      simp only [last]
  | false =>
    rw [if_neg Bool.false_ne_true, if_neg Bool.false_ne_true]
    by_cases full : 16 ≤ (s.mslot s.here.die i).holds
    · rw [if_pos full, if_pos full, finish_ok]
    · rw [if_neg full, if_neg full, finish_ok]
      exact congrArg (fun t : State => Host.Outcome.next ((t.ws d 0).advance 4)) (s.modSlot_congr rfl)

end

theorem execTrqry_illegal (hf : s.isFw = false) (large : 2 ^ 32 ≤ (s.rs a).toNat) (d : SReg) :
    execTrqry d a s = .next (s.takeTrap .illegal (s.rs a) 4) := by
  simp only [execTrqry, taskOnly_task hf, meridianKeyOf_large large, R.bind_trap, finish_trap]

theorem execTrqry_none (hf : s.isFw = false) (small : (s.rs a).toNat < 2 ^ 32)
    (key : (s.dieAt s.here.die).ephemeris.find? (s.rs a).toNat = none) (d : SReg) :
    execTrqry d a s = .next ((s.ws d (BitVec.allOnes 64)).advance 4) := by
  simp only [execTrqry, taskOnly_task hf, meridianKeyOf_small small, R.bind_ok, finish_ok, key]

theorem execTrqry_some {x : Nat} (hf : s.isFw = false) (small : (s.rs a).toNat < 2 ^ 32)
    (key : (s.dieAt s.here.die).ephemeris.find? (s.rs a).toNat = some x) (d : SReg) : execTrqry d a s = .next ((s.ws d (BitVec.ofNat 64
      (x % 2 ^ 63 + if (s.dieAt s.here.die).missing.contains (s.rs a).toNat then 2 ^ 63 else 0))).advance 4) := by
  simp only [execTrqry, taskOnly_task hf, meridianKeyOf_small small, R.bind_ok, finish_ok, key]

end

/-- Settles O47: each instruction by its own equation, TRWAIT by the slot that its search finds. -/
theorem transitInstructionsComplete : Obligations.TransitInstructionsComplete := by
  refine ⟨fun s cd a b r hf x dl hx hdl => ?_, fun s die core slot dl c cd hc key => ?_, fun s d a hf => ?_, fun s hf => ?_,
    fun s d a i fill back m hf hi hfill hword hm => ?_, fun s d a hf => ?_⟩
  · subst hx hdl
    refine ⟨fun large => execTrwait_illegal hf large cd b r, fun small off => execTrwait_denied hf small off cd b r,
      fun small mine => ⟨fun i takes m hm => ?_, fun untaken => ?_⟩⟩
    · subst hm
      exact execTrwait_slot hf small mine (State.slotFor_taken takes) cd b r
    · have noSlot : exec (.trwait cd a b r) s = _ := execTrwait_none hf small mine (State.slotFor_untaken untaken) cd b r
      rw [noSlot]
      refine ⟨fun past => ?_, fun before => ?_⟩
      · rw [if_pos past]
      · rw [if_neg (by omega)]
  · have step : exec (.trwaitDeadline die core slot) s = _ := execTrwaitDeadline_eq hc key
    rw [step]
    refine ⟨fun runs blocked timed past free => ?_, fun early => ?_⟩
    · rw [if_pos ⟨runs, blocked, timed, past, free⟩]
    · refine congrArg _ (if_neg fun ⟨runs, blocked, timed, past, free⟩ => ?_)
      simp [runs, blocked, timed, free, Nat.not_lt.2 past] at early
  · exact ⟨fun slot => execTrinfo_slot hf slot d, fun slot => execTrinfo_denied hf slot d, fun large => execTrinfo_illegal hf large d⟩
  · refine ⟨fun transit => execTrdone_none hf transit, fun x transit => ?_⟩
    have done : exec .trdone s = _ := execTrdone_transit hf transit
    rw [done]
    refine ⟨fun again => ?_, fun first free => ?_, fun first reads => ?_⟩
    · rw [if_pos again]
    · rw [if_neg (ne_true_of_eq_false first), if_neg (ne_true_of_eq_false free)]
    · rw [if_neg (ne_true_of_eq_false first), if_pos reads]
  · have operand : HoldWord (s.rs a) i fill back := ⟨hi, hfill, hword⟩
    refine ⟨fun bad => execTrhold_denied hf operand bad d, fun low mine => ?_⟩
    have answers : exec (.trhold d a) s = _ := execTrhold_answers hf operand low mine d hm
    rw [answers]
    refine ⟨fun gone => ?_, fun live same time => ?_⟩
    · rw [if_pos gone]
    · rw [if_neg (by omega)]
      refine ⟨fun take room => ?_, fun take full => ?_, fun give unheld => ?_, fun give held => ?_⟩
      · rw [if_neg (ne_true_of_eq_false take), if_neg (Nat.not_le.2 room)]
      · rw [if_neg (ne_true_of_eq_false take), if_pos full]
      · rw [if_pos give, if_pos unheld]
      · rw [if_pos give, if_neg held.ne']
  · exact ⟨fun large => execTrqry_illegal hf large d,
      fun small => ⟨fun key => execTrqry_none hf small key d, fun x key => execTrqry_some hf small key d⟩⟩

end Sys2Proof.Machine
end

section
/-! PROOFS. Readiness tags: the operand, what makes a handle live or free for a generation, and what each tag instruction does (R260,
R313–R315, R389). -/

namespace Sys2Proof.Machine

/-! ### Tag words (R313, R314) -/

theorem tagOperand_small {x : Word} (h : x.toNat < 2 ^ 32) (s : State) : tagOperand x s = .ok x.toNat s :=
  if_neg (not_not.2 (Nat.div_eq_of_lt h))

theorem tagOperand_large {x : Word} (h : 2 ^ 32 ≤ x.toNat) (s : State) : tagOperand x s = .trap .illegal x s := if_pos (by omega)

theorem tagGen_small {w : Nat} (h : w < 2 ^ 32) : tagGen w = w / 2 ^ 16 := Nat.mod_eq_of_lt (by omega)

/-- A tag word is stale for TAGPUB and TAGRET unless its handle is DECLARED or PUBLISHED with its generation (R314). -/
theorem State.stalePub_iff (s : State) (part : Nat) {w : Nat} (h : w < 2 ^ 32) : s.stalePub part w = true ↔
    ((s.tagRec part w).state ≠ 1 ∧ (s.tagRec part w).state ≠ 2) ∨ (s.tagRec part w).gen ≠ w / 2 ^ 16 := by
  simp only [State.stalePub, TagRec.live, tagGen_small h, Bool.not_eq_true', Bool.and_eq_false_iff, Bool.or_eq_false_iff,
    decide_eq_false_iff_not]

/-- A handle may be declared with a generation when it is FREE and the generation follows its last retired one (R315). -/
theorem TagRec.nextGen_iff (t : TagRec) {w : Nat} (h : w < 2 ^ 32) :
    t.nextGen (tagGen w) = true ↔ t.state = 0 ∧ w / 2 ^ 16 = (t.retired + 1) % 2 ^ 16 := by
  simp only [TagRec.nextGen, tagGen_small h, Bool.and_eq_true, decide_eq_true_eq]

/-- The operands of a TAGDECL that passes on to its handles: 1 to 4,096 of them, the last of number 65,535 at most (R315). -/
structure TagRun (w n : Nat) : Prop where
  least : 1 ≤ n
  most : n ≤ 4096
  last : w % 2 ^ 16 + n ≤ 65536
  word : w < 2 ^ 32

theorem TagRun.counted {w n : Nat} (h : TagRun w n) : (decide (n = 0) || decide (4096 < n) || decide (65536 < w % 2 ^ 16 + n)) = false := by
  obtain ⟨least, most, last, -⟩ := h
  simp only [Bool.or_eq_false_iff, decide_eq_false_iff_not]
  omega

/-! ### The instructions (R260, R315, R389) -/

/-- A wait for a tag that starts: on the spill record it waits; else it traps on a stale word, goes on at a published one, and waits before
that (R314, R315, R389). -/
theorem tryWait_tag {u v : State} {part word : Nat} (hv : v = u.blockOn (.tag part word)) : v.tryWait u.here =
    if v.isLate part word (.slot u.here.key) = true then v
    else if v.staleWait part word = true then v.trapAt u.here .tagStale (BitVec.ofNat 64 word) 4
    else if v.published part word = true then v.complete u.here 0 0
    else v := by
  subst hv
  simp only [State.tryWait, State.blockOn_hartAt, State.blockOn_hart]

section
variable {s : State} {a : SReg} (hf : s.isFw = false)
include hf

/-- TAGDECL of no or too many handles is illegal (R315). -/
theorem execTagdecl_count {b : SReg} (bad : (s.rs b).toNat = 0 ∨ 4096 < (s.rs b).toNat ∨ 65536 < (s.rs a).toNat % 2 ^ 16 + (s.rs b).toNat)
    (d : SReg) (sc : BitVec 3) : execTagdecl d a b sc s = .next (s.takeTrap .illegal (s.rs b) 4) := by
  have refused : (decide ((s.rs b).toNat = 0) || decide (4096 < (s.rs b).toNat) ||
      decide (65536 < (s.rs a).toNat % 2 ^ 16 + (s.rs b).toNat)) = true := by simpa [or_assoc] using bad
  simp only [execTagdecl, taskOnly_task hf, refused, if_true, finish_trap]

section
variable {b : SReg} (run : TagRun (s.rs a).toNat (s.rs b).toNat)
include run

/-- TAGDECL traps at the first handle that may not be declared (R315). -/
theorem execTagdecl_stale {i : Nat} (hi : i < (s.rs b).toNat)
    (before : ∀ j, j < i → (s.tagRec s.part ((s.rs a).toNat + j)).nextGen (tagGen (s.rs a).toNat) = true)
    (bad : (s.tagRec s.part ((s.rs a).toNat + i)).nextGen (tagGen (s.rs a).toNat) = false) (d : SReg) (sc : BitVec 3) :
    execTagdecl d a b sc s = .next (s.takeTrap .tagStale (BitVec.ofNat 64 ((s.rs a).toNat + i)) 4) := by
  have first : ((List.range (s.rs b).toNat).map fun i => (s.rs a).toNat + i).find?
      (fun x => !(s.tagRec s.part x).nextGen (tagGen (s.rs a).toNat)) = some ((s.rs a).toNat + i) := by
    rw [List.find?_map, Option.map_eq_some_iff]
    refine ⟨i, List.find?_range_eq_some.2 ⟨?_, List.mem_range.2 hi, fun j hj => ?_⟩, rfl⟩
    · simp [bad]
    · simp [before j hj]
  simp only [execTagdecl, taskOnly_task hf, run.counted, Bool.false_eq_true, if_false, tagOperand_small run.word, R.bind_ok, first, finish_trap]

/-- TAGDECL declares every handle and writes how many spilled on its die (R315). -/
theorem execTagdecl_declares
    (free : ∀ j, j < (s.rs b).toNat → (s.tagRec s.part ((s.rs a).toNat + j)).nextGen (tagGen (s.rs a).toNat) = true) (d : SReg) (sc : BitVec 3)
    {u : State} (hu : u = (List.range (s.rs b).toNat).foldl (fun t i => t.declareTag s.part ((s.rs a).toNat + i) sc.toNat) s) :
    execTagdecl d a b sc s = .next ((u.ws d (BitVec.ofNat 64 ((List.range (s.rs b).toNat).filter
      fun i => (u.tagRec s.part ((s.rs a).toNat + i)).spilled.contains s.here.die).length)).advance 4) := by
  have unrefused : ((List.range (s.rs b).toNat).map fun i => (s.rs a).toNat + i).find?
      (fun x => !(s.tagRec s.part x).nextGen (tagGen (s.rs a).toNat)) = none := by
    rw [List.find?_eq_none]
    simpa using free
  subst hu
  simp only [execTagdecl, taskOnly_task hf, run.counted, Bool.false_eq_true, if_false, tagOperand_small run.word, R.bind_ok, unrefused, finish_ok,
    List.foldl_map, List.filter_map, List.length_map, Function.comp_def]

end

section
variable (small : (s.rs a).toNat < 2 ^ 32)
include small

theorem execTagpub_stale (stale : s.stalePub s.part (s.rs a).toNat = true) (r : BitVec 2) :
    execTagpub a r s = .next (s.takeTrap .tagStale (s.rs a) 4) := by
  simp only [execTagpub, taskOnly_task hf, tagOperand_small small, R.bind_ok, stale, if_true, finish_trap]

/-- TAGPUB of a word that is not stale is a release and an effect, and publishes a tag that is not PUBLISHED yet (R314, R315). -/
theorem execTagpub_live (live : s.stalePub s.part (s.rs a).toNat = false) (r : BitVec 2) {g : TagRec} (hg : g = s.tagRec s.part (s.rs a).toNat)
    {u : State} (hu : u = ((if r = 3 then s.bindLoads g.scope else s).release g.scope).effect) : execTagpub a r s =
    .next (if g.state = 2 then u.advance 4 else ((((u.spillNotice u.part (s.rs a).toNat).setTag u.part (s.rs a).toNat
      { g with state := 2 }).writeSpill u.part (s.rs a).toNat).wakeTag u.part (s.rs a).toNat).advance 4) := by
  subst hg hu
  simp only [execTagpub, taskOnly_task hf, tagOperand_small small, R.bind_ok, live, Bool.false_eq_true, if_false, State.acquireAr]
  split <;> rfl

theorem execTagret_stale (stale : s.stalePub s.part (s.rs a).toNat = true) : execTagret a s = .next (s.takeTrap .tagStale (s.rs a) 4) := by
  simp only [execTagret, taskOnly_task hf, tagOperand_small small, R.bind_ok, stale, if_true, finish_trap]

theorem execTagret_live (live : s.stalePub s.part (s.rs a).toNat = false) :
    execTagret a s = .next ((s.retireTag s.part (s.rs a).toNat).advance 4) := by
  simp only [execTagret, taskOnly_task hf, tagOperand_small small, R.bind_ok, live, Bool.false_eq_true, if_false, finish_ok]

theorem execTagqry_word (d : SReg) :
    execTagqry d a s = .next ((s.ws d ((s.tagRec s.part (s.rs a).toNat).word s.here.die)).advance 4) := by
  simp only [execTagqry, taskOnly_task hf, tagOperand_small small, R.bind_ok, finish_ok]

/-- TAGWAIT joins the handle's wait list, blocks and looks (R315, R389). -/
theorem execTagwait_starts (r : BitVec 2) {u v : State} (hu : u = (if r = 3 then s.release (s.tagRec s.part (s.rs a).toNat).scope else s).joinTag
      s.part (s.rs a).toNat s.here.die (.slot s.here.key))
    (hv : v = { u with shared := { u.shared with tagWaiters := (u.shared.tagWaiters.filter fun x => x.2 ≠ u.here.key) ++
      [(tagWaitKey u.part (s.rs a).toNat, u.here.key)] } }) :
    execTagwait a r s = .next ((v.blockOn (.tag u.part (s.rs a).toNat)).tryWait v.here) := by
  subst hu hv
  simp only [execTagwait, taskOnly_task hf, tagOperand_small small, R.bind_ok]
  rfl

end

section
variable (large : 2 ^ 32 ≤ (s.rs a).toNat)
include large

/-- A word of 2^32 or more is illegal (R313). -/
theorem execTagpub_illegal (r : BitVec 2) : execTagpub a r s = .next (s.takeTrap .illegal (s.rs a) 4) := by
  simp only [execTagpub, taskOnly_task hf, tagOperand_large large, R.bind_trap, finish_trap]

theorem execTagwait_illegal (r : BitVec 2) : execTagwait a r s = .next (s.takeTrap .illegal (s.rs a) 4) := by
  simp only [execTagwait, taskOnly_task hf, tagOperand_large large, R.bind_trap, finishWait_trap]

theorem execTagret_illegal : execTagret a s = .next (s.takeTrap .illegal (s.rs a) 4) := by
  simp only [execTagret, taskOnly_task hf, tagOperand_large large, R.bind_trap, finish_trap]

theorem execTagqry_illegal (d : SReg) : execTagqry d a s = .next (s.takeTrap .illegal (s.rs a) 4) := by
  simp only [execTagqry, taskOnly_task hf, tagOperand_large large, R.bind_trap, finish_trap]

end

end

/-- Settles O49: each instruction by its own equation, TAGWAIT by the wait that it starts. -/
theorem tagInstructionsComplete : Obligations.TagInstructionsComplete := by
  intro s d a b sc r hf w hw
  subst hw
  refine ⟨fun large => ⟨execTagpub_illegal hf large r, execTagwait_illegal hf large r, execTagret_illegal hf large,
      execTagqry_illegal hf large d⟩,
    fun n hn => ?_, fun small g hg => ⟨fun stale => ?_, fun state gen => ?_, ?_, fun u v hu hv => ?_⟩⟩
  · subst hn
    refine ⟨fun bad => execTagdecl_count hf bad d sc, fun least most last small may hmay => ?_⟩
    have run : TagRun (s.rs a).toNat (s.rs b).toNat := ⟨least, most, last, small⟩
    have next (i : Nat) : (s.tagRec s.part ((s.rs a).toNat + i)).nextGen (tagGen (s.rs a).toNat) = true ↔ may i :=
      (TagRec.nextGen_iff _ small).trans (hmay i).symm
    refine ⟨fun free u hu => ?_, fun i hi before bad => ?_⟩
    · exact execTagdecl_declares hf run (fun j hj => (next j).2 (free j hj)) d sc hu
    · exact execTagdecl_stale hf run hi (fun j hj => (next j).2 (before j hj)) (eq_false_of_ne_true (mt (next i).1 bad)) d sc
  · subst hg
    have refused := (s.stalePub_iff s.part small).2 stale
    exact ⟨execTagpub_stale hf small refused r, execTagret_stale hf small refused⟩
  · have live : s.stalePub s.part (s.rs a).toNat = false := by
      refine eq_false_of_ne_true fun stale => ?_
      have := (s.stalePub_iff s.part small).1 stale
      subst hg
      omega
    refine ⟨execTagret_live hf small live, fun u hu => ?_⟩
    have publish : exec (.tagpub a r) s = _ := execTagpub_live hf small live r hg hu
    rw [publish]
    refine ⟨fun already => ?_, fun declared => ?_⟩
    · rw [if_pos already]
    · rw [if_neg (by omega)]
  · subst hg
    exact execTagqry_word hf small d
  · subst hg
    have starts : exec (.tagwait a r) s = _ := execTagwait_starts hf small r hu rfl
    rw [starts, ← hv, tryWait_tag hv, BitVec.ofNat_toNat, BitVec.setWidth_eq]
    have here : v.here = u.here := by rw [hv]; rfl
    refine ⟨fun late => ?_, fun listed => ⟨fun stale => ?_, fun fresh published => ?_, fun fresh waiting => ?_⟩⟩
    · rw [here] at late
      rw [if_pos late]
    all_goals rw [here] at listed
    · rw [if_neg (ne_true_of_eq_false listed), if_pos stale, here]
    · rw [if_neg (ne_true_of_eq_false listed), if_neg (ne_true_of_eq_false fresh), if_pos published, here]
    · rw [if_neg (ne_true_of_eq_false listed), if_neg (ne_true_of_eq_false fresh), if_neg (ne_true_of_eq_false waiting)]

end Sys2Proof.Machine
end

section
/-! PROOFS. A step of the package stops only after a failed boot or in a freeze that has been read out. -/

namespace Sys2Proof.Machine

theorem goesOn_elapsed {r : Res} (h : GoesOn r) : GoesOn (elapsed r) := by
  obtain ⟨t, rfl⟩ := h
  exact goesOn_next _

theorem goesOn_afterIssue (c : CtxId) (pc : Word) (len : Nat) (vector : Bool) (i : Instr) {r : Res} (h : GoesOn r) :
    GoesOn (afterIssue c pc len vector i r) := by
  obtain ⟨t, rfl⟩ := h
  exact goesOn_next _

/-- A context that issues goes on, whatever its fetch answers. -/
theorem goesOn_issueFrom (s : State) (c : CtxId) : GoesOn (s.issueFrom c) := by
  unfold State.issueFrom
  dsimp only
  split
  case h_1 => exact goesOn_elapsed (goesOn_next _)
  case h_2 => exact goesOn_elapsed (goesOn_next _)
  case h_3 w x t _ =>
    split
    · exact goesOn_afterIssue _ _ _ _ _ (exec_goesOn _ _)
    · exact goesOn_afterIssue _ _ _ _ _ (exec_goesOn _ _)

/-- A BLOCKED context that looks again goes on, whatever it waits for. -/
theorem goesOn_lookAgain (s : State) (c : CtxId) : GoesOn (s.lookAgain c) := by
  unfold State.lookAgain
  dsimp only
  split
  case h_2 i _ => exact goesOn_elapsed (exec_goesOn i _)
  all_goals exact goesOn_elapsed (goesOn_next _)

/-- Every input is taken. -/
theorem goesOn_take (s : State) (i : Input) : GoesOn (s.take i) := by
  unfold State.take
  split
  case h_1 i =>
    split
    · exact goesOn_elapsed (exec_goesOn i s)
    · exact goesOn_elapsed (goesOn_next s)
  case h_2 c =>
    split
    · exact goesOn_issueFrom s c
    split
    · exact goesOn_lookAgain s c
    · exact goesOn_elapsed (goesOn_next s)
  case h_3 => exact goesOn_elapsed (goesOn_next _)

theorem goesOn_deviceOr (s : State) {other : Res} (h : GoesOn other) : GoesOn (s.deviceOr other) := by
  unfold State.deviceOr
  split
  · exact goesOn_take s _
  · exact h

/-- The frozen package whose read-out is over. -/
def State.readOut (s : State) : Prop := s.plat.booted = true ∧ s.plat.frozen = true ∧ 3 ≤ s.plat.readout

/-- What the package does by itself goes on, but for a halted boot and a freeze that has been read out. -/
theorem proceed_cases (s : State) : GoesOn s.proceed ∨ (s.plat.halted = true ∧ s.proceed = .fault .bootHalted) ∨
    (s.plat.halted = false ∧ s.readOut ∧ s.proceed = .fault .frozen) := by
  unfold State.proceed
  cases halted : s.plat.halted
  case true => exact .inr (.inl ⟨rfl, rfl⟩)
  cases booted : s.plat.booted
  case false => exact .inl (goesOn_elapsed (exec_goesOn .reset s))
  cases frozen : s.plat.frozen
  case true =>
    by_cases reading : s.plat.readout < 3
    · rw [if_pos reading]
      exact .inl (goesOn_elapsed (exec_goesOn .freezeReadout s))
    · rw [if_neg reading]
      exact .inr (.inr ⟨rfl, ⟨booted, frozen, Nat.not_lt.1 reading⟩, rfl⟩)
  refine .inl ?_
  show GoesOn (if 2 ≤ s.plat.ps then _ else _)
  split
  · exact goesOn_elapsed (exec_goesOn .powerStateExit s)
  split
  · exact goesOn_elapsed (exec_goesOn (.trapEntry _ _) s)
  split
  · exact goesOn_deviceOr s (goesOn_elapsed (goesOn_next s))
  split
  · exact goesOn_deviceOr s (goesOn_issueFrom s _)
  · exact goesOn_issueFrom s _

/-- Settles O8: an input is always taken, and without one the package proceeds. -/
theorem stepStopsOnlyHaltedOrFrozen : Obligations.StepStopsOnlyHaltedOrFrozen := by
  intro s
  unfold step
  cases agenda : s.agenda with
  | cons i rest => exact .inl (goesOn_take _ i)
  | nil =>
    obtain on | ⟨halted, stop⟩ | ⟨halted, ⟨booted, frozen, read⟩, stop⟩ := proceed_cases s
    · exact .inl on
    · exact .inr (.inl ⟨rfl, halted, stop⟩)
    · exact .inr (.inr ⟨rfl, halted, booted, frozen, read, stop⟩)

end Sys2Proof.Machine
end

section
/-! PROOFS. Traps taken, the handler entered and left, and the instructions of one level only. -/

namespace Sys2Proof.Machine

/-! ### A task trap (R364) -/

/-- A task trap in the issuing context writes the context's record and its core's pending traps. -/
theorem trapContext_self (s : State) (c : Cause) (v : Word) (n : Nat) : s.trapContext s.here c v n =
    ({ s with hart := { s.hart with status := .trapped, trap := ⟨c, s.hart.pc, v, n, s.polestar⟩, task := s.hart.task.issued } } : State).modCore
      s.here.die s.here.core fun k => { k with traps := s.joinTraps s.here k.traps } := by
  simp only [State.trapContext, State.hartAt_here, State.setHart_self]

/-- The slot joins the pending traps of its core. -/
theorem trapContext_myCore (s : State) (c : Cause) (v : Word) (n : Nat) :
    (s.trapContext s.here c v n).myCore = { s.myCore with traps := s.joinTraps s.here s.myCore.traps } := by
  rw [trapContext_self]
  exact State.coreAt_modCore _ _ _ _

/-- A slot that joins the pending traps of its core is among them. -/
theorem mem_joinTraps (s : State) (c : CtxId) (traps : List Nat) : c.slot ∈ s.joinTraps c traps :=
  List.mem_append_right _ List.mem_cons_self

/-- A task trap changes its slot and its core's pending traps alone. -/
theorem trapContext_frame (s : State) (c : Cause) (v : Word) (n : Nat) :
    { s.trapContext s.here c v n with hart := s.hart, cores := s.cores } = s := by
  rw [trapContext_self]
  rfl

/-- Settles O26: at task level the trap is the task trap of the issuing context. -/
theorem taskTrapIsTaken : Obligations.TaskTrapIsTaken := by
  intro s c v n task
  have core := trapContext_myCore s c v n
  rw [takeTrap_task task, trapContext_here, core]
  exact ⟨rfl, rfl, rfl, rfl, mem_joinTraps s s.here _, rfl, rfl, rfl, rfl, rfl, trapContext_frame s c v n⟩

/-! ### A firmware fault (R362) -/

/-- A firmware fault writes its record into its core. -/
theorem firmwareFault_coreAt (s : State) (d k code : Nat) (pc v : Word) : (s.firmwareFault d k code pc v).coreAt d k =
    { s.coreAt d k with fwcause := BitVec.ofNat 64 code, fwpc := pc, fwval := v, failed := true } :=
  State.coreAt_modCore s d k fun c => { c with fwcause := BitVec.ofNat 64 code, fwpc := pc, fwval := v, failed := true }

/-- No context of a failed core issues (R362). -/
theorem State.canIssue_failed {s : State} {c : CtxId} (failed : (s.coreAt c.die c.core).failed = true) : s.canIssue c = false := by
  simp [State.canIssue, State.coreRuns, failed]

/-- Settles O27: at supervisor level the trap is a firmware fault of the issuing core. -/
theorem firmwareFaultIsTaken : Obligations.FirmwareFaultIsTaken := by
  intro s c v n fw
  have core := firmwareFault_coreAt s s.here.die s.here.core c.code s.hart.pc v
  rw [takeTrap_fw fw]
  exact ⟨core, rfl, rfl, fun k => State.canIssue_failed (congrArg Core.failed core)⟩

/-! ### The handler (R361, R365, R371) -/

theorem nextTrap_task {s : State} {d k slot : Nat} {rest : List Nat} (pending : (s.coreAt d k).traps = slot :: rest) :
    nextTrap s d k = some ((tcauseWord (s.hartAt ⟨d, k, slot⟩).trap.cause slot 0, (s.hartAt ⟨d, k, slot⟩).trap.tpc,
      (s.hartAt ⟨d, k, slot⟩).trap.tval), { s.coreAt d k with traps := rest }) := by
  simp only [nextTrap, pending]

theorem nextTrap_sequence {s : State} {d k : Nat} {e : SeqTrap} {rest : List SeqTrap} (none : (s.coreAt d k).traps = [])
    (pending : (s.coreAt d k).seqTraps = e :: rest) :
    nextTrap s d k = some ((tcauseWord .sequenceTrap e.slot 1, e.tpc, BitVec.ofNat 64 (e.seq + e.die * 2 ^ 10 + e.pos * 2 ^ 16)),
      { s.coreAt d k with seqTraps := rest }) := by
  simp only [nextTrap, none, pending]

theorem nextTrap_none {s : State} {d k : Nat} (task : (s.coreAt d k).traps = []) (sequence : (s.coreAt d k).seqTraps = [])
    (engine : (s.coreAt d k).efq = []) : nextTrap s d k = none := by
  simp only [nextTrap, task, sequence, engine, List.find?_nil]

/-- Consuming an entry leaves TVEC. -/
theorem nextTrap_tvec {s : State} {d k : Nat} {x : Word × Word × Word} {k2 : Core} (next : nextTrap s d k = some (x, k2)) :
    k2.tvec = (s.coreAt d k).tvec := by
  cases task : (s.coreAt d k).traps with
  | cons slot rest =>
    rw [nextTrap_task task] at next
    exact congrArg (fun y => y.2.tvec) (Option.some.inj next).symm
  | nil =>
    cases sequence : (s.coreAt d k).seqTraps with
    | cons e rest =>
      rw [nextTrap_sequence task sequence] at next
      exact congrArg (fun y => y.2.tvec) (Option.some.inj next).symm
    | nil =>
      simp only [nextTrap, task, sequence] at next
      split at next
      · exact nomatch next
      · exact congrArg (fun y => y.2.tvec) (Option.some.inj next).symm

/-- A change of a context's registers leaves every core. -/
theorem State.coreAt_modHart (s : State) (c : CtxId) (f : Hart → Hart) (d k : Nat) : (s.modHart c f).coreAt d k = s.coreAt d k := by
  simp [State.coreAt]

/-- The core after the entry for a pending trap. -/
theorem enterHandler_coreAt {s : State} {d k : Nat} {x : Word × Word × Word} {k2 : Core} (next : nextTrap s d k = some (x, k2)) (bg : Word) :
    (s.enterHandler d k bg).coreAt d k =
      { k2 with fwepc := low48 bg, tcause := x.1, tpc := x.2.1, tval := x.2.2, tactive := true, wfi := none } := by
  unfold State.enterHandler
  rw [next]
  exact (State.coreAt_modHart _ _ _ _ _).trans (State.coreAt_modCore _ _ _ _)

/-- The entry sends the firmware context to TVEC. -/
theorem enterHandler_pc {s : State} {d k : Nat} {x : Word × Word × Word} {k2 : Core} (next : nextTrap s d k = some (x, k2)) (bg : Word) :
    ((s.enterHandler d k bg).hartAt (fwOf d k)).pc = k2.tvec := by
  unfold State.enterHandler
  rw [next]
  exact congrArg Hart.pc (State.hartAt_modHart _ _ _)

/-- Leaving with no trap pending goes back to the background. -/
theorem leaveHandler_none {s : State} {d k : Nat} (task : (s.coreAt d k).traps = []) (sequence : (s.coreAt d k).seqTraps = [])
    (engine : (s.coreAt d k).efq = []) : s.leaveHandler d k =
    (s.modCore d k fun k => { k with tactive := false, hxlat := false }).modHart (fwOf d k)
      fun h => { h with pc := (s.coreAt d k).fwepc, status := .ready } := by
  have empty : nextTrap (s.modCore d k fun k => { k with tactive := false, hxlat := false }) d k = none := by
    apply nextTrap_none <;> rw [State.coreAt_modCore] <;> assumption
  simp [State.leaveHandler, State.trapPending, empty]

/-- Settles O28: entry and leaving by what the next pending trap is. -/
theorem handlerEntryAndReturn : Obligations.HandlerEntryAndReturn := by
  refine ⟨fun s d k bg x k2 next => ⟨enterHandler_coreAt next bg, enterHandler_pc next bg, nextTrap_tvec next⟩,
    fun s d k slot rest pending => ⟨_, nextTrap_task pending, rfl⟩,
    fun s d k e rest none pending => ⟨_, _, nextTrap_sequence none pending, rfl, rfl⟩, fun s d k task sequence engine => ?_⟩
  rw [leaveHandler_none task sequence engine, State.coreAt_modHart, State.coreAt_modCore, State.hartAt_modHart]
  exact ⟨rfl, rfl, rfl⟩

end Sys2Proof.Machine
end

section
/-! PROOFS. Instructions that only tasks have, and those that only the firmware context has. -/

namespace Sys2Proof.Machine

/-! ### At supervisor level (R359) -/

section
variable {s : State} (fw : s.isFw = true)
include fw

theorem finish_taskOnly_fw (word : Word) (r : R Unit) : finish 4 s (taskOnly s word r) = .next (s.takeTrap .illegal word 4) := by
  rw [taskOnly_fw fw, finish_trap]

theorem finishWait_taskOnly_fw (word : Word) (r : R Wait) : finishWait s (taskOnly s word r) = .next (s.takeTrap .illegal word 4) := by
  rw [taskOnly_fw fw, finishWait_trap]

theorem launchOp_fw (word : Word) (d a : SReg) (spawn : Bool) : launchOp word d a spawn s = .next (s.takeTrap .illegal word 4) := by
  unfold launchOp
  rw [taskOnly_fw fw]

theorem popStream_fw (word : Word) (q : QReg) (small : Bool) (f : List Byte → Stream → State → State) :
    popStream word q small s f = .next (s.takeTrap .illegal word 4) := by
  simp only [popStream, onStream, taskOnly_fw fw]

theorem execQpops_fw (d : SReg) (q : QReg) : execQpops d q s = .next (s.takeTrap .illegal (tvalWord (.qpops d q)) 4) :=
  popStream_fw fw _ _ _ _

theorem execQpopv_fw (v : BitVec 5) (q : QReg) (w : BitVec 1) :
    execQpopv v q w s = .next (s.takeTrap .illegal (tvalWord (.qpopv v q w)) 4) := popStream_fw fw _ _ _ _

theorem execQpeek_fw (d : SReg) (q : QReg) : execQpeek d q s = .next (s.takeTrap .illegal (tvalWord (.qpeek d q)) 4) :=
  popStream_fw fw _ _ _ _

theorem execTrbind_fw (d b : SReg) : execTrbind d b s = .next (s.takeTrap .illegal (tvalWord (.trbind d b)) 4) := by
  simp only [execTrbind, taskOnly_fw fw, fw, Bool.not_true, Bool.false_and, Bool.false_eq_true, if_false]

/-- An instruction that ends otherwise than by `finish` checks the level first too. -/
theorem execWaitvis_fw (a : SReg) (r : BitVec 2) : execWaitvis a r s = .next (s.takeTrap .illegal (tvalWord (.waitvis a r)) 4) := by
  simp only [execWaitvis, taskOnly_fw fw]

theorem execNode_fw : execNode s = .next (s.takeTrap .illegal (tvalWord .node) 4) := by
  simp only [execNode, taskOnly_fw fw]

theorem execGsync_fw (a : SReg) (sf : BitVec 3) : execGsync a sf s = .next (s.takeTrap .illegal (tvalWord (.gsync a sf)) 4) := by
  simp only [execGsync, taskOnly_fw fw]

theorem execExit_fw (r : BitVec 2) : execExit r s = .next (s.takeTrap .illegal (tvalWord (.exit r)) 4) := by
  simp only [execExit, taskOnly_fw fw]

theorem execSuspend_fw (k a b : BitVec 5) (sf : BitVec 3) (r : BitVec 2) :
    execSuspend k a b sf r s = .next (s.takeTrap .illegal (tvalWord (.suspend k a b sf r)) 4) := by
  simp only [execSuspend, taskOnly_fw fw]

theorem execTrwait_fw (cd : CReg) (a b : SReg) (r : BitVec 2) :
    execTrwait cd a b r s = .next (s.takeTrap .illegal (tvalWord (.trwait cd a b r)) 4) := by
  simp only [execTrwait, taskOnly_fw fw]

/-- An instruction that only tasks have checks the level before anything else. -/
theorem exec_taskInstr_fw {i : Instr} (task : Claims.taskInstr i = true) : exec i s = .next (s.takeTrap .illegal (tvalWord i) 4) := by
  cases i with
  -- visibility, tasks and groups
  | waitvis => exact execWaitvis_fw fw _ _
  | node => exact execNode_fw fw
  | gsync => exact execGsync_fw fw _ _
  | exit => exact execExit_fw fw _
  | suspend => exact execSuspend_fw fw _ _ _ _ _
  | launch | spawn => exact launchOp_fw fw _ _ _ _
  | awaitch | gjoin | gleave | yield | hintnext | self => exact finish_taskOnly_fw fw _ _
  -- barriers and channels
  | barwait | chrsv | chawait => exact finishWait_taskOnly_fw fw _ _
  | barinit | bararv | barxb | bartest | chpush | chrel | chstat => exact finish_taskOnly_fw fw _ _
  -- copies and streams
  | cpy | cpyt | cpyg | cpys | cpyc | cpyf | cpyb => exact finish_taskOnly_fw fw _ _
  | qpops d q => exact execQpops_fw fw d q
  | qpopv v q w => exact execQpopv_fw fw v q w
  | qpeek d q => exact execQpeek_fw fw d q
  | qbind | qdrain => exact finishWait_taskOnly_fw fw _ _
  | qaddr | qstat | qfmt => exact finish_taskOnly_fw fw _ _
  -- the matrix engine and tiles
  | mlease => exact finishWait_taskOnly_fw fw _ _
  | mfree | mjob | mstat | mdrain | merrrd => exact finish_taskOnly_fw fw _ _
  | tcfg | tzero | tldrow | tstrow | tld | tst | trowv | tcolv | tvrow | tvcol | ttrans | tmma | trel => exact finish_taskOnly_fw fw _ _
  -- transits, sequences and tags
  | trbind => exact execTrbind_fw fw _ _
  | trwait => exact execTrwait_fw fw _ _ _ _
  | tagwait => exact finishWait_taskOnly_fw fw _ _
  | trinfo | trdone | trhold | trskip | trnext | trqry | tagdecl | tagpub | tagqry | tagret | coll | tkcommit | tkput | wpset | wpclr | wprd
  | seqst => exact finish_taskOnly_fw fw _ _
  -- vectors: arithmetic, compares and conversions
  | vfadd | vfsub | vfmul | vfma | vfms | vfnma | vfnms | vfmin | vfmax | vfminm | vfmaxm | vfabs | vfneg | vfsgnj | vfdiv | vfsqrt | vfrcp
  | vfrsq | vfexp2 | vflog2 | vftanh | vfceq | vfcne | vfclt | vfcle | vfcun | vceq | vcne | vclt | vcle | vcltu | vcleu | vadd | vsub | vadds
  | vsubs | vmul | vmulh | vmulhu | vmin | vmax | vminu | vmaxu | vabs | vand | vor | vxor | vandn | vnot | vsll | vsrl | vsra | vpopc | vclz
  | vcvt | vcvtsat | vqfp4 | vdqfp4 | vqfp8 | vblksc | vbndsc => exact finish_taskOnly_fw fw _ _
  -- vectors: lanes, reductions, memory, masks and elements
  | vperm | vslideup | vslidedn | vziplo | vziphi | vrev | vcompr | vexpnd | vsel | vrsum | vrmax | vrmin | vrmaxi | vrmini | vscans | vrand
  | vror | vtopk | vspc | vspx | vbpt | vbpu | vld | vst | vlds | vsts | vgth | vsct | vsctadd | vldb | kand | kor | kxor | knot | kpop | kfirst
  | kset | kmov | vsett | vmvs | vmve | vins | vid | vrng | vgumb | vflgrd | vflgclr | vmov => exact finish_taskOnly_fw fw _ _
  | _ => cases task

end

/-- Settles O30: the level is checked first. -/
theorem taskInstructionsNeedATask : Obligations.TaskInstructionsNeedATask := fun _ _ task fw => exec_taskInstr_fw fw task

/-! ### At task level (R73, R175, R370) -/

section
variable {s : State} (task : s.isFw = false)
include task

theorem systemOp_task (word : Word) (r : State → Res) : systemOp word s r = .next (s.takeTrap .privileged word 4) := by
  simp only [systemOp, task, Bool.false_eq_true, if_false]

/-- At task level a control register from 0x800 up is PRIVILEGED, whatever the instruction would do with it (R73, R175). -/
theorem ctlValue_privileged {n : Nat} (high : 0x800 ≤ n) (word : Word) : ctlValue word n s = .trap .privileged word s := by
  simp only [ctlValue, task, Bool.false_eq_true, if_false, high, if_true]

theorem ctlWrite_privileged {n : Nat} (high : 0x800 ≤ n) (word : Word) (d : SReg) (new : Word → Word) :
    ctlWrite word d n new s = .next (s.takeTrap .privileged word 4) := by
  simp only [ctlWrite, ctlValue_privileged task high, R.bind_trap, finish_trap]

theorem execCtlrd_privileged {r : BitVec 12} (high : 0x800 ≤ r.toNat) (d : SReg) :
    execCtlrd d r s = .next (s.takeTrap .privileged (ctlWord d 0 r 0) 4) := by
  simp only [execCtlrd, ctlValue_privileged task high, R.bind_trap, finish_trap]

theorem execEret_task (a : SReg) : execEret a s = .next (s.takeTrap .privileged (tvalWord (.eret a)) 4) := by
  rw [execEret, systemOp_task task]
  rfl

theorem execWfi_task (a : SReg) : execWfi a s = .next (s.takeTrap .privileged (tvalWord (.wfi a)) 4) := by
  rw [execWfi, systemOp_task task]
  rfl

theorem execTlbinv_task (a b : SReg) (sf : BitVec 3) : execTlbinv a b sf s = .next (s.takeTrap .privileged (tvalWord (.tlbinv a b sf)) 4) := by
  rw [execTlbinv, systemOp_task task]
  rfl

theorem execCtxsv_task (d a : SReg) (cb : CReg) : execCtxsv d a cb s = .next (s.takeTrap .privileged (tvalWord (.ctxsv d a cb)) 4) := by
  rw [execCtxsv, systemOp_task task]
  rfl

theorem execCtxld_task (d a : SReg) (cb : CReg) : execCtxld d a cb s = .next (s.takeTrap .privileged (tvalWord (.ctxld d a cb)) 4) := by
  rw [execCtxld, systemOp_task task]
  rfl

theorem execQuardr_task (d a : SReg) : execQuardr d a s = .next (s.takeTrap .privileged (tvalWord (.quardr d a)) 4) := by
  rw [execQuardr, systemOp_task task]
  rfl

theorem execHalt_task (a : SReg) : execHalt a s = .next (s.takeTrap .privileged (tvalWord (.halt a)) 4) := by
  rw [execHalt, systemOp_task task]
  rfl

/-- A system instruction checks the level before anything else. -/
theorem exec_systemInstr_task {i : Instr} (system : Claims.systemInstr i = true) :
    exec i s = .next (s.takeTrap .privileged (tvalWord i) 4) := by
  cases i with
  | eret a => exact execEret_task task a
  | wfi a => exact execWfi_task task a
  | tlbinv a b sf => exact execTlbinv_task task a b sf
  | ctxsv d a cb => exact execCtxsv_task task d a cb
  | ctxld d a cb => exact execCtxld_task task d a cb
  | quardr d a => exact execQuardr_task task d a
  | halt a => exact execHalt_task task a
  | _ => cases system

end

/-- Settles O29: the level is checked first, by the system instructions and by the control registers' value. -/
theorem supervisorInstructionsNeedSupervisor : Obligations.SupervisorInstructionsNeedSupervisor := by
  refine ⟨fun i s system task => exec_systemInstr_task task system, fun s d a r i form task high => ?_⟩
  obtain rfl | rfl | rfl | rfl := form
  · exact execCtlrd_privileged task high d
  all_goals exact ctlWrite_privileged task high _ d _

end Sys2Proof.Machine
end

section
/-! PROOFS. TRBIND, the decision of its arc's dies and the completion of a waiting context. -/

namespace Sys2Proof.Machine

/-! ### The outcome of a request (R302) -/

/-- A die answers that the launch of a request holds its key. -/
def State.bindMine (s : State) (q : BindReq) (d : Nat) : Bool :=
  (s.binding d (field q.record 0 2) (field q.record 2 2)).any fun b => b.launch = q.launch

/-- A die answers that another launch holds the key of a request. -/
def State.bindOther (s : State) (q : BindReq) (d : Nat) : Bool :=
  (s.binding d (field q.record 0 2) (field q.record 2 2)).isSome && !s.bindMine q d

/-- A die answers that it has no entry for the key of a request. -/
def State.bindFull (s : State) (q : BindReq) (d : Nat) : Bool :=
  (s.binding d (field q.record 0 2) (field q.record 2 2)).isNone && 4096 ≤ s.bindCount d

section
variable (s : State) (q : BindReq) (d : Nat)

theorem State.bindMine_iff : s.bindMine q d = true ↔
    ∃ b, s.binding d (field q.record 0 2) (field q.record 2 2) = some b ∧ b.launch = q.launch := by
  simp only [State.bindMine, Option.any_eq_true, decide_eq_true_eq]

theorem State.bindOther_iff : s.bindOther q d = true ↔
    ∃ b, s.binding d (field q.record 0 2) (field q.record 2 2) = some b ∧ b.launch ≠ q.launch := by
  unfold State.bindOther State.bindMine
  cases s.binding d (field q.record 0 2) (field q.record 2 2) <;> simp

theorem State.bindFull_iff : s.bindFull q d = true ↔
    s.binding d (field q.record 0 2) (field q.record 2 2) = none ∧ 4096 ≤ s.bindCount d := by
  simp only [State.bindFull, Bool.and_eq_true, Option.isNone_iff_eq_none, decide_eq_true_eq]

/-- The bindings with the key of a request removed on all its dies. -/
def State.unbindAll (s : State) (q : BindReq) : SMap Binding :=
  q.dies.foldl (fun m d => m.erase (bindKey d (field q.record 0 2) (field q.record 2 2))) s.shared.bindings

/-- The bindings with the key of a request bound to its launch on all its dies. -/
def State.bindAll (s : State) (q : BindReq) : SMap Binding :=
  q.dies.foldl (fun m d => m.insert (bindKey d (field q.record 0 2) (field q.record 2 2)) (bindingOf q.launch q.record)) s.shared.bindings

/-- The status and the bindings after a decision. -/
def State.bindDecision (s : State) (q : BindReq) : Nat × SMap Binding :=
  if bitOf (field q.record 40 1) 1 then
    if q.dies.all (s.bindMine q) then (4, s.unbindAll q) else (5, s.shared.bindings)
  else if q.dies.any (s.bindOther q) then (2, s.shared.bindings)
  else if q.dies.any (s.bindFull q) then (3, s.shared.bindings)
  else (if q.dies.any (s.bindMine q) then 1 else 0, s.bindAll q)

/-- A decision changes the bindings alone. -/
theorem State.decideBind_eq : s.decideBind q =
    ((s.bindDecision q).1, { s with shared := { s.shared with bindings := (s.bindDecision q).2 } }) := by
  unfold State.decideBind State.bindDecision
  dsimp only
  show (if _ then (if q.dies.all (s.bindMine q) then _ else _) else if q.dies.any (s.bindOther q) then _
    else if q.dies.any (s.bindFull q) then _ else _) = _
  split
  · split <;> rfl
  split
  · rfl
  split <;> rfl

/-- The decision is the outcome of R302. -/
theorem State.bindDecision_outcome : Claims.BindOutcome s q (s.bindDecision q).1 (s.bindDecision q).2 := by
  rintro image tag mine other full rfl rfl hm ho hf
  obtain rfl : mine = fun d => s.bindMine q d = true := funext fun d => propext ((hm d).trans (s.bindMine_iff q d).symm)
  obtain rfl : other = fun d => s.bindOther q d = true := funext fun d => propext ((ho d).trans (s.bindOther_iff q d).symm)
  obtain rfl : full = fun d => s.bindFull q d = true := funext fun d => propext ((hf d).trans (s.bindFull_iff q d).symm)
  unfold State.bindDecision
  simp only [← List.all_eq_true, ← List.any_eq_true]
  refine ⟨fun removal => ?_, fun binds => ?_⟩
  · rw [if_pos removal]
    exact ⟨fun all => by rw [if_pos all]; exact ⟨rfl, rfl⟩, fun some => by rw [if_neg some]; exact ⟨rfl, rfl⟩⟩
  · rw [if_neg (ne_true_of_eq_false binds)]
    have nowhere {p : Nat → Bool} : (∀ d ∈ q.dies, ¬p d = true) ↔ ¬q.dies.any p = true := by simp
    simp only [nowhere]
    refine ⟨fun taken => ?_, fun free full => ?_, fun free room => ?_⟩
    · rw [if_pos taken]
      exact ⟨rfl, rfl⟩
    · rw [if_neg free, if_pos full]
      exact ⟨rfl, rfl⟩
    · rw [if_neg free, if_neg room]
      exact ⟨fun replaced => if_pos replaced, fun new => if_neg new, rfl⟩

end

/-! ### TRBIND and its decision step (R301, R302) -/

theorem execTrbind_waits {s : State} (task : s.isFw = false) (under : (s.shared.bindReqs.any fun q => q.ctx = s.here) = true) (d b : SReg) :
    execTrbind d b s = .next s.block := by
  simp only [execTrbind, task, under, Bool.not_false, Bool.and_self, if_true]

/-- TRBIND of a good record leaves its request to the dies and waits. -/
theorem execTrbind_requests {s u : State} {b : SReg} {r : List Byte} (task : s.isFw = false) (d : SReg)
    (first : (s.shared.bindReqs.any fun q => q.ctx = s.here) = false)
    (record : transitRecord (tvalWord (.trbind d b)) (s.rs b).toNat 64 64 (bindFields s.hart.task.codeLen) s = .ok r u) :
    execTrbind d b s = .next ({ u with shared := { u.shared with bindReqs := u.shared.bindReqs ++ [⟨u.here, d, r, u.hart.task.launch,
      if bitOf (field r 40 1) 0 = true then [u.here.die] else u.arcDies u.hart.task.ring u.hart.task.arcFirst u.hart.task.arcLen⟩] } } :
        State).block := by
  simp only [execTrbind, first, Bool.and_false, Bool.false_eq_true, if_false, taskOnly_task task, record, R.bind_ok]

/-- The decision step of a core that runs ends the request of its context. -/
theorem execTrbindDecision_decides {s : State} {c : CtxId} {q : BindReq} (asked : (s.shared.bindReqs.find? fun q => q.ctx = c) = some q)
    (runs : s.coreRuns c = true) : execTrbindDecision c.die c.core c.slot s =
    .next (({ s with shared := { s.shared with
      bindings := (s.bindDecision q).2, bindReqs := s.shared.bindReqs.filter fun r => r.ctx ≠ c } } : State).complete c q.dest
        (BitVec.ofNat 64 (s.bindDecision q).1)) := by
  simp only [execTrbindDecision, asked, runs, Bool.not_true, Bool.false_eq_true, if_false, State.decideBind_eq]

theorem execTrbindDecision_stops {s : State} {c : CtxId} (runs : s.coreRuns c = false) : execTrbindDecision c.die c.core c.slot s = .next s := by
  unfold execTrbindDecision
  dsimp only
  split
  · rfl
  · rw [runs]; rfl

/-! ### Completion -/

/-- A context that completes goes on past its instruction with the value in its destination. -/
theorem State.complete_hartAt (s : State) (c : CtxId) (d : SReg) (v : Word) : (s.complete c d v).hartAt c =
    { (s.hartAt c).goOn ((s.hartAt c).pc + 4) with s := if d = 0 then (s.hartAt c).s else (s.hartAt c).s.set d.toNat v d.isLt } :=
  State.hartAt_modHart ..

/-- It changes its context alone. -/
theorem State.complete_frame (s : State) (c : CtxId) (d : SReg) (v : Word) :
    { s.complete c d v with hart := s.hart, parked := s.parked } = s := by
  unfold State.complete State.modHart State.setHart
  split <;> rfl

/-- Settles O46: TRBIND leaves its request and waits, and the decision is the outcome of the dies' answers. -/
theorem transitBindingCompletes : Obligations.TransitBindingCompletes := by
  refine ⟨fun s u d b r task => ⟨fun under => execTrbind_waits task under d b, fun first record q hq => ?_⟩,
    fun s die core slot c q hc asked => ?_, fun s c d v => ?_⟩
  · subst hq
    exact execTrbind_requests task d first record
  · subst hc
    exact ⟨fun stops => execTrbindDecision_stops (c := ⟨die, core, slot⟩) stops,
      fun runs => ⟨_, _, s.bindDecision_outcome q, execTrbindDecision_decides asked runs⟩⟩
  · rw [State.complete_hartAt]
    refine ⟨rfl, rfl, fun hd => ?_, s.complete_frame c d v⟩
    dsimp only
    rw [if_neg hd]
    exact (vget_set _ _ d.isLt _ _).trans (if_pos rfl)

end Sys2Proof.Machine
end

section
/-! PROOFS. TRSKIP, TRNEXT and SEQST on an entry of the partition's share. -/

namespace Sys2Proof.Machine

/-! ### Operands (R309, R311, R312) -/

/-- TRNEXT's operand: entry, next tag, rows and whether there is no input (R311). -/
structure NextWord (x i tag rows : Nat) (noin : Bool) : Prop where
  entry : i < 2 ^ 10
  key : tag < 2 ^ 16
  least : 1 ≤ rows
  most : rows ≤ 64
  word : x = i + tag * 2 ^ 16 + rows * 2 ^ 32 + if noin then 2 ^ 39 else 0

section
variable {x i tag rows : Nat} {noin : Bool} (h : NextWord x i tag rows noin)
include h

theorem NextWord.fields : x % 2 ^ 10 = i ∧ bitsOf x 31 16 = tag ∧ bitsOf x 38 32 = rows ∧ bitOf x 39 = noin := by
  obtain ⟨entry, key, least, most, rfl⟩ := h
  unfold bitsOf bitOf
  cases noin
  · simp only [Bool.false_eq_true, if_false, decide_eq_false_iff_not]
    omega
  · simp only [if_true, decide_eq_true_eq]
    omega

theorem NextWord.good : (x / 2 ^ 40 ≠ 0 || bitsOf x 15 10 ≠ 0 || rows = 0 || 64 < rows) = false := by
  obtain ⟨entry, key, least, most, rfl⟩ := h
  have low : ¬rows = 0 ∧ ¬64 < rows := by omega
  have high : (i + tag * 2 ^ 16 + rows * 2 ^ 32 + if noin = true then 2 ^ 39 else 0) / 2 ^ 40 = 0 ∧
      bitsOf (i + tag * 2 ^ 16 + rows * 2 ^ 32 + if noin = true then 2 ^ 39 else 0) 15 10 = 0 := by
    unfold bitsOf
    split <;> omega
  simp only [high, low, ne_eq, not_true_eq_false, decide_false, Bool.or_self]

end

/-- SEQST's operand: entry and operation (R309). -/
structure SeqOp (x i op : Nat) : Prop where
  entry : i < 2 ^ 10
  known : op < 5
  word : x = i + op * 2 ^ 16

section
variable {x i op : Nat} (h : SeqOp x i op)
include h

theorem SeqOp.fields : x % 2 ^ 10 = i ∧ bitsOf x 19 16 = op := by
  obtain ⟨entry, known, rfl⟩ := h
  unfold bitsOf
  omega

theorem SeqOp.good : (x / 2 ^ 20 ≠ 0 || bitsOf x 15 10 ≠ 0 || 5 ≤ op) = false := by
  obtain ⟨entry, known, rfl⟩ := h
  have high : (i + op * 2 ^ 16) / 2 ^ 20 = 0 ∧ bitsOf (i + op * 2 ^ 16) 15 10 = 0 := by
    unfold bitsOf
    omega
  simp only [high, Nat.not_le.2 known, ne_eq, not_true_eq_false, decide_false, Bool.or_self]

end

section
variable {s : State} {a b : SReg} (task : s.isFw = false)
include task

/-! ### TRSKIP (R312) -/

theorem execTrskip_entry {k : Nat} (ref : seqRef ((s.rs a).toNat % 2 ^ 10) (s.rs a) s = .ok k s) (d : SReg) : execTrskip d a s =
    .next (((if (s.seqAt k).state = 1 then s.setSeq k { s.seqAt k with state := 2 } else s).ws d (BitVec.ofNat 64 (s.seqAt k).state)).advance 4) := by
  simp only [execTrskip, taskOnly_task task, ref, R.bind_ok, finish_ok]

theorem execTrskip_denied (ref : seqRef ((s.rs a).toNat % 2 ^ 10) (s.rs a) s = .trap .accessDenied (s.rs a) s) (d : SReg) :
    execTrskip d a s = .next (s.takeTrap .accessDenied (s.rs a) 4) := by
  simp only [execTrskip, taskOnly_task task, ref, R.bind_trap, finish_trap]

/-! ### TRNEXT (R311) -/

section
variable {i tag rows k : Nat} {noin : Bool} (operand : NextWord (s.rs a).toNat i tag rows noin) (small : (s.rs b).toNat < 2 ^ 32)
  (ref : seqRef i (s.rs a) s = .ok k s) (d : SReg)
include operand ref

/-- TRNEXT answers 1 for an entry that is not WAITING (R311). -/
theorem execTrnext_busy (small : (s.rs b).toNat < 2 ^ 32) (busy : (s.seqAt k).state ≠ 0) (unused : noin = true → (s.rs b).toNat = 0) :
    execTrnext d a b s = .next ((s.ws d 1).advance 4) := by
  obtain ⟨entry, -, sameRows, bit⟩ := operand.fields
  have word : ((s.rs b).toNat / 2 ^ 32 ≠ 0 || (noin && (s.rs b).toNat ≠ 0)) = false := by
    rw [Nat.div_eq_of_lt small]
    cases noin with
    | false => rfl
    | true => rw [unused rfl]; rfl
  simp only [execTrnext, taskOnly_task task, sameRows, operand.good, Bool.false_eq_true, if_false, bit, word, entry, ref, R.bind_ok,
    if_pos busy, finish_ok]

/-- Without an input the entry becomes READY. -/
theorem execTrnext_noInput (none : noin = true) (zero : (s.rs b).toNat = 0) (waiting : (s.seqAt k).state = 0) :
    execTrnext d a b s = .next (((s.setSeq k { s.seqAt k with
      nextTag := tag, rows := rows, input := .none, state := 1, ready := s.polestar }).ws d 0).advance 4) := by
  obtain ⟨entry, sameTag, sameRows, bit⟩ := operand.fields
  subst none
  simp only [execTrnext, taskOnly_task task, sameRows, operand.good, Bool.false_eq_true, if_false, bit, zero, Nat.zero_div, ne_eq,
    not_true_eq_false, decide_false, Bool.and_false, Bool.or_self, entry, ref, R.bind_ok, waiting, Bool.not_true, Bool.false_and, sameTag,
    Bool.true_or, if_true, finish_ok]

/-- With an input, a stale one traps, and the entry joins the wait list of another, READY if it is published. -/
theorem execTrnext_input (input : noin = false) (small : (s.rs b).toNat < 2 ^ 32) (waiting : (s.seqAt k).state = 0) :
    execTrnext d a b s = .next (if s.staleWait s.part (s.rs b).toNat = true then s.takeTrap .tagStale (s.rs b) 4 else
      (((s.joinTag s.part (s.rs b).toNat s.here.die (.seq k)).setSeq k (if s.published s.part (s.rs b).toNat = true then
        { s.seqAt k with nextTag := tag, rows := rows, input := some (s.rs b).toNat, state := 1, ready := s.polestar }
      else { s.seqAt k with nextTag := tag, rows := rows, input := some (s.rs b).toNat })).ws d 0).advance 4) := by
  obtain ⟨entry, sameTag, sameRows, bit⟩ := operand.fields
  subst input
  simp only [execTrnext, taskOnly_task task, sameRows, operand.good, Bool.false_eq_true, if_false, bit, Nat.div_eq_of_lt small, ne_eq,
    not_true_eq_false, decide_false, Bool.false_and, Bool.or_self, entry, ref, R.bind_ok, waiting, Bool.not_false, Bool.true_and, sameTag,
    Bool.false_or]
  split <;> rfl

end

/-! ### SEQST (R309, R310) -/

theorem execSeqst_illegal (bad : 2 ^ 20 ≤ (s.rs a).toNat ∨ bitsOf (s.rs a).toNat 15 10 ≠ 0 ∨ 5 ≤ bitsOf (s.rs a).toNat 19 16) (d : SReg) :
    execSeqst d a b s = .next (s.takeTrap .illegal (s.rs a) 4) := by
  have out : ((s.rs a).toNat / 2 ^ 20 ≠ 0 || bitsOf (s.rs a).toNat 15 10 ≠ 0 || 5 ≤ bitsOf (s.rs a).toNat 19 16) = true := by
    have high : (s.rs a).toNat / 2 ^ 20 ≠ 0 ↔ 2 ^ 20 ≤ (s.rs a).toNat := by omega
    simpa only [Bool.or_eq_true, decide_eq_true_eq, or_assoc, high] using bad
  simp only [execSeqst, taskOnly_task task, if_pos out, finish_trap]

/-- ALLOC takes the lowest FREE entry (R310). -/
theorem execSeqst_alloc {i n : Nat} (operand : SeqOp (s.rs a).toNat i 1) (free : s.freeSeq s.part s.here.die = some n) (d : SReg) :
    execSeqst d a b s = .next (((s.setSeq (seqKey s.here.die n) ((s.seqAt (seqKey s.here.die n)).alloc s.part
      ((s.rs b).toNat % 2 ^ 16))).ws d (BitVec.ofNat 64 n)).advance 4) := by
  obtain ⟨-, op⟩ := operand.fields
  simp only [execSeqst, taskOnly_task task, op, operand.good, Bool.false_eq_true, if_false, if_true, free, finish_ok]

/-- Without a FREE entry it answers all ones (R310). -/
theorem execSeqst_noneFree {i : Nat} (operand : SeqOp (s.rs a).toNat i 1) (full : s.freeSeq s.part s.here.die = none) (d : SReg) :
    execSeqst d a b s = .next ((s.ws d (BitVec.allOnes 64)).advance 4) := by
  obtain ⟨-, op⟩ := operand.fields
  simp only [execSeqst, taskOnly_task task, op, operand.good, Bool.false_eq_true, if_false, if_true, full, finish_ok]

theorem execSeqst_denied {i op : Nat} (operand : SeqOp (s.rs a).toNat i op) (other : op ≠ 1)
    (ref : seqRef i (s.rs a) s = .trap .accessDenied (s.rs a) s) (d : SReg) :
    execSeqst d a b s = .next (s.takeTrap .accessDenied (s.rs a) 4) := by
  obtain ⟨entry, same⟩ := operand.fields
  simp only [execSeqst, taskOnly_task task, same, operand.good, Bool.false_eq_true, if_false, if_neg other, entry, ref, R.bind_trap, finish_trap]

section
variable {i k : Nat} (ref : seqRef i (s.rs a) s = .ok k s) (d : SReg)
include ref

/-- READ writes the selected word, and traps on a selector that names none (R309). -/
theorem execSeqst_read (operand : SeqOp (s.rs a).toNat i 0) : execSeqst d a b s =
    .next (if 11 < (s.rs b).toNat then s.takeTrap .accessDenied (s.rs b) 4
      else (s.ws d (s.seqWord s.part (s.seqAt k) (s.rs b).toNat)).advance 4) := by
  obtain ⟨entry, op⟩ := operand.fields
  simp only [execSeqst, taskOnly_task task, op, operand.good, Bool.false_eq_true, entry, ref, R.bind_ok, zero_ne_one, if_false, if_true]
  split <;> rfl

/-- START makes a STOPPED entry WAITING (R309). -/
theorem execSeqst_start (operand : SeqOp (s.rs a).toNat i 2) : execSeqst d a b s =
    .next ((if (s.seqAt k).state = 3 then (s.setSeq k { s.seqAt k with state := 0, input := none }).ws d 0 else s.ws d 1).advance 4) := by
  obtain ⟨entry, op⟩ := operand.fields
  simp only [execSeqst, taskOnly_task task, op, operand.good, Bool.false_eq_true, entry, ref, R.bind_ok, Nat.reduceEqDiff, OfNat.ofNat_ne_zero,
    OfNat.ofNat_ne_one, if_false, if_true]
  split <;> rfl

/-- STOP makes a WAITING, READY or SKIP entry STOPPED (R309). -/
theorem execSeqst_stop (operand : SeqOp (s.rs a).toNat i 3) : execSeqst d a b s =
    .next ((if (s.seqAt k).state ≤ 2 then (s.setSeq k { s.seqAt k with state := 3 }).ws d 0 else s.ws d 1).advance 4) := by
  obtain ⟨entry, op⟩ := operand.fields
  simp only [execSeqst, taskOnly_task task, op, operand.good, Bool.false_eq_true, entry, ref, R.bind_ok, Nat.reduceEqDiff, OfNat.ofNat_ne_zero,
    OfNat.ofNat_ne_one, if_false, if_true]
  split <;> rfl

/-- FREE makes a STOPPED entry FREE, its parked signal applied first (R309). -/
theorem execSeqst_free (operand : SeqOp (s.rs a).toNat i 4) : execSeqst d a b s =
    .next ((if (s.seqAt k).state = 3 then
      (((s.seqAt k).parked.elim s s.taskSignal).setSeq k { s.seqAt k with state := 7, parked := none }).ws d 0 else s.ws d 1).advance 4) := by
  obtain ⟨entry, op⟩ := operand.fields
  simp only [execSeqst, taskOnly_task task, op, operand.good, Bool.false_eq_true, entry, ref, R.bind_ok, Nat.reduceEqDiff, OfNat.ofNat_ne_zero,
    OfNat.ofNat_ne_one, if_false]
  cases (s.seqAt k).parked <;> split <;> rfl

end
end

/-- Settles O48: each instruction by its own equation on the operand's fields. -/
theorem sequenceInstructionsComplete : Obligations.SequenceInstructionsComplete := by
  intro s d a b task x i hx hi
  subst hx
  have entry : i < 2 ^ 10 := hi ▸ Nat.mod_lt _ (by norm_num)
  have operation {op : Nat} (known : op < 5) (word : (s.rs a).toNat = i + op * 2 ^ 16) : SeqOp (s.rs a).toNat i op := ⟨entry, known, word⟩
  have reading (small : (s.rs a).toNat < 2 ^ 10) : SeqOp (s.rs a).toNat i 0 := operation (by norm_num) (by omega)
  refine ⟨fun k e ref he => ?_,
    fun ref => ⟨execTrskip_denied task (hi ▸ ref) d, fun small => execSeqst_denied task (reading small) zero_ne_one ref d⟩, fun word => ?_, fun bad => execSeqst_illegal task bad d⟩
  · subst he
    have skip : exec (.trskip d a) s = _ := execTrskip_entry task (hi ▸ ref) d
    refine ⟨fun ready => ?_, fun other => ?_, fun rows tag w noin some most low word hw small => ?_, fun small => ?_, fun word => ?_,
      fun word => ?_, fun word => ?_⟩
    · rw [skip, if_pos ready, ready]
      rfl
    · rw [skip, if_neg other]
    · subst hw
      have operand : NextWord (s.rs a).toNat i tag rows noin := ⟨entry, low, some, most, word⟩
      have next (input : noin = false) (waiting : (s.seqAt k).state = 0) : exec (.trnext d a b) s = _ :=
        execTrnext_input task operand ref d input small waiting
      refine ⟨execTrnext_busy task operand ref d small, fun waiting none zero => execTrnext_noInput task operand ref d none zero waiting,
        fun waiting input stale => by rw [next input waiting, if_pos stale], fun waiting input fresh u hu => ?_⟩
      subst hu
      rw [next input waiting, if_neg (ne_true_of_eq_false fresh)]
      exact ⟨fun pub => by rw [if_pos pub], fun pub => by rw [if_neg (ne_true_of_eq_false pub)]⟩
    · have read : exec (.seqst d a b) s = _ := execSeqst_read task ref d (reading small)
      exact ⟨fun known => by rw [read, if_neg (Nat.not_lt.2 known)], fun unknown => by rw [read, if_pos unknown]⟩
    · exact execSeqst_start task ref d (operation (by norm_num) word)
    · exact execSeqst_stop task ref d (operation (by norm_num) word)
    · have free : exec (.seqst d a b) s = _ := execSeqst_free task ref d (operation (by norm_num) word)
      exact ⟨fun other => by rw [free, if_neg other], fun stopped u hu => by rw [free, if_pos stopped, hu]⟩
  · have operand : SeqOp (s.rs a).toNat i 1 := operation (by norm_num) (by omega)
    refine ⟨fun full => execSeqst_noneFree task operand full d, fun n k found hk => ?_⟩
    subst hk
    exact execSeqst_alloc task operand found d

end Sys2Proof.Machine
end

section
/-! PROOFS. TKCOMMIT, TKPUT, COLL and the watchpoint instructions. -/

namespace Sys2Proof.Machine

/-! ### References, operands and commands -/

/-- A reference that passes does so whatever value its trap would report. -/
theorem seqRef_value {s : State} {i k : Nat} {x : Word} {t : State} (ref : seqRef i x s = .ok k t) (y : Word) : seqRef i y s = .ok k t := by
  unfold seqRef at ref ⊢
  dsimp only at ref ⊢
  split at ref
  · rwa [if_pos ‹_›]
  · exact nomatch ref

/-- The operand of a watchpoint instruction: entry and slot. -/
theorem watchSelect_good {s : State} {x : Word} (small : x.toNat < 2 ^ 20) (reserved : bitsOf x.toNat 15 10 = 0) (slot : bitsOf x.toNat 19 16 ≤ 9) :
    watchSelect x s = .ok (x.toNat % 2 ^ 10, bitsOf x.toNat 19 16) s := by
  simp only [watchSelect, Nat.div_eq_of_lt small, reserved, Nat.not_lt.2 slot, ne_eq, not_true_eq_false, decide_false, Bool.or_self,
    Bool.false_eq_true, if_false]

/-- Commands written for a context are those that it has. -/
theorem State.collsOf_setColls (s : State) (key : Nat) {l : List CollCmd} (some : l ≠ []) : (s.setColls key l).collsOf key = l := by
  simp only [State.collsOf, State.setColls, if_neg some, SMap.getD_insert_same]

/-- The command that COLL issues for a card. -/
def collCommand (s : State) (c : List Byte) (wait sig : Option Nat) : CollCmd where
  card := c
  region := s.hart.task.region
  part := s.hart.task.part
  task := s.hart.task.ident
  stay := s.hart.task.stay
  taken := false
  wait := wait.map fun k => (k, field c 22 4)
  signal := sig.map fun k => ⟨k, field c 28 4⟩
  contributed := false
  result := none

section
variable {s : State} (task : s.isFw = false)
include task

/-! ### TKCOMMIT and TKPUT (R316, R317) -/

/-- TKCOMMIT on a good record commits its tokens and writes the status word. -/
theorem execTkcommit_commits {b : SReg} {u v x : State} {head r : List Byte} {sig : Option Nat} {k : Nat} {st : Word}
    (room : s.myCore.seqTraps.length < 16) (header : s.readRecord (s.rs b).toNat 20 16 = .ok head u) (d : SReg)
    (record : transitRecord (tvalWord (.tkcommit d b)) (s.rs b).toNat (16 + 4 * field head 2 1) 16
      (fun r => commitFields r ++ tokenFields (field head 2 1) r) u = .ok r v)
    (counter : commitCounter r v = .ok sig v) (ref : seqRef (field r 0 2) (BitVec.ofNat 64 (field r 0 2)) v = .ok k v)
    (commit : v.commit k (field r 0 2) ((List.range (field head 2 1)).map fun i => field r (16 + 4 * i) 4)
      (sig.map fun c => ⟨c, field r 8 4⟩) = (st, x)) :
    execTkcommit d b s = .next ((x.effect.ws d st).advance 4) := by
  simp only [execTkcommit, taskOnly_task task, if_neg (Nat.not_le.2 room), header, R.bind_ok, record, counter, ref, commit, finish_ok]

/-- TKCOMMIT waits for room in the sequence-trap queue. -/
theorem execTkcommit_full (full : 16 ≤ s.myCore.seqTraps.length) (d b : SReg) : execTkcommit d b s = .next s.block := by
  simp only [execTkcommit, taskOnly_task task, if_pos full, finish_wait]

/-- TKPUT of a token on an entry of the partition leaves its record in the store queue, or waits for room in the mailbox. -/
theorem execTkput_entry {a b : SReg} {k : Nat} (small : (s.rs a).toNat < 2 ^ 10) (token : (s.rs b).toNat % 2 ^ 32 ≠ noToken)
    (ref : seqRef (s.rs a).toNat (s.rs a) s = .ok k s) : execTkput a b s =
    .next (if 4096 ≤ s.shared.mailbox.length + s.tokensDue then s.block
      else (s.enqueueAct 2 (.token ⟨s.part, (s.rs a).toNat + s.here.die * 2 ^ 10, (s.rs b).toNat % 2 ^ 32, 0⟩)).effect.advance 4) := by
  simp only [execTkput, taskOnly_task task, Nat.div_eq_of_lt small, ne_eq, not_true_eq_false, if_false, if_neg token, ref, R.bind_ok]
  split <;> rfl

/-! ### COLL (R319, R320) -/

/-- COLL with a card that passes issues its command to the context's engine. -/
theorem execColl_issues {b : SReg} {u : State} {c : List Byte} {wait sig : Option Nat}
    (record : transitRecord (tvalWord (.coll b)) (s.rs b).toNat 64 64 collFields s = .ok c u)
    (waits : cardCounter (clFlag c 0) (field c 20 2) u = .ok wait u) (signals : cardCounter (clFlag c 1) (field c 26 2) u = .ok sig u)
    (group : u.allocated u.part (6144 + clGroup c) = true) (reply : collReply c u = .ok () u)
    (source : collArray (field c 8 4) (clCount c * clElem c) (clElem c) u = .ok () u)
    (target : clFlag c 2 = true ∨ collArray (field c 12 4) (clCount c * clElem c) (clElem c) u = .ok () u) :
    execColl b s = .next (((u.setColls u.here.key (u.collsOf u.here.key ++ [collCommand u c wait sig])).enqueueAct 0 .coll).advance 4) := by
  have written : (if clFlag c 2 = true then R.ok () u else collArray (field c 12 4) (clCount c * clElem c) (clElem c) u) = .ok () u := by
    split
    · rfl
    · exact target.resolve_left ‹_›
  simp only [execColl, taskOnly_task task, record, R.bind_ok, waits, signals, State.needAllocated, group, if_true, reply, source, written]
  rfl

/-! ### Watchpoints (R374) -/

section
variable {a b : SReg} (small : (s.rs a).toNat < 2 ^ 20) (reserved : bitsOf (s.rs a).toNat 15 10 = 0) (slot : bitsOf (s.rs a).toNat 19 16 ≤ 9)
include small reserved slot

/-- WPSET arms a slot of an entry, unless the entry is FREE or TRAPPED. -/
theorem execWpset_entry {u : State} {r : List Byte} {k : Nat} (d : SReg)
    (record : transitRecord (tvalWord (.wpset d a b)) (s.rs b).toNat 80 16 (watchFields (bitsOf (s.rs a).toNat 19 16)) s = .ok r u)
    (ref : seqRef ((s.rs a).toNat % 2 ^ 10) (s.rs a) u = .ok k u) : execWpset d a b s =
    .next ((if (u.seqAt k).state = 7 ∨ (u.seqAt k).state = 4 then u.ws d 1
      else (u.setSeq k ((u.seqAt k).modWatch (bitsOf (s.rs a).toNat 19 16) fun _ => watchOf r)).ws d 0).advance 4) := by
  simp only [execWpset, taskOnly_task task, watchSelect_good small reserved slot, R.bind_ok, record, seqRef_value ref,
    Bool.or_eq_true, decide_eq_true_eq]
  split <;> rfl

section
variable {k : Nat} (ref : seqRef ((s.rs a).toNat % 2 ^ 10) (s.rs a) s = .ok k s)
include ref

/-- WPCLR disarms a slot of an entry, unless the entry is FREE or TRAPPED. -/
theorem execWpclr_entry (d : SReg) : execWpclr d a s =
    .next ((if (s.seqAt k).state = 7 ∨ (s.seqAt k).state = 4 then s.ws d 1
      else (s.setSeq k ((s.seqAt k).modWatch (bitsOf (s.rs a).toNat 19 16) fun w => { w with armed := false })).ws d 0).advance 4) := by
  simp only [execWpclr, taskOnly_task task, watchSelect_good small reserved slot, R.bind_ok, ref, Bool.or_eq_true, decide_eq_true_eq]
  split <;> rfl

/-- WPRD writes the selected word of a slot. -/
theorem execWprd_entry (known : (s.rs b).toNat ≤ 17) (d : SReg) : execWprd d a b s =
    .next ((s.ws d (BitVec.ofNat 64 (((s.seqAt k).slot (bitsOf (s.rs a).toNat 19 16)).word (bitsOf (s.rs a).toNat 19 16)
      (s.rs b).toNat))).advance 4) := by
  simp only [execWprd, taskOnly_task task, watchSelect_good small reserved slot, R.bind_ok, ref, if_neg (Nat.not_lt.2 known), finish_ok]

end
end
end

/-- Settles O50: each instruction by its own equation past its checks. -/
theorem generationInstructionsComplete : Obligations.GenerationInstructionsComplete := by
  refine ⟨fun s u v d b head r sig k task room header n hn record counter ref st x commit => ?_,
    fun s d b task full => execTkcommit_full task full d b, fun s a b k task small token ref m hm => ?_,
    fun s u b c wait sig task record waits signals group reply source target => ?_,
    fun s d a b k task small reserved slot => ⟨?_, fun ref => ?_⟩⟩
  · subst hn
    exact execTkcommit_commits task room header d record counter ref commit
  · subst hm
    have put : exec (.tkput a b) s = _ := execTkput_entry task small token ref
    rw [put]
    exact ⟨fun room => by rw [if_neg (Nat.not_le.2 room)]; rfl, fun full => by rw [if_pos full], fun u c => rfl⟩
  · exact ⟨collCommand u c wait sig, _, execColl_issues task record waits signals group reply source target, rfl,
      State.collsOf_setColls _ _ (List.append_ne_nil_of_right_ne_nil _ (List.cons_ne_nil _ _)), rfl, rfl, rfl, rfl, rfl, rfl⟩
  · intro u r ref record
    have set : exec (.wpset d a b) s = _ := execWpset_entry task small reserved slot d record ref
    rw [set]
    exact ⟨fun idle => by rw [if_pos idle], fun used armed => by rw [if_neg (not_or.2 ⟨used, armed⟩)]⟩
  · have clear : exec (.wpclr d a) s = _ := execWpclr_entry task small reserved slot ref d
    rw [clear]
    exact ⟨fun idle => by rw [if_pos idle], fun used armed => by rw [if_neg (not_or.2 ⟨used, armed⟩)],
      fun known => execWprd_entry task small reserved slot ref known d⟩

end Sys2Proof.Machine
end

section
/-! PROOFS. The steps of the fabric: flits and time, silent links, notices, redraws, requests and admissions. -/

namespace Sys2Proof.Machine

/-! ### Time flits and heartbeats (R422, R432, R435, R446) -/

theorem execTimeFlitSend_due {s : State} (due : s.fabric.timeSent + 2 ^ 16 ≤ s.polestar) (awake : s.plat.ps < 2) {u : State}
    (sent : u = s.fabric.livePorts.foldl (fun s p => s.sendFlit p (leBytes 8 s.polestar ++ s.freeBytes 56)) s) :
    execTimeFlitSend s = .next { u with fabric := { u.fabric with timeSent := u.polestar } } := by
  subst sent
  simp only [execTimeFlitSend, Nat.not_lt.2 due, Nat.not_le.2 awake, decide_false, Bool.or_self, Bool.false_eq_true, if_false]

section
variable {s : State} {port : Nat} (live : s.fabric.isLive port = true) (time delay : Nat)
include live

/-- A time flit of another port than the one that time is taken from is only heard. -/
theorem execTimeFlitReceive_other (other : (s.hear port).fabric.timePort ≠ some port) :
    execTimeFlitReceive port time delay s = .next (s.hear port) := by
  simp only [execTimeFlitReceive, live, Bool.not_true, Bool.false_eq_true, if_false, if_pos other]

/-- A time flit sets the time of a package that is not aligned, and corrects the offset of one that is. -/
theorem execTimeFlitReceive_master (master : (s.hear port).fabric.timePort = some port) :
    execTimeFlitReceive port time delay s = .next (if (s.hear port).fabric.aligned = true then
        { s.hear port with fabric := { (s.hear port).fabric with
          offset := ((time + delay : Nat) : Int) - ((s.hear port).polestar : Int) } }
      else (s.hear port).setTime (time + delay)) := by
  simp only [execTimeFlitReceive, live, Bool.not_true, Bool.false_eq_true, if_false, if_neg (not_not.2 master)]
  split <;> rfl

end

theorem State.setTime_running {s : State} (running : s.booting = false) (time : Nat) : s.setTime time =
    { s with fabric := { s.fabric with offset := (time : Int) - s.polestar, aligned := true } } := if_neg (ne_true_of_eq_false running)

/-- A booting package takes the time in one step. -/
theorem State.setTime_booting {s : State} (booting : s.booting = true) (time : Nat) :
    (s.setTime time).polestar = time ∧ (s.setTime time).fabric.offset = 0 ∧ (s.setTime time).fabric.aligned = true := by
  rw [State.setTime, if_pos booting]
  exact ⟨rfl, rfl, rfl⟩

/-- Taking the time, or not, changes neither list of packages. -/
theorem State.setTime_packages (s : State) (taken : Prop) [Decidable taken] (time : Nat) :
    (if taken then s.setTime time else s).fabric.eclipsed = s.fabric.eclipsed ∧
      (if taken then s.setTime time else s).fabric.admitted = s.fabric.admitted := by
  unfold State.setTime
  split
  · split <;> exact ⟨rfl, rfl⟩
  · exact ⟨rfl, rfl⟩

section
variable {s : State} {port : Nat} {p : Port} (known : s.fabric.ports.find? port = some p) (live : p.live = true)
include known live

theorem execHeartbeat_due (empty : p.queue = []) (quiet : p.sent + 1024 ≤ s.polestar) (awake : s.plat.ps < 2) :
    execHeartbeat port s = .next (s.sendFlit port (s.freeBytes 64)) := by
  simp only [execHeartbeat, known, live, empty, quiet, awake, decide_true, Bool.and_self, if_true]

/-! ### Losses (R435) -/

/-- A port that has been silent is closed, and its loss entered or, if it is not declared yet, declared. -/
theorem execFabricLinkDead_silent (silent : p.heard + 17500 ≤ s.polestar) {u : State}
    (closed : u = { s with fabric := s.fabric.modFabricPort port fun p => { p with live := false, queue := [] } }) :
    execFabricLinkDead port s = .next (if u.fabric.deadLinks.contains (u.fabric.self, p.peer) = true then u.enterLoss p.peer u.fabric.self 0
      else u.declareLoss port p.peer
        (if ({ u.fabric with deadLinks := u.fabric.deadLinks ++ [(p.peer, u.fabric.self)] } : Fabric).silent p.peer then 1 else 0)) := by
  subst closed
  simp only [execFabricLinkDead, known, live, Nat.not_lt.2 silent, Bool.not_true, decide_false, Bool.or_self, Bool.false_eq_true, if_false]
  split <;> rfl

end

section
variable {s : State} {port : Nat} (live : s.fabric.isLive port = true) (silent reporter rport kind stamp nseq : Nat)
include live

theorem execEclipseNotice_seen (seen : (s.hear port).fabric.seen.contains (reporter, nseq) = true) :
    execEclipseNotice port silent reporter rport kind stamp nseq s = .next (s.hear port) := by
  simp only [execEclipseNotice, live, Bool.not_true, Bool.false_eq_true, if_false, if_pos seen]

/-- A notice not seen before is remembered and its loss entered. -/
theorem execEclipseNotice_new (unseen : (s.hear port).fabric.seen.contains (reporter, nseq) = false) : ∃ t : State,
    execEclipseNotice port silent reporter rport kind stamp nseq s = .next (t.enterLoss silent reporter kind) ∧
      (reporter, nseq) ∈ t.fabric.seen := by
  simp only [execEclipseNotice, live, Bool.not_true, Bool.false_eq_true, if_false, unseen]
  exact ⟨_, rfl, List.mem_append_right _ List.mem_cons_self⟩

end

/-! ### Redraws and replays (R430, R432) -/

theorem execRouteRedraw_due {s : State} (due : s.fabric.redrawn + 2 ^ 24 ≤ s.polestar) (draws : List Nat) : ∃ t : State,
    execRouteRedraw draws s = .next t ∧ t.fabric.draws = (draws.take 4).map (· % 32) ∧ t.fabric.redrawn = s.polestar := by
  rw [execRouteRedraw, if_neg (Nat.not_lt.2 due)]
  exact ⟨_, rfl, rfl, rfl⟩

theorem execLinkLevelReplay_live {s : State} {port : Nat} (live : s.fabric.isLive port = true) :
    execLinkLevelReplay port s = .next { s with fabric := { s.fabric with replays := s.fabric.replays + 1 } } := if_pos live

/-! ### Requests and responses (R434–R436) -/

section
variable {s : State} (source seqno loc : Nat) (q : FabricReq)

theorem execFabricRequest_dead (dead : s.fabric.isLive q.port = false) : execFabricRequest source seqno loc q s = .next s := by
  simp only [execFabricRequest, dead, Bool.not_false, if_true]

section
variable (live : s.fabric.isLive q.port = true)
include live

/-- A request that comes again is answered as before. -/
theorem execFabricRequest_again {x : Nat × Nat × List Byte × List Bool}
    (done : ((s.hear q.port).fabric.performed.find? fun x => x.1 = source && x.2.1 = seqno) = some x) :
    execFabricRequest source seqno loc q s = .next ((s.hear q.port).respond source x.2.2.1 x.2.2.2) := by
  simp only [execFabricRequest, live, Bool.not_true, Bool.false_eq_true, if_false, done]

/-- A request that comes first is performed, remembered with its answer and answered. -/
theorem execFabricRequest_first {h u : State} {bs : List Byte} {tags : List Bool} (heard : h = s.hear q.port)
    (new : (h.fabric.performed.find? fun x => x.1 = source && x.2.1 = seqno) = none) (done : u = h.performRequest (loc % 2 ^ 33) q.op)
    (data : bs = h.answer (loc % 2 ^ 33) q.op) (marks : tags = h.answerTags (loc % 2 ^ 33) q.op) :
    execFabricRequest source seqno loc q s = .next (State.respond { u with fabric := { u.fabric with
      performed := u.fabric.performed ++ [(source, seqno, bs, tags)] } } source bs tags) := by
  subst heard done data marks
  simp only [execFabricRequest, live, Bool.not_true, Bool.false_eq_true, if_false, new]

end
end

theorem execFabricResponse_dead {s : State} {a : FabricAck} (dead : s.fabric.isLive a.port = false) : execFabricResponse a s = .next s := by
  simp only [execFabricResponse, dead, Bool.not_false, if_true]

theorem execFabricResponse_live {s : State} {a : FabricAck} (live : s.fabric.isLive a.port = true) : execFabricResponse a s =
    .next { s.hear a.port with fabric := { (s.hear a.port).fabric with
      unacked := (s.hear a.port).fabric.unacked.filter fun q => q.num ≠ a.request } } := by
  simp only [execFabricResponse, live, Bool.not_true, Bool.false_eq_true, if_false]

/-! ### Admission (R422, R435) -/

/-- An admitted package is listed and no longer eclipsed, and tables and requests follow. -/
theorem execFabricAdmission_admits (s : State) {package : Nat} (known : package < 993) (port master : Nat) : ∃ t : State,
    execFabricAdmission package port master s = .next t.rebuildRoutes.resend ∧ package ∉ t.fabric.eclipsed ∧ package ∈ t.fabric.admitted := by
  rw [execFabricAdmission, if_neg (Nat.not_le.2 known)]
  dsimp only
  refine ⟨_, rfl, ?_⟩
  have gone : package ∉ s.fabric.eclipsed.filter (· ≠ package) := by simp
  have listed : package ∈ setInsert s.fabric.admitted package := (mem_setInsert _ _ _).2 (.inl rfl)
  rw [(State.setTime_packages _ _ master).1, (State.setTime_packages _ _ master).2]
  exact ⟨gone, listed⟩

end Sys2Proof.Machine
end

section
/-! PROOFS. The steps of the host ports: mailbox commands, token frames and links. -/

namespace Sys2Proof.Machine

/-! ### Mailbox commands (R438, R440–R443) -/

section
variable {s : State} {port part : Nat}

theorem execGroupset_defines {group : Nat} {members : List Nat} (owns : s.owns port part = true) (idle : s.groupBusy group = false)
    (known : group < 4096) (least : 2 ≤ members.length) (most : members.length ≤ 256) (words : members.all memberOk = true)
    (inside : (members.all fun w => s.isMember part (w % 2 ^ 10)) = true)
    (free : ∀ g, s.shared.groups.find? group = some g → g.part = part ∧ g.dead = false) : execGroupset port part group members s =
    .next (State.replyTo (State.setAllocated { s with shared := { s.shared with
      groups := s.shared.groups.insert group ⟨part, members, false, []⟩ } } part (6144 + group) true) port 0 0) := by
  have valid : (decide (group < 4096) && decide (2 ≤ members.length) && decide (members.length ≤ 256) && members.all memberOk) = true := by
    simp only [known, least, most, words, decide_true, Bool.and_self]
  cases found : s.shared.groups.find? group with
  | none =>
    simp only [execGroupset, valid, owns, found, SMap.getD, idle, inside, mailbox, Bool.not_true, Bool.or_self, Bool.false_eq_true, if_false]
    rfl
  | some g =>
    obtain ⟨mine, alive⟩ := free g found
    simp only [execGroupset, valid, owns, found, SMap.getD, Option.getD_some, mine, alive, idle, inside, mailbox, ne_eq, not_true_eq_false,
      decide_false, Bool.not_true, Bool.or_self, Bool.false_eq_true, if_false]

theorem execGroupclr_frees {group : Nat} {g : Group} (owns : s.owns port part = true) (idle : s.groupBusy group = false)
    (known : group < 4096) (found : s.shared.groups.find? group = some g) (mine : g.part = part) : execGroupclr port part group s =
    .next (State.replyTo (State.setAllocated { s with shared := { s.shared with groups := s.shared.groups.erase group } }
      part (6144 + group) false) port 0 0) := by
  simp only [execGroupclr, found, owns, mine, idle, known, mailbox, decide_true, Bool.not_true, ne_eq, not_true_eq_false, decide_false,
    Bool.or_self, Bool.false_eq_true, if_false]

theorem execOwnerset_gives {parts : List Nat} (known : port < 2) (up : s.portUp port = true) (takes : ∀ p ∈ parts,
      (s.partOf p).active = true ∧ ((s.partOf p).orphaned = true ∨ field (s.partOf p).desc 2 1 = port)) :
    execOwnerset port parts s = .next ((parts.foldl (fun s p => s.giveTo port p) s).replyTo port 0 0) := by
  have all : (parts.all fun p => (s.partOf p).active && ((s.partOf p).orphaned || field (s.partOf p).desc 2 1 = port)) = true := by
    simpa only [List.all_eq_true, Bool.and_eq_true, Bool.or_eq_true, decide_eq_true_eq] using takes
  simp only [execOwnerset, up, all, known, mailbox, decide_true, Bool.not_true, Bool.or_self, Bool.false_eq_true, if_false]

theorem execTsring_gives {base count tailAddr : Nat} (owns : s.owns port part = true) (page : base % 4096 = 0) (low : base < 2 ^ 48)
    (power : powerIn count 2 4096 = true) (word : tailAddr % 8 = 0) (near : tailAddr < 2 ^ 48) :
    execTsring port part base count tailAddr s = .next ((s.setStream part { s.stream part with
      port := port, base := base, count := count, tailAddr := tailAddr, head := (s.stream part).fseq }).replyTo port 0 0) := by
  simp only [execTsring, owns, page, low, power, word, near, mailbox, decide_true, Bool.not_true, Bool.and_self, Bool.false_eq_true, if_false]

theorem execReadRoutingEntry_reads {index : Nat} (known : index < 993) (up : s.portUp port = true) :
    execReadRoutingEntry port index s = .next (s.replyTo port 0 (s.fabric.routes.getD index (3 * 2 ^ 5))) := by
  simp only [execReadRoutingEntry, if_neg (Nat.not_le.2 known), up, Bool.not_true, Bool.false_eq_true, if_false]

/-! ### Token frames (R442, R443) -/

theorem execTokenFrameClose_orphaned (orphan : (s.partOf part).orphaned = true) : execTokenFrameClose part s = .next (s.holdTokens part) :=
  if_pos orphan

/-- A frame that is due is posted while the ring has room and its port is up. -/
theorem execTokenFrameClose_posts (owned : (s.partOf part).orphaned = false) (ring : (s.stream part).count ≠ 0)
    (due : s.frameDue part = true) {u : State} {t : TokStream} (held : u = s.holdTokens part) (stream : t = u.stream part)
    (up : u.portUp t.port = true) (room : t.fseq < t.head + t.count) :
    execTokenFrameClose part s = .next (u.postFrame part t (t.holding.take 254)) := by
  subst held stream
  simp only [execTokenFrameClose, owned, ring, due, up, Nat.not_le.2 room, decide_false, Bool.not_true, Bool.or_self, Bool.false_eq_true,
    if_false]

theorem execTsHeadWrite_frees {head : Nat} (later : (s.stream part).head ≤ head) (posted : head ≤ (s.stream part).fseq) :
    execTsHeadWrite part head s = .next (s.setStream part { s.stream part with head := head }) := by
  simp only [execTsHeadWrite, later, posted, decide_true, Bool.and_self, if_true]

/-! ### Links (R440, R442) -/

theorem execPcieLinkUp_ups (known : port < 2) : execPcieLinkUp port s = .next (s.modPort port fun p => { p with up := true }) :=
  if_neg (Nat.not_le.2 known)

/-- A port reads as it was written. -/
theorem State.portAt_modPort (s : State) (port : Nat) (f : HostPort → HostPort) : (s.modPort port f).portAt port = f (s.portAt port) :=
  SMap.getD_insert_same ..

/-- A fold of updates that leave the ports leaves them. -/
theorem foldl_ports {α : Type} {f : State → α → State} (h : ∀ s a, (f s a).ports = s.ports) (l : List α) :
    ∀ s : State, (l.foldl f s).ports = s.ports := by
  induction l with
  | nil => exact fun s => rfl
  | cons a l ih => exact fun s => (ih _).trans (h s a)

/-- A link that goes down takes its port down and tells the hosts. -/
theorem execPcieLinkDown_downs (s : State) (known : port < 2) :
    ∃ t : State, execPcieLinkDown port s = .next (t.notify (.portLost port)) ∧ (t.portAt port).up = false := by
  rw [execPcieLinkDown, if_neg (Nat.not_le.2 known)]
  refine ⟨_, rfl, ?_⟩
  rw [State.portAt, foldl_ports ?held, foldl_ports ?orphaned]
  · exact congrArg HostPort.up (State.portAt_modPort ..)
  case held => exact fun _ _ => rfl
  case orphaned => exact fun _ _ => rfl

end

end Sys2Proof.Machine
end

section
/-! PROOFS. Scrubbing, power states, droop, freeze, reset and attestation. -/

namespace Sys2Proof.Machine

/-! ### Scrubbing (R444) -/

/-- The sweep logs an uncorrectable word, and remembers when it read it. -/
theorem execPatrolScrub_bad {s : State} {w : Nat} (bad : w ∈ s.bad) : ∃ m,
    execPatrolScrub w s = .next (State.logError { s with plat := { s.plat with scrubbed := m } } .scrub 0 w) ∧ m.find? w = some s.polestar := by
  simp only [execPatrolScrub, List.contains_iff_mem.2 bad, Bool.not_true, Bool.false_eq_true, if_false]
  exact ⟨_, rfl, SMap.find_insert_same ..⟩

theorem execPatrolScrub_good {s : State} {w : Nat} (good : w ∉ s.bad) : execPatrolScrub w s = .next s := by
  have clean : s.bad.contains w = false := Bool.eq_false_iff.2 fun bad => good (List.contains_iff_mem.1 bad)
  simp only [execPatrolScrub, clean, Bool.not_false, if_true]

/-! ### Power (R446, R447) -/

/-- A good power request changes its port; it wakes the package or changes its state when the hosts ask for PS0 or PS1. -/
theorem execPowerRequest_good (s : State) {port st freq : Nat} (known : port < 2) (state : st < 4) (range : st = 1 → 20 ≤ freq ∧ freq ≤ 70)
    {u : State} (asked : u = s.modPort port fun p => { p with power := st, freq := if st = 1 then freq else p.freq }) :
    execPowerRequest port st freq s = .next (if 2 ≤ u.powerTarget then u else if 2 ≤ u.plat.ps then u.startWake
      else { u with plat := { u.plat with ps := u.powerTarget, freq := u.powerFreq } }) := by
  subst asked
  have good : (decide (2 ≤ port) || decide (4 ≤ st) || (decide (st = 1) && !(decide (20 ≤ freq) && decide (freq ≤ 70)))) = false := by
    by_cases slow : st = 1
    · obtain ⟨least, most⟩ := range slow
      simp only [Nat.not_le.2 known, Nat.not_le.2 state, least, most, decide_false, decide_true, Bool.and_self, Bool.not_true, Bool.and_false,
        Bool.or_self]
    · simp only [Nat.not_le.2 known, Nat.not_le.2 state, slow, decide_false, Bool.false_and, Bool.or_self]
  simp only [execPowerRequest, good, Bool.false_eq_true, if_false, apply_ite Host.Outcome.next]

/-- A package with no READY task slot and no engine at work enters the state that the hosts ask for. -/
theorem execPowerStateEntry_enters {s : State} (asked : 2 ≤ s.powerTarget) (awake : s.plat.ps < 2) (idle : s.enginesIdle = true)
    (waiting : ∀ c ∈ s.contexts, c.slot < 4 → (s.hartAt c).status ≠ .ready) : execPowerStateEntry s =
    .next { s with plat := { s.plat with ps := s.powerTarget, wakeAt := none, sramLost := s.powerTarget == 3 } } := by
  have none : (s.contexts.any fun c => decide (c.slot < 4) && decide ((s.hartAt c).status = .ready)) = false := by
    simpa only [List.any_eq_false, Bool.and_eq_true, decide_eq_true_eq, not_and] using waiting
  simp only [execPowerStateEntry, Nat.not_lt.2 asked, Nat.not_le.2 awake, none, idle, decide_false, Bool.not_true, Bool.or_self,
    Bool.false_eq_true, if_false]

/-- A wake that is over ends PS3 by bring-up and PS2 by waking the queues. -/
theorem execPowerStateExit_due {s : State} {t : Nat} (wake : s.plat.wakeAt = some t) (due : t ≤ s.polestar) (asleep : 2 ≤ s.plat.ps) :
    execPowerStateExit s = .next (if s.plat.ps = 3 then s.bringUp s.keptLatches 3
      else (s.disp.hwqs.map (·.1)).foldl State.wakeHwq { s with plat := { s.plat with ps := 0, freq := 70, wakeAt := none } }) := by
  simp only [execPowerStateExit, wake, Nat.not_lt.2 due, Nat.not_lt.2 asleep, decide_false, Bool.or_self, Bool.false_eq_true, if_false]
  split <;> rfl

/-- A sag lets time pass and the die's arithmetic clock fall behind by no more. -/
theorem execDroopStretch_lags (s : State) (die ticks : Nat) : ∃ t : State, execDroopStretch die ticks s = .next t ∧
    t.polestar = s.polestar + ticks ∧ (t.dieAt die).stretch = (s.dieAt die).stretch + 1 ∧ (t.dieAt die).lag ≤ (s.dieAt die).lag + ticks := by
  refine ⟨_, rfl, rfl, ?_⟩
  rw [State.dieAt_modDie]
  exact ⟨rfl, Nat.add_le_add_left (Nat.le_of_lt_succ (Nat.mod_lt _ (Nat.succ_pos ticks))) _⟩

/-! ### Freeze and reset (R448, R449) -/

theorem execFreezeReadout_next {s : State} (frozen : s.plat.frozen = true) (left : s.plat.readout < 3) : execFreezeReadout s =
    .next (State.notify { s with plat := { s.plat with readout := s.plat.readout + 1 } } (.readout 0 (s.plat.readout + 1))) := by
  simp only [execFreezeReadout, frozen, Nat.not_le.2 left, Bool.not_true, decide_false, Bool.or_self, Bool.false_eq_true, if_false]

theorem execReset_secure {s : State} (secure : s.plat.secure = true) : execReset s = .next (s.bringUp [] 0) := if_pos secure

/-- A failed check halts the package and is reported to both hosts. -/
theorem execReset_refused {s : State} (refused : s.plat.secure = false) : ∃ t : State, execReset s = .next t ∧ t.plat.halted = true ∧
    t.plat.booted = false ∧ (t.portAt 0).bootStatus = 2 ∧ (t.portAt 1).bootStatus = 2 := by
  refine ⟨_, if_neg (ne_true_of_eq_false refused), rfl, rfl, ?_, ?_⟩
  · exact congrArg HostPort.bootStatus ((SMap.getD_insert_other _ _ _ one_ne_zero).trans (SMap.getD_insert_same ..))
  · exact congrArg HostPort.bootStatus (SMap.getD_insert_same ..)

/-- Settles O60, by the equation of each step and each command under its conditions. -/
theorem fabricHostAndPowerStepsDoTheirWork : Obligations.FabricHostAndPowerStepsDoTheirWork := by
  refine ⟨fun s due awake => ⟨_, rfl, execTimeFlitSend_due due awake rfl⟩, fun s port time delay live u hu => ?timeReceived,
    fun s port p known live => ⟨execHeartbeat_due known live, fun silent u hu => ?silent⟩,
    fun s port silent reporter rport kind stamp nseq live => ⟨execEclipseNotice_seen live silent reporter rport kind stamp nseq,
      execEclipseNotice_new live silent reporter rport kind stamp nseq⟩,
    fun s draws due => execRouteRedraw_due due draws, fun s source seqno loc q => ⟨execFabricRequest_dead source seqno loc q,
      fun live h hh => ⟨fun x done => ?requested,
        fun new u bs tags hu hbs htags => execFabricRequest_first source seqno loc q live hh new hu hbs htags⟩⟩,
    fun s a => ⟨execFabricResponse_dead, fun live h hh => ?answered⟩,
    fun s package port master known => execFabricAdmission_admits s known port master, fun s port live => execLinkLevelReplay_live live,
    fun s port part group owns idle known => ⟨fun members least most words inside free =>
      execGroupset_defines owns idle known least most words inside free, fun g found mine => execGroupclr_frees owns idle known found mine⟩,
    fun s port parts known up takes => execOwnerset_gives known up takes,
    fun s port part base count tailAddr owns page low power word near => execTsring_gives owns page low power word near,
    fun s port index known up => execReadRoutingEntry_reads known up, fun s part orphan => execTokenFrameClose_orphaned orphan,
    fun s part owned ring due u t hu ht up room => execTokenFrameClose_posts owned ring due hu ht up room,
    fun s part head later posted => execTsHeadWrite_frees later posted,
    fun s port known => ⟨execPcieLinkUp_ups known, execPcieLinkDown_downs s known⟩,
    fun s w => ⟨execPatrolScrub_bad, execPatrolScrub_good⟩, fun s port st freq known state range u hu => ?requestedPower,
    fun s asked awake idle waiting => execPowerStateEntry_enters asked awake idle waiting, fun s t wake due => ?woken,
    fun s die ticks => execDroopStretch_lags s die ticks,
    fun s => ⟨rfl, execFreezeReadout_next, execReset_secure, execReset_refused, fun port nonce => rfl⟩⟩
  case timeReceived =>
    subst hu
    refine ⟨execTimeFlitReceive_other live time delay, fun master aligned => ?_, fun master free => ?_,
      fun booting => State.setTime_booting booting time, fun running => State.setTime_running running time⟩
    · exact (execTimeFlitReceive_master live time delay master).trans (congrArg _ (if_pos aligned))
    · exact (execTimeFlitReceive_master live time delay master).trans (congrArg _ (if_neg (ne_true_of_eq_false free)))
  case silent =>
    have step : exec (.fabricLinkDead port) s = _ := execFabricLinkDead_silent known live silent hu
    rw [step]
    refine ⟨fun declared => by rw [if_pos declared], fun new => ⟨_, ?_, by rw [if_neg (ne_true_of_eq_false new)]⟩⟩
    split <;> decide
  case requested =>
    subst hh
    exact execFabricRequest_again source seqno loc q live done
  case answered =>
    subst hh
    exact execFabricResponse_live live
  case requestedPower =>
    have step : exec (.powerRequest port st freq) s = _ := execPowerRequest_good s known state range hu
    rw [step]
    refine ⟨fun low => by rw [if_pos low], fun high asleep => ?_, fun high awake => ?_⟩
    · rw [if_neg (Nat.not_le.2 high), if_pos asleep]
    · rw [if_neg (Nat.not_le.2 high), if_neg (Nat.not_le.2 awake)]
  case woken =>
    refine ⟨fun deep => ?_, fun light => ?_⟩
    · exact (execPowerStateExit_due wake due (by omega)).trans (congrArg _ (if_pos deep))
    · exact (execPowerStateExit_due wake due (by omega)).trans (congrArg _ (if_neg (by omega)))

end Sys2Proof.Machine
end
